-- ==== Sys2Proof/Word.lean ====
section
/-! DEFINITION. The plain data types that every other file uses: a byte, and a table that is a list of keyed values.
Bits of registers are held as natural numbers below the width's power of two; the operations that cut, join and
narrow them are in Machine/Bits.lean. -/
namespace Sys2Proof

/-- One byte of a memory. -/
abbrev Byte := BitVec 8

/-- A table: keys rising, a key that is not listed reads as the table's default (given at the read). -/
abbrev Tbl (α : Type) := List (Nat × α)

end Sys2Proof
end

