-- ==== Sys2Proof/Syntax.lean ====
section
/-! DEFINITION. The commands and events of the part: one constructor of `Instr` for each row of the opcode table, and
the operand forms that several of them share. A field's docstring names its width and the rule that lays it out. -/
namespace Sys2Proof

/-- Where a dictionary request comes from (R676, R677): the board's I3C/MCTP endpoint, the mailbox of a host site, or
a sender on the management VLAN (its 128-bit address). -/
inductive Via where
  | i3c (endpoint : Nat)
  | mailbox (h : Fin 4)
  | vlan (sender : Nat)
  deriving DecidableEq, Repr

/-- A dictionary request but for its opcode, which is the command's own (R667). `index` and the other fields are as the
header gives them; `payload` holds the bytes that follow it. -/
structure Req where
  version : Nat
  tag : Nat
  index : Nat
  sub : Nat
  count : Nat
  offset : Nat
  length : Nat
  ty : Nat
  flags : Nat
  payload : List Nat
  deriving DecidableEq, Repr

/-- What every stream command carries beside its own fields: the context and stream it belongs to, and its header
(R400): sequence, slot, barrier, signal enable, signal object; `stamp` is the step stamp of R50, `pos` the log position
of a replayed command. -/
structure Origin where
  ctx : Fin 1024
  stream : Fin 4
  seq : Nat
  stamp : Nat
  slot : Nat
  barrier : Bool
  sigEn : Bool
  sigObj : Nat
  deriving DecidableEq, Repr

/-- The fields of a tile job (R92, R405). -/
structure MtileF where
  wDesc : Nat
  aDesc : Nat
  dDesc : Nat
  wKdim : Nat
  wNdim : Nat
  aKdim : Nat
  aMdim : Nat
  dMdim : Nat
  dNdim : Nat
  setNo : Nat
  accumulate : Nat
  drain : Nat
  wKeep : Nat
  interval : Nat
  rounding : Nat
  sat : Nat
  intOverflow : Nat
  heirloom : Nat
  kCount : Nat
  tensor : Nat
  k0 : Nat
  n0 : Nat
  m0 : Nat
  nCount : Nat
  mCount : Nat
  reserved : Nat
  deriving DecidableEq, Repr

/-- The fields of a vector command (R170, R406). `reserved` holds every reserved bit of the layout. -/
structure VecF where
  aDesc : Nat
  bDesc : Nat
  cDesc : Nat
  dDesc : Nat
  fn : Nat
  axis : Nat
  order : Nat
  k : Nat
  rounding : Nat
  sat : Nat
  intOverflow : Nat
  alpha : Nat
  beta : Nat
  tensor : Nat
  srOrigin : Nat
  srExtent : Nat
  reserved : Nat
  deriving DecidableEq, Repr

/-- The fields of a move command (R408). -/
structure MoveF where
  src : Nat
  dst : Nat
  index : Nat
  reserved : Nat
  deriving DecidableEq, Repr

/-- The fields of a collective command (R411). `emit` is the emit handle of source kind 1. -/
structure CollF where
  src : Nat
  emit : Nat
  dst : Nat
  positions : Nat
  handle : Nat
  root : Nat
  scheme : Nat
  combine : Nat
  srcKind : Nat
  delKind : Nat
  rounding : Nat
  sat : Nat
  tensor : Nat
  k : Nat
  reserved : Nat
  deriving DecidableEq, Repr

/-- The fields of SOPEN and SRESTORE (R414); `opt` is byte 47 bit 0, `obj` the image signal of SOPEN or the update index
of SRESTORE. -/
structure SnapF where
  manifest : Nat
  table : Nat
  status : Nat
  handle : Nat
  localBase : Nat
  localLen : Nat
  entries : Nat
  netInterval : Nat
  opt : Nat
  obj : Nat
  reserved : Nat
  deriving DecidableEq, Repr

/-- A root-engine job record (R277), its reserved bits together in `reserved`. -/
structure JobRec where
  ty : Nat
  stack : Nat
  conv : Nat
  emit : Nat
  tensor : Nat
  src0 : Nat
  src1 : Nat
  dst : Nat
  aux : Nat
  origin : Nat
  count : Nat
  waitEn : Bool
  sigEn : Bool
  waitObj : Nat
  sigObj : Nat
  waitVal : Nat
  reserved : Nat
  deriving DecidableEq, Repr

/-- A job at a root engine's intake: the context and stamp of the RJOBS that forwarded it, and its record. -/
structure JobIn where
  ctx : Fin 1024
  stamp : Nat
  r : JobRec
  deriving DecidableEq, Repr

/-- The fields of a CHANDLE command but for its action, which is the command's own (R498). -/
structure HandleF where
  wire : Nat
  group : Nat
  handle : Nat
  table : Nat
  job : Nat
  timeout : Nat
  emit : Nat
  reserved : Nat
  deriving DecidableEq, Repr

/-- What a received frame carries (R480, R481, R484, R497): a PAUSE frame; LLDP with chassis and port identifiers (19 and
the rest of 63 bytes, as numbers); a request for the link address of an IP address, with the asker; an answer that gives
the MAC of an address; an ICMP message (echo request or another) to an address; an IP packet that a check of R481 drops; a
UDP datagram for the transport; any other packet. -/
inductive FrameBody where
  | pause
  | lldp (chassis port : Nat)
  | addrRequest (v6 : Bool) (target asker : Nat)
  | addrReply (v6 : Bool) (addr mac : Nat)
  | icmp (v6 : Bool) (dest src : Nat) (echo : Bool) (payload : List Nat)
  | badIp
  | transport (icrcOk : Bool)
  | other
  deriving DecidableEq, Repr

/-- A received frame (R480): length with FCS, whether its FCS verifies, the VLAN ids of its tags, its body. -/
structure FrameF where
  len : Nat
  fcsOk : Bool
  tags : List Nat
  body : FrameBody
  deriving DecidableEq, Repr

/-- A received job-handle packet that carries collective data (R485, R488): handle bits [23:0], PSN, whether it is
CE-marked, its sender's rank, the collective header (job id bits [31:0], epoch, sequence, phase, chunk, byte offset,
operation digest), its payload, whether the payload's CRC32C verifies. -/
structure PacketF where
  handle : Nat
  psn : Nat
  ce : Bool
  rank : Nat
  job : Nat
  epoch : Nat
  seq : Nat
  phase : Nat
  chunk : Nat
  off : Nat
  digest : Nat
  payload : List Nat
  crcOk : Bool
  deriving DecidableEq, Repr

/-- Activity of a partition in a governor tick on behalf of a context, or of the device account (R570, R571): amounts of
terms 1 to 9 and 11 (those that the device counts itself come from its counters), the dynamic power that its ready work would draw in the next tick (FP32 code, W; R588), and the
cycles that the duty withheld (R580). -/
structure ActF where
  part : Fin 8
  ctx : Option (Fin 1024)
  x : List Nat
  demand : Nat
  withheld : Nat
  deriving DecidableEq, Repr

/-- One telemetry reading (R568): rail 8 × die + rail select (R741), whether a valid reading came, voltage in mV, current
in mA. -/
structure SampleF where
  rail : Fin 32
  valid : Bool
  mv : Nat
  ma : Int
  deriving DecidableEq, Repr

/-- What a start-up step finds (R685): whether clocks, fabric and die-to-die links came up (step 2); the rails that do not
answer (step 4), as 8 × die + rail select; the stacks that fail and the lanes that failed, as (stack, pseudo-channel × 36 +
lane) (step 6); the snapshot ports that carry a device, and those where it is persistent memory (step 8); the level of PWR_CAP_ALERT# (step 10). -/
structure StepF where
  ok : Bool
  rails : List (Fin 32)
  failed : List (Fin 32)
  lanes : List (Nat × Nat)
  snap : List (Fin 4)
  pmem : List (Fin 4)
  alert : Bool
  deriving DecidableEq, Repr

/-- The commands and events of the part, one constructor per row of the opcode table; each docstring names the rule
that the table gives the row. -/
inductive Instr where
  /-- NOP (R401): Stream command that only gives its header signal. -/
  | nop (o : Origin) (reserved : Nat)
  /-- SWAIT (R394): Holds its stream until a sync-object counter reaches a value or the timeout expires. -/
  | swait (o : Origin) (obj timeout value reserved : Nat)
  /-- SSIGNAL_ADD (R407): Adds a value to a sync-object counter. -/
  | ssignalAdd (o : Origin) (obj value reserved : Nat)
  /-- SSIGNAL_SET (R427): Sets a sync-object counter to a value and compares the waiters still held against it. -/
  | ssignalSet (o : Origin) (obj value reserved : Nat)
  /-- SREMOTE (R430): Sends an addition to a counter on a member package of a handle's epoch. -/
  | sremote (o : Origin) (obj rank handle value reserved : Nat)
  /-- SFENCE (R396): Completes once every earlier command of the stream has completed, with an optional host write. -/
  | sfence (o : Origin) (addr value reserved : Nat)
  /-- MTILE (R92): One tile job: one pass of the array into a bottom-bank set. -/
  | mtile (o : Origin) (f : MtileF)
  /-- VCONV (R162): Converts each source element directly into the destination format. -/
  | vconv (o : Origin) (f : VecF)
  /-- VADD (R168): Element-wise sum a + b. -/
  | vadd (o : Origin) (f : VecF)
  /-- VSUB (R168): Element-wise difference a - b. -/
  | vsub (o : Origin) (f : VecF)
  /-- VMUL (R168): Element-wise product a x b. -/
  | vmul (o : Origin) (f : VecF)
  /-- VFMA (R168): Element-wise fused multiply-add, rounded once. -/
  | vfma (o : Origin) (f : VecF)
  /-- VMAX (R176): Element-wise greater value under the ranking order. -/
  | vmax (o : Origin) (f : VecF)
  /-- VMIN (R176): Element-wise lesser value under the ranking order. -/
  | vmin (o : Origin) (f : VecF)
  /-- VSCALE (R168): Computes a x alpha + beta with one rounding. -/
  | vscale (o : Origin) (f : VecF)
  /-- VDIV (R173): Correctly rounded element-wise quotient. -/
  | vdiv (o : Origin) (f : VecF)
  /-- VFUNC (R175): Applies the function that fn selects to each element. -/
  | vfunc (o : Origin) (f : VecF)
  /-- VSEL (R171): Selects b or c by a comparison of a with alpha. -/
  | vsel (o : Origin) (f : VecF)
  /-- VFILL (R168): Fills the destination with alpha, converted. -/
  | vfill (o : Origin) (f : VecF)
  /-- VTRANS (R162): Exchanges dimensions 0 and 1. -/
  | vtrans (o : Origin) (f : VecF)
  /-- VREDSUM (R177): Sums along the axis in the fixed tree order, then scales by alpha. -/
  | vredsum (o : Origin) (f : VecF)
  /-- VREDSQ (R177): Sums squares along the axis in the fixed tree order. -/
  | vredsq (o : Origin) (f : VecF)
  /-- VREDMAX (R177): Reduces to the maximum or minimum along the axis. -/
  | vredmax (o : Origin) (f : VecF)
  /-- VTOPK (R179): Writes the k largest or smallest values of each line with their positions. -/
  | vtopk (o : Origin) (f : VecF)
  /-- VWIN (R181): Writes the control record of the winning maximum or minimum of a tensor. -/
  | vwin (o : Origin) (f : VecF)
  /-- VSOFTMAX (R178): Computes softmax along dimension 0. -/
  | vsoftmax (o : Origin) (f : VecF)
  /-- VDEQ (R756): Dequantises integer results by per-channel FP32 scales and alpha. -/
  | vdeq (o : Origin) (f : VecF)
  /-- MCOPY (R409): Copies bits between two descriptors of equal format and size. -/
  | mcopy (o : Origin) (f : MoveF)
  /-- MGATHER (R409): Gathers source rows by an index list. -/
  | mgather (o : Origin) (f : MoveF)
  /-- MSCATTER (R409): Scatters source rows by an index list. -/
  | mscatter (o : Origin) (f : MoveF)
  /-- CALLRED (R510): All-reduce across the members of a job handle. -/
  | callred (o : Origin) (f : CollF)
  /-- CREDSCAT (R510): Reduce-scatter across the members of a job handle. -/
  | credscat (o : Origin) (f : CollF)
  /-- CGATHER (R510): All-gather across the members of a job handle. -/
  | cgather (o : Origin) (f : CollF)
  /-- CBCAST (R510): Broadcast of the root rank's source. -/
  | cbcast (o : Origin) (f : CollF)
  /-- CTOPK (R510): Job-wide top-k reduction of lines. -/
  | ctopk (o : Origin) (f : CollF)
  /-- CWIN (R511): Job-wide maximum or minimum with index over control records. -/
  | cwin (o : Origin) (f : CollF)
  /-- CHANDLE_OPEN_JOB (R498): Opens a job handle from a membership table. -/
  | chandleOpenJob (o : Origin) (f : HandleF)
  /-- CHANDLE_OPEN_STORAGE (R498): Opens a storage handle from a storage descriptor. -/
  | chandleOpenStorage (o : Origin) (f : HandleF)
  /-- CHANDLE_CLOSE (R502): Closes a handle and fails its collectives in progress. -/
  | chandleClose (o : Origin) (f : HandleF)
  /-- CHANDLE_NEW_EPOCH (R503): Installs a new membership epoch on a job handle. -/
  | chandleNewEpoch (o : Origin) (f : HandleF)
  /-- CHANDLE_BIND_EMIT (R518): Binds an emit handle to a job handle and an extent table. -/
  | chandleBindEmit (o : Origin) (f : HandleF)
  /-- RJOBS (R413): Checks, translates and forwards a list of job records to root engines. -/
  | rjobs (o : Origin) (list count reserved : Nat)
  /-- UNORM (R321): Starts the global norm: holds for the step's encodings, forms stack partials and enters the collective. -/
  | unorm (o : Origin) (list table handle control reserved : Nat)
  /-- UFENCE (R344): Update fence: waits for the context's root-engine jobs, commits the step and advances the step counter. -/
  | ufence (o : Origin) (table reserved : Nat)
  /-- HPHASE (R416): Hands a power-phase hint to the governor. -/
  | hphase (o : Origin) (lead duration cls parts reserved : Nat)
  /-- HCANCEL (R416): Withdraws every pending hint of the context. -/
  | hcancel (o : Origin) (reserved : Nat)
  /-- SOPEN (R349): Opens securing for a context after checking its manifest. -/
  | sopen (o : Origin) (f : SnapF)
  /-- SCLOSE (R371): Lets an image in progress complete, then closes securing. -/
  | sclose (o : Origin) (reserved : Nat)
  /-- SRESTORE (R375): Restores a context from a complete secured image. -/
  | srestore (o : Origin) (f : SnapF)
  /-- STAGE (R287): Root-engine job that arms the staging unit for one staged-gradient piece. -/
  | stage (st : Fin 32) (j : JobIn)
  /-- COMPRESS (R294): Root-engine job that adds residuals, encodes VB8 blocks, writes residuals and emits the blocks. -/
  | compress (st : Fin 32) (j : JobIn)
  /-- UPDATE (R333): Root-engine job that runs the optimiser over one piece or row list in two sweeps. -/
  | update (st : Fin 32) (j : JobIn)
  /-- COPY (R297): Root-engine job that converts masters into a working copy. -/
  | copy (st : Fin 32) (j : JobIn)
  /-- CONVERT (R299): Root-engine job that converts a tensor between formats. -/
  | convert (st : Fin 32) (j : JobIn)
  /-- STREAM_OUT (R300): Root-engine job that streams a region out to a snapshot port or network stream. -/
  | streamOut (st : Fin 32) (j : JobIn)
  /-- STREAM_IN (R301): Root-engine job that writes arriving restore data into a region. -/
  | streamIn (st : Fin 32) (j : JobIn) (data : List Nat)
  /-- TRANSLATION_REPLY (R281): A requested leaf translation arrives at intake input 2 and fills the root engine's cache. -/
  | translationReply (st : Fin 32) (ctx : Fin 1024) (va : Nat)
  /-- CHUNK_DELIVERY (R288): A reduced-gradient chunk is delivered to the staging unit, accepted into a buffer or returned. -/
  | chunkDelivery (st : Fin 32) (ctx : Fin 1024) (tensor q : Nat) (elems : List Nat) (bad : Bool)
  /-- CHUNK_STAGED (R289): A chunk's writes are acknowledged and its partial stored; the buffer and its credit are freed. -/
  | chunkStaged (st : Fin 32) (ctx : Fin 1024) (tensor q : Nat)
  /-- EMISSION_ACCEPTED (R296): A waiting emission is accepted by the network interface and the job pipeline resumes. -/
  | emissionAccepted (st : Fin 32) (waited : Nat)
  /-- COMMAND_SUBMIT (R388): A 64-byte write to a stream window is accepted as a command or dropped. -/
  | commandSubmit (h : Fin 4) (offset size : Nat) (aligned : Bool) (data : Nat)
  /-- DROP_EVENT_TIMER (R389): At the end of a rate-limit millisecond, an event 0x8201 is raised for drops not yet reported. -/
  | dropEventTimer (c : Fin 1024) (i : Fin 4)
  /-- COMMAND_ISSUE (R437): The coordinator issues the head command of a ready stream, or refuses it at issue. -/
  | commandIssue
  /-- COMMAND_COMPLETE (R396): A command completes, or fails, and gives or withholds its signal. -/
  | commandComplete (c : Fin 1024) (i : Fin 4) (seq : Nat) (accepted : Bool)
  /-- STREAM_CONTROL_RESUME_AFTER (R399): Restarts a stopped stream with the command after the stopped one. -/
  | streamControlResumeAfter (via : Via) (c : Fin 1024) (i : Fin 4)
  /-- STREAM_CONTROL_DISCARD (R399): Discards the stopped stream's unissued commands and resumes. -/
  | streamControlDiscard (via : Via) (c : Fin 1024) (i : Fin 4)
  /-- STREAM_CONTROL_RETRY (R399): Issues the stopped command again. -/
  | streamControlRetry (via : Via) (c : Fin 1024) (i : Fin 4)
  /-- CONTEXT_OWNER_WRITE (R381): Write of a context's owner host site under the transport rules. -/
  | contextOwnerWrite (via : Via) (c : Fin 1024) (v : Nat)
  /-- CONTEXT_ENABLE_WRITE (R383): Enables a context after its consistency check, or moves it to STOPPING. -/
  | contextEnableWrite (via : Via) (c : Fin 1024) (v : Nat)
  /-- CONTEXT_STOP_COMPLETE (R384): A stopping context's issued commands are done and its OPEN sets saved; it reaches OFF. -/
  | contextStopComplete (c : Fin 1024)
  /-- BLOCK_ASSIGN (R424): Assigns a sync-object block to a context and zeroes its counters. -/
  | blockAssign (via : Via) (block : Fin 256) (remote notify : Bool) (hosts : Nat) (c : Fin 1024)
  /-- BLOCK_FREE (R425): Frees a sync-object block after releasing its registered waits unsatisfied. -/
  | blockFree (via : Via) (block : Fin 256) (c : Fin 1024)
  /-- SYNC_OP_GRANT (R426): The sync-object unit's arbiter grants one signal, set or add, applied modulo 2^64. -/
  | syncOpGrant
  /-- SWAIT_TIMEOUT (R429): An SWAIT's timeout expires at a microsecond check and stops its stream. -/
  | swaitTimeout (c : Fin 1024) (i : Fin 4)
  /-- SYNC_WINDOW_READ (R432): A host reads a sync-window location; refused reads return 0 and are counted. -/
  | syncWindowRead (h : Fin 4) (y : Fin 16384)
  /-- SYNC_WINDOW_WRITE (R432): A host write to a sync-window location adds its value to the counter. -/
  | syncWindowWrite (h : Fin 4) (y : Fin 16384) (v : Nat)
  /-- REMOTE_SIGNAL_RECEIVE (R430): A remote signal from a member is applied or dropped and refused. -/
  | remoteSignalReceive (handle epoch job sender y v : Nat)
  /-- TRANSLATION_INVALIDATE (R251): Drops cached translations of a range and completes after their accesses finish. -/
  | translationInvalidate (via : Via) (v : Nat)
  /-- SLAB_TABLE_WRITE (R236): Applies a new slab table atomically after dropping translations and zeroing lost slabs. -/
  | slabTableWrite (via : Via) (table : Nat)
  /-- TILE_FEED_START (R98): A tile job's feed starts once its weights are loaded, the previous job has fed and its set allows. -/
  | tileFeedStart (e : Fin 64) (waited stalled : Nat)
  /-- WEIGHT_LOAD_COMPLETE (R61): A tile job's weight tile finishes loading into the shadow registers. -/
  | weightLoadComplete (e : Fin 64)
  /-- TILE_JOB_RETIRE (R84): A tile job makes its last bank write and the pass joins its accumulation. -/
  | tileJobRetire (e : Fin 64) (ns : Nat)
  /-- RUNNER_MERGE (R184): The vector engine adds the accumulation's runner contributions into the set. -/
  | runnerMerge (e : Fin 64) (ns : Nat)
  /-- DRAIN_START (R87): A set moves to DRAINING and its rows are converted and written one per PCLK. -/
  | drainStart (e : Fin 64) (set : Fin 2)
  /-- DRAIN_COMPLETE (R87): The last bank row is drained and the set becomes FREE. -/
  | drainComplete (e : Fin 64) (set : Fin 2)
  /-- ARRAY_CLOCK_GATE (R99): An array without a tile job for 32 PCLK cycles gates its clock. -/
  | arrayClockGate (e : Fin 64)
  /-- TILE_CHECK (R127): Runs the reference accumulation of a sampled tile and compares it with the narrow result. -/
  | tileCheck (e : Fin 64)
  /-- VECTOR_TILE_BOUNDARY (R189): At a destination-tile boundary the vector engine chooses its next work. -/
  | vectorTileBoundary (e : Fin 64) (ns busy stalled : Nat)
  /-- SET_SAVE (R460): An OPEN set of another context is saved unconverted into a save area and freed. -/
  | setSave (e : Fin 64) (set : Fin 2)
  /-- SET_RESTORE (R461): A saved accumulation is restored into its set before an accumulate job. -/
  | setRestore (e : Fin 64) (set : Fin 2)
  /-- ENGINE_ENABLE_WRITE (R103): Enables or disables an engine, refusing a disable while tile jobs are queued. -/
  | engineEnableWrite (via : Via) (e : Fin 64) (v : Nat)
  /-- SCRATCHPAD_WRITEBACK (R205): A corrected scratchpad word is written back in the first cycle with no port request. -/
  | scratchpadWriteback (e : Fin 64) (bank : Fin 32)
  /-- SCRUB_READ (R207): The scheduled scrub read of one bank line is taken in a free cycle. -/
  | scrubRead (e : Fin 64) (bank : Fin 32) (upsets : List (Nat × Nat))
  /-- SCRUB_FORCED (R207): After 1,024 cycles without a free cycle the scrub read takes the bank ahead of every port. -/
  | scrubForced (e : Fin 64) (bank : Fin 32) (upsets : List (Nat × Nat))
  /-- WIPE_COMPLETE (R214): A secure-bank wipe ends; stalled accesses fail and the wipe is counted. -/
  | wipeComplete (d : Fin 4)
  /-- KEY_REDERIVATION (R703): The Gardener derives its identity and attestation keys again after a wipe of die 0's bank. -/
  | keyRederivation
  /-- ARBITER_GRANT (R215): An arbiter instance grants the highest-numbered input and notifies a queued requester. -/
  | arbiterGrant (place : Nat) (presented : List Nat)
  /-- LONGEST_WAIT_CLEAR (R224): A write of 0 clears an arbiter's longest-wait entry. -/
  | longestWaitClear (via : Via) (place : Nat) (v : Nat)
  /-- HBM_REQUEST (R231): A stack controller serves a granted read or write, with RS correction or poisoning. -/
  | hbmRequest (st : Fin 32) (input : Fin 4) (write : Bool) (off len data : Nat) (ctx : Option (Fin 1024)) (upsets : List (Nat × Nat))
  /-- HOST_CXL_MEM_ACCESS (R253): A host CXL.mem access reaches an owned slab or is poisoned or dropped. -/
  | hostCxlMemAccess (h : Fin 4) (write : Bool) (dpa len data : Nat)
  /-- HBM_WRITEBACK (R259): A corrected HBM line is written back unless a write intervened. -/
  | hbmWriteback (st : Fin 32) (line : Nat)
  /-- LANE_MARK (R258): Sixteen corrections in one second mark a lane failed. -/
  | laneMark (st : Fin 32) (pc : Fin 64) (lane : Fin 36)
  /-- PATROL_SCRUB_READ (R261): A scheduled patrol scrub read is taken when the pseudo-channel is idle. -/
  | patrolScrubRead (st : Fin 32) (pc : Fin 64) (upsets : List (Nat × Nat))
  /-- PATROL_SCRUB_FORCED (R261): A scrub read overdue by one interval goes ahead of queued requests. -/
  | patrolScrubForced (st : Fin 32) (pc : Fin 64) (upsets : List (Nat × Nat))
  /-- REFRESH (R262): A bank's per-bank refresh falls due and is issued or postponed. -/
  | refresh (st : Fin 32) (pc : Fin 64) (sid : Fin 4) (bank : Fin 16) (busy : Bool)
  /-- REFRESH_FORCED (R262): A refresh postponed for 8 intervals goes ahead of every request. -/
  | refreshForced (st : Fin 32) (pc : Fin 64) (sid : Fin 4) (bank : Fin 16)
  /-- RETRAINING (R263): A due pseudo-channel retrains in a 2 us gap. -/
  | retraining (st : Fin 32) (pc : Fin 64)
  /-- RETRAINING_FORCED (R263): With no gap within the force delay, requests are held and the pseudo-channel retrains. -/
  | retrainingForced (st : Fin 32) (pc : Fin 64)
  /-- IMAGE_COMPLETE (R359): An image's shares are streamed and its parts committed; the status record is written and signalled. -/
  | imageComplete (c : Fin 1024) (target : Fin 2)
  /-- SECURING_HOLD_RELEASE (R358): A root-engine job held on an unstreamed range resumes once it is streamed. -/
  | securingHoldRelease (st : Fin 32) (cycles : Nat)
  /-- NETWORK_HEADER_ACK (R368): The store acknowledges a network part's header, committing it. -/
  | networkHeaderAck (c : Fin 1024) (ok : Bool)
  /-- SECURING_ENABLE_WRITE (R378): Enables securing or moves it to STOPPING. -/
  | securingEnableWrite (via : Via) (v : Nat)
  /-- BED_WRITE (R443): Defines a bed's engine and host masks after the grant checks. -/
  | bedWrite (via : Via) (b : Fin 64) (v : Nat)
  /-- SPLIT_GROUP_WRITE (R448): Defines a split group of beds of one context. -/
  | splitGroupWrite (via : Via) (g : Fin 8) (v : Nat)
  /-- ENGINE_GRANT_WRITE (R447): Grants an engine to host sites. -/
  | engineGrantWrite (via : Via) (e : Fin 64) (v : Nat)
  /-- BANK_GRANT_WRITE (R446): Grants scratchpad banks to sites, zeroing banks that lose a site. -/
  | bankGrantWrite (via : Via) (e : Fin 64) (v : Nat)
  /-- EVALUATION_ATTACH_WRITE (R465): Attaches an evaluation context to a training context. -/
  | evaluationAttachWrite (via : Via) (c : Fin 1024) (v : Nat)
  /-- WINDOW_CLOSE (R467): The window length expires; the training hold ends. -/
  | windowClose (c : Fin 1024)
  /-- WINDOW_EARLY_CLOSE (R467): With early close set, the window closes when every evaluation stream is IDLE. -/
  | windowEarlyClose (c : Fin 1024)
  /-- OVERRUN_LIMIT_EXPIRY (R469): The overrun limit after a close passes and window-only commands stop issuing. -/
  | overrunLimitExpiry (c : Fin 1024)
  /-- LINK_STATE_CHANGE (R527): An Ethernet sub-port goes down or up; its paths are suspended or resumed. -/
  | linkStateChange (n : Fin 24) (k : Fin 4) (up : Bool) (lanes : Nat)
  /-- LANE_RETRAIN_COMPLETE (R479): A port retrained after lane shedding or restoring resumes its paths. -/
  | laneRetrainComplete (n : Fin 24) (lanes : Nat)
  /-- FRAME_RECEIVE (R480): A received frame is checked and handed to its protocol or dropped. -/
  | frameReceive (n : Fin 24) (k : Fin 4) (f : FrameF)
  /-- TRANSPORT_PACKET_RECEIVE (R488): A job-handle packet is checked for epoch and digest and placed at its offset. -/
  | transportPacketReceive (n : Fin 24) (k : Fin 4) (p : PacketF)
  /-- ACK_TIMER (R488): 4 us after the oldest unacknowledged packet a selective acknowledgement is sent. -/
  | ackTimer (handle rank : Nat)
  /-- ACK_RECEIVE (R489): An acknowledgement updates the flow's window and triggers resends. -/
  | ackReceive (handle rank cum sack window : Nat)
  /-- WINDOW_PROBE_TIMER (R489): While the window is 0, a probe is sent every 8 us. -/
  | windowProbeTimer (handle rank : Nat)
  /-- RETRANSMISSION_TIMEOUT (R490): A packet's retransmission timeout expires and it is resent, or its collectives fail. -/
  | retransmissionTimeout (handle rank psn : Nat)
  /-- CNP_RECEIVE (R492): A congestion notification cuts the path's rate. -/
  | cnpReceive (handle rank sub : Nat)
  /-- RATE_INCREASE_TIMER (R492): Every 16 us each path without a notification raises its rate. -/
  | rateIncreaseTimer (handle rank sub : Nat)
  /-- EPOCH_RESPONSE_RECEIVE (R504): A peer's epoch-ahead or epoch-behind answer fails collectives or counts as loss. -/
  | epochResponseReceive (handle rank epoch : Nat)
  /-- DIGEST_MISMATCH_RESPONSE (R507): A peer reports an operation mismatch and the collective fails. -/
  | digestMismatchResponse (handle rank seq : Nat)
  /-- STORAGE_ACK_RECEIVE (R493): A RoCEv2 RC acknowledgement arrives on a storage handle. -/
  | storageAckReceive (handle seq status : Nat)
  /-- PFC_FRAME_RECEIVE (R494): A PFC frame pauses or releases the collective priority. -/
  | pfcFrameReceive (n : Fin 24) (k : Fin 4) (classes quanta : Nat)
  /-- PTP_MESSAGE_RECEIVE (R495): A PTP event message is timestamped and drives the servo. -/
  | ptpMessageReceive (n : Fin 24) (k : Fin 4) (offset : Int)
  /-- PPS_INPUT_EDGE (R496): A rising PPS edge disciplines the timebase. -/
  | ppsInputEdge (offset : Int)
  /-- PPS_OUTPUT_SECOND (R496): At each whole second PPS is driven as an output. -/
  | ppsOutputSecond
  /-- LLDP_SEND_TIMER (R497): Every 30 s an LLDP frame is sent on each sub-port. -/
  | lldpSendTimer (n : Fin 24) (k : Fin 4)
  /-- COLLECTIVE_TIMEOUT (R509): A collective not completed within the handle's timeout fails. -/
  | collectiveTimeout (handle : Nat) (seq : Nat)
  /-- NORM_COLLECTIVE_COMPLETE (R321): The norm's collective completes; norm, clip, loss scale and schedules are written and signalled. -/
  | normCollectiveComplete (c : Fin 1024) (ok : Bool) (rows : List Nat) (marks : List Nat)
  /-- CHUNK_REOFFER_TIMER (R523): Every 10 us a returned chunk is offered to staging again. -/
  | chunkReofferTimer (st : Fin 32) (ctx : Fin 1024) (tensor q : Nat)
  /-- CHUNK_WAIT_EVENT (R523): A chunk returned for 1 ms raises event 0x8706. -/
  | chunkWaitEvent (st : Fin 32) (ctx : Fin 1024) (tensor q : Nat)
  /-- FAULT_NOTICE_RECEIVE (R627): A fault notice of the current epoch fails the handle's collectives. -/
  | faultNoticeReceive (handle epoch rank kind : Nat)
  /-- PRESENCE_QUERY_TIMER (R534): Every 1 ms a sideband presence query goes to each DOWN site. -/
  | presenceQueryTimer (h : Fin 4)
  /-- PRESENCE_RESPONSE (R535): A partner answers the presence query and training begins. -/
  | presenceResponse (h : Fin 4)
  /-- LINK_TRAINED (R530): A host link reaches the active state, or training fails at the lowest width. -/
  | linkTrained (h : Fin 4) (modules rate repaired : Nat)
  /-- LINK_RETRAIN_REQUEST (R532): A partner request or replay storm retrains an active host link. -/
  | linkRetrainRequest (h : Fin 4)
  /-- LINK_LOSS (R536): A reset message, presence loss, link error or long retraining loses the host link. -/
  | linkLoss (h : Fin 4) (cause : Nat)
  /-- ATTACH (R543): A host attaches, resuming or reclaiming held contexts. -/
  | attach (h : Fin 4) (ringBase ringCtl key : Nat) (regs : List (Nat × Nat))
  /-- DETACH_AND_HOLD (R544): A host detaches and its ON contexts are held. -/
  | detachAndHold (h : Fin 4)
  /-- DETACH_AND_RELEASE (R544): A host detaches and its contexts are reclaimed. -/
  | detachAndRelease (h : Fin 4)
  /-- GRACE_PERIOD_EXPIRY (R546): The grace period passes and held contexts are reclaimed. -/
  | gracePeriodExpiry (h : Fin 4)
  /-- RECLAIM_NOW (R546): The operator reclaims a site's held contexts at once. -/
  | reclaimNow (via : Via) (h : Fin 4) (v : Nat)
  /-- CONSUMER_INDEX_WRITE (R555): The host advances the consumer index, freeing ring room after overflow. -/
  | consumerIndexWrite (h : Fin 4) (v : Nat)
  /-- SUMMARY_CLEAR (R556): Clears named context-summary bits. -/
  | summaryClear (h : Fin 4) (v : Nat)
  /-- COALESCING_WINDOW_EXPIRY (R554): The staged event's coalescing window expires and it is written to the ring. -/
  | coalescingWindowExpiry (target : Fin 5)
  /-- INTERRUPT_MODERATION_TIMER (R557): The moderation time passes and MSI-X vector 0 is raised. -/
  | interruptModerationTimer (h : Fin 4)
  /-- SITE_ENABLE_WRITE (R560): Enables a site or powers its link down. -/
  | siteEnableWrite (via : Via) (h : Fin 4) (v : Nat)
  /-- GOVERNOR_TICK (R588): Every 250 ns the governor computes caps, cuts, slope-limited activity, duty and ballast. -/
  | governorTick (act : List ActF)
  /-- FLOOR_LEAVE (R584): After 10 ms at or below 0.95 of the cap the floor is left. -/
  | floorLeave
  /-- LANE_RESTORE (R585): The governor restores a lane step after 10 ms of headroom. -/
  | laneRestore (n : Fin 24)
  /-- TELEMETRY_SAMPLE (R568): Every 50 us each rail's voltage and current are sampled. -/
  | telemetrySample (samples : List SampleF)
  /-- TELEMETRY_WINDOW_END (R572): A 1 ms window ends; charges are scaled, states judged and calibration data updated. -/
  | telemetryWindowEnd
  /-- MARGIN_RAISE_TIMER (R564): A millisecond without a canary warning raises the adaptive margin. -/
  | marginRaiseTimer (p : Fin 8)
  /-- CANARY_WARNING (R564): A canary warning lowers the adaptive margin by four steps. -/
  | canaryWarning (p : Fin 8)
  /-- OPERATING_POINT_CHOICE (R586): The governor chooses each partition's operating point and starts any change. -/
  | operatingPointChoice
  /-- OP_UP_PCLK_SLEW (R565): After the rail has risen, PCLK slews up to the new point. -/
  | opUpPclkSlew (p : Fin 8)
  /-- AVS_WRITE_COMPLETE (R743): An AVSBus set-point write completes and the rail slews. -/
  | avsWriteComplete (p : Fin 8)
  /-- BOARD_CAP_WRITE (R574): Writes the board cap over I3C/MCTP. -/
  | boardCapWrite (via : Via) (v : Nat)
  /-- OPERATOR_CAP_WRITE (R574): Writes the operator cap. -/
  | operatorCapWrite (via : Via) (v : Nat)
  /-- PWR_CAP_ALERT_EDGE (R575): An edge of PWR_CAP_ALERT# applies or removes the alert cap. -/
  | pwrCapAlertEdge (asserted : Bool)
  /-- DROOP_TRIP (R589): A droop detector trips and PCLK is stretched. -/
  | droopTrip (p : Fin 8)
  /-- DROOP_CLEAR (R589): 64 PCLK cycles after the last detector clears, stretching ends. -/
  | droopClear (p : Fin 8) (cycles : Nat)
  /-- MARGIN_HOLD_EXPIRY (R590): The 1 s margin hold after a droop storm ends. -/
  | marginHoldExpiry (p : Fin 8)
  /-- THERMAL_CEILING_TIMER (R591): Above or below the soft limit the thermal ceiling moves one point. -/
  | thermalCeilingTimer (p : Fin 8) (t : Int)
  /-- HARD_THERMAL_ENTRY (R592): A sensor above 95 C holds its partition at minimum duty. -/
  | hardThermalEntry (p : Fin 8) (t : Int)
  /-- STACK_THERMAL_LIMIT (R593): A stack above 95 C limits its grants. -/
  | stackThermalLimit (st : Fin 32) (t : Int)
  /-- THERMTRIP (R691): A junction at 105 C asserts THERMTRIP# and stops every clock but GCLK. -/
  | thermtrip
  /-- FLIT_CRC_FAILURE (R609): A fabric flit fails CRC-16 and is replayed, or its hop is lost. -/
  | flitCrcFailure (kind : Fin 3) (unit fails : Nat)
  /-- HANG_TIMEOUT (R613): A unit's watchdog reaches the hang timeout and starts a partition reset. -/
  | hangTimeout (kind : Nat) (unit : Nat)
  /-- PARTITION_RESET_DRAINED (R616): Old-generation requests are answered or dropped and self-test begins. -/
  | partitionResetDrained (p : Fin 8)
  /-- PARTITION_RESET_COMPLETE (R616): Self-test ends; the partition returns to ON or goes out of service. -/
  | partitionResetComplete (p : Fin 8) (ok : Bool)
  /-- REPLAY_START (R626): The next ready suspect is rolled back and its logged commands issued. -/
  | replayStart (p : Fin 8)
  /-- ROLLBACK_CONTROL_WRITE (R628): Host software sets the replay point of a job-bound context. -/
  | rollbackControlWrite (via : Via) (c : Fin 1024) (v : Nat)
  /-- DEVICE_WIDE_FAULT (R632): Stops every stream, sends notices, holds the floor and flags the tray. -/
  | deviceWideFault (cause : Nat)
  /-- HARVEST_TICK (R639): Every unit copies its harvested entries into its spare shadow. -/
  | harvestTick
  /-- HARVEST_COMPLETE (R640): Shadows are exchanged and the harvest sequence advances. -/
  | harvestComplete
  /-- DUMP_COMPLETE (R646): The shadow set has been written to the dump region. -/
  | dumpComplete
  /-- NEXT_TICK_WRITE (R642): Schedules the next harvest tick. -/
  | nextTickWrite (via : Via) (v : Nat)
  /-- LOG_READ_POSITION_WRITE (R656): Sets the event-log read position. -/
  | logReadPositionWrite (via : Via) (v : Nat)
  /-- READ (R669): Dictionary message that returns an entry's value. -/
  | read (via : Via) (r : Req)
  /-- WRITE (R672): Dictionary message that writes an entry without a behaviour of its own. -/
  | write (via : Via) (r : Req)
  /-- READ_BLOCK (R670): Returns a run of sub-entries from one harvest. -/
  | readBlock (via : Via) (r : Req)
  /-- LIST (R669): Returns the sub-indices present at an index. -/
  | list (via : Via) (r : Req)
  /-- DESCRIBE (R760): Returns an entry's type, access, scope and bounds. -/
  | describe (via : Via) (r : Req)
  /-- MAILBOX_SUBMIT (R676): A host submits the request in its mailbox. -/
  | mailboxSubmit (h : Fin 4) (opcode : Nat) (r : Req)
  /-- MAILBOX_ACKNOWLEDGE (R676): A host acknowledges the mailbox reply. -/
  | mailboxAcknowledge (h : Fin 4)
  /-- DOMAIN_STAGING_DISCARD (R671): A DOMAIN staging buffer without a write for 1 s is discarded. -/
  | domainStagingDiscard (via : Via) (index sub : Nat)
  /-- REPLY_CACHE_EXPIRY (R677): A kept management-VLAN reply expires after 2 s. -/
  | replyCacheExpiry (sender tag : Nat)
  /-- FUNCTION_STOPPING_END (R675): A STOPPING function reaches OFF, or re-arms after its check. -/
  | functionStoppingEnd (index : Nat)
  /-- ROOT_ENGINE_ENABLE_WRITE (R306): Enables or disables a root engine. -/
  | rootEngineEnableWrite (via : Via) (st : Fin 32) (v : Nat)
  /-- PORT_ENABLE_WRITE (R675): Enables or disables an Ethernet port. -/
  | portEnableWrite (via : Via) (n : Fin 24) (v : Nat)
  /-- PORT_STARTING_TIMEOUT (R675): One second after STARTING a port enters ON with sub-ports still training. -/
  | portStartingTimeout (n : Fin 24)
  /-- TELEMETRY_ENABLE_WRITE (R675): Enables or disables harvesting and watches. -/
  | telemetryEnableWrite (via : Via) (v : Nat)
  /-- PERTURBATION_ENABLE_WRITE (R726): Enables the perturbation unit if the life-cycle state permits. -/
  | perturbationEnableWrite (via : Via) (v : Nat)
  /-- FEWEST_BUFFERS_RESET (R305): A write of 256 resets the fewest-buffers-free minimum. -/
  | fewestBuffersReset (via : Via) (st : Fin 32) (v : Nat)
  /-- SETTINGS_COMMIT (R681): Checks a staged settings image and burns it into the next slot. -/
  | settingsCommit (via : Via) (generation : Nat)
  /-- SETTINGS_BURN_COMPLETE (R681): A settings slot is burned and read back. -/
  | settingsBurnComplete (ok : Bool)
  /-- RESET_ASSERT (R686): RESET# held for 10 us abandons all work. -/
  | resetAssert
  /-- RESET_RELEASE (R685): RESET# release samples the straps and starts the start-up sequence. -/
  | resetRelease (straps : Nat)
  /-- STARTUP_STEP_COMPLETE (R685): A start-up step completes and the next begins, or the device halts. -/
  | startupStepComplete (r : StepF)
  /-- DEVICE_RESET_WRITE (R690): A write resets the device after notices and pending burns. -/
  | deviceResetWrite (via : Via) (v : Nat)
  /-- LIFE_CYCLE_TRANSITION (R708): Burns the life-cycle fuses, wipes the secure banks and resets. -/
  | lifeCycleTransition (via : Via) (v : Nat)
  /-- AUTHORISATION_TOKEN (R709): A signed token arms a transition, authorises perturbation or revokes a key slot. -/
  | authorisationToken (via : Via) (token : Nat)
  /-- UPDATE_BEGIN (R700): Begins an image update by erasing the inactive bank. -/
  | updateBegin (via : Via) (v : Nat)
  /-- UPDATE_APPEND (R700): Appends bytes of the update window to the bank. -/
  | updateAppend (via : Via) (v : Nat)
  /-- UPDATE_FINISH (R700): Checks the new bank and records it as preferred. -/
  | updateFinish (via : Via) (v : Nat)
  /-- ATTESTATION_NONCE (R704): A nonce commit produces signed evidence for the requester. -/
  | attestationNonce (via : Via) (nonce : Nat)
  /-- TAMPER_TRIP (R711): A tamper detector trips; secure banks are wiped and tokens invalidated. -/
  | tamperTrip (d : Fin 4) (cause : Nat)
  /-- TAMPER_RESTART_TIMER (R711): 10 ms after a tamper trip before step 10 the device restarts at step 2. -/
  | tamperRestartTimer
  /-- PLL_LOCK_LOSS (R717): A PLL loses lock and its domain's units stall. -/
  | pllLockLoss (pll : Nat)
  /-- PLL_RELOCK (R717): A PLL relocks and its units resume. -/
  | pllRelock (pll : Nat)
  /-- PLL_RELOCK_TIMEOUT (R717): A relock slower than 100 us becomes a device-wide fault. -/
  | pllRelockTimeout (pll : Nat)
  /-- TIME_HOLDOVER (R725): The time source missing for 2 s puts the timebase into holdover. -/
  | timeHoldover
  /-- BYPASS (R731): JTAG instruction selecting the bypass register. -/
  | bypass (tdi : Bool)
  /-- IDCODE (R732): JTAG instruction selecting the IDCODE register. -/
  | idcode
  /-- SAMPLE_PRELOAD (R731): JTAG SAMPLE/PRELOAD of the boundary-scan chain. -/
  | samplePreload (boundary : Nat)
  /-- EXTEST (R731): JTAG EXTEST while RESET# is asserted. -/
  | extest (boundary : Nat)
  /-- CLAMP (R731): JTAG CLAMP while RESET# is asserted. -/
  | clamp
  /-- HIGHZ (R731): JTAG HIGHZ while RESET# is asserted. -/
  | highz
  /-- DEBUG (R734): JTAG debug access through the Gardener in permitted states. -/
  | debug (v : Nat)
  /-- TRST_ASSERT (R731): TRST# resets the test access port. -/
  | trstAssert
  /-- MOVE_UNIT_BOUNDARY (R457): A DMA move finishes one 2,048-byte unit, which is the DMA's switch point for choosing a context. -/
  | moveUnitBoundary (e : Fin 64) (ns : Nat)
  /-- UCIE_FLIT_REPLAY (R531): A UCIe flit fails its CRC and is replayed and counted in 0x4800+h:10. -/
  | ucieFlitReplay (h : Fin 4)
  /-- PCLK_SLEW_DOWN_COMPLETE (R565): A downward PCLK slew ends and the new core set-point is written over AVSBus. -/
  | pclkSlewDownComplete (p : Fin 8)
  /-- HARD_THERMAL_RELEASE (R592): A partition's hottest sensor falls below 93 C and the partition is released from minimum duty under the slope limit. -/
  | hardThermalRelease (p : Fin 8) (t : Int)
  /-- STACK_THERMAL_RELEASE (R593): A stack's temperature falls below 90 C and its grant limit is lifted. -/
  | stackThermalRelease (st : Fin 32) (t : Int)
  /-- SET_ENDPOINT_ID (R677): The MCTP control message Set Endpoint ID assigns the device's endpoint ID, shown in 0x1100:0F. -/
  | setEndpointId (eid : Nat)
  /-- DYNAMIC_ADDRESS_ASSIGNMENT (R677): The I3C bus controller assigns the device its dynamic address, shown in 0x1100:0F. -/
  | dynamicAddressAssignment (addr : Nat)
  /-- SUMMARY_REWRITE_TIMER (R556): The rate limit of one summary rewrite per microsecond expires and the pending context summary is written to the ring header. -/
  | summaryRewriteTimer (h : Fin 4)
  /-- LIFE_CYCLE_BURN_COMPLETE (R708): The life-cycle fuse burn of about 10 ms ends; the secret is set at SCRAPPED, secure banks are wiped and the device resets. -/
  | lifeCycleBurnComplete
  /-- DEVICE_RESET_DELAY_EXPIRY (R690): The 1 ms wait after a device-reset request, notices and burns ends and the device acts as though RESET# were asserted. -/
  | deviceResetDelayExpiry
  /-- SNAPSHOT_FLUSH_COMPLETE (R367): The flush of a part's data and segment table completes on the snapshot target and the header is written with forced unit access. -/
  | snapshotFlushComplete (c : Fin 1024) (port : Fin 4) (status : Nat)
  /-- HDM_DECODER_COMMIT (R537): Host software commits the site's programmed HDM decoder, after which CXL.mem accesses decode into the device's address space. -/
  | hdmDecoderCommit (h : Fin 4)
  deriving DecidableEq, Repr

end Sys2Proof
end

