-- ==== Sys2Proof/Machine/Bits.lean ====
section
/-! DEFINITION. Bit fields, byte strings, two's complement, and the keyed tables of Word.lean. -/
namespace Sys2Proof

/-- Bits [hi:lo] of a value. -/
def bits (v hi lo : Nat) : Nat := (v >>> lo) % 2 ^ (hi + 1 - lo)

/-- Bit i of a value, as a Boolean. -/
def bit (v i : Nat) : Bool := (v >>> i) % 2 == 1

/-- A Boolean as the bit 0 or 1. -/
def b2n (b : Bool) : Nat := if b then 1 else 0

/-- A value with its bits [hi:lo] replaced by `f`. -/
def setBits (v hi lo f : Nat) : Nat :=
  let w := hi + 1 - lo
  (v >>> (hi + 1)) <<< (hi + 1) + (f % 2 ^ w) <<< lo + v % 2 ^ lo

/-- The least multiple of `b` that is not below `a`, counted in units of `b` (ceiling division). -/
def ceilDiv (a b : Nat) : Nat := (a + b - 1) / b

/-- The number with the bits of `v` that are set in `m` cleared. -/
def clearMask (v m : Nat) : Nat := v ^^^ (v &&& m)

/-- How many of the lowest `n` bits of `v` are set. -/
def popCount (n v : Nat) : Nat := ((List.range n).filter (fun i => bit v i)).length

/-- The positions below `n` of the set bits of `v`, rising. -/
def bitList (n v : Nat) : List Nat := (List.range n).filter (fun i => bit v i)

/-- The natural number a list of bytes spells, the first byte lowest (R23, R661: little-endian). -/
def leNat : List Nat → Nat
  | [] => 0
  | b :: bs => b % 256 + 256 * leNat bs

/-- The lowest `n` bytes of a number, lowest first. -/
def leBytes : Nat → Nat → List Nat
  | 0, _ => []
  | n + 1, v => v % 256 :: leBytes n (v / 256)

/-- `n` bytes of a byte string held as a number, from offset `off`. -/
def bytesAt (v off n : Nat) : Nat := (v >>> (8 * off)) % 2 ^ (8 * n)

/-- A byte string held as a number, with `n` bytes from `off` replaced. -/
def setBytesAt (v off n x : Nat) : Nat := if n = 0 then v else setBits v (8 * (off + n) - 1) (8 * off) x

/-- The two's-complement reading of a `w`-bit code. -/
def toSigned (w v : Nat) : Int :=
  let u := v % 2 ^ w
  if 2 * u < 2 ^ w then (u : Int) else (u : Int) - (2 ^ w : Nat)

/-- The `w`-bit two's-complement code of an integer, kept modulo 2^w. -/
def ofSigned (w : Nat) (x : Int) : Nat := (x % ((2 ^ w : Nat) : Int)).toNat

/-- The modulus of the 64-bit counters (R58, R558: counters wrap). -/
def two64 : Nat := 2 ^ 64

/-- The entry of a table at a key, if listed. -/
def Tbl.look? {α : Type} (k : Nat) : Tbl α → Option α
  | [] => none
  | (k', v) :: t => if k' = k then some v else Tbl.look? k t

/-- The entry of a table at a key, or the default. -/
def Tbl.look {α : Type} (d : α) (k : Nat) (t : Tbl α) : α := (Tbl.look? k t).getD d

/-- A table with one entry written, keys kept rising. -/
def Tbl.put {α : Type} (k : Nat) (v : α) : Tbl α → Tbl α
  | [] => [(k, v)]
  | (k', v') :: t =>
    if k < k' then (k, v) :: (k', v') :: t
    else if k = k' then (k, v) :: t
    else (k', v') :: Tbl.put k v t

/-- A table with one key removed. -/
def Tbl.del {α : Type} (k : Nat) (t : Tbl α) : Tbl α := t.filter (fun p => p.1 ≠ k)

/-- A table with one entry changed by a function of what it held. -/
def Tbl.upd {α : Type} (d : α) (k : Nat) (f : α → α) (t : Tbl α) : Tbl α :=
  Tbl.put k (f (Tbl.look d k t)) t

/-- A list with the element at a position replaced; a position outside the list changes nothing. -/
def setAt {α : Type} : List α → Nat → α → List α
  | [], _, _ => []
  | _ :: t, 0, v => v :: t
  | h :: t, n + 1, v => h :: setAt t n v

/-- Insertion into a list sorted by a key, after the entries of the same key. -/
def insertBy {α : Type} (key : α → Nat) (x : α) : List α → List α
  | [] => [x]
  | y :: t => if key x < key y then x :: y :: t else y :: insertBy key x t

/-- A list sorted by a key, rising; entries of one key keep their order. -/
def sortBy {α : Type} (key : α → Nat) (l : List α) : List α := l.foldr (fun x acc =>
  let rec ins : List α → List α
    | [] => [x]
    | y :: t => if key y < key x then y :: ins t else x :: y :: t
  ins acc) []

/-- A list cut into pieces of `n` elements, the last one possibly shorter (fuel: the list's length). -/
def chunksOf {α : Type} (n : Nat) (l : List α) : List (List α) :=
  let rec go : Nat → List α → List (List α)
    | 0, _ => []
    | _, [] => []
    | f + 1, l => l.take n :: go f (l.drop n)
  go l.length l

/-- Read a table entry just written. -/
theorem Tbl.look?_put_self {α : Type} (k : Nat) (v : α) (t : Tbl α) : Tbl.look? k (Tbl.put k v t) = some v := by
  induction t with
  | nil => simp [Tbl.put, Tbl.look?]
  | cons p t ih =>
    obtain ⟨k', v'⟩ := p
    unfold Tbl.put
    split
    · simp [Tbl.look?]
    · split
      · simp [Tbl.look?]
      · rename_i h1 h2
        simp [Tbl.look?, ih]; intro h; exact absurd h.symm h2

/-- A write of one table entry leaves every other key as it was. -/
theorem Tbl.look?_put_ne {α : Type} {k j : Nat} (h : j ≠ k) (v : α) (t : Tbl α) :
    Tbl.look? j (Tbl.put k v t) = Tbl.look? j t := by
  induction t with
  | nil => simp [Tbl.put, Tbl.look?, Ne.symm h]
  | cons p t ih =>
    obtain ⟨k', v'⟩ := p
    unfold Tbl.put
    split
    · simp [Tbl.look?, Ne.symm h]
    · split
      · rename_i h1 h2; subst h2; simp [Tbl.look?, Ne.symm h]
      · simp [Tbl.look?, ih]

@[simp] theorem Tbl.look_put_self {α : Type} (d : α) (k : Nat) (v : α) (t : Tbl α) :
    Tbl.look d k (Tbl.put k v t) = v := by simp [Tbl.look, Tbl.look?_put_self]

theorem Tbl.look_put_ne {α : Type} (d : α) {k j : Nat} (h : j ≠ k) (v : α) (t : Tbl α) :
    Tbl.look d j (Tbl.put k v t) = Tbl.look d j t := by simp [Tbl.look, Tbl.look?_put_ne h]

@[simp] theorem Tbl.look_nil {α : Type} (d : α) (k : Nat) : Tbl.look d k ([] : Tbl α) = d := rfl

/-- CRC32C of bytes (R365, R366, R485). -/
def crc32c (bs : List Nat) : Nat :=
  let step := fun (c b : Nat) => (List.range 8).foldl (fun c _ => if c % 2 = 1 then (c / 2) ^^^ 0x82F63B78 else c / 2) (c ^^^ b)
  (bs.foldl step 0xFFFFFFFF) ^^^ 0xFFFFFFFF

end Sys2Proof
end

