-- ==== Sys2Proof/Machine/Types.lean ====
section
/-! DEFINITION. The plain data types of the machine's parts: memory, events, boundary outputs, streams, engines, stacks,
sites. Machine/State.lean puts them together. Times are nanoseconds of the timebase. -/
namespace Sys2Proof.Machine
open Sys2Proof

/-- The memories (R193, R229): HBM bytes keyed stack × 2^36 + stack offset, scratchpad bytes keyed
engine × 24 MiB + scratchpad offset, each in canonical form (keys rising, no byte 0: an unlisted byte reads 0), and the
errors that stand in them: per HBM line (key/64) the corrupted symbols, per scratchpad word (key/8) the flipped bits. -/
structure Store where
  hbm : List Host.Cell
  spad : List Host.Cell
  hbmErr : Tbl (List (Nat × Nat))
  spadErr : Tbl Nat
  deriving DecidableEq, Repr

/-- An event (R553): code, scope (kind 0 device, 1 host, 2 context, 3 engine, 4 port, 5 stack, 6 partition) and id, the
context and the site it concerns for its routing (R551), its fields in the order of its code table, its time. -/
structure Ev where
  code : Nat
  kind : Nat
  id : Nat
  ctx : Option Nat
  site : Option Nat
  fields : List Nat
  time : Nat
  deriving DecidableEq, Repr

/-- A reply (R668). -/
structure Reply where
  opcode : Nat
  tag : Nat
  index : Nat
  sub : Nat
  count : Nat
  reason : Nat
  ty : Nat
  state : Nat
  payload : List Nat
  deriving DecidableEq, Repr

/-- What the part sends out across its boundary, in the order it is sent. -/
inductive Out where
  /-- a dictionary reply to its requester -/
  | reply (via : Via) (r : Reply)
  /-- one 32-byte ring entry: site, host address, event, coalesced count, phase bit -/
  | ring (h addr : Nat) (ev : Ev) (count phase : Nat)
  /-- the ring header: site, host address, producer index, overflow, entries lost, context summary -/
  | header (h addr producer : Nat) (overflow : Bool) (lost summary : Nat)
  /-- a host write of an SFENCE: site, address, 64-bit value -/
  | hostWrite (h addr value : Nat)
  /-- an MSI-X vector of a site -/
  | msix (h vector : Nat)
  /-- a sideband message to a site: 0 presence query, 1 training, 2 retraining, 3 power down -/
  | sideband (h kind : Nat)
  /-- data returned to a host: site, bytes, poisoned -/
  | hostData (h : Nat) (bytes : List Nat) (poisoned : Bool)
  /-- data returned by a stack controller to its requester: stack, input, bytes, poisoned -/
  | memData (s input : Nat) (bytes : List Nat) (poisoned : Bool)
  /-- a frame sent on a sub-port: sub-port, kind, fields -/
  | frame (sub kind : Nat) (fields : List Nat)
  /-- a transport packet: handle, destination rank, kind, its route (802.1Q priority, DSCP, ECN, sub-port, gateway's MAC address,
  peer's address, UDP source port, DestQP, job id, epoch), fields, payload -/
  | packet (handle rank kind : Nat) (route fields payload : List Nat)
  /-- toward an image target: 0 snapshot port or 1 network stream, port or handle, operation (0 a write, 1 a Flush, 2 the
  header's write with forced unit access, 3 a flag line read back), byte address, route over the network, bytes -/
  | image (target port op addr : Nat) (route bytes : List Nat)
  /-- a message to the board: kind 0 an AVSBus set-point write, with the rail (8 × die + rail select) and 0.1 mV -/
  | board (kind : Nat) (fields : List Nat)
  /-- a level on a land of the package (1 asserted): 1 the PPS output, 3 THERMTRIP#, 4 + n PERST# of snapshot port n -/
  | pin (land level : Nat)
  /-- bits shifted out on TDO -/
  | tdo (nbits v : Nat)
  /-- a translation request emitted by a root engine: stack, context, virtual address -/
  | xlatReq (s ctx va : Nat)
  deriving DecidableEq, Repr

/-- A tensor descriptor (R418). -/
structure Desc where
  fmt : Nat
  place : Nat
  tilePresent : Bool
  loc : Nat
  tile : Nat
  base : Nat
  sizes : List Nat
  strides : List Nat
  scalePtr : Nat
  prec : Nat
  deriving DecidableEq, Repr

/-- A precision-area header (R106), with its own address. -/
structure PrecH where
  addr : Nat
  layer : Nat
  xdim : Nat
  act : Bool
  rot : Nat
  heirloomRot : Bool
  copies : Bool
  tiles : Nat
  widen : Nat
  copyAddr : Nat
  copySlots : Nat
  signs : Nat
  deriving DecidableEq, Repr

/-- A cached leaf translation (R250): context, VA of its 64 KiB page (VA / 2^16), leaf entry and the size of its page as
a power of two. -/
structure XEnt where
  ctx : Nat
  va : Nat
  size : Nat
  leaf : Nat
  deriving DecidableEq, Repr

/-- The physical place of an access. -/
inductive Phys where
  | hbm (s off : Nat)
  | spad (e off : Nat)
  deriving DecidableEq, Repr

/-- The unit on whose behalf memory is accessed (R247 check 6, R250): an engine's array, vector engine or DMA, a root
engine, the coordinator or a scheduler of a partition, the network interface. -/
inductive Who where
  | array (e : Nat)
  | vector (e : Nat)
  | dma (e : Nat)
  | root (s : Nat)
  | sched (p : Nat)
  | net
  deriving DecidableEq, Repr

/-- Why a command stops (R398): cause 1 refused at issue, 2 failed, 3 timed out; reason code; whether it read poison. -/
structure Fail where
  cause : Nat
  code : Nat
  poison : Bool
  /-- the die whose secure bank is being wiped, for an access that stalls until the wipe ends (R213) -/
  stall : Option Nat
  deriving DecidableEq, Repr

/-- The numerics and precision policy in force for a context (R57, R151): the values of 0x5000:01 to 0x5000:1E that it
uses, as they stood at its last update fence. -/
structure Policy where
  gradRnd : Nat
  momRnd : Nat
  gradSat : Bool
  fexp : Nat
  cand : Nat
  clamp : Bool
  rate : Nat
  check : Bool
  thr4 : Nat
  thr6 : Nat
  thr8 : Nat
  thr52 : Nat
  window : Nat
  share : Nat
  failLim : Nat
  feedback : Bool
  jobWide : Bool
  deriving DecidableEq, Repr

/-- The defaults of the policy entries (R56, R151). -/
def Policy.reset : Policy :=
  ⟨1, 1, false, 3, 2, false, 8, true, 0x3D800000, 0x3D000000, 0x3C800000, 0x3D800000, 16, 1024, 2, true, true⟩

/-- An accepted command that waits to issue: its 512 bits, its step stamp, and whether a replay stored it. -/
structure QCmd where
  raw : Nat
  stamp : Nat
  replay : Bool
  logPos : Nat
  deriving DecidableEq, Repr

/-- An issued command on a scoreboard (R440): status 0 running, 1 done, 2 failed with `fail`. -/
structure Issued where
  seq : Nat
  op : Nat
  slot : Nat
  input : Nat
  stamp : Nat
  sigEn : Bool
  sigObj : Nat
  status : Nat
  fail : Fail
  logPos : Nat
  cmd : Option QCmd
  deriving DecidableEq, Repr

/-- A stream (R388 to R399). -/
structure Stream where
  q : List QCmd
  run : List Issued
  expected : Nat
  stopped : Bool
  cause : Nat
  reason : Nat
  stopSeq : Nat
  stopOp : Nat
  dropped : Nat
  completed : Nat
  lastChange : Nat
  stopCmd : Option QCmd
  dropNum : Nat
  dropCause : Nat
  dropTimer : Bool
  waiting : Bool
  waitObj : Nat
  waitVal : Nat
  waitMet : Bool
  waitLeft : Nat
  deriving DecidableEq, Repr

/-- A stream as it stands at a reset. -/
def Stream.reset : Stream :=
  ⟨[], [], 0, false, 0, 0, 0, 0, 0, 0, 0, none, 0, 0, false, false, 0, 0, false, 0⟩

/-- A pending power-phase hint (R415, R416). -/
structure Hint where
  start : Nat
  stop : Nat
  cls : Nat
  parts : Nat
  deriving DecidableEq, Repr

/-- A replay point (R621): the captured counters, state record (with the address of its table), precision-record heads, step counter and update index,
and the positions of the log and of each undo area at that moment. -/
structure Point where
  counters : Tbl Nat
  record : Option (Nat × Nat)
  heads : List (Nat × Nat)
  step : Nat
  upd : Nat
  logAt : Nat
  undoAt : Tbl Nat
  deriving DecidableEq, Repr

/-- What the part keeps for the replay of a context (R620 to R628): log positions as counts of entries; the undo records that
are kept, by stack, oldest first, and how many were freed before them; the two latest replay points (newest first); the
not-replayable mark and the points left until it clears; the partition whose reset made it a suspect; whether rollback
control has been written; the job handles whose epochs it awaits; whether it replays; whether an applied UFENCE has
completed since it was enabled. -/
structure Replay where
  logHead : Nat
  logTail : Nat
  undo : Tbl (List (List Nat))
  undoTail : Tbl Nat
  points : List Point
  marked : Bool
  clearIn : Nat
  suspectOf : Option Nat
  rolled : Bool
  awaitEpochs : List Nat
  replaying : Bool
  fenced : Bool
  deriving DecidableEq, Repr

/-- A context that has logged nothing. -/
def Replay.reset : Replay :=
  { logHead := 0, logTail := 0, undo := [], undoTail := [], points := [], marked := false, clearIn := 0,
    suspectOf := none, rolled := false, awaitEpochs := [], replaying := false,
    fenced := false }

/-- What a context holds beside its dictionary entries. -/
structure Ctx where
  streams : List Stream
  stampBase : Nat
  fences : Nat
  policy : Policy
  hints : List Hint
  /-- the bed definition in force (engine mask, host mask), and whether a written one waits (R445) -/
  bedMask : Nat
  bedHosts : Nat
  bedPending : Bool
  /-- does the change wait for a UFENCE, for an OPEN set on a leaving engine (R445)? -/
  bedDeferred : Bool
  /-- window: 0 closed, 1 due (held since the issue of the fence), 2 open; time of opening, of close -/
  win : Nat
  winStamp : Nat
  winOpened : Nat
  winClosed : Nat
  winPeriod : Nat
  winLen : Nat
  winEarly : Bool
  overrun : Nat
  /-- sequences accepted before the last close, per stream, for the overrun of R469 -/
  overrunSeqs : List Nat
  overrunOver : Bool
  /-- schedule entries issued: first unfinished count per entry (R455) -/
  schedDone : List Nat
  /-- the pipeline schedule as last read: entries, gated streams, lookahead; commands issued by each stream under its
  first unfinished entry (R452 to R456) -/
  schedTab : List Nat
  gated : Nat
  lookahead : Nat
  schedCnt : List Nat
  /-- once-per-tensor-and-step events already raised: (code, tensor, step) -/
  onceEv : List (Nat × Nat × Nat)
  reclaimed : Bool
  rep : Replay
  /-- engine nanoseconds charged to each bed in this step, for split groups (R449) -/
  bedNs : Tbl Nat
  deriving DecidableEq, Repr

/-- A context as it stands at a reset. -/
def Ctx.reset : Ctx :=
  { streams := List.replicate 4 Stream.reset, stampBase := 0, fences := 0, policy := Policy.reset, hints := [],
    bedMask := 0, bedHosts := 0, bedPending := false, bedDeferred := false, win := 0, winStamp := 0, winOpened := 0, winClosed := 0,
    winPeriod := 0, winLen := 100000, winEarly := false, overrun := 0, overrunSeqs := [0, 0, 0, 0],
    overrunOver := true, schedDone := [], schedTab := [], gated := 0, lookahead := 0, schedCnt := [0, 0, 0, 0], onceEv := [], reclaimed := false, rep := Replay.reset, bedNs := [] }

/-- A registered wait of a root-engine job or a stream is kept with its holder; the sync-object unit holds queued
operations: input, object, set or add, value (R426). -/
structure SyncOp where
  input : Nat
  obj : Nat
  set : Bool
  value : Nat
  /-- cycles since it entered its input's pending queue (R216, R223) -/
  wait : Nat
  deriving DecidableEq, Repr

/-- A generic arbiter instance (R215 to R217): its queued requests (input, cycles waited), the requests held because
their input's queue is full, and the sliding window of compute-side grants of a TSV port (R220). -/
structure Arb where
  queue : List (Nat × Nat)
  held : List Nat
  window : List Bool
  /-- the input granted in the last cycle, and the losses still forced on inputs (R728, R730) -/
  last : Option Nat
  lose : Tbl Nat
  /-- the limit L in force at a TSV port, taken at each boundary of 64 cycles, and the cycles since the last one (R226) -/
  limit : Nat
  cycle : Nat
  /-- replies outstanding at a link end toward the opposite die (R221) -/
  replies : Nat
  deriving DecidableEq, Repr

/-- An arbiter with nothing queued. -/
def Arb.reset : Arb := ⟨[], [], [], none, [], 48, 0, 0⟩

/-- An element as read: its element format, whether a block scale belongs to it, code and scale. -/
structure El where
  fmt : Nat
  blk : Bool
  code : Nat
  scale : Nat
  deriving DecidableEq, Repr

/-- What passes through an engine's precision staging bank, bank 30 (R120): 0 a widened tile, 1 a runner list, 2 an operand
of a check, 3 an operand of a repeat, 4 the values of a precision tile (R757). Where in the bank it lies is open (log entry
236), so it is held by its contents. -/
structure Staged where
  kind : Nat
  els : List El
  runs : List (Nat × Nat × Nat)
  deriving DecidableEq, Repr

/-- A line of a VSOFTMAX in an engine's row buffer (R178): the command (context, stream, sequence), the line's coordinates
above dimension 0, its results. -/
structure RowBuf where
  ctx : Nat
  stream : Nat
  seq : Nat
  line : List Nat
  out : List Nat
  deriving DecidableEq, Repr

/-- A weight tile in the cells (R61): whose it is, the weight fields of its tile job (descriptor, dimensions, ranges), and
its elements, a list per column. -/
structure WTile where
  ctx : Nat
  key : List Nat
  els : List (List El)
  deriving DecidableEq, Repr

/-- A recorded pass of an accumulation (R127, R183): its fields, operands, areas, the precision tiles of each operand whose
runner slots hold a runner inside its window, and the tiles it read with the rung of each. -/
structure PassRec where
  f : MtileF
  wd : Desc
  ad : Desc
  wh : Option PrecH
  ah : Option PrecH
  wTiles : List Nat
  aTiles : List Nat
  wRungs : List (Nat × Nat)
  aRungs : List (Nat × Nat)
  deriving DecidableEq, Repr

/-- An accumulation: what an OPEN or DRAINING set, or a save area, holds (R81): owner, class (0 8-bit float, 1 FP16, 2
integer), window, the least k0 of the next pass, the bank in row-major order, its passes, and whether the tile check
sampled it, with its layer. -/
structure Accum where
  ctx : Nat
  cls : Nat
  m0 : Nat
  mCount : Nat
  n0 : Nat
  nCount : Nat
  nextK : Nat
  bank : List Nat
  passes : List PassRec
  sampled : Bool
  layer : Nat
  deriving DecidableEq, Repr

/-- A bottom-bank set: 0 FREE, 1 OPEN, 2 DRAINING (R81). -/
structure BankSet where
  st : Nat
  acc : Accum
  deriving DecidableEq, Repr

/-- An accumulation that holds nothing. -/
def Accum.empty : Accum := ⟨0, 0, 0, 0, 0, 0, 0, [], [], false, 0⟩

/-- A tile job on an engine (R92): origin, fields, its descriptors and areas as read at issue (R421), class, and its
progress `ph`: 0 queued, 1 fed, 2 retired and waiting for its merge, its check or its drain, 3 draining. `loaded` says that
the shadow registers hold its weights, `carry` what its feed has computed, `merged` and `checked` what stands behind it. -/
structure TileJob where
  o : Origin
  f : MtileF
  wd : Desc
  ad : Desc
  dd : Option Desc
  wh : Option PrecH
  ah : Option PrecH
  dh : Option PrecH
  cls : Nat
  ph : Nat
  loaded : Bool
  carry : List Nat
  pass : Option PassRec
  merged : Bool
  checked : Bool
  deriving DecidableEq, Repr

/-- A vector or move command on an engine: opcode, origin, fields, descriptors as read at issue, next tile or unit. -/
structure VecCmd where
  op : Nat
  o : Origin
  f : VecF
  a : Option (Desc × Option PrecH)
  b : Option (Desc × Option PrecH)
  c : Option (Desc × Option PrecH)
  d : Desc × Option PrecH
  p : Option Desc
  next : Nat
  deriving DecidableEq, Repr

/-- A move on an engine's DMA: opcode, origin, descriptors, the index list once read, the next unit. -/
structure MoveCmd where
  op : Nat
  o : Origin
  src : Desc
  dst : Desc
  list : Option Desc
  idx : List Nat
  planned : Bool
  next : Nat
  deriving DecidableEq, Repr

/-- A scheduling unit of an engine (R457, R458): the running context and the nanoseconds charged to it since its
grant. -/
structure Sched where
  cur : Option Nat
  ran : Nat
  deriving DecidableEq, Repr

/-- A matrix engine with its vector engine, DMA, bank sets, save areas and scheduler counters. -/
structure Eng where
  jobs : List TileJob
  vq : List VecCmd
  dq : List MoveCmd
  shadow : Option WTile
  active : Option WTile
  sets : List BankSet
  saves : List (Nat × Accum)
  /-- accumulations whose first pass was fed behind a drain, by set (R90) -/
  opening : List (Nat × Accum)
  lastW : Tbl (List Nat)
  /-- VWIN commands since the last tile of another command, by context (R189) -/
  vwins : Tbl Nat
  /-- what the precision staging bank holds of the work in progress (R120) -/
  staging : List Staged
  /-- the vector engine's row buffer (R178) -/
  row : List RowBuf
  gated : Bool
  scA : Sched
  scV : Sched
  scD : Sched
  vt : Tbl Nat
  hvt : Tbl Nat
  xc : List XEnt
  writeback : List Nat
  scrubLine : Tbl Nat
  deriving DecidableEq, Repr

/-- An engine with nothing queued and both sets FREE. -/
def Eng.reset : Eng :=
  { jobs := [], vq := [], dq := [], shadow := none, active := none,
    sets := [⟨0, Accum.empty⟩, ⟨0, Accum.empty⟩], saves := [], opening := [], lastW := [], vwins := [], staging := [], row := [],
    gated := true,
    scA := ⟨none, 0⟩, scV := ⟨none, 0⟩, scD := ⟨none, 0⟩, vt := [], hvt := [], xc := [], writeback := [],
    scrubLine := [] }

/-- An RJOBS whose records are still being forwarded (R413): its command, its list, its count, the next record and the stack
whose intake has no room for it. -/
structure Fwd where
  o : Origin
  list : Nat
  count : Nat
  next : Nat
  stack : Nat
  deriving DecidableEq, Repr

/-- A root-engine job in its queue (R282): started once its start conditions have held. `jobHold` marks a job that an
image still to be streamed holds back (R358); `written` counts the bytes that a STREAM_IN has written. -/
structure RJob where
  j : JobIn
  policy : Policy
  started : Bool
  released : Bool
  jobHold : Bool
  written : Nat
  deriving DecidableEq, Repr

/-- An armed STAGE job (R287): its job, its staged-gradient descriptor, the partials stored so far by chunk sequence, whether a
chunk of it waits for a range of an image (R358). -/
structure Arm where
  j : JobIn
  desc : Desc
  parts : Tbl Nat
  hold : Bool
  deriving DecidableEq, Repr

/-- A chunk in a chunk buffer (R286, R289): context, tensor id, sequence number, BF16 elements, and whether the buffer
holds an uncorrectable word (R292). -/
structure Chunk where
  ctx : Nat
  tensor : Nat
  q : Nat
  elems : List Nat
  bad : Bool
  deriving DecidableEq, Repr

/-- An emission of a COMPRESS job (R296): its job, its first chunk sequence number, its elements as FP32 codes. -/
structure Emis where
  j : JobIn
  q : Nat
  els : List Nat
  deriving DecidableEq, Repr

/-- A stack: its root engine (R270) and its controller (R228 to R264). -/
structure Stk where
  queue : List RJob
  arms : List Arm
  chunks : List Chunk
  xc : List XEnt
  /-- marked lanes, keyed pseudo-channel × 36 + lane (R258), and corrections attributed in this second -/
  marked : Tbl Nat
  laneCnt : Tbl Nat
  laneSec : Nat
  /-- next scrub position per pseudo-channel (line count), pending write-backs of corrected lines (R259) -/
  scrub : Tbl Nat
  writeback : List Nat
  /-- refreshes postponed per bank (pc × 64 + stack id × 16 + bank), at most 8 (R262) -/
  postponed : Tbl Nat
  /-- refreshes pulled in ahead of their interval per bank (R262) -/
  ahead : Tbl Nat
  hot : Bool
  /-- time of the last retraining per pseudo-channel (R263) -/
  lastTrain : Tbl Nat
  /-- emissions that wait for the network interface, oldest first (R296) -/
  emits : List Emis
  deriving DecidableEq, Repr

/-- A stack with nothing queued. -/
def Stk.reset : Stk :=
  { queue := [], arms := [], chunks := [], xc := [], marked := [], laneCnt := [], laneSec := 0, scrub := [],
    writeback := [], postponed := [], ahead := [], hot := false, lastTrain := [], emits := [] }

/-- A range of an image (R351, R356): its stack, the manifest entry and item it belongs to, the runs of stack offset and
length that hold it, and whether job writes to it wait for it (R358). -/
structure SRange where
  stack : Nat
  tag : Nat
  runs : List (Nat × Nat)
  deriving DecidableEq, Repr

/-- A range as streamed: stack, tag, its runs, its bytes. -/
structure SData where
  stack : Nat
  tag : Nat
  runs : List (Nat × Nat)
  bytes : List Nat
  deriving DecidableEq, Repr

/-- A committed part on a target's medium (R365 to R368): target kind (0 a snapshot port's device, 1 the store of a network
handle), port or handle, first 4 KiB block, the fields and the CRC32C of its header (R366), and its data with the segment
CRCs. -/
structure ImgPart where
  kind : Nat
  port : Nat
  base : Nat
  ctx : Nat
  u : Nat
  step : Nat
  epoch : Nat
  rank : Nat
  parts : Nat
  manifest : Nat
  commit : Nat
  bytes : Nat
  hcrc : Nat
  data : List SData
  crcs : List Nat
  deriving DecidableEq, Repr

/-- One target of an image in progress (R359, R365 to R368): 0 the snapshot ports, 1 the network; the parts whose headers
are not committed. -/
structure ImgTarget where
  kind : Nat
  partsLeft : List Nat
  deriving DecidableEq, Repr

/-- Securing of a context (R349 to R371): its SOPEN, whether it is open, the SCLOSEs that wait, rolling mode, the image in
progress (update index, 0 none) with its start, targets, the CRC32C of its manifest, all its ranges in part order, those
still to stream and those streamed, its captured step, epoch and rank; the fields of the status record; the step in which
event 0x8A05 was last raised; the image slot in use; the 4 MiB of slab 63 that hold its capture; the image due at the
completion of a fence, with the state record (R354, R355); the network part whose header has been sent. -/
structure Secure where
  o : Origin
  f : SnapF
  isOpen : Bool
  closing : List Origin
  rolling : Bool
  image : Nat
  started : Nat
  targets : List ImgTarget
  manifest : Nat
  plan : List SRange
  ranges : List SRange
  data : List SData
  step : Nat
  epoch : Nat
  rank : Nat
  lastLocal : Nat
  lastNet : Nat
  skipped : Nat
  drainUs : Nat
  lastBytes : Nat
  commitSeq : Nat
  heldStep : Option Nat
  slotNo : Nat
  capSlot : Nat
  due : Option (Nat × Nat)
  sent : Option ImgPart
  deriving DecidableEq, Repr

/-- A norm or restore under way: its command, and for a norm the collective it entered (R321). -/
structure NormRun where
  o : Origin
  list : Nat
  table : Nat
  handle : Nat
  entries : Nat
  contributor : Bool
  row : List Nat
  marks : Nat
  deriving DecidableEq, Repr

/-- What a context's update and securing keep (R321, R344, R349, R375): the norm under way, whether one has completed
since the last fence, whether a root-engine job has failed since then; securing; the fence under way (with its state-record table); what the COMPRESS jobs of the step reported by tensor id (all zero, saturating; R651);
the net lifts of the watched tensors and those that the residuals of each descriptor stand at (R143, R654). -/
structure Upd where
  norm : Option NormRun
  normDone : Bool
  rootFailed : Bool
  sec : Option Secure
  fence : Option (Origin × Nat)
  obs : Tbl (Bool × Bool)
  lift : Tbl Int
  resid : Tbl Int
  /-- the tensor id of the last STAGE job by the address of its destination descriptor; by tensor id × 32 + stack the parameter
  block that names that descriptor, and its pre-scale exponent as last read (R143, R314, R654) -/
  staged : Tbl Nat
  blocks : Tbl Nat
  pre : Tbl Int
  deriving DecidableEq, Repr

/-- Nothing under way. -/
def Upd.reset : Upd := ⟨none, false, false, none, none, [], [], [], [], [], []⟩

/-- A set of shadows (R639, R644, R645): the counters by entry key, when the harvest began, the end of the last energy
window included, the stale mask, the contexts reclaimed since the harvest before. -/
structure Shadow where
  vals : Tbl Nat
  begun : Nat
  window : Nat
  stale : Nat
  reclaimed : List Nat
  deriving DecidableEq, Repr

/-- Shadows with nothing copied. -/
def Shadow.reset : Shadow := ⟨[], 0, 0, 0, []⟩

/-- Telemetry (R638 to R656): the current and the spare shadows, whether a harvest is under way, the region of the dump under
way; the scheduled tick (0 none), the first tick deferred (plus 1; 0 none) and when event 0x8103 was last raised; the end of
the last energy window, the contexts reclaimed since the last tick; the event log's kept entries with their counts, its
staged entry and its read position. -/
structure Tele where
  current : Shadow
  spare : Shadow
  harvesting : Bool
  dumping : Option Nat
  tickAt : Nat
  deferred : Nat
  deferEv : Option Nat
  lastWindow : Nat
  reclaimed : List Nat
  log : List (Ev × Nat)
  staged : Option (Ev × Nat)
  readPos : Nat
  deriving DecidableEq, Repr

/-- Telemetry with nothing harvested or logged. -/
def Tele.reset : Tele :=
  { current := Shadow.reset, spare := Shadow.reset, harvesting := false, dumping := none, tickAt := 0, deferred := 0,
    deferEv := none, lastWindow := 0, reclaimed := [], log := [], staged := none, readPos := 0 }

/-- A dictionary request whose reply waits (R673, R681): kind 0 blocked behind a delayed write of its index, 1 settings
burn, 2 life-cycle burn, 3 key derivation, 4 + h reclamation of site h; `plain` says that a command of its own stands for it, without a header. -/
structure Waiting where
  via : Via
  opcode : Nat
  req : Req
  kind : Nat
  plain : Bool
  deriving DecidableEq, Repr

/-- A DOMAIN staging buffer of a requester (R671): its requester, entry key, value, which bytes are staged (a bit each). -/
structure Staging where
  via : Via
  key : Nat
  value : Nat
  mask : Nat
  deriving DecidableEq, Repr

/-- The dictionary's transports (R671 to R677): staging buffers, requests whose reply waits, replies kept by sender. -/
structure DictSt where
  staging : List Staging
  waiting : List Waiting
  kept : List (Nat × Reply)
  deriving DecidableEq, Repr

/-- A host site (R533 to R557): phase, link phase, the site registers of R540, ring, coalescing, mailbox. -/
structure Site where
  phase : Nat
  link : Nat
  modules : Nat
  rate : Nat
  repaired : Nat
  reasonCode : Nat
  key : Nat
  ringBase : Nat
  ringCtl : Nat
  producer : Nat
  consumer : Nat
  window : Nat
  moderation : Nat
  threshold : Nat
  overflow : Bool
  lost : Nat
  lostFlag : Nat
  lostDetached : Nat
  summary : Nat
  summaryDirty : Bool
  staged : Option (Ev × Nat)
  firstUnraised : Option Nat
  vec0Hold : Bool
  pendingBits : Nat
  mbState : Nat
  mbReply : Option Reply
  hdm : Bool
  held : List Nat
  /-- the link retrains; what the host sent meanwhile, oldest first; the times of recent flit replays (R531, R532) -/
  heldLink : Bool
  heldIn : List Instr
  replays : List Nat
  refusedEv : Option Nat
  cause : Nat
  /-- contexts reclaimed since the detach; an attach that waits for the reclamation (ring base, control, key) (R542, R546) -/
  reclaimed : Nat
  attachWait : Option (Nat × Nat × Nat)
  /-- the MSI-X table: per vector, address, data and whether it is masked (R540, R557) -/
  msix : List (Nat × Nat × Bool)
  deriving DecidableEq, Repr

/-- A site as it stands at a reset, absent (phase 0) or populated (phase DOWN, 1). -/
def Site.reset (phase : Nat) : Site :=
  { phase := phase, link := 1, modules := 0, rate := 0, repaired := 0, reasonCode := 0, key := 0, ringBase := 0,
    ringCtl := 0, producer := 0, consumer := 0, window := 100, moderation := 8, threshold := 1, overflow := false,
    lost := 0, lostFlag := 0, lostDetached := 0, summary := 0, summaryDirty := false, staged := none,
    firstUnraised := none, vec0Hold := false, pendingBits := 0, mbState := 0, mbReply := none, hdm := false,
    held := [], heldLink := false, heldIn := [], replays := [], refusedEv := none, cause := 0, reclaimed := 0, attachWait := none,
    msix := List.replicate 3 (0, 0, true) }

/-! The network (R477 to R528). -/

/-- A transport packet that is sent and not yet acknowledged, or that waits for the window (R488 to R490): its PSN, the
collective sequence, phase (0 reduce, 1 result) and chunk, byte offset, payload, operation digest, the sub-port it left
from, when, how often it was resent, and how many packets sent after it have been acknowledged. -/
structure Pkt where
  psn : Nat
  seq : Nat
  phase : Nat
  chunk : Nat
  off : Nat
  bytes : List Nat
  digest : Nat
  sub : Nat
  sentAt : Nat
  resends : Nat
  later : Nat
  deriving DecidableEq, Repr

/-- A path of a flow (R492): rate in bits per second, whether a notification came in this interval, the earliest time of
its next packet. -/
structure Path where
  rate : Nat
  cnp : Bool
  next : Nat
  deriving DecidableEq, Repr

/-- A flow between this package and a peer (R486 to R490): next PSN, packets unacknowledged and waiting, the window; the
lowest PSN not received and the PSNs received above it, the packets since the last acknowledgement, the time of the
oldest unacknowledged one, when the peer last sent and to which destination (die × 64, plus 1 + s for stack s; R522); the
highest PSN acknowledged; paths by sub-port. -/
structure Flow where
  psn : Nat
  sent : List Pkt
  wait : List Pkt
  win : Option Nat
  cum : Nat
  got : List Nat
  since : Nat
  oldest : Option Nat
  lastIn : Option Nat
  dest : Nat
  hi : Option Nat
  cnpAt : Tbl Nat
  paths : Tbl Path
  deriving DecidableEq, Repr

/-- A flow after a reset of it (R503). -/
def Flow.reset : Flow :=
  { psn := 0, sent := [], wait := [], win := none, cum := 0, got := [], since := 0, oldest := none, lastIn := none, dest := 0,
    hi := none, cnpAt := [], paths := [] }

/-- A message of a collective under reassembly (R488, R508): sequence, phase, chunk, sender, digest, payloads by
offset, the die in whose buffer it stands (R520). -/
structure RxMsg where
  seq : Nat
  phase : Nat
  chunk : Nat
  rank : Nat
  digest : Nat
  parts : Tbl (List Nat)
  die : Nat
  deriving DecidableEq, Repr

/-- A chunk of a collective on this member (R512, R513): number, first element, elements, lead; own value (FP32 codes, or
the source's codes where nothing is combined) once it is known; the combined value and how many sources have entered it;
whether it has been sent on; the result (codes of the destination's format) and whether it has been passed on. -/
structure ChunkRun where
  g : Nat
  first : Nat
  n : Nat
  lead : Nat
  stack : Nat
  q : Nat
  origin : Nat
  own : Option (List Nat)
  acc : List Nat
  step : Nat
  sent : Bool
  result : Option (List Nat)
  passed : Bool
  staged : Bool
  deriving DecidableEq, Repr

/-- A collective in progress (R505): its command, sequence, digest, scheme in force, time of issue, descriptors, chunks. -/
structure Coll where
  o : Origin
  op : Nat
  f : CollF
  seq : Nat
  digest : Nat
  scheme : Nat
  at_ : Nat
  src : Option Desc
  dst : Option Desc
  pos : Option Desc
  chunks : List ChunkRun
  deriving DecidableEq, Repr

/-- An open handle (R498 to R503): 0 job or 1 storage; owner context, wire format, group size, job id, timeout, epoch, N,
rank, members' base addresses, storage descriptor, next collective sequence, collectives in progress, data under
reassembly, emit bindings (emit handle, extent table), flows by rank, the last event 0x8704; for storage, the next PSN
and the requests not yet acknowledged, and the QP's state. -/
structure Handle where
  kind : Nat
  ctx : Nat
  wire : Nat
  group : Nat
  job : Nat
  timeout : Nat
  epoch : Nat
  n : Nat
  rank : Nat
  members : List Nat
  store : Nat
  seq : Nat
  colls : List Coll
  rx : List RxMsg
  binds : Tbl (List Nat)
  flows : Tbl Flow
  eventAt : Option Nat
  sub : Nat
  psn : Nat
  unacked : List (Nat × Nat)
  bad : Bool
  deriving DecidableEq, Repr

/-- A chunk complete in a reassembly buffer and bound for staging (R521, R523). -/
structure ReadyChunk where
  stack : Nat
  ctx : Nat
  tensor : Nat
  q : Nat
  elems : List Nat
  bytes : Nat
  die : Nat
  since : Option Nat
  reported : Bool
  deriving DecidableEq, Repr

/-- A port (R477 to R479, R494, R583): its lane target after shedding (a divisor's exponent: 0 full, 1 half, 2 quarter),
whether it retrains, its sub-ports that are up, bytes in this millisecond, sub-ports whose collective priority is
paused. -/
structure Port where
  shed : Nat
  retraining : Bool
  up : List Nat
  bytes : Nat
  paused : List Nat
  lanes : Nat
  /-- packets that an injection rule still drops, by sub-port (R728) -/
  drops : Tbl Nat
  /-- when each sub-port last received an LLDP frame (R497) -/
  lldpAt : Tbl Nat
  deriving DecidableEq, Repr

/-- A port with no link. -/
def Port.reset : Port := ⟨0, false, [], 0, [], 0, [], []⟩

/-- The network interfaces (R477 to R527). -/
structure Net where
  handles : Tbl Handle
  ports : Tbl Port
  ready : List ReadyChunk
  pfcSent : List Nat
  timeSeen : Option Nat
  deriving DecidableEq, Repr

/-- The network with nothing open. -/
def Net.reset : Net :=
  { handles := [], ports := [], ready := [], pfcSent := [], timeSeen := none }

/-! Power (R562 to R605). Energies are in pJ, powers FP32 codes in W. -/

/-- A rail: time of its last valid reading, whether a reading of this window was beyond its limits, consecutive samples
off the set-point, energy of this window in pJ. -/
structure Rail where
  at_ : Nat
  beyond : Bool
  off : Nat
  pj : Int
  deriving DecidableEq, Repr

/-- The governor's state of a partition. Operating point: the target of a change and its phase (0 none; down: 1 PCLK slewing,
2 set-point written; up: 3 set-point written, 4 rail slewing), the set-point being written, the higher point that fits and
since when, the point held before a hinted phase (R565, R586, R587). Margin: held at 0 after a droop storm, time of the last canary warning (R564, R590). Heat: thermal
ceiling, hard limit (R591, R592). Droop: tripped, the millisecond and its episodes (R589). Activity: FP32 code, W, and its
dynamic energy by context in the last tick, the falls that a ballast descent is charged to (R581, R588). Ratios: the last
fresh ones, newest first (binary64 codes), consecutive fresh windows, a held factor (FP32), fresh windows since the last
calibration (R576, R577, R596). Calibration: normal matrix, vector, coefficients to take effect (R595, R598). This window:
the terms (binary64), static energy, charges and ballast by context in pJ (1024 is the device account), engine
nanoseconds by context (R571). -/
structure PowP where
  target : Nat
  phase : Nat
  avs : Option Nat
  fits : Option (Nat × Nat)
  before : Option Nat
  held : Bool
  warned : Option Nat
  ceiling : Nat
  hard : Bool
  tripped : Bool
  episodes : Nat × Nat
  act : Nat
  dyn : Tbl Nat
  falls : Tbl Nat
  hist : List Nat
  streak : Nat
  factor : Option Nat
  fresh : Nat
  nm : List Nat
  bv : List Nat
  next : Option (List Nat)
  x : List Nat
  stat : Nat
  charges : Tbl Nat
  ballast : Tbl Nat
  time : Tbl Nat
  deriving DecidableEq, Repr

/-- A partition as the governor finds it at a reset: no change, no margin, nothing measured. -/
def PowP.reset : PowP :=
  { target := 0, phase := 0, avs := none, fits := none, before := none, held := false, warned := none, ceiling := 11, hard := false,
    tripped := false, episodes := (0, 0), act := 0, dyn := [], falls := [], hist := [], streak := 0, factor := none,
    fresh := 0, nm := List.replicate 144 0, bv := List.replicate 12 0, next := none, x := List.replicate 12 0, stat := 0,
    charges := [], ballast := [], time := [] }

/-- The governor: its partitions, the rails (8 × die + rail select), PWR_CAP_ALERT#, whether the floor is held and for how
many ticks, the memory level and the compute level, the ports that have shed a lane step (the last one first), and the
picojoules of each counter not yet counted in whole microjoules (by context, 2048 + context for ballast, 1024 the package,
4096 + partition for its ballast) (R574, R582 to R585, R649). -/
structure Pow where
  parts : Tbl PowP
  rails : Tbl Rail
  alert : Bool
  floor : Bool
  floorTicks : Nat
  mlev : Nat
  comp : Nat
  shed : List Nat
  rest : Tbl Nat
  acts : Tbl Nat
  deriving DecidableEq, Repr

/-- The governor as it stands at a reset. -/
def Pow.reset : Pow :=
  { parts := [], rails := [], alert := false, floor := false, floorTicks := 0, mlev := 16, comp := 256, shed := [],
    rest := [], acts := [] }

/-! Integrity, start-up and test. -/

/-- A partition reset under way (R616): 1 draining, 2 self-testing; its suspects. -/
structure PReset where
  phase : Nat
  suspects : List Nat
  deriving DecidableEq, Repr

/-- Resets and replays (R616 to R632): resets under way, times of the resets of each partition, the suspect whose turn it
is on a partition, the suspects that await theirs. -/
structure Integ where
  resets : Tbl PReset
  times : Tbl (List Nat)
  turn : Tbl Nat
  await : Tbl (List Nat)
  deriving DecidableEq, Repr

/-- Start-up and security (R685 to R715): whether RESET# is asserted, the start-up runs, a halt, THERMTRIP#, straps; tamper
trips of this start, a restart or a device reset that waits; the armed token action and the challenge (none once it is
invalid); an update under way (type, bytes appended); OTP burns under way (settings slot and image; life-cycle target); the
generation in force, by type the bank that runs, the code that made it fall back (0 none) and its header; the settings
image in force, the snapshot ports that carry a device. -/
structure Boot where
  reset : Bool
  running : Bool
  halted : Bool
  thermtrip : Bool
  straps : Nat
  trips : Nat
  restart : Bool
  resetWait : Bool
  armed : Nat
  challenge : Option Nat
  update : Option (Nat × Nat)
  burnSettings : Option (Nat × Nat)
  burnLife : Option Nat
  settingsGen : Nat
  settings : Option Nat
  banks : List Nat
  fell : List Nat
  headers : List (Option Nat)
  /-- whether the Gardener's keys stand in the secure bank of die 0 (R702, R703) -/
  keys : Bool
  /-- the evidence that each requester sees at 0x6000:31 (R704) -/
  evidence : List (Via × Nat)
  deriving DecidableEq, Repr

/-- A part whose RESET# is asserted. -/
def Boot.cold : Boot :=
  { reset := true, running := false, halted := false, thermtrip := false, straps := 0, trips := 0, restart := false,
    resetWait := false, armed := 0, challenge := none, update := none, burnSettings := none, burnLife := none,
    settingsGen := 0, settings := none, banks := [0, 0], fell := [0, 0], headers := [none, none], keys := false,
    evidence := [] }

/-- The test access port (R731): instruction, bypass bit, boundary cells, 0 normal, 1 driven from the cells, 2 clamped, 3
high-impedance. -/
structure Tap where
  ir : Nat
  bypass : Bool
  cells : Nat
  mode : Nat
  deriving DecidableEq, Repr

end Sys2Proof.Machine
end

