-- ==== Sys2Proof/Machine/Ecc.lean ====
section
/-! DEFINITION. The error codes of the memories: the RS(72,64) code of an HBM line (R255, R257) and the combining of errors
that strike a line or a word one after another. -/
namespace Sys2Proof.Machine
open Sys2Proof

/-- The product of a field element and α, modulo the field polynomial x⁸ + x⁴ + x³ + x² + 1 (R255). -/
def gfTwice (a : Nat) : Nat := if bit a 7 then (2 * a) ^^^ 0x11D else 2 * a

/-- The product of two elements of GF(2⁸) (R255). -/
def gfMul (a b : Nat) : Nat :=
  (List.range 8).foldr (fun i acc => gfTwice acc ^^^ (if bit b i then a else 0)) 0

/-- α to the power n. -/
def gfPow : Nat → Nat
  | 0 => 1
  | n + 1 => gfTwice (gfPow n)

/-- The generator polynomial ∏(x − αʲ), j from 0 to 7, without its leading term, highest power first (R255). -/
def rsGen : List Nat :=
  ((List.range 8).foldl (fun p j =>
    -- the product of p and x − α to the j; in a field of characteristic 2 a difference is a sum
    List.zipWith (· ^^^ ·) (p ++ [0]) (0 :: p.map (gfMul (gfPow j)))) [1]).drop 1

/-- The 8 check bytes of 64 data bytes: the remainder by the generator polynomial, symbol 0 the highest power of x
(R255; the order of the powers is DEDUCED, log entry 251). -/
def rsCheck (data : List Nat) : List Nat :=
  data.foldl (fun rem b =>
    let q := b ^^^ rem.headD 0
    List.zipWith (· ^^^ ·) (rem.drop 1 ++ [0]) (rsGen.map (gfMul q))) (List.replicate 8 0)

/-- The syndromes of a word of 72 symbols: its values at α to the j, j from 0 to 7 (R255). -/
def rsSyndromes (word : List Nat) : List Nat :=
  (List.range 8).map (fun j => word.foldl (fun acc b => gfMul acc (gfPow j) ^^^ b) 0)

/-- Is a word of 72 symbols a codeword? -/
def rsValid (word : List Nat) : Bool := (rsSyndromes word).all (· == 0)

/-- Errors combined with those that a line holds already: changes of one symbol add up in the field, and a symbol whose
changes cancel is right again. -/
def addErrs (held new : List (Nat × Nat)) : List (Nat × Nat) :=
  new.foldl (fun t e =>
    let v := Tbl.look 0 e.1 t ^^^ e.2
    if v = 0 then Tbl.del e.1 t else Tbl.put e.1 v t) held

/-- Errors strike symbols of a line, as (symbol, change). -/
def Store.corrupt (m : Store) (line : Nat) (errs : List (Nat × Nat)) : Store :=
  let now := addErrs (Tbl.look [] line m.hbmErr) errs
  { m with hbmErr := if now.isEmpty then Tbl.del line m.hbmErr else Tbl.put line now m.hbmErr }

/-- Bits of a scratchpad word flip: a bit that flips twice is right again. -/
def Store.flipWord (m : Store) (word flips : Nat) : Store :=
  let now := Tbl.look 0 word m.spadErr ^^^ flips
  { m with spadErr := if now = 0 then Tbl.del word m.spadErr else Tbl.put word now m.spadErr }

/-- n of the symbols 0 to 71, all different, as free picks choose them (R728, log entry 10). -/
def pickSymbols (pick : Nat → Nat) (n : Nat) : List Nat :=
  ((List.range n).foldl (fun (acc : List Nat × List Nat) i =>
    let k := pick i % acc.2.length
    (acc.1 ++ [acc.2.getD k 0], acc.2.eraseIdx k)) ([], List.range 72)).1

end Sys2Proof.Machine
end

