-- ==== Sys2Proof/Config.lean ====
section
/-! DEFINITION. The free values of the model: constants without a body, so that nothing can be proved of their values.
Each is applied to the counter `Dev.fresh` (or to the operands it depends on), and each has its entry in the assumption
log. The 32 host-visible sizes that the spec fixes are here as well. -/
namespace Sys2Proof

/-- What an RS(72,64) decoder answers for a line whose errors lie beyond its capacity (R257): none when it finds the
line uncorrectable, otherwise the 64 bytes it delivers as correct, and whether it counts the line as corrected. Free value
(log entry 4). -/
opaque Config.rsBeyond : Nat → Option (Bool × List Nat)

/-- What the SECDED code of a scratchpad word answers for three or more flipped bits (R203): none when detected,
otherwise the word it delivers as correct. Free value (log entry 5). -/
opaque Config.secdedBeyond : Nat → Option Nat

/-- Bits [31:16] to [15:0] of a runner entry beyond the runner count, which the device leaves undefined (R109). Free
value (log entry 6). -/
opaque Config.runnerRest : Nat → Nat

/-- PCLK cycles that a vector command run in one step stalls and is busy: the spec's rates leave out what the banks and ports
cost (R160, R161, R191). Free values (log entry 245). -/
opaque Config.vecStall : Nat → Nat
opaque Config.vecBusy : Nat → Nat

/-- PCLK cycles that a port of a scratchpad stalls while a tile feeds, a vector tile runs, a drain writes, or a forced scrub read
takes its bank, by port: the spec does not say when a port has a line to transfer (R198, R199, R202, R207). Free value (log
entry 245). -/
opaque Config.portStall : Nat → Nat → Nat

/-- Codewords that the line code of a sub-port corrects, and cannot correct, on the way of a frame: the spec names the code and no
count (R478, R525). Free value (log entry 279). -/
opaque Config.fecCount : Nat → Nat → Nat

/-- PCLK cycles that a drain loses on its port (R100, R102). Free value (log entry 245). -/
opaque Config.drainStall : Nat → Nat

/-- The 16-byte payload of an event in a ring or log entry, for its code and fields: the spec orders the fields but does
not give their widths (R553). Free value (log entry 7). -/
opaque Config.payload : Nat → List Nat → Nat

/-- The reason code of a command that fails because it read poisoned data, or of an update fence that a root-engine job
fails: the spec gives none (R206, R611, R344). Free value (log entry 9). -/
opaque Config.reasonOpen : Nat → Nat

/-- A choice that the spec leaves open: which symbol, word or bit an injected error lands on (R728, log entry 10), which state
an interrupted life-cycle burn leaves (R708, log entry 205), the reading of a tamper detector (R711, log entry 211), the
cause of a failed relock (R717, log entry 49), whether the servo has locked (R725, log entry 41). Free value. -/
opaque Config.pick : Nat → Nat

/-- The window of a flow before its first acknowledgement (R489 gives none). Free value (log entry 22). -/
opaque Config.firstWindow : Nat → Nat

/-- The operation digest of a collective: a function of its opcode, element count, formats, combine code and scheme that the
spec does not give (R485, R507). Free value (log entry 23). -/
opaque Config.opDigest : List Nat → Nat

/-- The 64 bytes of an undo record, for its kind and contents: the spec does not lay them out (R622). Free value (log entry
26). -/
opaque Config.undoBytes : List Nat → Nat

/-- The half, count and slot that an update takes from a version record none of whose halves has a tag below its index: the
spec names no current half there (R310, R311). Free value (log entry 231). -/
opaque Config.noHalf : Nat → Nat → Nat × Nat × Nat

/-- What the PTP servo makes of an offset: its frequency adjustment (R495, R725 give no rule). Free value (log entry 41). -/
opaque Config.servo : Nat → Nat

/-- The power of a partition at the floor, FP32, W: the spec uses it without giving it (R574, R588). Free value (log entry
46). -/
opaque Config.floorPower : Nat → Nat → Nat

/-- What a partition's demand falls to under lower memory or lane levels, FP32, W: the spec has it recomputed without a rule
(R588). Free value (log entry 46). -/
opaque Config.cutDemand : List Nat → Nat

/-- Does a partition's demand fit its share of the budget at an operating point and a duty of 224/256? The spec gives no share
and no model of the demand at another point (R586). Free value (log entry 46). -/
opaque Config.opFits : Nat → Nat → Nat → Bool

/-- What the entropy source gives for a token challenge, 48 bytes (R709). Free value (log entry 47). -/
opaque Config.entropy : Nat → Nat

/-- The cells of the boundary-scan chain, and the word they capture (R733 leaves both to a description outside the spec). Free
values (log entry 71). -/
opaque Config.scanCells : Nat
opaque Config.scanWord : List Nat → Nat

/-- Bytes of one engine's scratchpad: 24 MiB (R193). -/
def Config.spadBytes : Nat := 24 * 1024 * 1024
/-- Bytes of one scratchpad bank: 768 KiB (R193). -/
def Config.bankBytes : Nat := 768 * 1024
/-- Bytes of one stack: 64 GiB, a 36-bit stack offset (R229). -/
def Config.stackBytes : Nat := 2 ^ 36

end Sys2Proof
end

