-- ==== Sys2Proof/Machine/Formats.lean ====
section
/-! DEFINITION. The fifteen number formats, conversion and rounding (Number Formats and Rounding, R21 to R49), the
FP32 arithmetic of the units, and the counts that conversions leave in index 0x5000. A computation that counts runs in
`Num`: its state is the table of increments of the counters of index 0x5000, keyed by sub-index. -/
namespace Sys2Proof.Machine
open Sys2Proof

/-- A numeric computation that counts: the state holds the increments of 0x5000's counters by sub-index. -/
abbrev Num (α : Type) := StateM (Tbl Nat) α

/-- Count `n` events in 0x5000:sub. -/
def Num.count (sub n : Nat) : Num Unit := fun t => ((), Tbl.upd 0 sub (· + n) t)

/-- Count a flush (R26) in 0x5000:04. -/
def countFlush : Num Unit := Num.count 0x04 1
/-- Count a saturation (R29, R36, R47) in 0x5000:05. -/
def countSat : Num Unit := Num.count 0x05 1
/-- Count a NaN (R29, R44, R167) in 0x5000:06. -/
def countNan : Num Unit := Num.count 0x06 1

/-- The parameters of a float format, as the table of R43 lists them. -/
structure Fmt where
  width : Nat
  mbits : Nat
  bias : Int
  maxmag : Nat
  infmag : Nat
  nan : Nat
  hasInf : Bool
  hasNeg0 : Bool
  subnormals : Bool
  signed : Bool
  deriving DecidableEq, Repr

/-- FP32 (R43). -/
def fp32 : Fmt := ⟨32, 23, 127, 0x7F7FFFFF, 0x7F800000, 0x7FC00000, true, true, false, true⟩
/-- BF16 (R43). -/
def bf16 : Fmt := ⟨16, 7, 127, 0x7F7F, 0x7F80, 0x7FC0, true, true, true, true⟩
/-- FP16 (R43). -/
def fp16 : Fmt := ⟨16, 10, 15, 0x7BFF, 0x7C00, 0x7E00, true, true, true, true⟩
/-- FP8 E4M3 (R43). -/
def e4m3 : Fmt := ⟨8, 3, 7, 0x7E, 0, 0x7F, false, true, true, true⟩
/-- FP8 E5M2 (R43). -/
def e5m2 : Fmt := ⟨8, 2, 15, 0x7B, 0x7C, 0x7E, true, true, true, true⟩
/-- FP6 E2M3 (R43). -/
def e2m3 : Fmt := ⟨6, 3, 1, 0x1F, 0, 0x20, false, false, true, true⟩
/-- FP4 E2M1 (R43). -/
def e2m1 : Fmt := ⟨4, 1, 1, 0x7, 0, 0x8, false, false, true, true⟩
/-- UE5M3 (R43). -/
def ue5m3 : Fmt := ⟨8, 3, 15, 0xFE, 0, 0xFF, false, false, true, false⟩
/-- M48 (R38, R43). -/
def m48 : Fmt := ⟨48, 39, 127, 0x7F7FFFFFFFFF, 0x7F8000000000, 0x7FC000000000, true, true, false, true⟩
/-- Binary64, used by the calibration arithmetic of the energy model (R596); no stored format. -/
def fp64 : Fmt := ⟨64, 52, 1023, 0x7FEFFFFFFFFFFFFF, 0x7FF0000000000000, 0x7FF8000000000000, true, true, true, true⟩

/-- The element float format of a format code (R21); a block-scaled code gives its element's format. -/
def floatFmt : Nat → Option Fmt
  | 0x0 => some fp32 | 0x1 => some bf16 | 0x2 => some fp16 | 0x3 => some e4m3 | 0x4 => some e5m2
  | 0x5 => some e2m3 | 0x6 => some e2m1 | 0xB => some ue5m3 | 0xC => some e2m1 | 0xD => some e4m3
  | 0xE => some m48 | 0x10 => some fp64 | _ => none

/-- The width of an integer format code (R21), if it is one. -/
def intWidth : Nat → Option Nat
  | 0x7 => some 8 | 0x8 => some 4 | 0x9 => some 2 | 0xA => some 32 | _ => none

/-- Bits one element of a format code takes (R21, R30: a block's scale is stored apart). -/
def elemBits : Nat → Nat
  | 0x0 => 32 | 0x1 => 16 | 0x2 => 16 | 0x3 => 8 | 0x4 => 8 | 0x5 => 6 | 0x6 => 4 | 0x7 => 8 | 0x8 => 4
  | 0x9 => 2 | 0xA => 32 | 0xB => 8 | 0xC => 4 | 0xD => 8 | 0xE => 48 | _ => 8

/-- Is a format code block-scaled (VB4, VB8)? -/
def isBlock (c : Nat) : Bool := c == 0xC || c == 0xD

/-- Is a format code an integer format? -/
def isInt (c : Nat) : Bool := (intWidth c).isSome

/-- The four classes of an unpacked source. -/
inductive Cls where
  | zero | finite | inf | nan
  deriving DecidableEq, Repr

/-- An unpacked source: its value is (−1)^s × sig × 2^(e−63), with bit 63 of `sig` set when it is finite. -/
structure Unp where
  cls : Cls
  s : Bool
  e : Int
  sig : Nat
  deriving DecidableEq, Repr

/-- A finite unpacked value from a magnitude `m > 0` times 2^x; bits that do not fit 64 are kept as a sticky lowest
bit, which no rounding of at most 40 bits tells from the exact rest. -/
def normalise (s : Bool) (m : Nat) (x : Int) : Unp :=
  if m = 0 then ⟨.zero, s, 0, 0⟩ else
  let l := Nat.log2 m
  if l ≤ 63 then ⟨.finite, s, x + l, m <<< (63 - l)⟩
  else
    let sh := l - 63
    let q := m >>> sh
    let q := if q <<< sh = m then q else q ||| 1
    ⟨.finite, s, x + l, q⟩

/-- The unpacked value of a float code (R25 to R28: subnormals of flushed formats are zero). The head alone decides whether
an M48 code is an infinity or a NaN (R38), so the tail of such a code is dropped. -/
def unpackFloat (t : Fmt) (c : Nat) : Unp :=
  let c := if t.width = 48 && bits c 46 39 = 0xFF then c - c % 2 ^ 16 else c
  let s := t.signed && bit c (t.width - 1)
  let mag := if t.signed then c % 2 ^ (t.width - 1) else c % 2 ^ t.width
  let isNan :=
    if t.hasInf then decide (t.infmag < mag)
    else if t.hasNeg0 || !t.signed then decide (t.maxmag < mag)
    else s && mag == 0
  if isNan then ⟨.nan, false, 0, 0⟩
  else if t.hasInf && mag == t.infmag then ⟨.inf, s, 0, 0⟩
  else
    let ex := mag >>> t.mbits
    let fr := mag % 2 ^ t.mbits
    if ex = 0 then
      if fr = 0 || !t.subnormals then ⟨.zero, s, 0, 0⟩
      else normalise s fr (1 - t.bias - t.mbits)
    else normalise s (fr + 2 ^ t.mbits) ((ex : Int) - t.bias - t.mbits)

/-- The unpacked value of an integer. -/
def unpackInt (v : Int) : Unp := normalise (decide (v < 0)) v.natAbs 0

/-- round_core of R43. -/
def roundCore (s : Bool) (sig : Nat) (keep : Int) (mode r : Nat) : Nat :=
  let (q, rest, sticky) :=
    if keep > 0 then
      let k := keep.toNat
      (sig >>> (64 - k), (sig <<< k) % 2 ^ 64, false)
    else
      let k := (-keep).toNat
      if k < 64 then (0, sig >>> k, decide ((sig >>> k) <<< k ≠ sig)) else (0, 0, true)
  let inexact := rest != 0 || sticky
  let half := 2 ^ 63
  let up :=
    match mode with
    | 0 => if rest > half || (rest == half && sticky) then 1
           else if rest == half && !sticky then q % 2 else 0
    | 1 => if (rest >>> 48) + r ≥ 0x10000 then 1 else 0
    | 3 => b2n (s && inexact)
    | 4 => b2n (!s && inexact)
    | _ => 0
  q + up

/-- pack of R43. -/
def packMag (s : Bool) (mag : Nat) (t : Fmt) : Nat :=
  if !t.signed then mag
  else if mag = 0 && !t.hasNeg0 then 0
  else (b2n s) <<< (t.width - 1) ||| mag

/-- round_float of R43, with the counts of R26 and R29. -/
def roundFloat (s : Bool) (e : Int) (sig : Nat) (t : Fmt) (mode : Nat) (sat : Bool) (r : Nat) : Num Nat := do
  let emin : Int := 1 - t.bias
  let low := t.subnormals && decide (e < emin)
  let keep : Int := if low then 1 + t.mbits - (emin - e) else 1 + t.mbits
  let ebase := if low then emin else e
  let q := roundCore s sig keep mode r
  let mag : Int := (ebase + t.bias - 1) * (2 ^ t.mbits : Nat) + q
  if !t.subnormals && decide (mag < (2 ^ t.mbits : Nat)) then
    countFlush
    return packMag s 0 t
  if mag > t.maxmag then
    let toInf := mode ≤ 1 || (mode == 3 && s) || (mode == 4 && !s)
    if t.hasInf && !sat && toInf then return packMag s t.infmag t
    countSat
    return packMag s t.maxmag t
  return packMag s mag.toNat t

/-- convert_float of R43, with the counts of R29. -/
def convertFloat (u : Unp) (t : Fmt) (mode : Nat) (sat : Bool) (r : Nat) : Num Nat := do
  match u.cls with
  | .nan => return t.nan
  | .zero => return packMag u.s 0 t
  | .inf =>
    if !t.signed && u.s then
      countNan
      return t.nan
    if t.hasInf then return packMag u.s t.infmag t
    countSat
    return packMag u.s t.maxmag t
  | .finite =>
    if !t.signed && u.s then
      countNan
      return t.nan
    roundFloat u.s u.e u.sig t mode sat r

/-- The least and the greatest value of an integer format (R21). -/
def intMin (w : Nat) : Int := -((2 ^ (w - 1) : Nat) : Int)
/-- The greatest value of an integer format (R21). -/
def intMax (w : Nat) : Int := ((2 ^ (w - 1) : Nat) : Int) - 1

/-- convert_int of R43, with the counts of R44 and R47 (a float saturates into an integer format). A finite value or an
infinity that saturates is counted in 0x5000:05, though R44 does not say so and the entry names R29, R36 and R47 (DESIGN
CHOICE, log entry 239). -/
def convertInt (u : Unp) (w : Nat) (mode r : Nat) : Num Nat := do
  match u.cls with
  | .nan =>
    countNan
    return 0
  | .zero => return 0
  | .inf =>
    countSat
    return ofSigned w (if u.s then intMin w else intMax w)
  | .finite =>
    if u.e ≥ 32 then
      countSat
      return ofSigned w (if u.s then intMin w else intMax w)
    let q : Int := roundCore u.s u.sig (u.e + 1) mode r
    let v := if u.s then -q else q
    if v < intMin w || v > intMax w then countSat
    return ofSigned w (min (max v (intMin w)) (intMax w))

/-- An integer result narrowed to `w` bits under the integer-overflow field (R47): 0 saturates, 1 wraps. -/
def narrowInt (w ovf : Nat) (v : Int) : Num Nat := do
  if ovf = 1 then return ofSigned w v
  if v < intMin w || v > intMax w then countSat
  return ofSigned w (min (max v (intMin w)) (intMax w))

/-- mix64 of R48. -/
def mix64 (x : Nat) : Nat :=
  let x := x % two64
  let x := x ^^^ (x >>> 31)
  let x := x * 0x9E6C63D0676A9A99 % two64
  let x := x ^^^ (x >>> 29)
  let x := x * 0xB3F12D8AC56E417B % two64
  x ^^^ (x >>> 32)

/-- sr_bits of R48. -/
def srBits (seed tensorId step index : Nat) : Nat :=
  mix64 ((seed ^^^ (tensorId <<< 40) ^^^ (step <<< 20) ^^^ index) % two64) >>> 48

/-- The inputs of a rounding: mode, saturation flag, and the generator inputs of R49 but for the index. -/
structure Rnd where
  mode : Nat
  sat : Bool
  seed : Nat
  tensor : Nat
  step : Nat
  deriving DecidableEq, Repr

/-- Round to nearest even, saturation off: the rounding of the internal FP32 arithmetic. -/
def Rnd.rne : Rnd := ⟨0, false, 0, 0, 0⟩

/-- The random value of an element under a rounding: sr_bits for SR, otherwise not used (R48, R49). -/
def Rnd.r (d : Rnd) (index : Nat) : Nat := if d.mode = 1 then srBits d.seed d.tensor d.step index else 0

/-! Exact values: a class, and for a finite value a signed magnitude times a power of two. -/

/-- The exact product of two unpacked values, as (sign, magnitude, exponent of its unit). -/
def Unp.mag (u : Unp) : Nat × Int := (u.sig, u.e - 63)

/-- FP32 result of an exact finite magnitude under RNE with the flush of R26. -/
def fp32Of (s : Bool) (m : Nat) (x : Int) : Num Nat :=
  let u := normalise s m x
  convertFloat u fp32 0 false 0

/-- The canonical FP32 NaN. -/
def nan32 : Nat := 0x7FC00000

/-- The negation of a float code of a format with a sign. -/
def negCode (t : Fmt) (c : Nat) : Nat := c ^^^ (1 <<< (t.width - 1))

/-- A signed exact sum of two dyadic values (m₁·2^x₁ and m₂·2^x₂ with their signs). -/
def addDyadic (s1 : Bool) (m1 : Nat) (x1 : Int) (s2 : Bool) (m2 : Nat) (x2 : Int) : Int × Int :=
  let x := min x1 x2
  let a : Int := (m1 <<< (x1 - x).toNat : Nat)
  let b : Int := (m2 <<< (x2 - x).toNat : Nat)
  ((if s1 then -a else a) + (if s2 then -b else b), x)

/-- Addition in format `t` with RNE; NaN made of infinities of opposite signs is counted (R167). -/
def addF (t : Fmt) (a b : Nat) : Num Nat := do
  let u := unpackFloat t a
  let v := unpackFloat t b
  match u.cls, v.cls with
  | .nan, _ => return t.nan
  | _, .nan => return t.nan
  | .inf, .inf =>
    if u.s = v.s then return packMag u.s t.infmag t
    countNan
    return t.nan
  | .inf, _ => return packMag u.s t.infmag t
  | _, .inf => return packMag v.s t.infmag t
  | .zero, .zero => return packMag (u.s && v.s) 0 t
  | .zero, .finite => convertFloat v t 0 false 0
  | .finite, .zero => convertFloat u t 0 false 0
  | .finite, .finite =>
    let (m1, x1) := u.mag
    let (m2, x2) := v.mag
    let (r, x) := addDyadic u.s m1 x1 v.s m2 x2
    if r = 0 then return packMag false 0 t
    convertFloat (normalise (decide (r < 0)) r.natAbs x) t 0 false 0

/-- Multiplication in format `t` with RNE; zero times infinity is a counted NaN. -/
def mulF (t : Fmt) (a b : Nat) : Num Nat := do
  let u := unpackFloat t a
  let v := unpackFloat t b
  let s := u.s != v.s
  match u.cls, v.cls with
  | .nan, _ => return t.nan
  | _, .nan => return t.nan
  | .inf, .zero => countNan; return t.nan
  | .zero, .inf => countNan; return t.nan
  | .inf, _ => return packMag s t.infmag t
  | _, .inf => return packMag s t.infmag t
  | .zero, _ => return packMag s 0 t
  | _, .zero => return packMag s 0 t
  | .finite, .finite =>
    convertFloat (normalise s (u.sig * v.sig) (u.e + v.e - 126)) t 0 false 0

/-- a × b + c in format `t`, rounded once with RNE. -/
def fmaF (t : Fmt) (a b c : Nat) : Num Nat := do
  let u := unpackFloat t a
  let v := unpackFloat t b
  let w := unpackFloat t c
  if u.cls = .nan || v.cls = .nan || w.cls = .nan then return t.nan
  let s := u.s != v.s
  if (u.cls = .inf && v.cls = .zero) || (u.cls = .zero && v.cls = .inf) then
    countNan
    return t.nan
  if u.cls = .inf || v.cls = .inf then
    if w.cls = .inf && w.s != s then
      countNan
      return t.nan
    return packMag s t.infmag t
  if w.cls = .inf then return packMag w.s t.infmag t
  if u.cls = .zero || v.cls = .zero then
    if w.cls = .zero then return packMag (s && w.s) 0 t
    return (← convertFloat w t 0 false 0)
  let m := u.sig * v.sig
  let x := u.e + v.e - 126
  if w.cls = .zero then return (← convertFloat (normalise s m x) t 0 false 0)
  let (m2, x2) := w.mag
  let (r, xr) := addDyadic s m x w.s m2 x2
  if r = 0 then return packMag false 0 t
  convertFloat (normalise (decide (r < 0)) r.natAbs xr) t 0 false 0

/-- The unpacked quotient of two finite unpacked values, exact up to its sticky lowest bit. -/
def divU (u v : Unp) : Unp :=
  let s := u.s != v.s
  let n := u.sig <<< 70
  let q := n / v.sig
  let q := if q * v.sig = n then 2 * q else 2 * q + 1
  normalise s q (u.e - v.e - 71)

/-- Division in format `t` with RNE: 0/0 and Inf/Inf are counted NaNs, x/0 is an infinity. -/
def divF (t : Fmt) (a b : Nat) : Num Nat := do
  let u := unpackFloat t a
  let v := unpackFloat t b
  let s := u.s != v.s
  match u.cls, v.cls with
  | .nan, _ => return t.nan
  | _, .nan => return t.nan
  | .inf, .inf => countNan; return t.nan
  | .zero, .zero => countNan; return t.nan
  | .inf, _ => return packMag s t.infmag t
  | _, .inf => return packMag s 0 t
  | .zero, _ => return packMag s 0 t
  | .finite, .zero => return packMag s t.infmag t
  | .finite, .finite => convertFloat (divU u v) t 0 false 0

/-- The integer square root (greatest r with r² ≤ n), digit by digit; `f` bits of result. -/
def isqrtAux : Nat → Nat → Nat → Nat
  | 0, _, r => r
  | f + 1, n, r =>
    let t := r + 2 ^ f
    if t * t ≤ n then isqrtAux f n t else isqrtAux f n r

/-- The integer square root. -/
def isqrt (n : Nat) : Nat := isqrtAux (Nat.log2 n / 2 + 1) n 0

/-- Square root in format `t` with RNE: a negative non-zero operand is a counted NaN. -/
def sqrtF (t : Fmt) (a : Nat) : Num Nat := do
  let u := unpackFloat t a
  match u.cls with
  | .nan => return t.nan
  | .zero => return packMag u.s 0 t
  | .inf =>
    if u.s then
      countNan
      return t.nan
    return packMag false t.infmag t
  | .finite =>
    if u.s then
      countNan
      return t.nan
    let x := u.e - 63
    let sh := if x % 2 = 0 then 70 else 71
    let n := u.sig <<< sh
    let r := isqrt n
    let q := if r * r = n then 2 * r else 2 * r + 1
    convertFloat (normalise false q ((x - sh) / 2 - 1)) t 0 false 0

/-- Subtraction in format `t`. -/
def subF (t : Fmt) (a b : Nat) : Num Nat :=
  if (unpackFloat t b).cls = .nan then return t.nan else addF t a (negCode t b)

/-- FP32 addition, subtraction, multiplication, fused multiply-add, division and square root, all RNE with the flush
of R26. -/
def add32 (a b : Nat) : Num Nat := addF fp32 a b
/-- FP32 subtraction. -/
def sub32 (a b : Nat) : Num Nat := subF fp32 a b
/-- FP32 multiplication. -/
def mul32 (a b : Nat) : Num Nat := mulF fp32 a b
/-- FP32 fused multiply-add. -/
def fma32 (a b c : Nat) : Num Nat := fmaF fp32 a b c
/-- FP32 division. -/
def div32 (a b : Nat) : Num Nat := divF fp32 a b
/-- FP32 square root. -/
def sqrt32 (a : Nat) : Num Nat := sqrtF fp32 a

/-- A float code read with the flush of its format: a subnormal of a flushed format is zero of its sign, a NaN is the
canonical NaN (R26, R28). -/
def canon (t : Fmt) (c : Nat) : Nat :=
  let u := unpackFloat t c
  match u.cls with
  | .nan => t.nan
  | .zero => packMag u.s 0 t
  | _ => c % 2 ^ t.width

/-- Order of two float codes, neither a NaN: is a < b? Zeros of both signs are equal. -/
def ltF (t : Fmt) (a b : Nat) : Bool :=
  let val := fun (u : Unp) (x0 : Int) => match u.cls with
    | .zero => (0 : Int)
    | .finite => let m : Int := (u.sig <<< (u.e - x0).toNat : Nat); if u.s then -m else m
    | _ => 0
  let u := unpackFloat t a
  let v := unpackFloat t b
  match u.cls, v.cls with
  | .nan, _ => false
  | _, .nan => false
  | .inf, .inf => u.s && !v.s
  | .inf, _ => u.s
  | _, .inf => !v.s
  | _, _ =>
    let eu := if u.cls = .finite then u.e else v.e
    let ev := if v.cls = .finite then v.e else u.e
    let x0 := min eu ev
    decide (val u x0 < val v x0)

/-- Is a code of the format a NaN? -/
def isNanF (t : Fmt) (c : Nat) : Bool := (unpackFloat t c).cls = .nan
/-- Is an FP32 code a NaN? -/
def isNan32 (c : Nat) : Bool := isNanF fp32 c
/-- Is an FP32 code neither a NaN nor an infinity? -/
def isFinite32 (c : Nat) : Bool := (unpackFloat fp32 c).cls = .zero || (unpackFloat fp32 c).cls = .finite
/-- |x| of an FP32 code. -/
def abs32 (c : Nat) : Nat := c % 2 ^ 31
/-- −x of an FP32 code. -/
def neg32 (c : Nat) : Nat := negCode fp32 c
/-- a < b for FP32 codes. -/
def lt32 (a b : Nat) : Bool := ltF fp32 a b
/-- The FP32 value 1.0. -/
def one32 : Nat := 0x3F800000

/-- A tile scale is admitted when it is positive, finite and normal (R37). -/
def tileScaleOk (t : Nat) : Bool := 0x00800000 ≤ t && t ≤ 0x7F7FFFFF

/-- The FP32 code of an element code of a format: exact widening, an integer by R43 with RNE (R755). A value below 2^-126 is
an operand read as zero, which counts no flush (R26, R162; DEDUCED, log entry 227). -/
def toFp32 (fmtCode c : Nat) : Num Nat :=
  match intWidth fmtCode with
  | some w => convertFloat (unpackInt (toSigned w c)) fp32 0 false 0
  | none =>
    match floatFmt fmtCode with
    | some t =>
      let u := unpackFloat t c
      if u.cls = .finite && u.e < -126 then return packMag u.s 0 fp32 else convertFloat u fp32 0 false 0
    | none => return nan32

/-- The FP32 value of a block-scaled element: T × (S × x), S × x exact, one rounding (R35). -/
def decodeBlock (fmtCode scale elem tile : Nat) : Num Nat := do
  if scale = 0 then return 0
  let t := if fmtCode = 0xC then e2m1 else e4m3
  let u := unpackFloat ue5m3 scale
  let v := unpackFloat t elem
  if u.cls = .nan || v.cls = .nan then return nan32
  if v.cls = .zero then
    -- zero times a positive tile scale keeps its sign
    return packMag v.s 0 fp32
  let w := unpackFloat fp32 tile
  convertFloat (normalise (v.s != w.s) (u.sig * v.sig * w.sig) (u.e + v.e + w.e - 189)) fp32 0 false 0

/-- A source code of a format converted to a destination code, neither block-scaled (R43, R44, R46). -/
def convertCode (src dst c : Nat) (d : Rnd) (index ovf : Nat) : Num Nat := do
  match intWidth src, intWidth dst with
  | some ws, some wd =>
    if ws ≤ wd then return ofSigned wd (toSigned ws c) else narrowInt wd ovf (toSigned ws c)
  | some ws, none =>
    match floatFmt dst with
    | some t => convertFloat (unpackInt (toSigned ws c)) t d.mode d.sat (d.r index)
    | none => return 0
  | none, some wd =>
    match floatFmt src with
    | some t => convertInt (unpackFloat t c) wd d.mode (d.r index)
    | none => return 0
  | none, none =>
    match floatFmt src, floatFmt dst with
    | some ts, some td => convertFloat (unpackFloat ts c) td d.mode d.sat (d.r index)
    | _, _ => return 0

/-- emax_el of a block-scaled format, as FP32: 6 for VB4, 448 for VB8 (R36). -/
def emaxEl (fmtCode : Nat) : Nat := if fmtCode = 0xC then 0x40C00000 else 0x43E00000

/-- The greatest magnitude among FP32 codes, none a NaN. -/
def maxAbs32 (l : List Nat) : Nat := l.foldl (fun a x => max a (abs32 (canon fp32 x))) 0

/-- The UE5M3 scale of a block from the largest magnitude left in it (R36 step 6: RUP with saturation). -/
def blockScale (fmtCode a : Nat) : Num Nat := do
  let q ← div32 a (emaxEl fmtCode)
  convertFloat (unpackFloat fp32 q) ue5m3 4 true 0

end Sys2Proof.Machine
end

