-- ==== Sys2Proof/Machine/Funcs.lean ====
section
/-! DEFINITION. The correctly rounded primitives of the vector and root engines (R173) and the composed functions of
R174. The primitives that no quotient or root gives exactly, exp2 and log2, are computed in fixed point to 160 bits
beyond the point with a sticky lowest bit; an FP32 argument never lies so near a rounding boundary (DEDUCED, log entry
12), so the rounding of that value is the rounding of the exact one. -/
namespace Sys2Proof.Machine
open Sys2Proof

/-- ln 2 in units of 2^−200, rounded down. -/
def ln2Fix : Nat := 1113844574712631719546256151097547306333272293549090750737802

/-- The fixed-point precision of the series, in bits. -/
def fixP : Nat := 200

/-- Σ yⁿ/n! in fixed point: `term` is the current term, `n` its index (fuel first). -/
def expSeries : Nat → Nat → Nat → Nat → Nat → Nat
  | 0, _, _, _, acc => acc
  | f + 1, y, n, term, acc =>
    let term' := term * y / (n * 2 ^ fixP)
    if term' = 0 then acc else expSeries f y (n + 1) term' (acc + term')

/-- 2^f for a fraction f in units of 2^−fixP, in units of 2^−fixP. -/
def exp2Frac (f : Nat) : Nat :=
  expSeries 80 (f * ln2Fix / 2 ^ fixP) 1 (2 ^ fixP) (2 ^ fixP)

/-- Σ t^(2n+1)/(2n+1) in fixed point (fuel first). -/
def atanhSeries : Nat → Nat → Nat → Nat → Nat → Nat
  | 0, _, _, _, acc => acc
  | f + 1, t2, n, pow, acc =>
    if pow = 0 then acc else atanhSeries f t2 (n + 1) (pow * t2 / 2 ^ fixP) (acc + pow / (2 * n + 1))

/-- A primitive was evaluated (counted in 0x3000+e:12; key 0x112 of the increments). -/
def countPrim : Num Unit := Num.count 0x112 1

/-- 2^x as an unpacked value, for a finite x that is not zero; 1 + a sticky bit when |x| < 2^−26. -/
def exp2U (u : Unp) : Unp :=
  if u.e < -26 then
    -- 1 ± a tail below every rounding boundary
    if u.s then normalise false (2 ^ 62 - 1) (-62) else normalise false (2 ^ 62 + 1) (-62)
  else if u.e > 12 then ⟨.finite, false, if u.s then -5000 else 5000, 2 ^ 63⟩
  else
    -- x = u.sig · 2^(e−63) as a fixed-point number with fixP bits after the point
    let m : Nat := if u.e + (fixP : Int) - 63 ≥ 0 then u.sig <<< (u.e + fixP - 63).toNat else u.sig
    let x : Int := if u.s then -(m : Int) else m
    let k : Int := x / ((2 ^ fixP : Nat) : Int)
    let f : Nat := (x - k * (2 ^ fixP : Nat)).toNat
    if f = 0 then ⟨.finite, false, k, 2 ^ 63⟩
    else normalise false (2 * exp2Frac f + 1) (k - fixP - 1)

/-- exp2 of an FP32 code, correctly rounded (R173). -/
def exp2F (a : Nat) : Num Nat := do
  countPrim
  let u := unpackFloat fp32 a
  match u.cls with
  | .nan => return nan32
  | .zero => return one32
  | .inf => return (if u.s then 0 else fp32.infmag)
  | .finite => convertFloat (exp2U u) fp32 0 false 0

/-- π in units of 2^−fixP. -/
def piFix : Nat := 5048344754617993871973410141242436836214643421488662971535368

/-- Σ (−1)^k y^(2k+1)/(2k+1)! in fixed point (fuel first). -/
def sinSeries : Nat → Nat → Nat → Int → Int → Int
  | 0, _, _, _, acc => acc
  | f + 1, y2, n, term, acc =>
    let next := -(term * (y2 : Int) / (((2 * n) * (2 * n + 1) * 2 ^ fixP : Nat) : Int))
    if next = 0 then acc else sinSeries f y2 (n + 1) next (acc + next)

/-- cospi of R328: the correctly rounded cos(πx) of an FP32 code from 0 to 1. -/
def cospiF (a : Nat) : Num Nat := do
  let u := unpackFloat fp32 a
  if u.cls = .nan then return nan32
  if u.cls ≠ .finite then return one32
  let x : Nat := if u.e + (fixP : Int) - 63 ≥ 0 then u.sig <<< (u.e + fixP - 63).toNat else u.sig >>> (63 - fixP - u.e).toNat
  let half := 2 ^ (fixP - 1)
  if 2 ^ fixP ≤ x then return 0xBF800000
  if x = half then return 0
  let z := if x < half then half - x else x - half
  let y := z * piFix / 2 ^ fixP
  let c := (sinSeries 60 (y * y / 2 ^ fixP) 1 y y).toNat
  convertFloat (normalise (decide (half < x)) (2 * c + 1) (-(fixP : Int) - 1)) fp32 0 false 0

/-- log2 of a positive finite unpacked value that is not a power of two, as an unpacked value. -/
def log2U (u : Unp) : Unp :=
  -- m in [1, 2) in fixed point; moved to [√½, √2) so that the series converges fast
  let m : Nat := u.sig <<< (fixP - 63)
  let up := decide (m * m > 2 * 2 ^ (2 * fixP))
  let e : Int := if up then u.e + 1 else u.e
  let one : Nat := 2 ^ fixP
  let d : Nat := if up then 2 * one else one
  -- t = (m − d)/(m + d)
  let neg := decide (m < d)
  let t : Nat := (if neg then d - m else m - d) * one / (m + d)
  let ln : Nat := 2 * atanhSeries 110 (t * t / one) 0 t 0
  let l2 : Nat := ln * one / ln2Fix
  let v : Int := e * (one : Nat) + (if neg then -(l2 : Int) else l2)
  normalise (decide (v < 0)) (2 * v.natAbs + 1) (-(fixP : Int) - 1)

/-- log2 of an FP32 code, correctly rounded (R173); a negative operand gives a counted NaN. -/
def log2F (a : Nat) : Num Nat := do
  countPrim
  let u := unpackFloat fp32 a
  match u.cls with
  | .nan => return nan32
  | .zero => return packMag true fp32.infmag fp32
  | .inf =>
    if u.s then
      countNan
      return nan32
    return fp32.infmag
  | .finite =>
    if u.s then
      countNan
      return nan32
    if u.sig = 2 ^ 63 then return (← convertFloat (unpackInt u.e) fp32 0 false 0)
    convertFloat (log2U u) fp32 0 false 0

/-- 1/x (R173). -/
def rcpF (a : Nat) : Num Nat := do
  countPrim
  div32 one32 a

/-- √x (R173). -/
def sqrtP (a : Nat) : Num Nat := do
  countPrim
  sqrt32 a

/-- 1/√x, correctly rounded (R173). -/
def rsqrtF (a : Nat) : Num Nat := do
  countPrim
  let u := unpackFloat fp32 a
  match u.cls with
  | .nan => return nan32
  | .zero => return packMag u.s fp32.infmag fp32
  | .inf =>
    if u.s then
      countNan
      return nan32
    return 0
  | .finite =>
    if u.s then
      countNan
      return nan32
    -- value sig·2^x; take x even, then 1/√ = √(2^200/sig)·2^(−x/2−100)
    let x := u.e - 63
    let (sg, x) := if x % 2 = 0 then (u.sig, x) else (2 * u.sig, x - 1)
    let n := 2 ^ 260 / sg
    let q := isqrt n
    let q' := if q * q * sg = 2 ^ 260 then 2 * q else 2 * q + 1
    convertFloat (normalise false q' (-(x / 2) - 131)) fp32 0 false 0

/-- The quotient of VDIV (R173). -/
def quotF (a b : Nat) : Num Nat := do
  countPrim
  div32 a b

/-- f_exp of R174. -/
def fExp (x : Nat) : Num Nat := do exp2F (← mul32 x 0x3FB8AA3B)
/-- f_log of R174. -/
def fLog (x : Nat) : Num Nat := do mul32 (← log2F x) 0x3F317218
/-- f_tanh of R174. -/
def fTanh (x : Nat) : Num Nat := do
  let t ← exp2F (← mul32 (abs32 x) 0xC038AA3B)
  let r ← quotF (← sub32 one32 t) (← add32 one32 t)
  if isNan32 r then return nan32
  return (abs32 r) ||| ((x >>> 31) % 2) <<< 31
/-- f_sigmoid of R174. -/
def fSigmoid (x : Nat) : Num Nat := do
  rcpF (← add32 one32 (← fExp (neg32 x)))
/-- f_silu of R174. -/
def fSilu (x : Nat) : Num Nat := do mul32 x (← fSigmoid x)
/-- f_gelu of R174. -/
def fGelu (x : Nat) : Num Nat := do
  let x3 ← mul32 (← mul32 x x) x
  let u ← mul32 0x3F4C422A (← fma32 0x3D372713 x3 x)
  mul32 (← mul32 0x3F000000 x) (← add32 one32 (← fTanh u))

/-- The function codes of VFUNC (R175); codes 15 to 31 are refused before this is asked. -/
def vfunc (fn x : Nat) : Num Nat :=
  match fn with
  | 0 => return if isNan32 x then nan32 else neg32 x
  | 1 => return if isNan32 x then nan32 else abs32 x
  | 2 => mul32 x x
  | 3 => return if isNan32 x then nan32 else if bit x 31 || x = 0 then 0 else x
  | 4 => rcpF x
  | 5 => sqrtP x
  | 6 => rsqrtF x
  | 7 => exp2F x
  | 8 => log2F x
  | 9 => fExp x
  | 10 => fLog x
  | 11 => fTanh x
  | 12 => fSigmoid x
  | 13 => fSilu x
  | 14 => fGelu x
  | _ => return nan32

/-- The comparison codes of VSEL (R171); a comparison with a NaN holds only for code 3. -/
def vcmp (code a b : Nat) : Bool :=
  if isNan32 a || isNan32 b then code == 3
  else
    let lt := lt32 a b
    let gt := lt32 b a
    match code with
    | 0 => gt
    | 1 => !lt
    | 2 => !lt && !gt
    | 3 => lt || gt
    | 4 => lt
    | 5 => !gt
    | _ => false

/-- The place of a float code in the ranking order of R176, as an integer that rises with rank: −Inf lowest, negative
values, −0, +0, positive values, +Inf, NaN highest. -/
def rankF (t : Fmt) (c : Nat) : Int :=
  let w := t.width - 1
  let mag := c % 2 ^ w
  if isNanF t c then ((2 ^ w : Nat) : Int) + 1
  else if t.signed && bit c w then -(mag : Int) - 1
  else mag

end Sys2Proof.Machine
end

