-- ==== Sys2Proof/Machine/Blocks.lean ====
section
/-! DEFINITION. Encoding of elements, blocks and precision tiles: block scaling (R35, R36, R41), runner selection
(R111 to R113), clamping and the counts of a tile entry (R116, R121), the widening ladders (R123), the rotations (R145,
R150) and the strip selection of the tile check (R124). -/
namespace Sys2Proof.Machine
open Sys2Proof

/-- Run a computation, keep its increments for the caller as well. -/
def Num.withCounts {α : Type} (m : Num α) : Num (α × Tbl Nat) := fun t =>
  let (a, c) := m.run []
  ((a, c), c.foldl (fun t p => Tbl.upd 0 p.1 (· + p.2) t) t)

/-- A source element of an encoding: its code, its place in the tile (R109), and its index for SR (R49). -/
structure SrcEl where
  code : Nat
  pos : Nat
  index : Nat
  deriving DecidableEq, Repr

/-- How the encoder reads its sources: FP32 codes, or M48 codes taken exactly (R41). -/
def srcFmt (isM48 : Bool) : Fmt := if isM48 then m48 else fp32

/-- x / T for an exact x of format `t`, rounded once to FP32 with RNE (R41, R755). -/
def quotExact (t : Fmt) (x tile : Nat) : Num Nat :=
  let u := unpackFloat t x
  if u.cls = .finite then convertFloat (divU u (unpackFloat fp32 tile)) fp32 0 false 0 else convertFloat u fp32 0 false 0

/-- y = x / T in FP32 with RNE (R36 step 1; for M48 the exact quotient rounded once, R41). -/
def quotT (isM48 : Bool) (x tile : Nat) : Num Nat := if isM48 then quotExact m48 x tile else div32 x tile

/-- The float format that an element format code converts to: the element of a block or the format itself. -/
def elemFmt (code : Nat) : Fmt := (floatFmt code).getD fp32

/-- Step 7 of R36 for one element: y / S in FP32 then the conversion; for M48 the exact quotient x / (T × S) once. A scale of
0x00 divides as any other: the quotient is an infinity, or a NaN for y = 0. -/
def encodeElem (isM48 : Bool) (t : Fmt) (x y tile scale : Nat) (d : Rnd) (index : Nat) : Num Nat := do
  let r := d.r index
  if isM48 && (unpackFloat ue5m3 scale).cls ≠ .zero then
    let u := unpackFloat m48 x
    let v := unpackFloat fp32 tile
    let w := unpackFloat ue5m3 scale
    match u.cls with
    | .finite =>
      let ts := normalise false (v.sig * w.sig) (v.e + w.e - 126)
      convertFloat (divU u ts) t d.mode true r
    | .zero => return packMag u.s 0 t
    | .inf => convertFloat u t d.mode true r
    | .nan => return t.nan
  else
    let s ← convertFloat (unpackFloat ue5m3 scale) fp32 0 false 0
    let q ← div32 y s
    convertFloat (unpackFloat fp32 q) t d.mode true r

/-- emax_el of a block-scaled rung (R36, R123): 6 for VB4, 448 for VB8, 7.5 for block-scaled FP6 E2M3. -/
def emaxOf (elem : Nat) : Nat :=
  if elem = 0xC || elem = 0x6 then 0x40C00000 else if elem = 0x5 then 0x40F00000 else 0x43E00000

/-- Runner candidates of a block (R111): the positions in the block whose quotient stands out, at most `c`. -/
def candidates (ys : List Nat) (fexp c : Nat) : Num (List Nat) := do
  let idx := (List.range ys.length).filter (fun i => !isNan32 (ys.getD i 0))
  let ranked := sortBy (fun i => 0x7FFFFFFF - abs32 (ys.getD i 0)) idx
  let aref := if ranked.length ≤ c then 0 else abs32 (ys.getD (ranked.getD c 0) 0)
  let lim ← mul32 ((127 + fexp) <<< 23) aref
  return (ranked.take c).filter (fun i =>
    let a := abs32 (ys.getD i 0)
    if aref = 0 then a ≠ 0 else lt32 lim a)

/-- One encoded block: its scale, its element codes, and what R121 counts of it. -/
structure BlkEnc where
  scale : Nat
  codes : List Nat
  zero : Bool
  under : Bool
  satur : Bool
  clamped : Nat
  deriving DecidableEq, Repr

/-- Encode one block by R36. `out` are the positions whose elements left for the runner list (code 0, no part in the
scale); `ret` are candidates returned by R116, encoded against the scale chosen without them. -/
def encodeBlock (isM48 : Bool) (elem tile : Nat) (els : List SrcEl) (ys : List Nat) (out ret : List Nat) (d : Rnd) :
    Num (BlkEnc × Nat) := do
  let t := elemFmt elem
  let n := els.length
  let inScale := (List.range n).filter (fun i => !out.contains i && !ret.contains i)
  let pick := fun (l : List Nat) => l.map (fun i => ys.getD i 0)
  if (pick inScale).any isNan32 then
    return (⟨0xFF, List.replicate n 0, false, false, false, ret.length⟩, ret.length)
  let a0 := maxAbs32 (pick inScale)
  -- scale 0x00 with returned candidates: the scale is chosen again with them (R116)
  let scaleOf := fun (a : Nat) => (do
    if a = 0 then return 0
    let q ← div32 a (emaxOf elem)
    convertFloat (unpackFloat fp32 q) ue5m3 4 true 0 : Num Nat)
  let s0 ← scaleOf a0
  let a := if s0 = 0 && !ret.isEmpty then maxAbs32 (pick (inScale ++ ret)) else a0
  let s ← if a = a0 then pure s0 else scaleOf a
  let anySrc := (List.range n).any (fun i => !out.contains i &&
    (unpackFloat (srcFmt isM48) ((els.getD i ⟨0, 0, 0⟩).code)).cls ≠ .zero)
  if a = 0 then
    return (⟨0, List.replicate n 0, true, anySrc, false, 0⟩, 0)
  let res ← (List.range n).mapM (fun i => do
    if out.contains i then return (0, 0)
    let e := els.getD i ⟨0, 0, 0⟩
    let (c, cnt) ← (encodeElem isM48 t e.code (ys.getD i 0) tile s d e.index).withCounts
    return (c, if Tbl.look 0 0x05 cnt = 0 then 0 else 1))
  return (⟨s, res.map (·.1), s = 0, s = 0 && anySrc, s = 0xFE, (res.map (·.2)).sum⟩, 0)

/-- The rung of a ladder (R123): the element format code and whether it is block-scaled; none above the top. -/
def rungFmt (base rung : Nat) : Option (Nat × Bool) :=
  match base, rung with
  | 0xC, 0 => some (0x6, true) | 0xC, 1 => some (0x5, true) | 0xC, 2 => some (0x3, true) | 0xC, 3 => some (0x1, false)
  | 0x6, 0 => some (0x6, false) | 0x6, 1 => some (0x5, false) | 0x6, 2 => some (0x3, false) | 0x6, 3 => some (0x1, false)
  | 0x5, 0 => some (0x5, false) | 0x5, 1 => some (0x3, false) | 0x5, 2 => some (0x1, false)
  | 0xD, 0 => some (0x3, true) | 0xD, 1 => some (0x1, false)
  | 0x3, 0 => some (0x3, false) | 0x3, 1 => some (0x1, false)
  | 0x4, 0 => some (0x4, false) | 0x4, 1 => some (0x1, false)
  | 0x9, 0 => some (0x9, false) | 0x9, 1 => some (0x8, false) | 0x9, 2 => some (0x7, false)
  | 0x8, 0 => some (0x8, false) | 0x8, 1 => some (0x7, false)
  | f, 0 => some (f, false)
  | _, _ => none

/-- The highest rung of a base format's ladder (R123). -/
def topRung (base : Nat) : Nat :=
  match base with
  | 0xC => 3 | 0x6 => 3 | 0x5 => 2 | 0xD => 1 | 0x3 => 1 | 0x4 => 1 | 0x9 => 2 | 0x8 => 1 | _ => 0

/-- Is a format narrow in the array's sense (R64)? -/
def isNarrow (code : Nat) : Bool := [0x3, 0x4, 0x5, 0x6, 0xC, 0xD, 0x8, 0x9].contains code

/-- One encoded tile: per block a scale and codes, the runner entries (position, BF16 value) in ascending position, and
the counts of its tile entry. -/
structure TileEnc where
  elem : Nat
  blk : Bool
  blocks : List BlkEnc
  runners : List (Nat × Nat)
  overflow : Bool
  nanReturned : Nat
  deriving DecidableEq, Repr

/-- Counts of a tile encoding: zero blocks, underflowed zero blocks, saturating blocks, clamped elements (R121). -/
def TileEnc.counts (t : TileEnc) : Nat × Nat × Nat × Nat :=
  ((t.blocks.filter (·.zero)).length, (t.blocks.filter (·.under)).length, (t.blocks.filter (·.satur)).length,
    (t.blocks.map (·.clamped)).sum)

/-- A rung's encoding troubles its tile (R122). -/
def TileEnc.troubled (t : TileEnc) : Bool :=
  let (_, u, s, c) := t.counts
  t.overflow || u ≠ 0 || s ≠ 0 || c ≠ 0

/-- One element converted without block scales: divided by the tile scale in FP32 where that is not 1.0, then converted
(R755, R43; from M48 by R41, from an integer by R47; the exact value that a conversion reads, source 0x10, is divided
exactly, R162). Source 0x100 + a format stands for bits of that format, copied as they are where the element has it (R162). -/
def encodePlain (src elem tile code : Nat) (d : Rnd) (index ovf : Nat) : Num Nat := do
  if 0x100 ≤ src then
    if src = 0x100 + elem then return code else convertCode (src - 0x100) elem code d index ovf
  else if tile = one32 then convertCode src elem code d index ovf
  else
    let q ← if src = 0xE then quotExact m48 code tile else if src = 0x10 then quotExact fp64 code tile
      else div32 (← toFp32 src code) tile
    convertCode 0 elem q d index ovf

/-- Encode a tile whose blocks are given, from source codes of format `src`; `cap` is the runner slot's capacity (0: no
runners), `clamp` says that an overflow keeps the first candidates and returns the rest (R116). A runner's value beyond the
BF16 range becomes an infinity whatever the sat flag: R112 names RNE only (DESIGN CHOICE, log entry 238). -/
def encodeTile (src elem : Nat) (blk : Bool) (tile : Nat) (blocks : List (List SrcEl)) (cap fexp c : Nat)
    (clamp : Bool) (ovf : Nat) (d : Rnd) : Num TileEnc := do
  if !blk then
    let bs ← blocks.mapM (fun b => do
      let cs ← b.mapM (fun e => encodePlain src elem tile e.code d e.index ovf)
      return (⟨0, cs, false, false, false, 0⟩ : BlkEnc))
    return ⟨elem, false, bs, [], false, 0⟩
  let isM48 := decide (src = 0xE)
  let blocks ← if src = 0 || isM48 then pure blocks else
    blocks.mapM (fun b => b.mapM (fun e => do return { e with code := ← toFp32 src e.code }))
  let yss ← blocks.mapM (fun b => b.mapM (fun e => quotT isM48 e.code tile))
  let cands ← if cap = 0 then pure (yss.map (fun _ => ([] : List Nat))) else yss.mapM (fun ys => candidates ys fexp c)
  let bc := blocks.zip (yss.zip cands)
  let all := sortBy id (bc.flatMap (fun (b, _, cs) => cs.map (fun i => (b.getD i ⟨0, 0, 0⟩).pos)))
  let tooMany := cap ≠ 0 && decide (all.length > cap)
  if tooMany && !clamp then return ⟨elem, true, [], [], true, 0⟩
  let kept := if tooMany then all.take cap else all
  let bs ← bc.mapM (fun (b, ys, cs) => do
    let out := cs.filter (fun i => kept.contains (b.getD i ⟨0, 0, 0⟩).pos)
    let ret := cs.filter (fun i => !kept.contains (b.getD i ⟨0, 0, 0⟩).pos)
    encodeBlock isM48 elem tile b ys out ret d)
  let rs ← kept.mapM (fun p => do
    let v := (blocks.flatten).find? (fun e => e.pos = p)
    let v ← convertCode (if isM48 then 0xE else 0) 0x1 ((v.map (·.code)).getD 0) Rnd.rne 0 0
    return (p, v))
  return ⟨elem, true, bs.map (·.1), rs, tooMany, (bs.map (·.2)).sum⟩

/-- selected of R124. -/
def selected (seed r layer s j h : Nat) : Bool :=
  let x := seed ^^^ ((r + 1) <<< 62) ^^^ (layer <<< 40) ^^^ (s <<< 20) ^^^ j
  h = 0 || mix64 (x % two64) >>> (64 - h) = 0

/-- The sign of a rotation at position k along K (R145 step 1, R150): true for −1. -/
def rotSign (heirloom : Bool) (signs k : Nat) : Bool :=
  if heirloom then bit signs (k % 64) else bit (mix64 ((signs ^^^ k) % two64)) 63

/-- One stage of the Walsh–Hadamard butterflies (R145 step 2). -/
def hadamardStage (stride : Nat) (v : List Nat) : Num (List Nat) :=
  (List.range v.length).mapM (fun i =>
    if i % (2 * stride) < stride then add32 (v.getD i 0) (v.getD (i + stride) 0)
    else sub32 (v.getD (i - stride) 0) (v.getD i 0))

/-- The rotation of one aligned group of n FP32 values (R145, R150); `k0` is the group's first position along K. -/
def rotate (heirloom weight : Bool) (signs n k0 : Nat) (v : List Nat) : Num (List Nat) := do
  let v0 := (List.range v.length).map (fun i =>
    let x := v.getD i 0
    if isNan32 x then nan32 else if rotSign heirloom signs (k0 + i) then neg32 x else x)
  let stages := (List.range (Nat.log2 n)).map (fun j => 2 ^ j)
  let v1 ← stages.foldlM (fun v st => hadamardStage st v) v0
  if heirloom then v1.mapM (mul32 0x3E000000)
  else if weight then v1.mapM (mul32 ((127 - Nat.log2 n) <<< 23))
  else return v1

end Sys2Proof.Machine
end

