-- ==== Sys2Proof/Machine/ArrayCore.lean ====
section
/-! DEFINITION. The arithmetic of the matrix array: runs, promotion, the bank (R67 to R82), heirloom passes (R148,
R149), the reference comparison of the tile check (R128), the line reductions of the vector engine (R177) and the runner
merge (R186). All of it is a function of the operand bits (R91). -/
namespace Sys2Proof.Machine
open Sys2Proof

/-- An array operand in the form of R67, with the class of R71. -/
structure Opnd where
  cls : Cls
  s : Bool
  x : Int
  sig : Nat
  deriving DecidableEq, Repr

/-- The operand form of an element code (R67): f = 7 places for the 8-bit-float class, 10 for FP16. A subnormal keeps
the least normal exponent with hidden bit 0; a zero has sig 0. -/
def opnd (code c : Nat) : Opnd :=
  let t := elemFmt code
  let f := if code = 0x2 then 10 else 7
  let u := unpackFloat t c
  match u.cls with
  | .nan => ⟨.nan, false, 0, 0⟩
  | .inf => ⟨.inf, u.s, 0, 1⟩
  | .zero => ⟨.zero, u.s, 0, 0⟩
  | .finite =>
    let mag := c % 2 ^ (t.width - 1)
    let ex := mag >>> t.mbits
    let fr := mag % 2 ^ t.mbits
    if ex = 0 then ⟨.finite, u.s, 1 - t.bias, fr <<< (f - t.mbits)⟩
    else ⟨.finite, u.s, (ex : Int) - t.bias, (fr + 2 ^ t.mbits) <<< (f - t.mbits)⟩

/-- The +0 operand of rows beyond k_count and of elements outside the tensor. -/
def opnd0 : Opnd := ⟨.zero, false, 0, 0⟩

/-- The classes a run meets (R71): is there a NaN product, a +Inf product, a −Inf product? -/
structure RunCls where
  nan : Bool
  pinf : Bool
  ninf : Bool
  deriving DecidableEq, Repr

/-- The class of one product (R71). -/
def prodCls (a w : Opnd) : RunCls :=
  if a.cls = .nan || w.cls = .nan then ⟨true, false, false⟩
  else if (a.cls = .inf && w.cls = .zero) || (a.cls = .zero && w.cls = .inf) then ⟨true, false, false⟩
  else if a.cls = .inf || w.cls = .inf then
    if a.s != w.s then ⟨false, false, true⟩ else ⟨false, true, false⟩
  else ⟨false, false, false⟩

/-- One run of R69 on paired operands: its class, its integer sum and xmax (none when every product is zero). -/
def runOf (f g : Nat) (prs : List (Opnd × Opnd)) : RunCls × Int × Option Int :=
  let cls := prs.foldl (fun (c : RunCls) p =>
    let d := prodCls p.1 p.2
    ⟨c.nan || d.nan, c.pinf || d.pinf, c.ninf || d.ninf⟩) ⟨false, false, false⟩
  let fin := prs.filter (fun p => p.1.sig ≠ 0 && p.2.sig ≠ 0 && p.1.cls ≠ .inf && p.2.cls ≠ .inf)
  let term := fun (p : Opnd × Opnd) => p.1.x + p.2.x - 2 * (f : Int)
  let xmax := fin.foldl (fun (m : Option Int) p =>
    match m with
    | none => some (term p)
    | some y => some (max y (term p))) none
  match xmax with
  | none => (cls, 0, none)
  | some xm =>
    let run := fin.foldl (fun (acc : Int) p =>
      let sh := (xm - term p).toNat
      let mag : Nat := if sh < 64 then ((p.1.sig * p.2.sig) <<< g) >>> sh else 0
      if p.1.s != p.2.s then acc - mag else acc + mag) 0
    (cls, run, some xm)

/-- The value of a block scale as an exact significand and exponent; not block-scaled contributes 1 (R72). -/
def scaleVal (s : Option Nat) : Unp :=
  match s with
  | none => ⟨.finite, false, 0, 2 ^ 63⟩
  | some c => unpackFloat ue5m3 c

/-- float_pass: one pass of one column (R69 to R74). `a`, `w` are 128 operands, `sa`, `sw` the block scales of the four
row groups, `n` the promotion interval; FP16 is `fp16Class`. An element of a block whose scale is 0xFF is given as a NaN
operand, of a block whose scale is 0x00 as a zero operand (R35). -/
def floatPass (fp16Class : Bool) (n : Nat) (a w : List Opnd) (sa sw : List (Option Nat)) : Num Nat := do
  let f := if fp16Class then 10 else 7
  let pw := if fp16Class then 22 else 16
  let g := 27 - pw - Nat.log2 n
  let prs := a.zip w
  (chunksOf n prs).zipIdx.foldlM (fun (carry : Nat) (run, r) => do
    let (cls, v, xm) := runOf f g run
    if cls.nan || (cls.pinf && cls.ninf) then return nan32
    if cls.pinf then return (← add32 carry fp32.infmag)
    if cls.ninf then return (← add32 carry (packMag true fp32.infmag fp32))
    if v = 0 then return carry
    let b := r * n / 32
    let us := scaleVal ((sw.getD b none))
    let ua := scaleVal ((sa.getD b none))
    if us.cls = .zero || ua.cls = .zero then return carry
    if us.cls = .nan || ua.cls = .nan then return nan32
    -- V = run × 2^(xmax − G) × S_w × S_a, added with one rounding
    let m := v.natAbs * us.sig * ua.sig
    let x := (xm.getD 0) - g + us.e + ua.e - 126
    let c := unpackFloat fp32 carry
    match c.cls with
    | .nan => return nan32
    | .inf => return carry
    | .zero => convertFloat (normalise (decide (v < 0)) m x) fp32 0 false 0
    | .finite =>
      let (r, xr) := addDyadic c.s c.sig (c.e - 63) (decide (v < 0)) m x
      if r = 0 then return 0
      convertFloat (normalise (decide (r < 0)) r.natAbs xr) fp32 0 false 0) 0

/-- An integer addition into a 32-bit carry or bank under the integer-overflow field (R47, R78). -/
def addInt32 (ovf : Nat) (a b : Nat) : Num Nat := narrowInt 32 ovf (toSigned 32 a + toSigned 32 b)

/-- One integer pass of one column (R77, R78): exact runs added in order into the carry. `a`, `w` are 8-bit codes of
sign-extended values, given as integers. -/
def intPass (ovf n : Nat) (a w : List Int) : Num Nat :=
  (chunksOf n (a.zip w)).foldlM (fun carry run =>
    narrowInt 32 ovf (toSigned 32 carry + (run.map (fun p => p.1 * p.2)).sum)) 0

/-- A pairwise tree over a list whose length is a power of two (fuel: its log2). -/
def treeM (op : Nat → Nat → Num Nat) : Nat → List Nat → Num Nat
  | 0, v => return v.headD 0
  | f + 1, v => do
    let v' ← (List.range (v.length / 2)).mapM (fun i => op (v.getD (2 * i) 0) (v.getD (2 * i + 1) 0))
    treeM op f v'

/-- ftz of R148: a subnormal operand is zero of its sign, for BF16 codes; widened to FP32. -/
def ftzBf16 (c : Nat) : Nat :=
  let mag := c % 2 ^ 15
  let s := (c >>> 15) % 2
  if mag >>> 7 = 0 then s <<< 31
  else if isNanF bf16 c then nan32
  else (c % 2 ^ 16) <<< 16

/-- heirloom_pass of R148 on 128 BF16 codes each. -/
def heirloomPass (a w : List Nat) : Num Nat := do
  let p ← (a.zip w).mapM (fun (x, y) => mul32 (ftzBf16 x) (ftzBf16 y))
  treeM add32 7 p

/-- bank_pass of R82: the carry scaled by the pass's tile scales, then taken or added. -/
def bankPass (bank carry tc : Nat) (first : Bool) : Num Nat := do
  let t ← mul32 carry tc
  if first then return t
  add32 bank t

/-- check_fails of R128 over two sets walked in row-major order: none for a void check. -/
def checkFails (ns rs : List Nat) (thr : Nat) : Num (Option Bool) := do
  let (en, er) ← (ns.zip rs).foldlM (fun (acc : Nat × Nat) (p : Nat × Nat) => do
    let d ← sub32 p.1 p.2
    let en ← add32 acc.1 (← mul32 d d)
    let er ← add32 acc.2 (← mul32 p.2 p.2)
    return (en, er)) (0, 0)
  if !isFinite32 er then return none
  if !isFinite32 en then return some true
  return some (lt32 (← mul32 (← mul32 thr thr) er) en)

/-- reduce_line of R177 without the final alpha: segments of 64 by a fixed tree, ascending. -/
def reduceLine (op : Nat → Nat → Num Nat) (ident : Nat) (x : List Nat) : Num Nat := do
  let segs := chunksOf 64 x
  let ts ← segs.mapM (fun s => treeM op 6 (s ++ List.replicate (64 - s.length) ident))
  match ts with
  | [] => return ident
  | t :: rest => rest.foldlM op t

/-- The greater of two FP32 codes under the ranking order of R176; the first on equal rank. -/
def greater32 (a b : Nat) : Num Nat :=
  return canon fp32 (if rankF fp32 a < rankF fp32 b then b else a)
/-- The lesser of two FP32 codes under the ranking order of R176. -/
def lesser32 (a b : Nat) : Num Nat :=
  return canon fp32 (if rankF fp32 b < rankF fp32 a then b else a)

/-- softmax_line of R178. -/
def softmaxLine (x : List Nat) (alpha : Nat) : Num (List Nat) := do
  let x ← x.mapM (fun v => mul32 v alpha)
  let m ← reduceLine greater32 (packMag true fp32.infmag fp32) x
  let e ← x.mapM (fun v => do fExp (← sub32 v m))
  let s ← reduceLine add32 0x80000000 e
  let r ← rcpF s
  e.mapM (fun v => mul32 v r)

/-- One runner of a pass, inside the pass's window: its K offset, its N or M offset, and its FP32 value. -/
structure Runner where
  k : Nat
  x : Nat
  v : Nat
  deriving DecidableEq, Repr

/-- merge_pass of R186 over a bank held as a table keyed row × 512 + column. `av m k`, `wv k n` are the dense operand
values decoded to FP32; the rows are those of the pass, the columns its n_count. -/
def mergePass (bank : Tbl Nat) (mCount nCount kCount : Nat) (wr ar : List Runner) (av wv : Nat → Nat → Nat) :
    Num (Tbl Nat) :=
  (List.range kCount).foldlM (fun bank k => do
    let ws := sortBy (·.x) (wr.filter (·.k = k))
    let as := sortBy (·.x) (ar.filter (·.k = k))
    let bank ← ws.foldlM (fun bank (w : Runner) =>
      (List.range mCount).foldlM (fun bank m => do
        let a := match as.find? (·.x = m) with
          | some r => r.v
          | none => av m k
        let t ← mul32 w.v a
        let v ← add32 (Tbl.look 0 (m * 512 + w.x) bank) t
        return Tbl.put (m * 512 + w.x) v bank) bank) bank
    as.foldlM (fun bank (a : Runner) =>
      (List.range nCount).foldlM (fun bank n => do
        if ws.any (·.x = n) then return bank
        let t ← mul32 a.v (wv k n)
        let v ← add32 (Tbl.look 0 (a.x * 512 + n) bank) t
        return Tbl.put (a.x * 512 + n) v bank) bank) bank) bank

/-- The cycles of the merge of one pass (R187). -/
def mergeCycles (mCount nCount kCount wr ar : Nat) : Nat :=
  16 + (if wr > 0 then mCount * ceilDiv kCount 64 else 0) + ceilDiv (wr * mCount) 64 + ar * ceilDiv nCount 64

end Sys2Proof.Machine
end

