-- ==== Sys2Proof/Machine/EntryTypes.lean ====
section
/-! DEFINITION. The row of the object dictionary's entry table and its three enumerations (R661 to R663). -/
namespace Sys2Proof.Machine

/-- Entry types (R661). -/
inductive Ty where
  | bool | u8 | u16 | u32 | u64 | i16 | i32 | f32 | vstr | domain
  deriving DecidableEq, Repr

/-- Access classes (R662). -/
inductive Acc where
  | const | ro | rw | wo | rwd
  deriving DecidableEq, Repr

/-- Scopes (R663). -/
inductive Scope where
  | device | host | context | engine | port | stack | partition
  deriving DecidableEq, Repr

/-- A row of an entry table; see Machine/Entries.lean for the columns. -/
structure EntryRow where
  units : Nat
  stride : Nat
  lo : Nat
  hi : Nat
  ty : Ty
  size : Nat
  acc : Acc
  i3cOnly : Bool
  scope : Scope
  dflt : Nat
  resv : Nat
  min : Nat
  max : Nat
  deriving DecidableEq, Repr

end Sys2Proof.Machine
end

