-- ==== Sys2Proof/Machine/Entries.lean ====
section
/-! DEFINITION. The entries of the object dictionary, row by row from the entry tables of the spec (R4, R56, R102, R151,
R191, R222, R223, R226, R266, R267, R304, R347, R377, R385, R423, R471 to R474, R524, R525, R558, R559, R599 to R603,
R633 to R635, R657, R658, R666, R678, R682, and the tables of the security, clock and perturbation chapters). A row:
offset from the index of its family, number of units, stride of the index between units, first and last sub-index,
type, size in bytes, access, whether only I3C/MCTP may write it, scope, default, reserved bits, least and greatest
value of its stated range (R760). -/
namespace Sys2Proof.Machine
open Sys2Proof

/-- Entries of index 0x1000. -/
def identityRows : List EntryRow :=
  [⟨1, 1, 1, 1, .vstr, 64, .const, false, .device, 0, 0, 0, 0⟩,  -- Part number (R4)
   ⟨1, 1, 2, 2, .u8, 1, .const, false, .device, 3, 0, 0, 0xff⟩,  -- Generation code (R4)
   ⟨1, 1, 3, 3, .u8, 1, .const, false, .device, 0, 0xf0, 0, 0xf⟩,  -- Host-site population (R4)
   ⟨1, 1, 4, 4, .u16, 2, .const, false, .device, 0, 0, 0, 0xffff⟩,  -- PCI vendor identifier (R666)
   ⟨1, 1, 5, 5, .u16, 2, .const, false, .device, 0x5061, 0, 0, 0xffff⟩,  -- PCI device identifier (R666)
   ⟨1, 1, 6, 6, .vstr, 64, .const, false, .device, 0, 0, 0, 0⟩,  -- Serial number (R666)
   ⟨1, 1, 7, 7, .u8, 1, .const, false, .device, 0, 0, 0, 0xff⟩,  -- Silicon stepping (R666)
   ⟨1, 1, 8, 8, .u32, 4, .ro, false, .device, 0, 0, 0, 0xffffffff⟩,  -- Gardener firmware version (R666)
   ⟨1, 1, 9, 9, .u16, 2, .const, false, .device, 0x100, 0, 0, 0xffff⟩,  -- Dictionary version (R666)
   ⟨1, 1, 0xa, 0xa, .vstr, 64, .const, false, .device, 0, 0, 0, 0⟩,  -- Vendor name (R666)
   ⟨1, 1, 0xb, 0xb, .vstr, 64, .const, false, .device, 0, 0, 0, 0⟩]  -- Product name (R666)

/-- Entries of index 0x1100. -/
def commsRows : List EntryRow :=
  [⟨1, 1, 1, 1, .u16, 2, .rw, false, .device, 0xffe, 0xf000, 1, 0xffe⟩,  -- Management VLAN (R524)
   ⟨1, 1, 2, 2, .u16, 2, .rw, false, .device, 0x1a03, 0xc0f8, 0, 0x3f07⟩,  -- Collective class (R524)
   ⟨1, 1, 3, 3, .u8, 1, .rwd, false, .device, 6, 0xf0, 0, 0xf⟩,  -- PFC control (R524)
   ⟨1, 1, 4, 4, .u16, 2, .rwd, false, .device, 0x1000, 0xcf00, 0, 0x305f⟩,  -- Time source (R524)
   ⟨1, 1, 5, 5, .i32, 4, .ro, false, .device, 0, 0, 0x80000000, 0x7fffffff⟩,  -- Time offset (R524)
   ⟨1, 1, 6, 6, .u16, 2, .rw, false, .device, 0x100, 0, 0x10, 0x1000⟩,  -- Rate increase divisor (R524)
   ⟨1, 1, 7, 7, .u16, 2, .rw, false, .device, 0x10, 0, 1, 0x3e8⟩,  -- Notification interval (R524)
   ⟨1, 1, 8, 8, .u16, 2, .rw, false, .device, 0xc8, 0, 0x14, 0x2710⟩,  -- Initial retransmission timeout (R524)
   ⟨1, 1, 9, 9, .u64, 8, .ro, false, .device, 0, 0, 0, 0xffffffffffffffff⟩,  -- Packets resent (R524)
   ⟨1, 1, 0xa, 0xa, .u64, 8, .ro, false, .device, 0, 0, 0, 0xffffffffffffffff⟩,  -- Packets dropped for epoch (R524)
   ⟨1, 1, 0xb, 0xb, .u16, 2, .ro, false, .device, 0, 0xfe00, 0, 0x1ff⟩,  -- Handles open (R524)
   ⟨1, 1, 0xc, 0xc, .u32, 4, .rw, false, .device, 0, 0, 0, 0⟩,  -- Reassembly high-water (R524)
   ⟨1, 1, 0xd, 0xd, .u16, 2, .rw, false, .device, 0xc24d, 0, 0xc000, 0xffff⟩,  -- Ramevo UDP port (R678)
   ⟨1, 1, 0xe, 0xe, .domain, 128, .rw, false, .device, 0, 0, 0, 0⟩,  -- Allowed managers (R678)
   ⟨1, 1, 0xf, 0xf, .u16, 2, .ro, false, .device, 0, 0, 0, 0xffff⟩,  -- Management endpoint (R678)
   ⟨1, 1, 0x10, 0x10, .u64, 8, .ro, false, .device, 0, 0, 0, 0xffffffffffffffff⟩,  -- Requests served (R678)
   ⟨1, 1, 0x11, 0x11, .u64, 8, .ro, false, .device, 0, 0, 0, 0xffffffffffffffff⟩,  -- Requests refused or dropped (R678)
   ⟨1, 1, 0x30, 0x30, .u64, 8, .ro, false, .device, 0, 0, 0, 0xffffffffffffffff⟩,  -- management bus: Grants (R223)
   ⟨1, 1, 0x31, 0x31, .u64, 8, .ro, false, .device, 0, 0, 0, 0xffffffffffffffff⟩,  -- management bus: Queue-full cycles (R223)
   ⟨1, 1, 0x32, 0x32, .u32, 4, .rw, false, .device, 0, 0, 0, 0⟩,  -- management bus: Longest wait (R223)
   ⟨1, 1, 0x33, 0x33, .u8, 1, .ro, false, .device, 0, 0xf0, 0, 0xf⟩]  -- management bus: Input of longest wait (R223)

/-- Entries of index 0x1800. -/
def settingsRows : List EntryRow :=
  [⟨1, 1, 1, 1, .u8, 1, .ro, false, .device, 1, 0xe0, 0, 0x1f⟩,  -- Slots burned (R682)
   ⟨1, 1, 2, 2, .u8, 1, .ro, false, .device, 1, 0xf8, 0, 7⟩,  -- Generation in force (R682)
   ⟨1, 1, 3, 3, .u8, 1, .ro, false, .device, 4, 0xf8, 0, 7⟩,  -- Spare slots left (R682)
   ⟨1, 1, 4, 4, .u8, 1, .ro, false, .device, 1, 0xe0, 0, 0x1f⟩,  -- Slots valid (R682)
   ⟨1, 1, 5, 5, .u16, 2, .ro, false, .device, 0, 0xff00, 0, 0xff⟩,  -- First refused record (R682)
   ⟨1, 1, 6, 6, .u16, 2, .ro, false, .device, 0, 0, 0, 0xffff⟩,  -- Records skipped at start-up (R682)
   ⟨1, 1, 0x10, 0x10, .domain, 4096, .rw, true, .device, 0, 0, 0, 0⟩,  -- Staged image (R682)
   ⟨1, 1, 0x11, 0x11, .u8, 1, .wo, true, .device, 0, 0xf8, 0, 7⟩,  -- Commit (R682)
   ⟨1, 1, 0x12, 0x12, .domain, 4096, .ro, false, .device, 0, 0, 0, 0⟩]  -- Image in force (R682)

/-- Entries of index 0x2000. -/
def pointsRows : List EntryRow :=
  [⟨1, 1, 1, 0xc, .u32, 4, .const, false, .device, 0, 0, 0, 0xffffffff⟩,  -- Operating point k = sub-index − 1 (R599)
   ⟨1, 1, 0x10, 0x10, .domain, 96, .const, false, .device, 0, 0, 0, 0⟩,  -- Voltage table (R599)
   ⟨1, 1, 0x11, 0x11, .bool, 1, .rw, false, .device, 1, 0, 0, 1⟩,  -- Adaptive margin enable (R599)
   ⟨1, 1, 0x12, 0x12, .u8, 1, .rw, false, .device, 0xc, 0xe0, 0, 0x18⟩,  -- Adaptive margin limit (R599)
   ⟨1, 1, 0x13, 0x13, .u8, 1, .rwd, false, .device, 0xa, 0, 1, 0x32⟩,  -- Regulator slew rate (R599)
   ⟨1, 1, 0x14, 0x14, .u8, 1, .rw, false, .device, 0xb, 0xf0, 0, 0xb⟩]  -- Operator ceiling (R599)

/-- Entries of index 0x2100. -/
def capsRows : List EntryRow :=
  [⟨1, 1, 1, 1, .u16, 2, .rw, true, .device, 0xe10, 0, 0x3e8, 0xe10⟩,  -- Board cap (R600)
   ⟨1, 1, 2, 2, .u16, 2, .rw, false, .device, 0xe10, 0, 0x3e8, 0xe10⟩,  -- Operator cap (R600)
   ⟨1, 1, 3, 3, .u16, 2, .rw, false, .device, 0x5dc, 0, 0x3e8, 0xe10⟩,  -- Alert cap (R600)
   ⟨1, 1, 4, 4, .u16, 2, .ro, false, .device, 0x1e10, 0, 0, 0xffff⟩,  -- Active cap (R600)
   ⟨1, 1, 5, 5, .u8, 1, .rw, false, .device, 0x20, 0, 8, 0x80⟩,  -- Slope denominator (R600)
   ⟨1, 1, 6, 6, .u8, 1, .rw, false, .device, 4, 0, 2, 8⟩,  -- Emergency denominator (R600)
   ⟨1, 1, 7, 7, .u8, 1, .rw, false, .device, 0, 0xf8, 0, 5⟩,  -- Domain order (R600)
   ⟨1, 1, 8, 8, .f32, 4, .rw, false, .device, 0x3f866666, 0, 0x3f800000, 0x3fc00000⟩,  -- Guard factor (R600)
   ⟨1, 1, 9, 9, .u16, 2, .rw, false, .device, 0x14, 0, 0xa, 0x3e8⟩,  -- Cap window (R600)
   ⟨1, 1, 0xa, 0xa, .u16, 2, .const, false, .device, 0xe88, 0, 0, 0xffff⟩,  -- Full-scale activity (R600)
   ⟨1, 1, 0xb, 0xb, .u32, 4, .rw, false, .device, 0xb080300, 0xf0f0f0f0, 0, 0xb0b0b0b⟩,  -- Hint class targets (R600)
   ⟨1, 1, 0xc, 0xc, .u8, 1, .rw, false, .device, 0x5a, 0, 0x46, 0x5e⟩,  -- Soft thermal limit (R600)
   ⟨1, 1, 0x10, 0x10, .u64, 8, .ro, false, .device, 0, 0, 0, 0xffffffffffffffff⟩,  -- Alert assertions (R600)
   ⟨1, 1, 0x11, 0x11, .u64, 8, .ro, false, .device, 0, 0, 0, 0xffffffffffffffff⟩,  -- Cap-unreachable entries (R600)
   ⟨1, 1, 0x12, 0x12, .u64, 8, .ro, false, .device, 0, 0, 0, 0xffffffffffffffff⟩,  -- Time at the floor (R600)
   ⟨1, 1, 0x13, 0x13, .f32, 4, .ro, false, .device, 0, 0, 0xff7fffff, 0x7f7fffff⟩,  -- Package measured power (R600)
   ⟨1, 1, 0x14, 0x14, .f32, 4, .ro, false, .device, 0, 0, 0xff7fffff, 0x7f7fffff⟩]  -- Package governing power (R600)

/-- Entries of index 0x2200. -/
def energyRows : List EntryRow :=
  [⟨1, 1, 1, 1, .bool, 1, .rw, false, .device, 1, 0, 0, 1⟩,  -- Calibration enable (R601)
   ⟨1, 1, 2, 2, .u16, 2, .rw, false, .device, 0xff00, 0, 0x8000, 0xffff⟩,  -- Forgetting factor (R601)
   ⟨1, 1, 3, 3, .u16, 2, .rw, false, .device, 0x100, 0, 0x10, 0xffff⟩,  -- Calibration interval (R601)
   ⟨1, 1, 4, 4, .f32, 4, .rw, false, .device, 0x35800000, 0, 0x2b800000, 0x3b800000⟩,  -- Pivot epsilon (R601)
   ⟨1, 1, 5, 5, .f32, 4, .rw, false, .device, 0x3a800000, 0, 0x35800000, 0x3f800000⟩,  -- Tikhonov weight (R601)
   ⟨1, 1, 6, 6, .u8, 1, .rw, false, .device, 1, 0xfe, 0, 1⟩,  -- Static attribution (R601)
   ⟨1, 1, 7, 7, .u64, 8, .ro, false, .device, 0, 0, 0, 0xffffffffffffffff⟩,  -- Calibrations accepted (R601)
   ⟨1, 1, 8, 8, .u64, 8, .ro, false, .device, 0, 0, 0, 0xffffffffffffffff⟩,  -- Calibrations with frozen coefficients (R601)
   ⟨1, 1, 9, 9, .u64, 8, .ro, false, .device, 0, 0, 0, 0xffffffffffffffff⟩,  -- Calibrations rejected (R601)
   ⟨1, 1, 0xa, 0xa, .u64, 8, .ro, false, .device, 0, 0, 0, 0xffffffffffffffff⟩,  -- Device-account energy (R601)
   ⟨1, 1, 0xb, 0xb, .u64, 8, .ro, false, .device, 0, 0, 0, 0xffffffffffffffff⟩]  -- Package energy (R601)

/-- Entries of index 0x2400. -/
def clocksRows : List EntryRow :=
  [⟨1, 1, 1, 1, .domain, 8, .ro, false, .device, 0, 0, 0, 0⟩,  -- Timebase (R725)
   ⟨1, 1, 2, 2, .u8, 1, .ro, false, .device, 0, 0xfc, 0, 3⟩,  -- Time lock (R725)
   ⟨1, 1, 3, 3, .i32, 4, .ro, false, .device, 0, 0, 0x80000000, 0x7fffffff⟩,  -- Frequency adjustment (R725)
   ⟨1, 1, 4, 4, .u64, 8, .ro, false, .device, 0, 0, 0, 0xffffffffffffffff⟩,  -- Timebase steps (R725)
   ⟨1, 1, 0x10, 0x21, .u32, 4, .ro, false, .device, 0, 0, 0, 0xffffffff⟩,  -- Measured frequency, domain k = sub-index − 0x10 (R725)
   ⟨1, 1, 0x30, 0x30, .u64, 8, .ro, false, .device, 0, 0, 0, 0xffffffffffffffff⟩,  -- PLL lock losses (R725)
   ⟨1, 1, 0x31, 0x31, .u16, 2, .rwd, false, .device, 0x4b0, 0, 0x258, 0x4b0⟩]  -- BCLK frequency (R725)

/-- Entries of index 0x2800. -/
def memoryRows : List EntryRow :=
  [⟨1, 1, 1, 1, .domain, 2048, .rw, false, .device, 0, 0, 0, 0⟩,  -- Slab table (R266)
   ⟨1, 1, 2, 2, .u64, 8, .wo, false, .context, 0, 0xffff, 0, 0xffffffffffff0000⟩,  -- Translation invalidate (R266)
   ⟨1, 1, 3, 3, .u16, 2, .rw, false, .device, 0x18, 0xff00, 1, 0xa8⟩,  -- Scrub period (R266)
   ⟨1, 1, 4, 4, .bool, 1, .rw, false, .device, 1, 0, 0, 1⟩,  -- Patrol scrub enable (R266)
   ⟨1, 1, 5, 5, .u16, 2, .rw, false, .device, 0x20, 0, 8, 0x3e8⟩,  -- Retraining interval (R266)
   ⟨1, 1, 6, 6, .u16, 2, .rw, false, .device, 0xfa0, 0, 0x64, 0x3e80⟩]  -- Retraining force delay (R266)

/-- Entries of index 0x2c00. -/
def portRows : List EntryRow :=
  [⟨24, 1, 1, 1, .bool, 1, .rw, false, .port, 1, 0, 0, 1⟩,  -- Port enable (R525)
   ⟨24, 1, 2, 2, .u8, 1, .ro, false, .port, 2, 0xfc, 0, 3⟩,  -- Port state (R525)
   ⟨24, 1, 3, 3, .u8, 1, .rwd, false, .port, 0, 0xfc, 0, 2⟩,  -- Mode (R525)
   ⟨24, 1, 4, 4, .u16, 2, .ro, false, .port, 0, 0xf0f8, 0, 0xf07⟩,  -- Link status (R525)
   ⟨24, 1, 5, 5, .domain, 16, .rwd, false, .port, 0, 0, 0, 0⟩,  -- IPv4 addresses (R525)
   ⟨24, 1, 6, 6, .domain, 64, .rwd, false, .port, 0, 0, 0, 0⟩,  -- IPv6 addresses (R525)
   ⟨24, 1, 7, 7, .domain, 80, .rwd, false, .port, 0, 0, 0, 0⟩,  -- Gateways (R525)
   ⟨24, 1, 8, 8, .u64, 8, .const, false, .port, 0, 0xffff000000000000, 0, 0xffffffffffff⟩,  -- MAC base (R525)
   ⟨24, 1, 9, 9, .domain, 256, .ro, false, .port, 0, 0, 0, 0⟩,  -- LLDP neighbours (R525)
   ⟨24, 1, 0xa, 0xa, .u64, 8, .ro, false, .port, 0, 0, 0, 0xffffffffffffffff⟩,  -- Frames received (R525)
   ⟨24, 1, 0xb, 0xb, .u64, 8, .ro, false, .port, 0, 0, 0, 0xffffffffffffffff⟩,  -- Frames sent (R525)
   ⟨24, 1, 0xc, 0xc, .u64, 8, .ro, false, .port, 0, 0, 0, 0xffffffffffffffff⟩,  -- Frames dropped (R525)
   ⟨24, 1, 0xd, 0xd, .u64, 8, .ro, false, .port, 0, 0, 0, 0xffffffffffffffff⟩,  -- CE marks received (R525)
   ⟨24, 1, 0xe, 0xe, .u64, 8, .ro, false, .port, 0, 0, 0, 0xffffffffffffffff⟩,  -- Notifications sent (R525)
   ⟨24, 1, 0xf, 0xf, .u64, 8, .ro, false, .port, 0, 0, 0, 0xffffffffffffffff⟩,  -- FEC codewords corrected (R525)
   ⟨24, 1, 0x10, 0x10, .u64, 8, .ro, false, .port, 0, 0, 0, 0xffffffffffffffff⟩,  -- FEC codewords uncorrectable (R525)
   ⟨24, 1, 0x11, 0x11, .u64, 8, .ro, false, .port, 0, 0, 0, 0xffffffffffffffff⟩]  -- Link-down events (R525)

/-- Entries of index 0x3000 (part 1). -/
def engineRows0 : List EntryRow :=
  [⟨64, 1, 1, 1, .bool, 1, .rw, false, .engine, 1, 0, 0, 1⟩,  -- Engine enable (R102)
   ⟨64, 1, 2, 2, .u8, 1, .ro, false, .engine, 2, 0xfc, 0, 3⟩,  -- Engine state (R102)
   ⟨64, 1, 3, 3, .u64, 8, .ro, false, .engine, 0, 0, 0, 0xffffffffffffffff⟩,  -- Tile jobs retired (R102)
   ⟨64, 1, 4, 4, .u64, 8, .ro, false, .engine, 0, 0, 0, 0xffffffffffffffff⟩,  -- MACs, 8-bit-float class (R102)
   ⟨64, 1, 5, 5, .u64, 8, .ro, false, .engine, 0, 0, 0, 0xffffffffffffffff⟩,  -- MACs, FP16 (R102)
   ⟨64, 1, 6, 6, .u64, 8, .ro, false, .engine, 0, 0, 0, 0xffffffffffffffff⟩,  -- MACs, integer (R102)
   ⟨64, 1, 7, 7, .u64, 8, .ro, false, .engine, 0, 0, 0, 0xffffffffffffffff⟩,  -- Gated MACs (R102)
   ⟨64, 1, 8, 8, .u64, 8, .ro, false, .engine, 0, 0, 0, 0xffffffffffffffff⟩,  -- Feed wait cycles (R102)
   ⟨64, 1, 9, 9, .u64, 8, .ro, false, .engine, 0, 0, 0, 0xffffffffffffffff⟩,  -- Array port stall cycles (R102)
   ⟨64, 1, 0xa, 0xa, .u64, 8, .ro, false, .engine, 0, 0, 0, 0xffffffffffffffff⟩,  -- Promotions (R102)
   ⟨64, 1, 0xb, 0xb, .u8, 1, .ro, false, .engine, 0, 0xf0, 0, 0xf⟩,  -- Bank set states (R102)
   ⟨64, 1, 0xc, 0xc, .u32, 4, .ro, false, .engine, 0, 0xfc00fc00, 0, 0x3ff03ff⟩,  -- Owner of OPEN sets (R102)
   ⟨64, 1, 0x10, 0x10, .u64, 8, .ro, false, .engine, 0, 0, 0, 0xffffffffffffffff⟩,  -- Vector commands retired (R191)
   ⟨64, 1, 0x11, 0x11, .u64, 8, .ro, false, .engine, 0, 0, 0, 0xffffffffffffffff⟩,  -- Elements written (R191)
   ⟨64, 1, 0x12, 0x12, .u64, 8, .ro, false, .engine, 0, 0, 0, 0xffffffffffffffff⟩,  -- Primitive evaluations (R191)
   ⟨64, 1, 0x13, 0x13, .u64, 8, .ro, false, .engine, 0, 0, 0, 0xffffffffffffffff⟩,  -- Control commands (R191)
   ⟨64, 1, 0x14, 0x14, .u64, 8, .ro, false, .engine, 0, 0, 0, 0xffffffffffffffff⟩,  -- Passes merged (R191)
   ⟨64, 1, 0x15, 0x15, .u64, 8, .ro, false, .engine, 0, 0, 0, 0xffffffffffffffff⟩,  -- Merge cycles (R191)
   ⟨64, 1, 0x16, 0x16, .u64, 8, .ro, false, .engine, 0, 0, 0, 0xffffffffffffffff⟩,  -- Vector stall cycles (R191)
   ⟨64, 1, 0x17, 0x17, .u64, 8, .ro, false, .engine, 0, 0, 0, 0xffffffffffffffff⟩,  -- Vector busy cycles (R191)
   ⟨64, 1, 0x18, 0x1d, .u64, 8, .ro, false, .engine, 0, 0, 0, 0xffffffffffffffff⟩,  -- Port stall cycles, ports 0 to 5 (R222)
   ⟨64, 1, 0x1e, 0x1e, .u64, 8, .ro, false, .engine, 0, 0, 0, 0xffffffffffffffff⟩,  -- Corrected words (R222)
   ⟨64, 1, 0x1f, 0x1f, .u64, 8, .ro, false, .engine, 0, 0, 0, 0xffffffffffffffff⟩,  -- Uncorrectable words (R222)
   ⟨64, 1, 0x20, 0x20, .u64, 8, .ro, false, .engine, 0, 0, 0, 0xffffffffffffffff⟩]  -- Forced scrub reads (R222)

/-- Entries of index 0x3000 (part 2). -/
def engineRows1 : List EntryRow :=
  [⟨64, 1, 0x21, 0x21, .u32, 4, .ro, false, .engine, 0, 0xffc00000, 0, 0x3fffff⟩,  -- Last uncorrectable location (R222)
   ⟨64, 1, 0x22, 0x22, .u16, 2, .ro, false, .engine, 0, 0x7c00, 0, 0x83ff⟩,  -- Secure-bank holder, engines 0, 16, 32, 48 only (R222)
   ⟨64, 1, 0x23, 0x23, .u32, 4, .ro, false, .engine, 0, 0, 0, 0xffffffff⟩,  -- Secure-bank wipes, engines 0, 16, 32, 48 only (R222)
   ⟨64, 1, 0x24, 0x24, .u8, 1, .rw, false, .engine, 0, 0xf0, 0, 0xf⟩,  -- Engine grant (R473)
   ⟨64, 1, 0x25, 0x25, .domain, 16, .rw, false, .engine, 0, 0, 0, 0⟩,  -- Bank grants (R473)
   ⟨64, 1, 0x26, 0x26, .u64, 8, .ro, false, .engine, 0, 0, 0, 0xffffffffffffffff⟩,  -- Context switches (R473)
   ⟨64, 1, 0x27, 0x27, .u64, 8, .ro, false, .engine, 0, 0, 0, 0xffffffffffffffff⟩,  -- Set saves (R473)
   ⟨64, 1, 0x28, 0x28, .u64, 8, .ro, false, .engine, 0, 0, 0, 0xffffffffffffffff⟩,  -- Set restores (R473)
   ⟨64, 1, 0x29, 0x29, .u64, 8, .ro, false, .engine, 0, 0, 0, 0xffffffffffffffff⟩]  -- Weight reloads (R473)

/-- All entries of the family at 0x3000. -/
def engineRows : List EntryRow := engineRows0 ++ engineRows1

/-- Entries of index 0x3400 (part 1). -/
def partitionRows0 : List EntryRow :=
  [⟨8, 1, 0x10, 0x10, .u8, 1, .ro, false, .partition, 0xb, 0xf0, 0, 0xf⟩,  -- Operating point (R602)
   ⟨8, 1, 0x11, 0x11, .u16, 2, .ro, false, .partition, 0, 0, 0, 0xffff⟩,  -- Core set-point (R602)
   ⟨8, 1, 0x12, 0x12, .u8, 1, .ro, false, .partition, 0, 0xe0, 0, 0x1f⟩,  -- Adaptive margin (R602)
   ⟨8, 1, 0x13, 0x13, .u16, 2, .ro, false, .partition, 0x100, 0xfe00, 0, 0x1ff⟩,  -- Issue duty (R602)
   ⟨8, 1, 0x14, 0x14, .u8, 1, .ro, false, .partition, 0xb, 0, 0, 0xff⟩,  -- Ceiling in force (R602)
   ⟨8, 1, 0x15, 0x15, .i16, 2, .ro, false, .partition, 0, 0, 0x8000, 0x7fff⟩,  -- Hottest sensor (R602)
   ⟨8, 1, 0x16, 0x16, .u64, 8, .ro, false, .partition, 0, 0, 0, 0xffffffffffffffff⟩,  -- Droop episodes (R602)
   ⟨8, 1, 0x17, 0x17, .u64, 8, .ro, false, .partition, 0, 0, 0, 0xffffffffffffffff⟩,  -- Stretched PCLK cycles (R602)
   ⟨8, 1, 0x18, 0x18, .u64, 8, .ro, false, .partition, 0, 0, 0, 0xffffffffffffffff⟩,  -- Canary warnings (R602)
   ⟨8, 1, 0x19, 0x19, .u64, 8, .ro, false, .partition, 0, 0, 0, 0xffffffffffffffff⟩,  -- Duty-withheld cycles (R602)
   ⟨8, 1, 0x1a, 0x1a, .u64, 8, .ro, false, .partition, 0, 0, 0, 0xffffffffffffffff⟩,  -- Ballast energy (R602)
   ⟨8, 1, 0x1b, 0x1b, .f32, 4, .ro, false, .partition, 0, 0, 0xff7fffff, 0x7f7fffff⟩,  -- Measured power (R602)
   ⟨8, 1, 0x1c, 0x1c, .f32, 4, .ro, false, .partition, 0, 0, 0xff7fffff, 0x7f7fffff⟩,  -- Estimated power (R602)
   ⟨8, 1, 0x1d, 0x1d, .f32, 4, .ro, false, .partition, 0x3f866666, 0, 0xff7fffff, 0x7f7fffff⟩,  -- Governing factor (R602)
   ⟨8, 1, 0x1e, 0x1e, .domain, 48, .ro, false, .partition, 0, 0, 0, 0⟩,  -- Coefficients in force (R602)
   ⟨8, 1, 0x1f, 0x1f, .domain, 48, .const, false, .partition, 0, 0, 0, 0⟩,  -- Test-time coefficients (R602)
   ⟨8, 1, 0x20, 0x20, .u16, 2, .ro, false, .partition, 0, 0xf000, 0, 0xfff⟩,  -- Unidentifiable terms (R602)
   ⟨8, 1, 0x21, 0x21, .u8, 1, .ro, false, .partition, 0, 0xfc, 0, 3⟩,  -- Telemetry state (R602)
   ⟨8, 1, 0x22, 0x22, .u8, 1, .ro, false, .partition, 0, 0xf0, 0, 0xf⟩,  -- Generation (R634)
   ⟨8, 1, 0x23, 0x23, .u64, 8, .ro, false, .partition, 0, 0, 0, 0xffffffffffffffff⟩,  -- Late replies dropped (R634)
   ⟨8, 1, 0x24, 0x24, .u8, 1, .ro, false, .partition, 0, 0, 0, 0xff⟩,  -- Resets in window (R634)
   ⟨8, 1, 0x25, 0x25, .u16, 2, .ro, false, .partition, 0, 0xc0, 0, 0xff3f⟩,  -- Last reset cause (R634)
   ⟨8, 1, 0x26, 0x26, .u8, 1, .ro, false, .partition, 0, 0xfc, 0, 3⟩,  -- Partition service (R634)
   ⟨4, 2, 0x30, 0x30, .u64, 8, .ro, false, .device, 0, 0, 0, 0xffffffffffffffff⟩]  -- link end 0: Grants (R223)

/-- Entries of index 0x3400 (part 2). -/
def partitionRows1 : List EntryRow :=
  [⟨4, 2, 0x31, 0x31, .u64, 8, .ro, false, .device, 0, 0, 0, 0xffffffffffffffff⟩,  -- link end 0: Queue-full cycles (R223)
   ⟨4, 2, 0x32, 0x32, .u32, 4, .rw, false, .device, 0, 0, 0, 0⟩,  -- link end 0: Longest wait (R223)
   ⟨4, 2, 0x33, 0x33, .u8, 1, .ro, false, .device, 0, 0xf0, 0, 0xf⟩,  -- link end 0: Input of longest wait (R223)
   ⟨4, 2, 0x34, 0x34, .u64, 8, .ro, false, .device, 0, 0, 0, 0xffffffffffffffff⟩,  -- link end 1: Grants (R223)
   ⟨4, 2, 0x35, 0x35, .u64, 8, .ro, false, .device, 0, 0, 0, 0xffffffffffffffff⟩,  -- link end 1: Queue-full cycles (R223)
   ⟨4, 2, 0x36, 0x36, .u32, 4, .rw, false, .device, 0, 0, 0, 0⟩,  -- link end 1: Longest wait (R223)
   ⟨4, 2, 0x37, 0x37, .u8, 1, .ro, false, .device, 0, 0xf0, 0, 0xf⟩,  -- link end 1: Input of longest wait (R223)
   ⟨4, 2, 0x38, 0x38, .u64, 8, .ro, false, .device, 0, 0, 0, 0xffffffffffffffff⟩,  -- link end 2: Grants (R223)
   ⟨4, 2, 0x39, 0x39, .u64, 8, .ro, false, .device, 0, 0, 0, 0xffffffffffffffff⟩,  -- link end 2: Queue-full cycles (R223)
   ⟨4, 2, 0x3a, 0x3a, .u32, 4, .rw, false, .device, 0, 0, 0, 0⟩,  -- link end 2: Longest wait (R223)
   ⟨4, 2, 0x3b, 0x3b, .u8, 1, .ro, false, .device, 0, 0xf0, 0, 0xf⟩,  -- link end 2: Input of longest wait (R223)
   ⟨1, 1, 0x40, 0x7f, .domain, 16, .rw, false, .device, 0, 0, 0, 0⟩,  -- Bed b (R472)
   ⟨1, 1, 0x80, 0x87, .u64, 8, .rw, false, .device, 0x8050000000000, 0x7f00003c00000000, 0x1014000000000, 0x8040ffc3ffffffff⟩,  -- Split group g (R472)
   ⟨1, 1, 0x88, 0x8f, .domain, 64, .ro, false, .device, 0, 0, 0, 0⟩,  -- Suggestion g (R472)
   ⟨1, 1, 0x90, 0x90, .u32, 4, .rw, false, .device, 0x7d0, 0, 0x64, 0x186a0⟩,  -- Time-slice quantum (R472)
   ⟨1, 1, 0x91, 0x91, .u64, 8, .ro, false, .device, 0, 0, 0, 0xffffffffffffffff⟩]  -- Commands issued (R472)

/-- All entries of the family at 0x3400. -/
def partitionRows : List EntryRow := partitionRows0 ++ partitionRows1

/-- Entries of index 0x3800 (part 1). -/
def stackRows0 : List EntryRow :=
  [⟨32, 1, 1, 1, .bool, 1, .rw, false, .stack, 1, 0, 0, 1⟩,  -- Root engine enable (R304)
   ⟨32, 1, 2, 2, .u8, 1, .ro, false, .stack, 2, 0xfc, 0, 3⟩,  -- Root engine state (R304)
   ⟨32, 1, 3, 3, .u64, 8, .ro, false, .stack, 0, 0, 0, 0xffffffffffffffff⟩,  -- Jobs retired (R304)
   ⟨32, 1, 4, 4, .u64, 8, .ro, false, .stack, 0, 0, 0, 0xffffffffffffffff⟩,  -- Jobs refused or discarded (R304)
   ⟨32, 1, 5, 5, .u64, 8, .ro, false, .stack, 0, 0, 0, 0xffffffffffffffff⟩,  -- Elements processed (R304)
   ⟨32, 1, 6, 6, .u64, 8, .ro, false, .stack, 0, 0, 0, 0xffffffffffffffff⟩,  -- Chunks staged (R304)
   ⟨32, 1, 7, 7, .u64, 8, .ro, false, .stack, 0, 0, 0, 0xffffffffffffffff⟩,  -- Deliveries dropped or returned (R304)
   ⟨32, 1, 8, 8, .u16, 2, .ro, false, .stack, 0x100, 0xfe00, 0, 0x1ff⟩,  -- Chunk buffers free (R304)
   ⟨32, 1, 9, 9, .u16, 2, .rw, false, .stack, 0x100, 0xfe00, 0x100, 0x100⟩,  -- Fewest buffers free (R304)
   ⟨32, 1, 0xa, 0xa, .u64, 8, .ro, false, .stack, 0, 0, 0, 0xffffffffffffffff⟩,  -- Emit wait cycles (R304)
   ⟨32, 1, 0xb, 0xb, .u64, 8, .ro, false, .stack, 0, 0, 0, 0xffffffffffffffff⟩,  -- Lane busy cycles (R304)
   ⟨32, 1, 0xc, 0xc, .u64, 8, .ro, false, .stack, 0, 0, 0, 0xffffffffffffffff⟩,  -- Bytes emitted (R304)
   ⟨32, 1, 0xd, 0xd, .u32, 4, .ro, false, .stack, 0, 0, 0, 0xffffffff⟩,  -- Microcode version (R304)
   ⟨32, 1, 0x10, 0x10, .u64, 8, .ro, false, .stack, 0, 0, 0, 0xffffffffffffffff⟩,  -- UPDATE jobs retired (R347)
   ⟨32, 1, 0x11, 0x11, .u64, 8, .ro, false, .stack, 0, 0, 0, 0xffffffffffffffff⟩,  -- Parameters updated (R347)
   ⟨32, 1, 0x12, 0x12, .u64, 8, .ro, false, .stack, 0, 0, 0, 0xffffffffffffffff⟩,  -- Embedding rows updated (R347)
   ⟨32, 1, 0x13, 0x13, .u64, 8, .ro, false, .stack, 0, 0, 0, 0xffffffffffffffff⟩,  -- Skipped UPDATE jobs (R347)
   ⟨32, 1, 0x14, 0x14, .u64, 8, .ro, false, .stack, 0, 0, 0, 0xffffffffffffffff⟩,  -- Held elements (R347)
   ⟨32, 1, 0x15, 0x15, .u64, 8, .ro, false, .stack, 0, 0, 0, 0xffffffffffffffff⟩,  -- Schedule evaluations (R347)
   ⟨32, 1, 0x30, 0x30, .u64, 8, .ro, false, .stack, 0, 0, 0, 0xffffffffffffffff⟩,  -- TSV port: Grants (R223)
   ⟨32, 1, 0x31, 0x31, .u64, 8, .ro, false, .stack, 0, 0, 0, 0xffffffffffffffff⟩,  -- TSV port: Queue-full cycles (R223)
   ⟨32, 1, 0x32, 0x32, .u32, 4, .rw, false, .stack, 0, 0, 0, 0⟩,  -- TSV port: Longest wait (R223)
   ⟨32, 1, 0x33, 0x33, .u8, 1, .ro, false, .stack, 0, 0xf0, 0, 0xf⟩,  -- TSV port: Input of longest wait (R223)
   ⟨32, 1, 0x34, 0x34, .u64, 8, .ro, false, .stack, 0, 0, 0, 0xffffffffffffffff⟩]  -- root-engine intake: Grants (R223)

/-- Entries of index 0x3800 (part 2). -/
def stackRows1 : List EntryRow :=
  [⟨32, 1, 0x35, 0x35, .u64, 8, .ro, false, .stack, 0, 0, 0, 0xffffffffffffffff⟩,  -- root-engine intake: Queue-full cycles (R223)
   ⟨32, 1, 0x36, 0x36, .u32, 4, .rw, false, .stack, 0, 0, 0, 0⟩,  -- root-engine intake: Longest wait (R223)
   ⟨32, 1, 0x37, 0x37, .u8, 1, .ro, false, .stack, 0, 0xf0, 0, 0xf⟩,  -- root-engine intake: Input of longest wait (R223)
   ⟨32, 1, 0x38, 0x38, .u8, 1, .rw, false, .stack, 0x30, 0x80, 1, 0x40⟩,  -- Compute-side limit (R226)
   ⟨32, 1, 0x40, 0x40, .u64, 8, .ro, false, .stack, 0, 0, 0, 0xffffffffffffffff⟩,  -- Corrected lines (R267)
   ⟨32, 1, 0x41, 0x41, .u64, 8, .ro, false, .stack, 0, 0, 0, 0xffffffffffffffff⟩,  -- Uncorrectable lines (R267)
   ⟨32, 1, 0x42, 0x42, .u32, 4, .ro, false, .stack, 0, 0xff000000, 0, 0xffffff⟩,  -- Marked lanes (R267)
   ⟨32, 1, 0x43, 0x43, .u64, 8, .ro, false, .stack, 0, 0, 0, 0xffffffffffffffff⟩,  -- Retrainings (R267)
   ⟨32, 1, 0x44, 0x44, .u64, 8, .ro, false, .stack, 0, 0, 0, 0xffffffffffffffff⟩,  -- Forced retrainings (R267)
   ⟨32, 1, 0x45, 0x45, .u64, 8, .ro, false, .stack, 0, 0, 0, 0xffffffffffffffff⟩,  -- Scrub passes completed (R267)
   ⟨32, 1, 0x46, 0x46, .u64, 8, .ro, false, .stack, 0, 0xfffffff000000000, 0, 0xfffffffff⟩,  -- Last uncorrectable location (R267)
   ⟨32, 1, 0x47, 0x47, .u64, 8, .ro, false, .stack, 0, 0, 0, 0xffffffffffffffff⟩]  -- Refused host accesses (R267)

/-- All entries of the family at 0x3800. -/
def stackRows : List EntryRow := stackRows0 ++ stackRows1

/-- Entries of index 0x4000 (part 1). -/
def contextRows0 : List EntryRow :=
  [⟨1024, 1, 1, 1, .bool, 1, .rw, false, .context, 0, 0, 0, 1⟩,  -- Context enable (R385)
   ⟨1024, 1, 2, 2, .u8, 1, .ro, false, .context, 0, 0xfc, 0, 3⟩,  -- Context state (R385)
   ⟨1024, 1, 3, 3, .u8, 1, .rw, false, .context, 4, 0xf8, 0, 7⟩,  -- Owner host site (R385)
   ⟨1024, 1, 4, 4, .u64, 8, .rwd, false, .context, 0, 0x7ffff8000000ffff, 0, 0x800007ffffff0000⟩,  -- Table root (R243, R385)
   ⟨1024, 1, 5, 5, .u8, 1, .rwd, false, .context, 1, 0xf8, 1, 4⟩,  -- Stream count (R385)
   ⟨1024, 1, 6, 6, .u8, 1, .rwd, false, .context, 0, 0x40, 0, 0xbf⟩,  -- Bed (R385)
   ⟨1024, 1, 7, 7, .u64, 8, .rwd, false, .context, 0, 0, 0, 0xffffffffffffffff⟩,  -- SR seed (R385)
   ⟨1024, 1, 8, 8, .u64, 8, .rwd, false, .context, 0, 0, 0, 0xffffffffffffffff⟩,  -- Step counter (R385)
   ⟨1024, 1, 9, 9, .u32, 4, .rwd, false, .context, 0, 0, 0, 0xffffffff⟩,  -- Update index (R385)
   ⟨1024, 1, 0xa, 0xa, .u64, 8, .rwd, false, .context, 0, 0xfff0000000000000, 0, 0xfffffffffffff⟩,  -- Precision table base (R385)
   ⟨1024, 1, 0xb, 0xb, .u16, 2, .rwd, false, .context, 0, 0xe000, 0, 0x1000⟩,  -- Precision layer count (R385)
   ⟨1024, 1, 0xc, 0xc, .u64, 8, .rwd, false, .context, 0, 0xfff0000000000000, 0, 0xfffffffffffff⟩,  -- Pipeline schedule table (R385)
   ⟨1024, 1, 0xd, 0xd, .bool, 1, .rwd, false, .context, 0, 0, 0, 1⟩,  -- Sealed (R385)
   ⟨1024, 1, 0xe, 0xe, .u16, 2, .wo, false, .context, 0, 0xfff0, 0, 0xf⟩,  -- Stream control (R385)
   ⟨1024, 1, 0x10, 0x13, .domain, 64, .ro, false, .context, 0, 0, 0, 0⟩,  -- Stream status, streams 0–3 (R385)
   ⟨1024, 1, 0x14, 0x14, .u64, 8, .ro, false, .context, 0, 0, 0, 0xffffffffffffffff⟩,  -- Commands completed (R385)
   ⟨1024, 1, 0x15, 0x15, .u64, 8, .ro, false, .context, 0, 0, 0, 0xffffffffffffffff⟩,  -- Commands refused or failed (R385)
   ⟨1024, 1, 0x16, 0x16, .u64, 8, .ro, false, .context, 0, 0, 0, 0xffffffffffffffff⟩,  -- Stores dropped (R385)
   ⟨1024, 1, 0x17, 0x17, .u64, 8, .ro, false, .context, 0, 0, 0, 0xffffffffffffffff⟩,  -- Hints replaced (R385)
   ⟨1024, 1, 0x18, 0x18, .u8, 1, .rw, false, .context, 0x10, 0, 1, 0xff⟩,  -- Weight (R471)
   ⟨1024, 1, 0x19, 0x19, .u16, 2, .rw, false, .context, 0, 0, 0, 0xffff⟩,  -- Window period (R471)
   ⟨1024, 1, 0x1a, 0x1a, .u32, 4, .rw, false, .context, 0x186a0, 0, 1, 0x989680⟩,  -- Window length (R471)
   ⟨1024, 1, 0x1b, 0x1b, .u8, 1, .rw, false, .context, 0, 0xfe, 0, 1⟩,  -- Window control (R471)
   ⟨1024, 1, 0x1c, 0x1c, .u16, 2, .rwd, false, .context, 0, 0x3c00, 0, 0xc3ff⟩]  -- Evaluation attachment (R471)

/-- Entries of index 0x4000 (part 2). -/
def contextRows1 : List EntryRow :=
  [⟨1024, 1, 0x1d, 0x1d, .u32, 4, .rw, false, .context, 0, 0, 0, 0xffffffff⟩,  -- Overrun limit (R471)
   ⟨1024, 1, 0x1e, 0x1e, .u32, 4, .ro, false, .context, 0, 0x7c00, 0, 0xffff83ff⟩,  -- Schedule position (R471)
   ⟨1024, 1, 0x1f, 0x1f, .u64, 8, .ro, false, .context, 0, 0, 0, 0xffffffffffffffff⟩,  -- Windows opened (R471)
   ⟨1024, 1, 0x20, 0x20, .u64, 8, .ro, false, .context, 0, 0, 0, 0xffffffffffffffff⟩,  -- Windows closed with work outstanding (R471)
   ⟨1024, 1, 0x21, 0x21, .u64, 8, .ro, false, .context, 0, 0, 0, 0xffffffffffffffff⟩,  -- Engine time (R471)
   ⟨1024, 1, 0x22, 0x22, .bool, 1, .ro, false, .context, 0, 0, 0, 1⟩,  -- Held (R559)
   ⟨1024, 1, 0x23, 0x23, .u64, 8, .ro, false, .context, 0, 0, 0, 0xffffffffffffffff⟩,  -- Energy charged (R603)
   ⟨1024, 1, 0x24, 0x24, .u64, 8, .ro, false, .context, 0, 0, 0, 0xffffffffffffffff⟩,  -- Ballast charged (R603)
   ⟨1024, 1, 0x25, 0x25, .u64, 8, .rwd, false, .context, 0, 0xfff000000000003f, 0, 0xfffffffffffc0⟩,  -- Replay log base (R635)
   ⟨1024, 1, 0x26, 0x26, .u32, 4, .rwd, false, .context, 0, 0, 0, 0xffffffff⟩,  -- Replay log capacity (R635)
   ⟨1024, 1, 0x27, 0x27, .u64, 8, .rwd, false, .context, 0, 0xfff0000000000000, 0, 0xfffffffffffff⟩,  -- Undo table (R635)
   ⟨1024, 1, 0x28, 0x28, .u8, 1, .ro, false, .context, 0, 0xf8, 0, 7⟩,  -- Recovery state (R635)
   ⟨1024, 1, 0x29, 0x29, .u32, 4, .wo, false, .context, 0, 0, 0, 0xffffffff⟩,  -- Rollback control (R635)
   ⟨1024, 1, 0x2a, 0x2a, .u64, 8, .ro, false, .context, 0, 0, 0, 0xffffffffffffffff⟩,  -- Replays (R635)
   ⟨1024, 1, 0x2b, 0x2b, .u64, 8, .rw, false, .context, 0, 0, 0, 0xffffffffffffffff⟩,  -- Work units (R658)
   ⟨1024, 1, 0x2c, 0x2c, .u64, 8, .rwd, false, .context, 0, 0xfff0000000000000, 0, 0xfffffffffffff⟩,  -- Watch table (R658)
   ⟨1024, 1, 0x2d, 0x2d, .u16, 2, .rwd, false, .context, 0, 0xfe00, 0, 0x100⟩,  -- Watch count (R658)
   ⟨1024, 1, 0x2e, 0x2e, .u64, 8, .ro, false, .context, 0, 0, 0, 0xffffffffffffffff⟩]  -- Sync reads refused (R385)

/-- All entries of the family at 0x4000. -/
def contextRows : List EntryRow := contextRows0 ++ contextRows1

/-- Entries of index 0x4800. -/
def siteRows : List EntryRow :=
  [⟨4, 1, 1, 1, .bool, 1, .rw, false, .host, 1, 0, 0, 1⟩,  -- Site enable (R558)
   ⟨4, 1, 2, 2, .u8, 1, .ro, false, .host, 2, 0xfc, 0, 3⟩,  -- Site state (R558)
   ⟨4, 1, 3, 3, .u8, 1, .ro, false, .host, 0, 0xf8, 0, 7⟩,  -- Phase (R558)
   ⟨4, 1, 4, 4, .u32, 4, .ro, false, .host, 0, 0xff0000f8, 0, 0xffff07⟩,  -- Link status (R558)
   ⟨4, 1, 5, 5, .u32, 4, .ro, false, .host, 0, 0, 0, 0xffffffff⟩,  -- Attach generation (R558)
   ⟨4, 1, 6, 6, .u32, 4, .rw, false, .host, 0x3c, 0, 0, 0xe10⟩,  -- Grace period (R558)
   ⟨4, 1, 7, 7, .bool, 1, .wo, false, .host, 0, 0, 0, 1⟩,  -- Reclaim now (R558)
   ⟨4, 1, 8, 8, .u16, 2, .ro, false, .host, 0, 0xf800, 0, 0x7ff⟩,  -- Held contexts (R558)
   ⟨4, 1, 9, 9, .u64, 8, .ro, false, .host, 0, 0, 0, 0xffffffffffffffff⟩,  -- Attaches (R558)
   ⟨4, 1, 0xa, 0xa, .u64, 8, .ro, false, .host, 0, 0, 0, 0xffffffffffffffff⟩,  -- Detaches (R558)
   ⟨4, 1, 0xb, 0xb, .u16, 2, .rw, false, .host, 0x7ff, 0xf800, 0, 0x7ff⟩,  -- Event mask (R558)
   ⟨4, 1, 0xc, 0xc, .u64, 8, .ro, false, .host, 0, 0, 0, 0xffffffffffffffff⟩,  -- Events written (R558)
   ⟨4, 1, 0xd, 0xd, .u64, 8, .ro, false, .host, 0, 0, 0, 0xffffffffffffffff⟩,  -- Events coalesced (R558)
   ⟨4, 1, 0xe, 0xe, .u64, 8, .ro, false, .host, 0, 0, 0, 0xffffffffffffffff⟩,  -- Events lost (R558)
   ⟨4, 1, 0xf, 0xf, .u64, 8, .ro, false, .host, 0, 0, 0, 0xffffffffffffffff⟩,  -- Link retrainings (R558)
   ⟨4, 1, 0x10, 0x10, .u64, 8, .ro, false, .host, 0, 0, 0, 0xffffffffffffffff⟩,  -- Flit replays (R558)
   ⟨4, 1, 0x40, 0x40, .u8, 1, .rw, false, .host, 0x10, 0, 1, 0xff⟩]  -- Site weight (R474)

/-- Entries of index 0x4c00. -/
def poolRows : List EntryRow :=
  [⟨1, 1, 1, 1, .domain, 1024, .ro, false, .device, 0, 0, 0, 0⟩,  -- Block table (R423)
   ⟨1, 1, 2, 2, .u32, 4, .wo, false, .device, 0, 0x10fc00, 0, 0xffef03ff⟩,  -- Block assign (R423)
   ⟨1, 1, 3, 3, .u32, 4, .ro, false, .device, 0, 0, 0, 0xffffffff⟩,  -- Waits registered (R423)
   ⟨1, 1, 4, 4, .u64, 8, .ro, false, .device, 0, 0, 0, 0xffffffffffffffff⟩,  -- Remote signals dropped (R423)
   ⟨1, 1, 0x30, 0x30, .u64, 8, .ro, false, .device, 0, 0, 0, 0xffffffffffffffff⟩,  -- sync-object unit: Grants (R223)
   ⟨1, 1, 0x31, 0x31, .u64, 8, .ro, false, .device, 0, 0, 0, 0xffffffffffffffff⟩,  -- sync-object unit: Queue-full cycles (R223)
   ⟨1, 1, 0x32, 0x32, .u32, 4, .rw, false, .device, 0, 0, 0, 0⟩,  -- sync-object unit: Longest wait (R223)
   ⟨1, 1, 0x33, 0x33, .u8, 1, .ro, false, .device, 0, 0xf0, 0, 0xf⟩]  -- sync-object unit: Input of longest wait (R223)

/-- Entries of index 0x5000 (part 1). -/
def numericsRows0 : List EntryRow :=
  [⟨1, 1, 1, 1, .u8, 1, .rw, false, .device, 1, 0xf8, 0, 4⟩,  -- Gradient rounding mode (R56)
   ⟨1, 1, 2, 2, .u8, 1, .rw, false, .device, 1, 0xf8, 0, 4⟩,  -- Moment rounding mode (R56)
   ⟨1, 1, 3, 3, .bool, 1, .rw, false, .device, 0, 0, 0, 1⟩,  -- Gradient overflow saturation (R56)
   ⟨1, 1, 4, 4, .u64, 8, .ro, false, .device, 0, 0, 0, 0xffffffffffffffff⟩,  -- Flush count (R56)
   ⟨1, 1, 5, 5, .u64, 8, .ro, false, .device, 0, 0, 0, 0xffffffffffffffff⟩,  -- Saturation count (R56)
   ⟨1, 1, 6, 6, .u64, 8, .ro, false, .device, 0, 0, 0, 0xffffffffffffffff⟩,  -- NaN count (R56)
   ⟨1, 1, 0x10, 0x10, .u8, 1, .rw, false, .device, 3, 0xf0, 1, 8⟩,  -- Runner factor exponent (R151)
   ⟨1, 1, 0x11, 0x11, .u8, 1, .rw, false, .device, 2, 0xf8, 0, 4⟩,  -- Runner candidates per block (R151)
   ⟨1, 1, 0x12, 0x12, .u8, 1, .rw, false, .device, 0, 0xfe, 0, 1⟩,  -- Overflow policy (R151)
   ⟨1, 1, 0x13, 0x13, .u8, 1, .rw, false, .device, 8, 0xe0, 0, 0x10⟩,  -- Check rate exponent (R151)
   ⟨1, 1, 0x14, 0x14, .bool, 1, .rw, false, .device, 1, 0, 0, 1⟩,  -- Tile check enable (R151)
   ⟨1, 1, 0x15, 0x15, .f32, 4, .rw, false, .device, 0x3d800000, 0, 0xff7fffff, 0x7f7fffff⟩,  -- Threshold, 4-bit float (R151)
   ⟨1, 1, 0x16, 0x16, .f32, 4, .rw, false, .device, 0x3d000000, 0, 0xff7fffff, 0x7f7fffff⟩,  -- Threshold, FP6 E2M3 (R151)
   ⟨1, 1, 0x17, 0x17, .f32, 4, .rw, false, .device, 0x3c800000, 0, 0xff7fffff, 0x7f7fffff⟩,  -- Threshold, FP8 E4M3 and VB8 (R151)
   ⟨1, 1, 0x18, 0x18, .f32, 4, .rw, false, .device, 0x3d800000, 0, 0xff7fffff, 0x7f7fffff⟩,  -- Threshold, FP8 E5M2 (R151)
   ⟨1, 1, 0x19, 0x19, .u8, 1, .rw, false, .device, 0x10, 0xc0, 1, 0x20⟩,  -- Widening window W (R151)
   ⟨1, 1, 0x1a, 0x1a, .u16, 2, .rw, false, .device, 0x400, 0, 1, 0xffff⟩,  -- Troubled share (R151)
   ⟨1, 1, 0x1b, 0x1b, .u16, 2, .rw, false, .device, 2, 0, 1, 0xffff⟩,  -- Failed-check limit (R151)
   ⟨1, 1, 0x1d, 0x1d, .bool, 1, .rw, false, .device, 1, 0, 0, 1⟩,  -- Error feedback enable (R151)
   ⟨1, 1, 0x1e, 0x1e, .bool, 1, .rw, false, .device, 1, 0, 0, 1⟩,  -- Job-wide widening (R151)
   ⟨1, 1, 0x20, 0x20, .u64, 8, .ro, false, .device, 0, 0, 0, 0xffffffffffffffff⟩,  -- Runners stored (R151)
   ⟨1, 1, 0x21, 0x21, .u64, 8, .ro, false, .device, 0, 0, 0, 0xffffffffffffffff⟩,  -- Runner-slot overflows (R151)
   ⟨1, 1, 0x22, 0x22, .u64, 8, .ro, false, .device, 0, 0, 0, 0xffffffffffffffff⟩,  -- Tiles widened (R151)
   ⟨1, 1, 0x23, 0x23, .u64, 8, .ro, false, .device, 0, 0, 0, 0xffffffffffffffff⟩]  -- Elements clamped (R151)

/-- Entries of index 0x5000 (part 2). -/
def numericsRows1 : List EntryRow :=
  [⟨1, 1, 0x24, 0x24, .u64, 8, .ro, false, .device, 0, 0, 0, 0xffffffffffffffff⟩,  -- Zero blocks (R151)
   ⟨1, 1, 0x25, 0x25, .u64, 8, .ro, false, .device, 0, 0, 0, 0xffffffffffffffff⟩,  -- Underflowed zero blocks (R151)
   ⟨1, 1, 0x26, 0x26, .u64, 8, .ro, false, .device, 0, 0, 0, 0xffffffffffffffff⟩,  -- Saturating blocks (R151)
   ⟨1, 1, 0x27, 0x27, .u64, 8, .ro, false, .device, 0, 0, 0, 0xffffffffffffffff⟩,  -- Checks run (R151)
   ⟨1, 1, 0x28, 0x28, .u64, 8, .ro, false, .device, 0, 0, 0, 0xffffffffffffffff⟩,  -- Checks failed (R151)
   ⟨1, 1, 0x29, 0x29, .u64, 8, .ro, false, .device, 0, 0, 0, 0xffffffffffffffff⟩,  -- Checks skipped or void, charges dropped (R151)
   ⟨1, 1, 0x2a, 0x2a, .u64, 8, .ro, false, .device, 0, 0, 0, 0xffffffffffffffff⟩,  -- Layer widenings (R151)
   ⟨1, 1, 0x2b, 0x2b, .u64, 8, .ro, false, .device, 0, 0, 0, 0xffffffffffffffff⟩]  -- Heirloom tile jobs (R151)

/-- All entries of the family at 0x5000. -/
def numericsRows : List EntryRow := numericsRows0 ++ numericsRows1

/-- Entries of index 0x5400. -/
def integrityRows : List EntryRow :=
  [⟨1, 1, 1, 1, .u16, 2, .rw, false, .device, 0x32, 0, 1, 0x2710⟩,  -- Hang timeout (R633)
   ⟨1, 1, 2, 2, .u8, 1, .rw, false, .device, 4, 0xf0, 2, 0xf⟩,  -- Reset limit (R633)
   ⟨1, 1, 3, 3, .u16, 2, .rw, false, .device, 0xf, 0, 1, 0x5a0⟩,  -- Reset window (R633)
   ⟨1, 1, 4, 4, .u8, 1, .ro, false, .device, 0, 0, 0, 0xff⟩,  -- Partitions out of service (R633)
   ⟨1, 1, 5, 5, .u8, 1, .ro, false, .device, 0, 0xe, 0, 0xf1⟩,  -- Service state (R633)
   ⟨1, 1, 6, 6, .u64, 8, .ro, false, .device, 0, 0, 0, 0xffffffffffffffff⟩,  -- Flit replays (R633)
   ⟨1, 1, 7, 7, .u64, 8, .ro, false, .device, 0, 0, 0, 0xffffffffffffffff⟩,  -- Hops lost (R633)
   ⟨1, 1, 8, 8, .u64, 8, .ro, false, .device, 0, 0, 0, 0xffffffffffffffff⟩,  -- Hand-off failures (R633)
   ⟨1, 1, 9, 9, .u64, 8, .ro, false, .device, 0, 0, 0, 0xffffffffffffffff⟩,  -- Partition resets (R633)
   ⟨1, 1, 0xa, 0xa, .u64, 8, .ro, false, .device, 0, 0, 0, 0xffffffffffffffff⟩,  -- Suspects replayed (R633)
   ⟨1, 1, 0xb, 0xb, .u64, 8, .ro, false, .device, 0, 0, 0, 0xffffffffffffffff⟩,  -- Culprits (R633)
   ⟨1, 1, 0xc, 0xc, .u64, 8, .ro, false, .device, 0, 0, 0, 0xffffffffffffffff⟩,  -- Fault notices sent (R633)
   ⟨1, 1, 0xd, 0xd, .u64, 8, .ro, false, .device, 0, 0, 0, 0xffffffffffffffff⟩,  -- Fault notices received (R633)
   ⟨1, 1, 0xf, 0xf, .bool, 1, .rw, false, .device, 1, 0, 0, 1⟩,  -- Replay enable (R633)
   ⟨1, 1, 0x11, 0x11, .bool, 1, .rw, true, .device, 0, 0, 0, 0⟩]  -- Tray flag (R633)

/-- Entries of index 0x5800. -/
def securingRows : List EntryRow :=
  [⟨1, 1, 1, 1, .bool, 1, .rw, false, .device, 1, 0, 0, 1⟩,  -- Securing enable (R377)
   ⟨1, 1, 2, 2, .u8, 1, .ro, false, .device, 2, 0xfc, 0, 3⟩,  -- Securing state (R377)
   ⟨1, 1, 3, 3, .u8, 1, .rw, false, .device, 0x20, 0, 1, 0xff⟩,  -- Network share (R377)
   ⟨1, 1, 4, 4, .u64, 8, .ro, false, .device, 0, 0, 0, 0xffffffffffffffff⟩,  -- Images completed (R377)
   ⟨1, 1, 5, 5, .u64, 8, .ro, false, .device, 0, 0, 0, 0xffffffffffffffff⟩,  -- Images failed (R377)
   ⟨1, 1, 6, 6, .u64, 8, .ro, false, .device, 0, 0, 0, 0xffffffffffffffff⟩,  -- Rolling entries (R377)
   ⟨1, 1, 7, 7, .u64, 8, .ro, false, .device, 0, 0, 0, 0xffffffffffffffff⟩,  -- Bytes secured (R377)
   ⟨1, 1, 8, 8, .u64, 8, .ro, false, .device, 0, 0, 0, 0xffffffffffffffff⟩,  -- Held job cycles (R377)
   ⟨1, 1, 9, 9, .u64, 8, .ro, false, .device, 0, 0, 0, 0xffffffffffffffff⟩]  -- Restores completed (R377)

/-- Entries of index 0x5c00. -/
def telemetryRows : List EntryRow :=
  [⟨1, 1, 1, 1, .bool, 1, .rw, false, .device, 1, 0, 0, 1⟩,  -- Telemetry enable (R657)
   ⟨1, 1, 2, 2, .u8, 1, .ro, false, .device, 2, 0xfc, 0, 3⟩,  -- Telemetry state (R657)
   ⟨1, 1, 3, 3, .u32, 4, .rw, false, .device, 0x186a0, 0, 0, 0x989680⟩,  -- Harvest period (R657)
   ⟨1, 1, 4, 4, .u64, 8, .rw, false, .device, 0, 0, 0, 0xffffffffffffffff⟩,  -- Next tick (R657)
   ⟨1, 1, 5, 5, .u32, 4, .ro, false, .device, 0, 0, 0, 0xffffffff⟩,  -- Harvest sequence (R657)
   ⟨1, 1, 6, 6, .u64, 8, .ro, false, .device, 0, 0, 0, 0xffffffffffffffff⟩,  -- Last harvest tick (R657)
   ⟨1, 1, 7, 7, .u64, 8, .rw, false, .device, 0, 0xfffff80000000000, 0, 0x7ffffffffff⟩,  -- Dump address (R657)
   ⟨1, 1, 8, 8, .u32, 4, .ro, false, .device, 0, 0, 0, 0xffffffff⟩,  -- Dump size (R657)
   ⟨1, 1, 9, 9, .u64, 8, .ro, false, .device, 0, 0, 0, 0xffffffffffffffff⟩,  -- Harvests completed (R657)
   ⟨1, 1, 0xa, 0xa, .u64, 8, .ro, false, .device, 0, 0, 0, 0xffffffffffffffff⟩,  -- Harvests deferred (R657)
   ⟨1, 1, 0x10, 0x10, .u16, 2, .rw, false, .device, 0x40, 0, 1, 0xffff⟩,  -- Default dormancy threshold (R657)
   ⟨1, 1, 0x11, 0x11, .u16, 2, .rw, false, .device, 4, 0, 1, 0xffff⟩,  -- Default saturation threshold (R657)
   ⟨1, 1, 0x12, 0x12, .u16, 2, .rw, false, .device, 0x64, 0, 0, 0x3e8⟩,  -- Log coalescing window (R657)
   ⟨1, 1, 0x20, 0x20, .u64, 8, .ro, false, .device, 0, 0, 0, 0xffffffffffffffff⟩,  -- Log entries written (R657)
   ⟨1, 1, 0x21, 0x21, .u64, 8, .wo, false, .device, 0, 0, 0, 0xffffffffffffffff⟩,  -- Log read position (R657)
   ⟨1, 1, 0x22, 0x22, .domain, 1024, .ro, false, .device, 0, 0, 0, 0⟩]  -- Log window (R657)

/-- Entries of index 0x6000. -/
def securityRows : List EntryRow :=
  [⟨1, 1, 1, 1, .u8, 1, .ro, false, .device, 0, 0xf8, 0, 7⟩,  -- Life-cycle state (R714)
   ⟨1, 1, 2, 2, .u8, 1, .ro, false, .device, 0, 0xf0, 0, 0xf⟩,  -- Start-up step (R714)
   ⟨1, 1, 3, 3, .u16, 2, .ro, false, .device, 0, 0, 0, 0xffff⟩,  -- Start-up failure (R714)
   ⟨1, 1, 4, 4, .u8, 1, .ro, false, .device, 0, 0xf0, 0, 0xf⟩,  -- Boot banks (R714)
   ⟨1, 1, 5, 5, .u16, 2, .ro, false, .device, 0, 0, 0, 0xffff⟩,  -- Minimum SVNs (R714)
   ⟨1, 1, 6, 6, .u8, 1, .ro, false, .device, 0, 0, 0, 0xff⟩,  -- Key slots (R714)
   ⟨1, 1, 7, 7, .u64, 8, .ro, false, .device, 0, 0, 0, 0xffffffffffffffff⟩,  -- Tamper detections (R714)
   ⟨1, 1, 8, 8, .u32, 4, .ro, false, .device, 0, 0x3ffffff, 0, 0xfc000000⟩,  -- Last tamper (R714)
   ⟨1, 1, 9, 9, .u32, 4, .ro, false, .device, 0, 0, 0, 0xffffffff⟩,  -- Microcode loaded (R714)
   ⟨1, 1, 0x10, 0x10, .u16, 2, .wo, true, .device, 0, 0xf8, 0, 0xff07⟩,  -- Life-cycle transition (R714)
   ⟨1, 1, 0x11, 0x11, .domain, 640, .rw, true, .device, 0, 0, 0, 0⟩,  -- Authorisation token (R714)
   ⟨1, 1, 0x12, 0x12, .bool, 1, .wo, true, .device, 0, 0, 0, 1⟩,  -- Device reset (R714)
   ⟨1, 1, 0x13, 0x13, .domain, 48, .ro, false, .device, 0, 0, 0, 0⟩,  -- Token challenge (R714)
   ⟨1, 1, 0x14, 0x14, .bool, 1, .ro, false, .device, 0, 0, 0, 1⟩,  -- Perturbation authorised (R714)
   ⟨1, 1, 0x20, 0x20, .domain, 65536, .rw, false, .device, 0, 0, 0, 0⟩,  -- Update window (R714)
   ⟨1, 1, 0x21, 0x21, .u32, 4, .wo, false, .device, 0, 0x30fe0000, 0, 0xcf01ffff⟩,  -- Update control (R714)
   ⟨1, 1, 0x22, 0x22, .u32, 4, .ro, false, .device, 0, 0x38000000, 0, 0xc7ffffff⟩,  -- Update status (R714)
   ⟨1, 1, 0x23, 0x23, .u16, 2, .ro, false, .device, 0, 0, 0, 0xffff⟩,  -- Update reason (R714)
   ⟨1, 1, 0x30, 0x30, .domain, 48, .rw, false, .device, 0, 0, 0, 0⟩,  -- Attestation nonce (R714)
   ⟨1, 1, 0x31, 0x31, .domain, 512, .ro, false, .device, 0, 0, 0, 0⟩,  -- Evidence (R714)
   ⟨1, 1, 0x32, 0x32, .domain, 4096, .ro, false, .device, 0, 0, 0, 0⟩,  -- Identity certificate chain (R714)
   ⟨1, 1, 0x33, 0x33, .domain, 97, .ro, false, .device, 0, 0, 0, 0⟩,  -- Identity public key (R714)
   ⟨1, 1, 0x34, 0x34, .domain, 296, .ro, false, .device, 0, 0, 0, 0⟩]  -- Attestation endorsement (R714)

/-- Entries of index 0x7000. -/
def perturbationRows : List EntryRow :=
  [⟨1, 1, 1, 1, .bool, 1, .rw, false, .device, 0, 0, 0, 1⟩,  -- Perturbation enable (R730)
   ⟨1, 1, 2, 2, .u8, 1, .ro, false, .device, 0, 0xfc, 0, 3⟩,  -- Perturbation state (R730)
   ⟨1, 1, 3, 3, .u64, 8, .rwd, false, .device, 0, 0, 0, 0xffffffffffffffff⟩,  -- Seed (R730)
   ⟨1, 1, 0x10, 0x1f, .u64, 8, .rwd, false, .device, 0, 0x700000000, 0, 0x747ffff8ffffffff⟩,  -- Rule i = sub-index − 0x10 (R728)
   ⟨1, 1, 0x20, 0x2f, .u64, 8, .ro, false, .device, 0, 0, 0, 0xffffffffffffffff⟩]  -- Firings of rule i (R730)

/-- The family of an index: its first index and its rows (the index map, R665). -/
def familyOf (idx : Nat) : Option (Nat × List EntryRow) :=
  if idx = 0x1000 then some (0x1000, identityRows)
  else if idx = 0x1100 then some (0x1100, commsRows)
  else if idx = 0x1800 then some (0x1800, settingsRows)
  else if idx = 0x2000 then some (0x2000, pointsRows)
  else if idx = 0x2100 then some (0x2100, capsRows)
  else if idx = 0x2200 then some (0x2200, energyRows)
  else if idx = 0x2400 then some (0x2400, clocksRows)
  else if idx = 0x2800 then some (0x2800, memoryRows)
  else if 0x2c00 ≤ idx ∧ idx < 0x2c18 then some (0x2c00, portRows)
  else if 0x3000 ≤ idx ∧ idx < 0x3040 then some (0x3000, engineRows)
  else if 0x3400 ≤ idx ∧ idx < 0x3408 then some (0x3400, partitionRows)
  else if 0x3800 ≤ idx ∧ idx < 0x3820 then some (0x3800, stackRows)
  else if 0x4000 ≤ idx ∧ idx < 0x4400 then some (0x4000, contextRows)
  else if 0x4800 ≤ idx ∧ idx < 0x4804 then some (0x4800, siteRows)
  else if idx = 0x4c00 then some (0x4c00, poolRows)
  else if idx = 0x5000 then some (0x5000, numericsRows)
  else if idx = 0x5400 then some (0x5400, integrityRows)
  else if idx = 0x5800 then some (0x5800, securingRows)
  else if idx = 0x5c00 then some (0x5c00, telemetryRows)
  else if idx = 0x6000 then some (0x6000, securityRows)
  else if idx = 0x7000 then some (0x7000, perturbationRows)
  else none

end Sys2Proof.Machine
end

