-- ==== Sys2Proof/Machine/Mfg.lean ====
section
/-! DEFINITION. What is fixed at manufacture and at test (R4, R666, R759, R563, R692 to R694): no step changes it. -/
namespace Sys2Proof.Machine
open Sys2Proof

/-- The values fixed in one part: host-site population (R1, 4 bits), PCI vendor identifier, package MAC base, the JEP106
code of its IDCODE (R732), the 1 KiB test record (R693) and the 4,096-byte identity certificate chain (R694) as numbers,
and the digests of the four key slots, where provisioned (R692). -/
structure Mfg where
  pop : Nat
  vendor : Nat
  macBase : Nat
  jep : Nat
  record : Nat
  cert : Nat
  keys : List (Option Nat)
  deriving DecidableEq, Repr

/-- The part that `State.reset` is about: four host sites populated, every other value 0, no key slot provisioned (DESIGN
CHOICE, log entry 1). -/
def Mfg.reset : Mfg :=
  { pop := 15, vendor := 0, macBase := 0, jep := 0, record := 0, cert := 0, keys := [none, none, none, none] }

/-- The serial number, 16 ASCII codes (R693, R666). -/
def Mfg.serial (m : Mfg) : Nat := bytesAt m.record 8 16
/-- The silicon stepping (R693, R666). -/
def Mfg.stepping (m : Mfg) : Nat := bytesAt m.record 24 1
/-- The voltage table, 96 bytes (R563, R693). -/
def Mfg.volts (m : Mfg) : Nat := bytesAt m.record 32 96
/-- The voltage code of a partition's operating point (R563). -/
def Mfg.volt (m : Mfg) (p k : Nat) : Nat := bytesAt m.record (32 + 12 * p + k) 1
/-- The test-time coefficients of a partition, 48 bytes (R563, R693). -/
def Mfg.coeffs (m : Mfg) (p : Nat) : Nat := bytesAt m.record (128 + 48 * p) 48

end Sys2Proof.Machine
end

