-- ==== Sys2Proof/Machine/State.lean ====
section
/-! DEFINITION. The state of the machine, the state right after reset, and the two closed lists of reasons a step can
stop. -/
namespace Sys2Proof.Machine
open Sys2Proof

/-- Why a step ends in a fault. No command of this part ends in one: every refusal, failure and error that the spec
describes is an effect on the state. The one constructor is kept so that the list is not empty. -/
inductive Fault where
  /-- Raised by nothing (safe). -/
  | none
  deriving DecidableEq, Repr

/-- Why a step is refused. -/
inductive Refusal where
  /-- The command has no meaning yet in this model; its mnemonic is given (safe). -/
  | notModelled (mnemonic : String)
  deriving DecidableEq, Repr

/-- Everything the part holds that is neither a memory nor persistent. -/
structure Dev where
  /-- dictionary entries by key index × 256 + sub-index; an entry not listed holds its default -/
  regs : Tbl Nat
  mfg : Mfg
  /-- the timebase in nanoseconds (R718) -/
  now : Nat
  /-- how many free values have been drawn; the model's own field (log entry 3) -/
  fresh : Nat
  /-- what left the part, oldest first -/
  tx : List Out
  ctxs : Tbl Ctx
  upds : Tbl Upd
  engs : Tbl Eng
  stks : Tbl Stk
  sites : Tbl Site
  /-- scratchpad and scheduler caches per partition (R250) -/
  xcP : Tbl (List XEnt)
  /-- sync objects, blocks (R422), queued operations (R426) -/
  sync : Tbl Nat
  blocks : Tbl Nat
  syncQ : List SyncOp
  arbs : Tbl Arb
  /-- the stream that issued last, as context × 4 + stream (R437) -/
  lastIssue : Nat
  /-- per split group, the charges of its beds in the last steps, newest first (R449) -/
  splits : Tbl (List (List Nat))
  tele : Tele
  dict : DictSt
  /-- opportunities seen by each perturbation rule since the unit entered ON (R729) -/
  pert : List Nat
  /-- secure banks being wiped, by die: the cause (1 tamper, 2 life cycle, 3 release or reclamation, 4 partition reset) and
  the former holder (R212, R213) -/
  wiping : Tbl (Nat × Option Nat)
  /-- commands that stall on a secure bank until its wipe ends: die, context, stream, sequence (R213) -/
  stalled : List (Nat × Nat × Nat × Nat)
  /-- RJOBS commands that wait for room at an intake, oldest first (R413) -/
  fwd : List Fwd
  /-- latched requests of functions by index: 1 stop latched, 2 re-arm latched (R675) -/
  latch : Tbl Nat
  net : Net
  pow : Pow
  integ : Integ
  boot : Boot
  tap : Tap
  /-- PLLs that have lost lock, as 16 × domain + instance (R717) -/
  unlocked : List Nat
  /-- the snapshot ports that carry a ready device (R685 step 8), and those whose device is persistent memory (R367) -/
  snap : List Nat
  pmem : List Nat
  deriving DecidableEq, Repr

/-- An image in a flash bank: its 512-byte header and its body, as numbers (R694, R695). -/
structure Image where
  header : Nat
  body : Nat
  deriving DecidableEq, Repr

/-- One of the two copies of the bank-select record (R701): its sequence number and the preferred bank of each type, where
its CRC verifies. -/
structure Select where
  seq : Nat
  firmware : Nat
  microcode : Nat
  deriving DecidableEq, Repr

/-- What survives a reset and a loss of power (R689, R692, R694, R8): the tray flag; of the OTP store the unique device
secret, revocation fuses, minimum SVNs (firmware, microcode), life-cycle state and settings slots; of the flash the banks
(firmware A and B, microcode A and B) and the two bank-select records; the state before a life-cycle transition whose
event is still to be raised (R708); and what the targets of securing hold, outside the package (log entry 21). -/
structure Persist where
  tray : Bool
  secret : Nat
  revoked : Nat
  svnFw : Nat
  svnMc : Nat
  life : Nat
  slots : List (Option Nat)
  banks : List Image
  selects : List (Option Select)
  lifeOld : Option Nat
  media : List ImgPart
  deriving DecidableEq, Repr

/-- The state of the machine. `pending` is the queue of commands that wait, first in, first out. -/
structure State where
  pending : List Instr
  persist : Persist
  mem : Store
  dev : Dev
  deriving DecidableEq, Repr

/-- The memories as they stand at a reset: nothing listed, no error (R238; the scratchpad's 0 is a DESIGN CHOICE, log
entry 2). -/
def Store.reset : Store := ⟨[], [], [], []⟩

/-- Everything that is neither memory nor persistent, as it stands at a reset. -/
def Dev.reset : Dev :=
  { regs := [], mfg := Mfg.reset, now := 0, fresh := 0, tx := [], ctxs := [], upds := [], engs := [], stks := [],
    sites := [], xcP := [], sync := [], blocks := [], syncQ := [], arbs := [], lastIssue := 0, splits := [], tele := Tele.reset,
    dict := ⟨[], [], []⟩, pert := List.replicate 16 0, wiping := [], stalled := [], fwd := [], latch := [], net := Net.reset, pow := Pow.reset,
    integ := ⟨[], [], [], []⟩, boot := Boot.cold, tap := ⟨1, false, 0, 0⟩, unlocked := [], snap := [], pmem := [] }

/-- The image that slot 0 holds from manufacture on: marker, generation 1, no records, CRC32C over bytes 0 to 4,091 (R679). -/
def slotZero : Nat := 0x53455453 + 1 <<< 32 + 0xA440A874 <<< 32736

/-- The OTP store and the flash of the part that `State.reset` is about: settings slot 0 as manufacture leaves it, the rest
as before anything was written to it, in the life-cycle state MANUFACTURE (DESIGN CHOICE, log entry 20). -/
def Persist.reset : Persist :=
  { tray := false, secret := 0, revoked := 0, svnFw := 0, svnMc := 0, life := 0, slots := [some slotZero, none, none, none, none],
    banks := List.replicate 4 ⟨0, 0⟩, selects := [none, none], lifeOld := none, media := [] }

/-- The machine right after reset: RESET# asserted, no work, every entry at its default, empty queue. -/
def State.reset : State := { pending := [], persist := Persist.reset, mem := Store.reset, dev := Dev.reset }

end Sys2Proof.Machine
end

