-- ==== Sys2Proof/Machine/Ops.lean ====
section
/-! DEFINITION. The named operations over registers, units, events and rings. -/
namespace Sys2Proof.Machine
open Sys2Proof

/-- The key of a dictionary entry. -/
def ekey (idx sub : Nat) : Nat := idx * 256 + sub

/-- The entry row at an index and sub-index, if the spec presents one there (R660, R665). Secure-bank entries stand at
engines 0, 16, 32 and 48 only (R222). -/
def rowOf (idx sub : Nat) : Option EntryRow :=
  match familyOf idx with
  | none => none
  | some (base, rows) =>
    if (sub = 0x22 || sub = 0x23) && 0x3000 ≤ idx && idx < 0x3040 && (idx - 0x3000) % 16 ≠ 0 then none else
    rows.find? (fun r => r.lo ≤ sub && sub ≤ r.hi && decide ((idx - base) < r.units * r.stride) &&
      (idx - base) % r.stride == 0)

/-- The default of an entry: that of its row, or the one that the part's manufacture record gives (R4, R473, R472,
R238, R599, R602, R525, R666). -/
def dfltOf (m : Mfg) (idx sub : Nat) : Nat :=
  let pop := m.pop
  if idx = 0x1000 && sub = 0x03 then pop
  else if idx = 0x1000 && sub = 0x04 then m.vendor
  else if idx = 0x1000 && sub = 0x05 then (if pop = 1 then 0x5061 else if pop = 5 then 0x5062 else 0x5064)
  else if idx = 0x1000 && sub = 0x06 then m.serial
  else if idx = 0x1000 && sub = 0x07 then m.stepping
  else if idx = 0x2000 && 1 ≤ sub && sub ≤ 12 then
    (([(600, 460), (700, 480), (800, 500), (900, 525), (1000, 550), (1100, 580), (1200, 615), (1300, 645),
      (1400, 675), (1500, 705), (1650, 740), (1800, 780)] : List (Nat × Nat)).map
        (fun p => p.1 * 65536 + p.2)).getD (sub - 1) 0
  else if idx = 0x2000 && sub = 0x10 then m.volts
  else if idx = 0x2100 && sub = 0x0A then 3720
  else if 0x3400 ≤ idx && idx < 0x3408 && (sub = 0x1E || sub = 0x1F) then
    m.coeffs (idx - 0x3400)
  else if 0x2C00 ≤ idx && idx < 0x2C18 && sub = 0x08 then m.macBase + 4 * (idx - 0x2C00)
  else if 0x3000 ≤ idx && idx < 0x3040 && sub = 0x24 then pop
  else if 0x3000 ≤ idx && idx < 0x3040 && sub = 0x25 then
    leNat ((List.range 16).map (fun i => if i = 15 then pop <<< 4 else pop + pop <<< 4))
  else if idx = 0x3400 && sub = 0x40 then 2 ^ 64 - 1 + pop <<< 64
  else if idx = 0x2800 && sub = 0x01 then
    -- mode 3 and the population as owner mask for slabs 0 to 62, 0x00 for every slab 63 (R238)
    leNat ((List.range 2048).map (fun i => if i % 64 = 63 then 0 else 0xC0 + pop))
  else match rowOf idx sub with
    | some r => r.dflt
    | none => 0

/-- The value an entry holds. -/
def Dev.reg (d : Dev) (idx sub : Nat) : Nat :=
  match Tbl.look? (ekey idx sub) d.regs with
  | some v => v
  | none => dfltOf d.mfg idx sub

/-- Write an entry. -/
def Dev.setReg (d : Dev) (idx sub v : Nat) : Dev := { d with regs := Tbl.put (ekey idx sub) v d.regs }

/-- Add to a counter, modulo 2^64 (R58). -/
def Dev.addReg (d : Dev) (idx sub n : Nat) : Dev := d.setReg idx sub ((d.reg idx sub + n) % two64)

/-- Count one. -/
def Dev.incReg (d : Dev) (idx sub : Nat) : Dev := d.addReg idx sub 1

/-- Replace bits [hi:lo] of an entry. -/
def Dev.setField (d : Dev) (idx sub hi lo v : Nat) : Dev := d.setReg idx sub (setBits (d.reg idx sub) hi lo v)

/-- A context. -/
def Dev.ctx (d : Dev) (c : Nat) : Ctx := Tbl.look Ctx.reset c d.ctxs
/-- Change a context. -/
def Dev.updCtx (d : Dev) (c : Nat) (f : Ctx → Ctx) : Dev := { d with ctxs := Tbl.upd Ctx.reset c f d.ctxs }
/-- The update and securing state of a context. -/
def Dev.upd (d : Dev) (c : Nat) : Upd := Tbl.look Upd.reset c d.upds
/-- Change the update and securing state of a context. -/
def Dev.updUpd (d : Dev) (c : Nat) (f : Upd → Upd) : Dev := { d with upds := Tbl.upd Upd.reset c f d.upds }
/-- A stream of a context. -/
def Dev.stream (d : Dev) (c i : Nat) : Stream := (d.ctx c).streams.getD i Stream.reset
/-- Change a stream. -/
def Dev.updStream (d : Dev) (c i : Nat) (f : Stream → Stream) : Dev :=
  d.updCtx c (fun x => { x with streams := setAt x.streams i (f (x.streams.getD i Stream.reset)) })
/-- An engine. -/
def Dev.eng (d : Dev) (e : Nat) : Eng := Tbl.look Eng.reset e d.engs
/-- Change an engine. -/
def Dev.updEng (d : Dev) (e : Nat) (f : Eng → Eng) : Dev := { d with engs := Tbl.upd Eng.reset e f d.engs }
/-- A stack. -/
def Dev.stk (d : Dev) (s : Nat) : Stk := Tbl.look Stk.reset s d.stks
/-- Change a stack. -/
def Dev.updStk (d : Dev) (s : Nat) (f : Stk → Stk) : Dev := { d with stks := Tbl.upd Stk.reset s f d.stks }
/-- Is a host site populated (R1, R4)? -/
def Dev.populated (d : Dev) (h : Nat) : Bool := bit d.mfg.pop h
/-- A host site; an absent one has phase 0 (R533). -/
def Dev.site (d : Dev) (h : Nat) : Site := Tbl.look (Site.reset (if d.populated h then 1 else 0)) h d.sites
/-- Change a site. -/
def Dev.updSite (d : Dev) (h : Nat) (f : Site → Site) : Dev := { d with sites := Tbl.put h (f (d.site h)) d.sites }
/-- Send something across the boundary. -/
def Dev.out (d : Dev) (x : Out) : Dev := { d with tx := d.tx ++ [x] }
/-- Draw a free value's argument: the counter, and the counter advanced. -/
def Dev.draw (d : Dev) : Nat × Dev := (d.fresh, { d with fresh := d.fresh + 1 })

/-- The governor's state of a partition. -/
def Dev.powP (d : Dev) (p : Nat) : PowP := Tbl.look PowP.reset p d.pow.parts
/-- Change the governor's state of a partition. -/
def Dev.updPowP (d : Dev) (p : Nat) (f : PowP → PowP) : Dev :=
  { d with pow := { d.pow with parts := Tbl.upd PowP.reset p f d.pow.parts } }

/-- Entry of engine e, stack s, context c, partition p, site h, port n. -/
def Dev.engReg (d : Dev) (e sub : Nat) : Nat := d.reg (0x3000 + e) sub
/-- Entry of a stack. -/
def Dev.stkReg (d : Dev) (s sub : Nat) : Nat := d.reg (0x3800 + s) sub
/-- Entry of a context. -/
def Dev.ctxReg (d : Dev) (c sub : Nat) : Nat := d.reg (0x4000 + c) sub
/-- Entry of a partition. -/
def Dev.partReg (d : Dev) (p sub : Nat) : Nat := d.reg (0x3400 + p) sub
/-- Entry of a site. -/
def Dev.siteReg (d : Dev) (h sub : Nat) : Nat := d.reg (0x4800 + h) sub
/-- Entry of a port. -/
def Dev.portReg (d : Dev) (n sub : Nat) : Nat := d.reg (0x2C00 + n) sub

/-- The owner site of a context (0x4000+c:03), none when bit [2] is set. -/
def Dev.owner (d : Dev) (c : Nat) : Option Nat :=
  let v := d.ctxReg c 0x03
  if bit v 2 then none else some (v % 4)

/-- The state of a context (0x4000+c:02): 0 OFF, 1 STARTING, 2 ON, 3 STOPPING. -/
def Dev.ctxState (d : Dev) (c : Nat) : Nat := d.ctxReg c 0x02 % 4

/-- Apply the increments of a numeric computation: keys below 0x100 count in index 0x5000, keys from 0x100 in the
engine's index. -/
def Dev.applyCounts (d : Dev) (e : Option Nat) (t : Tbl Nat) : Dev :=
  t.foldl (fun d (k, n) =>
    if k < 0x100 then d.addReg 0x5000 k n
    else match e with
      | some e => d.addReg (0x3000 + e) (k - 0x100) n
      | none => d) d

/-- The cycles that each port of an engine's scratchpad stalls are counted (R202): free values, below m where m is not 0 (log
entry 245). -/
def Dev.portStalls (d : Dev) (e m : Nat) : Dev :=
  let (k, d) := d.draw
  (List.range 6).foldl (fun d p => d.addReg (0x3000 + e) (0x18 + p) (Config.portStall k p % m)) d

/-- Has the PLL instance of a domain lock (R717)? -/
def Dev.locked (d : Dev) (k inst : Nat) : Bool := !(d.unlocked.contains (16 * k + inst))

/-- Does the link of a site hold its host's traffic: while it retrains, or its PLL has no lock (R532, R717)? -/
def Dev.linkHolds (d : Dev) (h : Nat) : Bool := (d.site h).heldLink || !(d.locked 13 h)

/-- A transaction of a host takes effect, or is held by its link, in order (R532). -/
def State.hostSide (s : State) (h : Nat) (i : Instr) (k : State → State) : State :=
  if s.dev.linkHolds h then { s with dev := s.dev.updSite h (fun x => { x with heldIn := x.heldIn ++ [i] }) } else k s

/-! Events, rings, interrupts (R551 to R557) and the event log (R655). -/

/-- Raise an MSI-X vector of a site: the message is sent, or its pending bit is set while the vector is masked (R557). -/
def Dev.msix (d : Dev) (h v : Nat) : Dev :=
  if ((d.site h).msix.getD v (0, 0, true)).2.2 then
    d.updSite h (fun s => { s with pendingBits := s.pendingBits ||| (1 <<< v) })
  else d.out (.msix h v)

/-- Unconsumed entries of a ring: producer index minus consumer index (R555). -/
def Site.unconsumed (s : Site) : Nat := (s.producer + 2 ^ 32 - s.consumer) % 2 ^ 32

/-- The ring header written at the ring control address (R552). -/
def Dev.ringHeader (d : Dev) (h : Nat) : Dev :=
  let s := d.site h
  d.out (.header h s.ringCtl s.producer s.overflow s.lost s.summary)

/-- Vector 0 when the unconsumed entries reach the threshold, at most once per moderation interval (R557). -/
def Dev.vector0 (d : Dev) (h : Nat) : Dev :=
  let s := d.site h
  if s.unconsumed ≥ s.threshold && s.unconsumed > 0 && !s.vec0Hold then
    (d.updSite h (fun s => { s with firstUnraised := none, vec0Hold := s.moderation ≠ 0 })).msix h 0
  else d

/-- One entry put into the ring: the entry first, then the header that counts it (R552, R553). -/
def Dev.putEntry (d : Dev) (h : Nat) (ev : Ev) (count : Nat) : Dev :=
  let s := d.site h
  let phase := if s.producer / 4096 % 2 = 0 then 1 else 0
  let d := d.out (.ring h (s.ringBase + 32 * (s.producer % 4096)) ev count phase)
  let d := d.updSite h (fun s => { s with
    producer := (s.producer + 1) % 2 ^ 32,
    firstUnraised := some (s.firstUnraised.getD d.now) })
  let d := d.incReg (0x4800 + h) 0x0C
  (d.ringHeader h).vector0 h

/-- Write an entry to a ring, or lose it when the ring is full or its overflow flag stands (R555). -/
def Dev.writeRing (d : Dev) (h : Nat) (ev : Ev) (count : Nat) : Dev :=
  let s := d.site h
  if s.overflow || s.unconsumed ≥ 4096 then
    let d := d.updSite h (fun s => { s with
      overflow := true, lost := (s.lost + count) % two64, lostFlag := s.lostFlag + count })
    let d := d.addReg (0x4800 + h) 0x0E count
    if s.overflow then d else (d.ringHeader h).msix h 1
  else d.putEntry h ev count

/-- The entry 0x8804 of a site with the number lost (R543, R555). -/
def lostEntry (d : Dev) (h n : Nat) : Ev := ⟨0x8804, 1, h, none, some h, [n], d.now⟩

/-- Room has freed in a ring whose overflow flag stands: the entry 0x8804 first, then the flag is cleared (R555). -/
def Dev.ringRoom (d : Dev) (h : Nat) : Dev :=
  let s := d.site h
  if s.phase = 4 && s.overflow && s.unconsumed < 4096 then
    let d := d.putEntry h (lostEntry d h s.lostFlag) 1
    (d.updSite h (fun s => { s with overflow := false, lostFlag := 0 })).ringHeader h
  else d

/-- Are two events identical for coalescing (R554), or sync events of one object (R434)? -/
def Ev.same (a b : Ev) : Bool :=
  a.code == b.code && a.kind == b.kind && a.id == b.id &&
    (if a.code = 0x8208 then a.fields.head? == b.fields.head? else a.fields == b.fields)

/-- Write out the staged event of a site. -/
def Dev.flushSite (d : Dev) (h : Nat) : Dev :=
  match (d.site h).staged with
  | none => d
  | some (ev, n) => (d.updSite h (fun s => { s with staged := none })).writeRing h ev n

/-- Post an event to one site (R551, R554, R556). -/
def Dev.postSite (d : Dev) (h : Nat) (ev : Ev) : Dev :=
  let d := match ev.ctx with
    | some c => d.updSite h (fun s => { s with summary := s.summary ||| (1 <<< c), summaryDirty := true })
    | none => d
  let s := d.site h
  if s.phase ≠ 4 then
    (d.updSite h (fun s => { s with lostDetached := s.lostDetached + 1 })).incReg (0x4800 + h) 0x0E
  else match s.staged with
    | some (e0, n) =>
      if e0.same ev then
        let d := d.incReg (0x4800 + h) 0x0D
        let d := d.updSite h (fun s => { s with staged := some ({ ev with time := e0.time }, n + 1) })
        if n + 1 ≥ 65535 then d.flushSite h else d
      else
        let d := d.flushSite h
        if s.window = 0 then d.writeRing h ev 1 else d.updSite h (fun s => { s with staged := some (ev, 1) })
    | none =>
      if s.window = 0 then d.writeRing h ev 1 else d.updSite h (fun s => { s with staged := some (ev, 1) })

/-- Write an entry to the event log, which keeps the newest 65,536 (R655, R656). -/
def Dev.writeLog (d : Dev) (ev : Ev) (n : Nat) : Dev :=
  let d := d.incReg 0x5C00 0x20
  { d with tele := { d.tele with log := (d.tele.log ++ [(ev, n)]).drop (d.tele.log.length + 1 - 65536) } }

/-- Write out the staged event of the log. -/
def Dev.flushLog (d : Dev) : Dev :=
  match d.tele.staged with
  | none => d
  | some (ev, n) => ({ d with tele := { d.tele with staged := none } }).writeLog ev n

/-- Enter an event into the log, coalescing as R554 with the window of 0x5C00:12 (R655). -/
def Dev.postLog (d : Dev) (ev : Ev) : Dev :=
  match d.tele.staged with
  | some (e0, n) =>
    if e0.same ev && n < 65535 then
      { d with tele := { d.tele with staged := some ({ ev with time := e0.time }, n + 1) } }
    else
      let d := d.flushLog
      if d.reg 0x5C00 0x12 = 0 then d.writeLog ev 1 else { d with tele := { d.tele with staged := some (ev, 1) } }
  | none =>
    if d.reg 0x5C00 0x12 = 0 then d.writeLog ev 1 else { d with tele := { d.tele with staged := some (ev, 1) } }

/-- The sites whose rings an event concerns (R551). A site that is not ATTACHED loses the events of its own contexts and those that
concern it; events of the device and copies go to attached sites only (DEDUCED, log entry 274). -/
def Dev.ringsOf (d : Dev) (ev : Ev) : List Nat :=
  let admits := fun h => bit (d.siteReg h 0x0B) ((ev.code - 0x8100) / 0x100)
  match ev.ctx with
  | some c => (d.owner c).toList
  | none =>
    let attached := fun h => decide ((d.site h).phase = 4)
    let all := (List.range 4).filter d.populated
    if ev.code = 0x8101 then all.filter attached
    else match ev.site with
      | some h => all.filter (fun g => g = h || (attached g && admits g))
      | none => all.filter (fun g => attached g && admits g)

/-- Raise an event: it is written to the rings that it concerns and to the log (R551, R655). -/
def Dev.raise (d : Dev) (code kind id : Nat) (ctx site : Option Nat) (fields : List Nat) : Dev :=
  let ev : Ev := ⟨code, kind, id, ctx, site, fields, d.now⟩
  ((d.ringsOf ev).foldl (fun d h => d.postSite h ev) d).postLog ev

/-- An event of device scope. -/
def Dev.raiseDev (d : Dev) (code : Nat) (fields : List Nat) : Dev := d.raise code 0 0 none none fields
/-- An event that concerns a context. -/
def Dev.raiseCtx (d : Dev) (code c : Nat) (fields : List Nat) : Dev := d.raise code 2 c (some c) none fields
/-- An event that concerns a host site. -/
def Dev.raiseSite (d : Dev) (code h : Nat) (fields : List Nat) : Dev := d.raise code 1 h none (some h) fields

/-- Every stream of a context, with its number. -/
def Dev.streamsOf (d : Dev) (c : Nat) : List (Nat × Stream) := (d.ctx c).streams.zipIdx.map (fun p => (p.2, p.1))

/-- How many streams the context has (0x4000+c:05). -/
def Dev.streamCount (d : Dev) (c : Nat) : Nat := bits (d.ctxReg c 0x05) 2 0

/-- The engine behind a slot of a context's bed (R441): the slot-th lowest set bit of the mask in force. -/
def Dev.slotEngine (d : Dev) (c slot : Nat) : Option Nat := (bitList 64 (d.ctx c).bedMask)[slot]?

/-- The partition of an engine, the partition of a stack, the die of a partition (R9). -/
def partOfEng (e : Nat) : Nat := e / 8
/-- The partition of a stack. -/
def partOfStk (s : Nat) : Nat := s / 4

/-- Is a partition in service, resetting, out of service (0x3400+p:26)? -/
def Dev.service (d : Dev) (p : Nat) : Nat := d.partReg p 0x26 % 4

/-- An idle step: one edge of the timebase clock, one nanosecond (R718; DESIGN CHOICE, log entry 8). -/
def idle (s : State) : State := { s with dev := { s.dev with now := s.dev.now + 1 } }

end Sys2Proof.Machine
end

