-- ==== Sys2Proof/Machine/Mem.lean ====
section
/-! DEFINITION. The memories: lines and words with their error codes, slabs and device physical addresses, page walks,
translation caches, and the reads and writes that commands make (R193 to R214, R228 to R260, R446, R631). -/
namespace Sys2Proof.Machine
open Sys2Proof

/-- What an access can change: the memories and the rest of the part. -/
structure Wd where
  mem : Store
  dev : Dev
  deriving DecidableEq, Repr

/-- A computation over memories and part. -/
abbrev Mm (α : Type) := StateM Wd α

/-- A computation that a refusal or a failure can end; what it changed before stays. -/
abbrev Act (α : Type) := ExceptT Fail (StateM Wd) α

/-- The part as it stands. -/
def Mm.dev : Mm Dev := fun w => (w.dev, w)
/-- Change the part. -/
def Mm.upd (f : Dev → Dev) : Mm Unit := fun w => ((), { w with dev := f w.dev })
/-- The part as it stands. -/
def Act.dev : Act Dev := fun w => (.ok w.dev, w)
/-- Change the part. -/
def Act.upd (f : Dev → Dev) : Act Unit := fun w => (.ok (), { w with dev := f w.dev })
/-- End with a failure. -/
def Act.fail {α : Type} (f : Fail) : Act α := fun w => (.error f, w)
/-- End with a failure of cause 2 and a reason code. -/
def Act.fail2 {α : Type} (code : Nat) : Act α := Act.fail ⟨2, code, false, none⟩
/-- Refuse (cause 1) with a reason code. -/
def Act.refuse {α : Type} (code : Nat) : Act α := Act.fail ⟨1, code, false, none⟩
/-- Refuse with a reason code when a condition holds. -/
def Act.refuseIf (b : Bool) (code : Nat) : Act Unit := if b then Act.refuse code else pure ()
/-- Fail on poisoned data: the reason code is open (log entry 9). -/
def Act.poisoned {α : Type} : Act α := fun w =>
  (.error ⟨2, Config.reasonOpen w.dev.fresh % 65536, true, none⟩, { w with dev := { w.dev with fresh := w.dev.fresh + 1 } })

/-- What a computation would answer, without anything that it would change: none where it fails. -/
def Act.peek {α : Type} (m : Act α) : Act (Option α) := fun w =>
  (match (m w).1 with
   | .ok a => .ok (some a)
   | .error _ => .ok none, w)
/-- Run a computation that cannot fail. -/
def Mm.act {α : Type} (m : Mm α) : Act α := fun w => let r := m w; (.ok r.1, r.2)

/-! The activity that the energy model takes from the counters (R102, R570, R571). -/

/-- Work of an account on a partition enters the governor's ledger until its next tick: n of the term i of R570. -/
def Dev.addAct (d : Dev) (p c i n : Nat) : Dev :=
  if n = 0 then d else { d with pow := { d.pow with acts := Tbl.upd 0 ((p * 1025 + c) * 16 + i) (· + n) d.pow.acts } }

/-- What an engine's activity counters advanced by between two states, as terms of R570: ungated MACs of 8-bit floats and
integers, gated MACs, FP16 products, promotions, vector elements with primitive evaluations. -/
def engineActs (e : Nat) (old new : Dev) : List (Nat × Nat) :=
  let n := fun (k : Nat) => (new.reg (0x3000 + e) k + two64 - old.reg (0x3000 + e) k) % two64
  [(1, n 0x04 + n 0x06 - n 0x07), (2, n 0x07), (3, n 0x05), (4, n 0x0A), (6, n 0x11 + n 0x12)]

/-- Work of a context on an engine: what it adds to the activity counters feeds the energy model under that context, also
where it fails. -/
def Act.work {α : Type} (c e : Nat) (m : Act α) : Act α := fun w =>
  let r := m w
  (r.1, { r.2 with dev := (engineActs e w.dev r.2.dev).foldl (fun d q => d.addAct (e / 8) c q.1 q.2) r.2.dev })

/-! Cells in canonical form. -/

/-- `n` bytes from a sorted list that starts at or above address `a`. -/
def cellsFrom : Nat → List Host.Cell → Nat → List Nat
  | 0, _, _ => []
  | n + 1, [], a => 0 :: cellsFrom n [] (a + 1)
  | n + 1, (k, b) :: t, a =>
    if k = a then b.toNat :: cellsFrom n t (a + 1) else 0 :: cellsFrom n ((k, b) :: t) (a + 1)

/-- Read `n` bytes from address `a`; an unlisted byte reads 0. -/
def cellsRead (l : List Host.Cell) (a n : Nat) : List Nat := cellsFrom n (l.dropWhile (fun p => p.1 < a)) a

/-- The cells of a run of bytes at an address: no cell for a byte 0. -/
def cellsOf : Nat → List Nat → List Host.Cell
  | _, [] => []
  | a, b :: t => if b % 256 = 0 then cellsOf (a + 1) t else (a, BitVec.ofNat 8 b) :: cellsOf (a + 1) t

/-- Write bytes at an address. -/
def cellsWrite (l : List Host.Cell) (a : Nat) (bs : List Nat) : List Host.Cell :=
  l.filter (fun p => p.1 < a) ++ cellsOf a bs ++ l.filter (fun p => a + bs.length ≤ p.1)

/-- Zero `n` bytes at an address. -/
def cellsZero (l : List Host.Cell) (a n : Nat) : List Host.Cell := l.filter (fun p => p.1 < a || a + n ≤ p.1)

/-- One byte. -/
def cellByte (l : List Host.Cell) (a : Nat) : Nat := match l.find? (fun p => p.1 = a) with
  | some p => p.2.toNat
  | none => 0

/-- The canonical form of a list of cells: addresses strictly rising, no cell equal to what an unlisted address reads. -/
abbrev cellsWf (l : List Host.Cell) : Prop := l.Pairwise (fun p q => p.1 < q.1) ∧ ∀ p ∈ l, p.2 ≠ 0#8

/-- The canonical form of the memories. -/
abbrev Store.wf (m : Store) : Prop := cellsWf m.hbm ∧ cellsWf m.spad

/-! Perturbation (R728, R729). -/

/-- The magnitudes of the rules of a kind and target that fire at this opportunity. -/
def Dev.perturb (d : Dev) (kind target : Nat) : List Nat × Dev :=
  if d.reg 0x7000 0x02 % 4 ≠ 2 then ([], d) else
  (List.range 16).foldl (fun (fired, d) i =>
    let r := d.reg 0x7000 (0x10 + i)
    if bits r 63 60 ≠ kind || bits r 59 48 ≠ target then (fired, d) else
    let j := d.pert.getD i 0
    let d := { d with pert := setAt d.pert i (j + 1) }
    let n := bits r 39 35
    let limit := bits r 31 0
    let hit := n = 0 || mix64 ((d.reg 0x7000 0x03) ^^^ (i <<< 56) ^^^ j) >>> (64 - n) = 0
    if hit && (limit = 0 || d.reg 0x7000 (0x20 + i) < limit) then
      (fired ++ [bits r 47 40], d.incReg 0x7000 (0x20 + i))
    else (fired, d)) ([], d)

/-! HBM lines (R228 to R232, R255 to R260). -/

/-- The pseudo-channel of a stack offset (R230). -/
def pcOf (off : Nat) : Nat := bits off 13 8 ^^^ bits off 27 22

/-- The key of a byte in the HBM store. -/
def hbmKey (s off : Nat) : Nat := s * 2 ^ 36 + off

/-- The marked lanes of a pseudo-channel (R258). -/
def Dev.markedOf (d : Dev) (s pc : Nat) : List Nat :=
  ((d.stk s).marked.filter (fun p => p.1 / 36 = pc && p.2 = 1)).map (fun p => p.1 % 36)

/-- The lane of a codeword symbol (R256). -/
def laneOf (sym : Nat) : Nat := sym / 2

/-- Attribute a correction to a lane, counted per second of the timebase (R258). -/
def Dev.attribute (d : Dev) (s pc lane : Nat) : Dev :=
  d.updStk s (fun k =>
    let sec := d.now / 1000000000
    let cnt := if k.laneSec = sec then k.laneCnt else []
    { k with laneSec := sec, laneCnt := Tbl.upd 0 (pc * 36 + lane) (· + 1) cnt })

/-- Is a line marked as one that a decode found uncorrectable? The mark is kept beside the symbols, under 72; it stays until a
write of the whole line (R260). -/
def markedLine (errs : List (Nat × Nat)) : Bool := Tbl.look 0 72 errs != 0

/-- The word of 72 symbols that a line holds: its bytes, their check bytes, and the errors that struck them (R255). -/
def Store.codeword (m : Store) (line : Nat) : List Nat :=
  let data := cellsRead m.hbm (line * 64) 64
  let errs := Tbl.look [] line m.hbmErr
  (data ++ rsCheck data).zipIdx.map (fun p => p.1 ^^^ Tbl.look 0 p.2 errs)

/-- Report an uncorrectable line (R260). -/
def Dev.uncorrectable (d : Dev) (s off input : Nat) (ctx : Option Nat) : Dev :=
  let d := (d.incReg (0x3800 + s) 0x41).setReg (0x3800 + s) 0x46 off
  d.raise 0x8501 5 s ctx none ([s, off, input] ++ ctx.toList)

/-- Read the line that holds a stack offset: false when it is poisoned (R257, R259, R260). -/
def lineRead (s off input : Nat) (ctx : Option Nat) : Mm Bool := fun w =>
  let base := off / 64 * 64
  let line := hbmKey s base / 64
  let (fired, d) := w.dev.perturb 7 s
  let (_, d) := d.perturb 4 s
  -- injected errors land on symbols, and change them by values, that the spec does not name (log entry 10)
  let r := fired.foldl (fun (acc : List (Nat × Nat) × Nat) n =>
    let syms := pickSymbols (fun i => Config.pick (acc.2 + i)) n
    (acc.1 ++ syms.zipIdx.map (fun p => (p.1, 1 + Config.pick (acc.2 + n + p.2) % 255)), acc.2 + 2 * n)) ([], d.fresh)
  let inj := r.1
  let d := { d with fresh := r.2 }
  let m := if inj.isEmpty then w.mem else w.mem.corrupt line inj
  match Tbl.look? line m.hbmErr with
  | none => (true, { mem := m, dev := d })
  | some errs =>
    let pc := pcOf base
    let marked := d.markedOf s pc
    let syms := errs.map (·.1)
    let e := (syms.filter (fun j => !(marked.contains (laneOf j)))).length
    if markedLine errs then (false, { mem := m, dev := d.uncorrectable s base input ctx })
    else if 2 * e + 2 * marked.length ≤ 8 then
      let d := d.incReg (0x3800 + s) 0x40
      let d := syms.foldl (fun d j => d.attribute s pc (laneOf j)) d
      (true, { mem := m, dev := d.updStk s (fun k => { k with writeback := (k.writeback ++ [line]).dedup }) })
    else if rsValid (m.codeword line) then
      -- the errors form a codeword: the line is delivered as it stands (R257)
      (true, { mem := { m with hbm := cellsWrite m.hbm (line * 64) ((m.codeword line).take 64),
                               hbmErr := Tbl.del line m.hbmErr }, dev := d })
    else
      let (f, d) := d.draw
      match Config.rsBeyond f with
      | none =>
        (false, { mem := { m with hbmErr := Tbl.put line (Tbl.put 72 1 errs) m.hbmErr },
                  dev := d.uncorrectable s base input ctx })
      | some (counted, bs) =>
        (true, { mem := { m with hbm := cellsWrite m.hbm (line * 64) ((bs ++ List.replicate 64 0).take 64),
                                 hbmErr := Tbl.del line m.hbmErr },
                 dev := if counted then d.incReg (0x3800 + s) 0x40 else d })

/-- The lines that a range of a stack touches, by their offsets. -/
def linesOf (off n : Nat) : List Nat :=
  if n = 0 then [] else (List.range ((off + n - 1) / 64 + 1 - off / 64)).map (fun i => (off / 64 + i) * 64)

/-- The lines of a range that need more than a plain read: those with a stored error, or all while perturbation is on. -/
def Wd.dirtyLines (w : Wd) (s off n : Nat) : List Nat :=
  if w.dev.reg 0x7000 0x02 % 4 = 2 then linesOf off n
  else (w.mem.hbmErr.filter (fun p => hbmKey s (off / 64 * 64) ≤ p.1 * 64 && p.1 * 64 < hbmKey s (off + n))).map
    (fun p => p.1 * 64 - hbmKey s 0)

/-- Read bytes of a stack: the bytes, and the stack offset of the first line that was poisoned. -/
def hbmGetAt (s off n input : Nat) (ctx : Option Nat) : Mm (List Nat × Option Nat) := do
  let w ← get
  let mut bad : Option Nat := none
  for l in w.dirtyLines s off n do
    let ok ← lineRead s l input ctx
    if !ok && bad.isNone then bad := some l
  let w ← get
  return (cellsRead w.mem.hbm (hbmKey s off) n, bad)

/-- Read bytes of a stack: the bytes, and whether any of their lines was poisoned. -/
def hbmGet (s off n input : Nat) (ctx : Option Nat) : Mm (List Nat × Bool) := do
  let r ← hbmGetAt s off n input ctx
  return (r.1, r.2.isSome)

/-- Write bytes of a stack: a write of a whole line replaces it; a partial write of a line is merged, or dropped when the
line is uncorrectable (R232). Answers whether a line answered as poisoned. -/
def hbmPut (s off : Nat) (bs : List Nat) (input : Nat) (ctx : Option Nat) : Mm Bool := do
  let n := bs.length
  let w ← get
  let mut bad : List Nat := []
  for l in w.dirtyLines s off n do
    let whole := off ≤ l && l + 64 ≤ off + n
    if whole then
      modify (fun w => { w with mem := { w.mem with hbmErr := Tbl.del (hbmKey s l / 64) w.mem.hbmErr } })
    else
      let ok ← lineRead s l input ctx
      if ok then modify (fun w => { w with mem := { w.mem with hbmErr := Tbl.del (hbmKey s l / 64) w.mem.hbmErr } })
      else bad := bad ++ [l]
  let w ← get
  let old := cellsRead w.mem.hbm (hbmKey s off) n
  let keep := bad
  let new := if keep.isEmpty then bs else
    (old.zip bs).zipIdx.map (fun p => if keep.contains ((off + p.2) / 64 * 64) then p.1.1 else p.1.2)
  modify (fun w => { w with mem := { w.mem with hbm := cellsWrite w.mem.hbm (hbmKey s off) new } })
  -- a write to a line withdraws its pending write-back (R259)
  Mm.upd (fun d => d.updStk s (fun k => { k with
    writeback := k.writeback.filter (fun l => !(hbmKey s (off / 64 * 64) ≤ l * 64 && l * 64 < hbmKey s (off + n))) }))
  return !bad.isEmpty

/-! Scratchpad words (R193 to R206). -/

/-- The key of a byte in the scratchpad store. -/
def spadKey (e off : Nat) : Nat := e * Config.spadBytes + off

/-- Read the word that holds a scratchpad offset: false when it is poisoned (R203, R205, R206). -/
def wordRead (e off port : Nat) : Mm Bool := fun w =>
  let word := spadKey e (off / 8 * 8) / 8
  match Tbl.look? word w.mem.spadErr with
  | none => (true, w)
  | some flips =>
    let bank := off / Config.bankBytes
    let d := w.dev
    let poison := fun (d : Dev) =>
      let line := off % Config.bankBytes / 2048
      let wd := off % 2048 / 8
      let d := (d.incReg (0x3000 + e) 0x1F).setReg (0x3000 + e) 0x21 (bank <<< 17 + line <<< 8 + wd)
      d.raise 0x8301 3 e none none [e, bank, line, wd, port]
    let k := popCount 72 flips
    if bit flips 72 then (false, { w with dev := poison d })
    else if k ≤ 1 then
      let d := d.incReg (0x3000 + e) 0x1E
      (true, { w with dev := d.updEng e (fun x => { x with writeback := (x.writeback ++ [word]).dedup }) })
    else
      -- two flipped bits are detected; more carry no guarantee (R203). A word found uncorrectable is marked in bit 72
      let (f, d) := if k = 2 then (0, d) else d.draw
      match if k = 2 then none else Config.secdedBeyond f with
      | none => (false, { mem := { w.mem with spadErr := Tbl.put word (flips ||| 2 ^ 72) w.mem.spadErr }, dev := poison d })
      | some v =>
        (true, { mem := { w.mem with spad := cellsWrite w.mem.spad (word * 8) (leBytes 8 v),
                                     spadErr := Tbl.del word w.mem.spadErr }, dev := d })

/-- Injected errors of the lines that a range of a scratchpad reads (R728, kind 6). -/
def spadPerturb (e off n : Nat) : Mm Unit := fun w =>
  if w.dev.reg 0x7000 0x02 % 4 ≠ 2 || n = 0 then ((), w) else
  ((), (List.range ((off + n - 1) / 2048 + 1 - off / 2048)).foldl (fun w i =>
    let (fired, d) := w.dev.perturb 6 e
    fired.foldl (fun w m =>
      let (f, d) := w.dev.draw
      let word := (spadKey e ((off / 2048 + i) * 2048)) / 8 + Config.pick f % 256
      let b := Config.pick (f + 1) % 72
      let flips := if m = 1 then 2 ^ b else 2 ^ b + 2 ^ ((b + 1) % 72)
      { mem := w.mem.flipWord word flips, dev := (d.draw).2 }) { w with dev := d }) w)

/-- The words of a range that hold an error, by their offsets. -/
def Wd.dirtyWords (w : Wd) (e off n : Nat) : List Nat :=
  (w.mem.spadErr.filter (fun p => spadKey e (off / 8 * 8) ≤ p.1 * 8 && p.1 * 8 < spadKey e (off + n))).map
    (fun p => p.1 * 8 - spadKey e 0)

/-- Read bytes of a scratchpad: the bytes, and whether any word was poisoned. -/
def spadGet (e off n port : Nat) : Mm (List Nat × Bool) := do
  spadPerturb e off n
  let w ← get
  let mut bad := false
  for a in w.dirtyWords e off n do
    let ok ← wordRead e a port
    if !ok then bad := true
  let w ← get
  return (cellsRead w.mem.spad (spadKey e off) n, bad)

/-- Write bytes of a scratchpad in whole words; a partial word is read first (R201). Answers whether a word that had to
be read was poisoned; such a word keeps its contents. -/
def spadPut (e off : Nat) (bs : List Nat) (port : Nat) : Mm Bool := do
  let n := bs.length
  let w ← get
  let mut bad : List Nat := []
  for a in w.dirtyWords e off n do
    let whole := off ≤ a && a + 8 ≤ off + n
    let ok ← if whole then pure true else wordRead e a port
    if ok then modify (fun w => { w with mem := { w.mem with spadErr := Tbl.del (spadKey e a / 8) w.mem.spadErr } })
    else bad := bad ++ [a]
  let w ← get
  let old := cellsRead w.mem.spad (spadKey e off) n
  let new := if bad.isEmpty then bs else
    (old.zip bs).zipIdx.map (fun p => if bad.contains ((off + p.2) / 8 * 8) then p.1.1 else p.1.2)
  modify (fun w => { w with mem := { w.mem with spad := cellsWrite w.mem.spad (spadKey e off) new } })
  -- a write to a word withdraws its pending write-back
  Mm.upd (fun d => if (d.eng e).writeback.isEmpty then d else d.updEng e (fun k => { k with
    writeback := k.writeback.filter (fun a => !(spadKey e (off / 8 * 8) ≤ a * 8 && a * 8 < spadKey e (off + n))) }))
  return !bad.isEmpty

/-! Slabs and device physical addresses (R233 to R240). -/

/-- The slab table byte of slab i of stack s (R234); the default table is that of R238. -/
def Dev.slab (d : Dev) (s i : Nat) : Nat :=
  match Tbl.look? (ekey 0x2800 0x01) d.regs with
  | some v => bytesAt v (64 * s + i) 1
  | none => if i = 63 then 0 else 0xC0 + d.mfg.pop

/-- Where a device physical address lies: view, slab, stack and stack offset; none for view 3 (R239). -/
def dpaPhys (dpa : Nat) : Option (Nat × Nat × Nat × Nat) :=
  match bits dpa 42 41 with
  | 0 => some (0, bits dpa 35 30, bits dpa 40 36, bits dpa 35 30 * 2 ^ 30 + bits dpa 29 0)
  | 1 =>
    let i := bits dpa 37 32
    let o := bits dpa 31 0
    some (1, i, 4 * bits dpa 40 38 + ((o >>> 12) ^^^ (o >>> 14)) % 4, i * 2 ^ 30 + (o >>> 14) <<< 12 + o % 4096)
  | 2 =>
    let i := bits dpa 40 35
    let o := bits dpa 34 0
    some (2, i, ((o >>> 12) ^^^ (o >>> 17)) % 32, i * 2 ^ 30 + (o >>> 17) <<< 12 + o % 4096)
  | _ => none

/-- May host h reach the slab of a DPA: the reason code of the first failing check of R247 (3 and 4), then R631. -/
def Dev.dpaCheck (d : Dev) (host : Option Nat) (dpa : Nat) : Option Nat :=
  match dpaPhys dpa with
  | none => some 0x0503
  | some (view, i, s, _) =>
    let b := d.slab s i
    let owned := match host with
      | some h => bit b h
      | none => false
    if i ≠ 63 && !owned then some 0x0502
    else if i = 63 || bits b 7 6 ≠ view + 1 then some 0x0503
    else
      let outs := (List.range 8).filter (fun p => d.service p = 2)
      let hit := if view = 2 then !outs.isEmpty else outs.contains (s / 4)
      if hit then some 0x030F else none

/-! Translation (R242 to R252). -/

/-- On whose behalf memory is accessed, as R247, R197 and R219 need it: the unit, the context, the partition of the
command, the scratchpad port, the TSV-port input, the refusal code for bank 30, whether R241 holds. -/
structure Using where
  who : Who
  ctx : Nat
  part : Nat
  port : Nat
  input : Nat
  b30 : Nat
  own : Bool
  /-- placement and location of the descriptor whose data are accessed (R420) -/
  place : Option (Nat × Nat)
  /-- does a leaf in device memory fail a vector source (R155)? -/
  onlySpad : Bool
  deriving DecidableEq, Repr

/-- A refused access: event 0x8502 and a failure of cause 2 (R248). -/
def xlatFail {α : Type} (u : Using) (va code : Nat) : Act α := do
  Act.upd (fun d => d.raiseCtx 0x8502 u.ctx [u.ctx, va, code])
  Act.fail2 code

/-- One table entry of a node. -/
def nodeRead (u : Using) (dpa : Nat) : Act Nat := do
  match dpaPhys dpa with
  | none => return 0
  | some (_, _, s, off) =>
    let (bs, bad) ← Mm.act (hbmGet s off 8 3 (some u.ctx))
    if bad then Act.poisoned
    return leNat bs

/-- The checks of one level on an entry: reserved bits, kind and alignment (check 2). `shift` is the size of the page
that a leaf at this level maps, 0 where no leaf is allowed; `last` at L3; `align` the alignment of the next node. -/
def entryOk (e shift align : Nat) (last : Bool) : Bool :=
  match bits e 62 61 with
  | 0 => !last && bits e 60 43 = 0 && bits e 7 2 = 0 && (bits e 42 8 * 256) % align = 0
  | 1 => shift ≠ 0 && bits e 59 43 = 0 && bits e 15 2 = 0 &&
    (if bit e 60 then last && bits e 42 31 = 0 else (bits e 42 16 * 65536) % 2 ^ shift = 0)
  | _ => false

/-- The walk from a node at level `l` (R242, R247 checks 1 to 4): the leaf and the size of its page. -/
def walkFrom (u : Using) (va : Nat) : Nat → Nat → Act (Nat × Nat)
  | 0, _ => Act.fail2 0x0506
  | fuel + 1, node => do
    let l := 3 - fuel
    let idx := match l with
      | 0 => bits va 51 39
      | 1 => bits va 38 30
      | 2 => bits va 29 21
      | _ => bits va 20 16
    let e ← nodeRead u (node + 8 * idx)
    if !(bit e 63) then xlatFail u va 0x0501
    let shift := match l with
      | 0 => 0
      | 1 => 30
      | 2 => 21
      | _ => 16
    let align := if l = 2 then 256 else 4096
    if !(entryOk e shift align (l = 3)) then xlatFail u va 0x0506
    let d ← Act.dev
    let leaf := bits e 62 61 = 1
    let dpa := if leaf then bits e 42 16 * 65536 else bits e 42 8 * 256
    if !(leaf && bit e 60) then
      match d.dpaCheck (d.owner u.ctx) dpa with
      | some code => xlatFail u va code
      | none => pure ()
    if leaf then return (e, shift)
    walkFrom u va fuel dpa

/-- A walk through a context's tables. -/
def walk (u : Using) (va : Nat) : Act (Nat × Nat) := do
  let d ← Act.dev
  let root := d.ctxReg u.ctx 0x04
  if !(bit root 63) then xlatFail u va 0x0501
  if bits root 62 43 ≠ 0 || bits root 15 0 ≠ 0 then xlatFail u va 0x0506
  let node := bits root 42 16 * 65536
  match d.dpaCheck (d.owner u.ctx) node with
  | some code => xlatFail u va code
  | none => pure ()
  walkFrom u va 4 node

/-- Look a translation up in a cache. -/
def xcFind (xs : List XEnt) (c va : Nat) : Option XEnt := xs.find? (fun x => x.ctx = c && x.va = va >>> x.size)

/-- Put a translation into a cache of n entries; the oldest gives way (DESIGN CHOICE, log entry 11). -/
def xcPut (n : Nat) (xs : List XEnt) (x : XEnt) : List XEnt :=
  let ys := xs.filter (fun y => y ≠ x) ++ [x]
  ys.drop (ys.length - n)

/-- The cache of the unit itself. -/
def Dev.xcOf (d : Dev) : Who → List XEnt
  | .array e | .vector e | .dma e => (d.eng e).xc
  | .root s => (d.stk s).xc
  | .sched p => Tbl.look [] p d.xcP
  | .net => []

/-- Fill the caches on a translation. -/
def Dev.xcFill (d : Dev) (w : Who) (p : Nat) (x : XEnt) : Dev :=
  let d := match w with
    | .array e | .vector e | .dma e => d.updEng e (fun k => { k with xc := xcPut 64 k.xc x })
    | .root s => d.updStk s (fun k => { k with xc := xcPut 32 k.xc x })
    | _ => d
  { d with xcP := Tbl.upd [] p (fun xs => xcPut 2048 xs x) d.xcP }

/-- The leaf that translates an address: from the unit's cache, the partition's cache, or a walk (R250). -/
def leafOf (u : Using) (va : Nat) : Act XEnt := do
  let d ← Act.dev
  match xcFind (d.xcOf u.who) u.ctx va with
  | some x => return x
  | none =>
    -- a root engine asks its partition's unit by emission (R281)
    match u.who with
    | .root s => Act.upd (fun d => d.out (.xlatReq s u.ctx va))
    | _ => pure ()
    match xcFind (Tbl.look [] u.part d.xcP) u.ctx va with
    | some x => do
      Act.upd (fun d => d.xcFill u.who u.part x)
      return x
    | none => do
      let (leaf, size) ← walk u va
      let x : XEnt := ⟨u.ctx, va >>> size, size, leaf⟩
      Act.upd (fun d => d.xcFill u.who u.part x)
      return x

/-- Is an access one of an engine to its own scratchpad? -/
def Using.ownSpad (u : Using) (e : Nat) : Bool :=
  match u.who with
  | .vector e' | .array e' | .dma e' => e' == e
  | _ => false

/-- Is a scratchpad page in a secure bank (R195, R208)? -/
def securePage (e page : Nat) : Bool := page / 12 == 31 && e % 16 == 0

/-- Does an access stall on a secure bank that is being wiped: one of its former holder (R213)? -/
def Dev.wipeStalls (d : Dev) (u : Using) (e page : Nat) : Bool :=
  securePage e page && u.ownSpad e && (match Tbl.look? (e / 16) d.wiping with
    | some (_, some c) => c == u.ctx
    | _ => false)

/-- Check 6 of R247 and R446 for a scratchpad leaf, and the rules of the secure banks (R208 to R210), which come before the
rest (DESIGN CHOICE, log entry 252): the reason code. The network and the coordinator belong to no partition. -/
def Dev.spadCheck (d : Dev) (u : Using) (e page : Nat) : Option Nat :=
  let bank := page / 12
  let vec := match u.who with
    | .vector e' => e' != e
    | _ => false
  if page > 383 then some 0x0509
  else if securePage e page then
    let holder := d.engReg e 0x22
    if !(u.ownSpad e && bit holder 15 && bits holder 9 0 = u.ctx) || (e = 0 && page = 383) ||
        (Tbl.look? (e / 16) d.wiping).isSome then some 0x0B01 else none
  else if bank = 30 then some u.b30
  else if vec then some 0x0309
  else if u.who ≠ .net && e / 8 ≠ u.part then some 0x0509
  else
    let granted := match d.owner u.ctx with
      | some h => bit (d.engReg e 0x25) (4 * bank + h)
      | none => false
    if granted then none else some 0x030D

/-- Translate one address for a read or a write (R247): where it lies. -/
def translate (u : Using) (va : Nat) (write : Bool) : Act Phys := do
  let x ← leafOf u va
  let d ← Act.dev
  let allowed := if write then bit x.leaf 1 else bit x.leaf 0
  if !allowed then xlatFail u va 0x0504
  if bit x.leaf 60 then
    let e := bits x.leaf 30 25
    let page := bits x.leaf 24 16
    if d.wipeStalls u e page then Act.fail ⟨2, 0x0B01, false, some (e / 16)⟩
    match d.spadCheck u e page with
    | some code => xlatFail u va code
    | none => pure ()
    if u.own then xlatFail u va 0x0505
    if d.service (partOfEng e) = 2 then xlatFail u va 0x030F
    match u.place with
    | some (p, l) => if p ≠ 3 || e / 2 ≠ l then Act.fail2 0x020A
    | none => pure ()
    return .spad e (page * 65536 + va % 65536)
  else
    let dpa := bits x.leaf 42 16 * 65536 + va % 2 ^ x.size
    -- an access through a cached leaf meets a partition that has since gone out of service as well (R631)
    match d.dpaCheck (d.owner u.ctx) dpa with
    | some 0x030F => xlatFail u va 0x030F
    | _ => pure ()
    match dpaPhys dpa with
    | none => xlatFail u va 0x0503
    | some (view, _, s, off) =>
      let fits := match u.who with
        | .root t => view == 0 && s == t
        | _ => true
      if u.own && !fits then xlatFail u va 0x0505
      if u.onlySpad then Act.fail2 0x0309
      match u.place with
      | some (p, l) =>
        if p ≠ view || (p = 0 && s ≠ l) || (p = 1 && s / 4 ≠ l) then Act.fail2 0x020A
      | none => pure ()
      return .hbm s off

/-- The pieces of a range of addresses that lie contiguously, cut at 4 KiB. -/
def pieces (u : Using) (write : Bool) : Nat → Nat → Nat → Act (List (Phys × Nat))
  | 0, _, _ => return []
  | fuel + 1, va, n => do
    if n = 0 then return []
    let k := min n (4096 - va % 4096)
    let p ← translate u va write
    let rest ← pieces u write fuel (va + k) (n - k)
    return (p, k) :: rest

/-- Where a range of a context's addresses lies. -/
def locate (u : Using) (write : Bool) (va n : Nat) : Act (List (Phys × Nat)) :=
  pieces u write (n / 4096 + 2) va n

/-- The scratchpad port of an access: another engine's scratchpad is reached through its port 0 (R194, R408). -/
def Using.portAt (u : Using) (e : Nat) : Nat :=
  match u.who with
  | .array e' | .vector e' | .dma e' => if e' = e then u.port else 0
  | _ => 0

/-- The die of the unit that accesses; none for the network and the coordinator (R12, log entry 253). -/
def Using.die (u : Using) : Option Nat :=
  match u.who with
  | .array e | .vector e | .dma e => some (e / 16)
  | .root s => some (s / 8)
  | .sched p => some (p / 2)
  | .net => none

/-- The die on which a place lies (R12). -/
def Phys.die : Phys → Nat
  | .hbm s _ => s / 8
  | .spad e _ => e / 16

/-- The sub-index of the grants entry of a die's link end toward another die (R225). -/
def linkSub (x y : Nat) : Nat := 0x30 + 4 * (if y < x then y else y - 1)

/-- Bytes sent from one die to another cross the one link that joins them, in slots of 3,200 bytes that the sender's end
grants (R13, R14, R219). Within a die they cross none. -/
def Dev.crossOut (d : Dev) (x y n : Nat) : Dev :=
  if x = y then d else d.addReg (0x3400 + 2 * x) (linkSub x y) ((n + 3199) / 3200)

/-- An access to a place on another die: its request and write data cross from the requesting die, its reply comes back
(R14, R16, R219, R221). -/
def Dev.cross (d : Dev) (x : Option Nat) (y n : Nat) (write : Bool) : Dev :=
  match x with
  | none => d
  | some x => (d.crossOut x y (if write then n else 1)).crossOut y x (if write then 1 else n)

/-- Read located pieces; a poisoned line or word fails the command (R206, R260). -/
def readPieces (u : Using) (ps : List (Phys × Nat)) : Act (List Nat) := do
  let mut out : List Nat := []
  let mut bad := false
  for (p, k) in ps do
    Act.upd (fun d => d.cross u.die p.die k false)
    let (bs, b) ← Mm.act (match p with
      | .hbm s off => hbmGet s off k u.input (some u.ctx)
      | .spad e off => spadGet e off k (u.portAt e))
    out := out ++ bs
    bad := bad || b
  if bad then Act.poisoned
  return out

/-- Read `n` bytes at an address of a context. -/
def vread (u : Using) (va n : Nat) : Act (List Nat) := do
  let ps ← locate u false va n
  readPieces u ps

/-- Read a little-endian number of `n` bytes. -/
def vreadNat (u : Using) (va n : Nat) : Act Nat := do
  let bs ← vread u va n
  return leNat bs

/-- Write located pieces. -/
def writePieces (u : Using) : List (Phys × Nat) → List Nat → Bool → Act Bool
  | [], _, bad => return bad
  | (p, k) :: ps, bs, bad => do
    Act.upd (fun d => d.cross u.die p.die k true)
    let b ← Mm.act (match p with
      | .hbm s off => hbmPut s off (bs.take k) u.input (some u.ctx)
      | .spad e off => spadPut e off (bs.take k) (u.portAt e))
    writePieces u ps (bs.drop k) (bad || b)

/-- Write bytes at an address of a context; a partial write that meets an uncorrectable line or word fails (R232). -/
def vwrite (u : Using) (va : Nat) (bs : List Nat) : Act Unit := do
  let ps ← locate u true va bs.length
  let bad ← writePieces u ps bs false
  if bad then Act.poisoned

/-- The state after a computation, its answer beside it. -/
def State.runAct {α : Type} (s : State) (a : Act α) : Except Fail α × State :=
  let r := a ⟨s.mem, s.dev⟩
  (r.1, { s with mem := r.2.mem, dev := r.2.dev })

/-- The state after a computation over memories and part that cannot fail. -/
def State.runMm {α : Type} (s : State) (m : Mm α) : α × State :=
  let r := m ⟨s.mem, s.dev⟩
  (r.1, { s with mem := r.2.mem, dev := r.2.dev })

end Sys2Proof.Machine
end

