-- ==== Sys2Proof/Machine/Operands.lean ====
section
/-! DEFINITION. Operand forms: the fields of a 512-bit command (R400 to R415), tensor descriptors (R418 to R420), and the
elements of a tensor in memory (R23, R24, R30 to R39, R419). -/
namespace Sys2Proof.Machine
open Sys2Proof

/-! Command words. A command is held as the number its 64 bytes spell, little-endian. -/

/-- The header of a command (R400), for a context, stream and stamp. -/
def originOf (c : Fin 1024) (i : Fin 4) (stamp raw : Nat) : Origin :=
  { ctx := c, stream := i, seq := bits raw 47 32, stamp := stamp, slot := bits raw 13 8, barrier := bit raw 48,
    sigEn := bit raw 49, sigObj := bits raw 63 50 }

/-- The opcode byte of a command (R400). -/
def opcodeOf (raw : Nat) : Nat := bits raw 7 0

/-- A field of bits [51:6] of the 64-bit word at a byte offset, as an address (R404). -/
def addrAt (raw off : Nat) : Nat := bits (bytesAt raw off 8) 51 6 * 64

/-- The bits of a command outside the fields of its layout: those of `raw` at the positions of `mask`. -/
def reservedOf (raw mask : Nat) : Nat := raw &&& mask

/-- The mask of bits [hi:lo] of the field at a byte offset. -/
def fieldMask (off hi lo : Nat) : Nat := (2 ^ (hi + 1 - lo) - 1) <<< (8 * off + lo)

/-- The reserved bits of every header (R400). -/
def headerMask : Nat := fieldMask 0 31 14

/-- MTILE (R405). -/
def mtileOf (raw : Nat) : MtileF :=
  let w := bytesAt raw 8 8
  let a := bytesAt raw 16 8
  let d := bytesAt raw 24 8
  { wDesc := addrAt raw 8, aDesc := addrAt raw 16, dDesc := addrAt raw 24,
    wKdim := bits w 59 58, wNdim := bits w 57 56, aKdim := bits w 55 54, aMdim := bits w 53 52,
    dMdim := bits a 59 58, dNdim := bits a 57 56, setNo := bits a 55 55, accumulate := bits a 54 54,
    drain := bits a 53 52, wKeep := bits a 5 5, interval := bits a 4 3, rounding := bits a 2 0,
    sat := bits d 55 55, intOverflow := bits d 54 54, heirloom := bits d 53 53,
    kCount := bytesAt raw 35 1, tensor := bytesAt raw 32 3, k0 := bytesAt raw 36 4, n0 := bytesAt raw 40 4,
    m0 := bytesAt raw 44 4, nCount := bits (bytesAt raw 48 2) 9 0, mCount := bits (bytesAt raw 50 2) 8 0,
    reserved := reservedOf raw (headerMask + fieldMask 8 63 60 + fieldMask 8 5 0 + fieldMask 16 63 60 + fieldMask 24 63 56 +
      fieldMask 24 52 52 + fieldMask 24 5 0 + fieldMask 48 15 10 + fieldMask 50 15 9 + fieldMask 52 95 0) }

/-- Vector commands (R406); VSCALE, opcode 0x27, places beta where the others place the second source. -/
def vecOf (raw : Nat) : VecF :=
  let a := bytesAt raw 8 8
  let c := bytesAt raw 24 8
  let scale := opcodeOf raw = 0x27
  { aDesc := addrAt raw 8, bDesc := if scale then 0 else addrAt raw 16, cDesc := addrAt raw 24, dDesc := addrAt raw 32,
    fn := bits a 63 59, axis := bits a 58 58, order := bits a 57 57, k := bits c 58 52, rounding := bits a 5 3,
    sat := bits a 2 2, intOverflow := bits a 1 1, alpha := bytesAt raw 40 4,
    beta := if scale then bytesAt raw 16 4 else 0, tensor := bytesAt raw 44 3,
    srOrigin := bytesAt raw 48 6, srExtent := bytesAt raw 56 4,
    reserved := reservedOf raw (headerMask + fieldMask 8 56 52 + fieldMask 8 0 0 +
      (if scale then fieldMask 16 63 32 else fieldMask 16 63 52 + fieldMask 16 5 0) + fieldMask 24 63 59 +
      fieldMask 24 5 0 + fieldMask 32 63 52 + fieldMask 32 5 0 + fieldMask 44 31 24 + fieldMask 48 63 48 +
      fieldMask 60 31 0) }

/-- Move commands (R408). -/
def moveOf (raw : Nat) : MoveF :=
  { src := addrAt raw 8, dst := addrAt raw 16, index := addrAt raw 24,
    reserved := reservedOf raw (headerMask + fieldMask 8 63 52 + fieldMask 8 5 0 + fieldMask 16 63 52 + fieldMask 16 5 0 +
      fieldMask 24 63 52 + fieldMask 24 5 0 + fieldMask 32 255 0) }

/-- Collectives (R411). -/
def collOf (raw : Nat) : CollF :=
  let c := bytesAt raw 36 4
  let srcKind := bits c 7 7
  let delKind := bits c 6 6
  { src := if srcKind = 0 then addrAt raw 8 else 0, emit := if srcKind = 1 then bytesAt raw 8 4 else 0,
    dst := addrAt raw 16, positions := addrAt raw 24, handle := bytesAt raw 32 4, root := bits c 21 12,
    scheme := bits c 11 10, combine := bits c 9 8, srcKind := srcKind, delKind := delKind, rounding := bits c 5 3,
    sat := bits c 2 2, tensor := bytesAt raw 40 3, k := bits (bytesAt raw 44 2) 6 0,
    reserved := reservedOf raw (headerMask + (if srcKind = 0 then fieldMask 8 63 52 + fieldMask 8 5 0 else fieldMask 8 63 32) +
      fieldMask 16 63 52 + fieldMask 16 5 0 + fieldMask 24 63 52 + fieldMask 24 5 0 + fieldMask 36 31 22 +
      fieldMask 36 1 0 + fieldMask 40 31 24 + fieldMask 44 15 7 + fieldMask 46 143 0) }

/-- SOPEN and SRESTORE (R414). -/
def snapOf (raw : Nat) : SnapF :=
  let open_ := opcodeOf raw = 0x78
  { manifest := addrAt raw 8, table := addrAt raw 16, status := addrAt raw 24, handle := bytesAt raw 32 4,
    localBase := bytesAt raw 36 4, localLen := bytesAt raw 40 4, entries := bytesAt raw 44 2,
    netInterval := if open_ then bytesAt raw 46 1 else 0, opt := bits (bytesAt raw 47 1) 0 0,
    obj := if open_ then bits (bytesAt raw 48 2) 13 0 else bytesAt raw 48 4,
    reserved := reservedOf raw (headerMask + fieldMask 8 63 52 + fieldMask 8 5 0 + fieldMask 16 63 52 + fieldMask 16 5 0 +
      fieldMask 24 63 52 + fieldMask 24 5 0 + (if open_ then 0 else fieldMask 46 7 0) + fieldMask 47 7 1 +
      (if open_ then fieldMask 48 15 14 + fieldMask 50 111 0 else fieldMask 52 95 0)) }

/-- A root-engine job record (R277). -/
def jobRecOf (raw : Nat) : JobRec :=
  let emit := bits (bytesAt raw 3 1) 1 0
  let y := bytesAt raw 52 4
  { ty := bits (bytesAt raw 0 1) 3 0, stack := bits (bytesAt raw 1 1) 4 0, conv := bits (bytesAt raw 2 1) 4 0,
    emit := emit, tensor := bytesAt raw 4 3, src0 := bits (bytesAt raw 8 8) 51 0, src1 := bits (bytesAt raw 16 8) 51 0,
    dst := if emit = 0 then bits (bytesAt raw 24 8) 51 0 else bytesAt raw 24 4, aux := bits (bytesAt raw 32 8) 51 0,
    origin := bits (bytesAt raw 40 8) 47 0, count := bytesAt raw 48 4, waitEn := bit y 31, sigEn := bit y 30,
    waitObj := bits y 27 14, sigObj := bits y 13 0, waitVal := bytesAt raw 56 8,
    reserved := reservedOf raw (fieldMask 0 7 4 + fieldMask 1 7 5 + fieldMask 2 7 5 + fieldMask 3 7 2 +
      fieldMask 4 31 24 + fieldMask 8 63 52 + fieldMask 16 63 52 +
      (if emit = 0 then fieldMask 24 63 52 else fieldMask 24 63 32) + fieldMask 32 63 52 + fieldMask 40 63 48 +
      fieldMask 52 29 28) }

/-! Tensor descriptors. -/

/-- A descriptor from its 64 bytes (R418). -/
def descOf (raw : Nat) : Desc :=
  let p := bytesAt raw 1 1
  { fmt := bits (bytesAt raw 0 1) 3 0, place := bits p 3 2, tilePresent := bit p 1, loc := bits (bytesAt raw 2 1) 4 0,
    tile := if bit p 1 then bytesAt raw 4 4 else one32, base := bits (bytesAt raw 8 8) 51 0,
    sizes := (List.range 4).map (fun i => bytesAt raw (16 + 4 * i) 4),
    strides := (List.range 4).map (fun i => bytesAt raw (32 + 4 * i) 4),
    scalePtr := bits (bytesAt raw 48 8) 51 0, prec := bits (bytesAt raw 56 8) 51 0 }

/-- The reserved bits of a descriptor (R418). -/
def descReserved : Nat :=
  fieldMask 0 7 4 + fieldMask 1 7 4 + fieldMask 1 0 0 + fieldMask 2 7 5 + fieldMask 3 7 0 + fieldMask 8 63 52 +
  fieldMask 48 63 52 + fieldMask 56 63 52

/-- Size of a dimension. -/
def Desc.size (d : Desc) (i : Nat) : Nat := d.sizes.getD i 1
/-- Stride of a dimension; ignored, so 0, for a dimension of size 1 (R419). -/
def Desc.stride (d : Desc) (i : Nat) : Nat := if d.size i = 1 then 0 else d.strides.getD i 0
/-- Elements in all. -/
def Desc.total (d : Desc) : Nat := d.size 0 * d.size 1 * d.size 2 * d.size 3
/-- The position of an element (R419). -/
def Desc.pos (d : Desc) (c : List Nat) : Nat :=
  c.getD 0 0 * d.stride 0 + c.getD 1 0 * d.stride 1 + c.getD 2 0 * d.stride 2 + c.getD 3 0 * d.stride 3
/-- An element's place in the whole tensor, dimension 0 fastest. -/
def Desc.linear (d : Desc) (c : List Nat) : Nat :=
  c.getD 0 0 + d.size 0 * (c.getD 1 0 + d.size 1 * (c.getD 2 0 + d.size 2 * c.getD 3 0))

/-- Elements and bytes of one packing group of a format (R23, R39). -/
def packInfo (fmt : Nat) : Nat × Nat :=
  match fmt with
  | 0x6 | 0x8 | 0xC => (2, 1)
  | 0x9 => (4, 1)
  | 0x5 => (4, 3)
  | 0xE => (32, 192)
  | f => (1, elemBits f / 8)

/-- The reason code of R419, or of R22, for a descriptor; 0 for a good one. -/
def descCode (raw : Nat) : Nat :=
  let d := descOf raw
  let st := fun i => d.strides.getD i 0
  let align := match d.fmt with
    | 0x1 | 0x2 => 2
    | 0x0 | 0xA => 4
    | 0xE => 64
    | _ => 1
  let k := match d.fmt with
    | 0x6 | 0x8 => 2
    | 0x5 | 0x9 => 4
    | _ => 1
  let narrow := elemBits d.fmt < 8 && !(isBlock d.fmt)
  let lined := isBlock d.fmt || d.fmt = 0xE
  let off := fun i => d.size i ≠ 1
  if d.fmt = 0xF then 0x0402
  else if raw &&& descReserved ≠ 0 || (List.range 4).any (fun i => d.sizes.getD i 0 = 0) || d.base % align ≠ 0 ||
      (d.place = 2 && d.loc ≠ 0) ||
      (narrow && ((off 0 && st 0 ≠ 1) || (List.range 3).any (fun i => off (i + 1) && st (i + 1) % k ≠ 0))) ||
      (lined && ((off 0 && st 0 ≠ 1) || (off 1 && st 1 ≠ 32 * ceilDiv (d.size 0) 32) ||
        (off 2 && st 2 ≠ (32 * ceilDiv (d.size 0) 32) * d.size 1) ||
        (off 3 && st 3 ≠ (32 * ceilDiv (d.size 0) 32) * d.size 1 * d.size 2))) then 0x0206
  else if d.tilePresent && !(tileScaleOk d.tile) then 0x0403
  else 0

/-- Read the descriptor at an address (R421); a bad one is refused with its code. -/
def readDesc (u : Using) (va : Nat) : Act Desc := do
  let raw ← vreadNat u va 64
  let c := descCode raw
  Act.refuseIf (c ≠ 0) c
  return descOf raw

/-! Elements in memory. -/

/-- The codes of one packing group. -/
def unpackGroup (fmt : Nat) (bs : List Nat) : List Nat :=
  let (k, _) := packInfo fmt
  if fmt = 0xE then
    (List.range 32).map (fun i => leNat ((bs.drop (4 * i)).take 4) <<< 16 + leNat ((bs.drop (128 + 2 * i)).take 2))
  else
    let v := leNat bs
    let w := elemBits fmt
    (List.range k).map (fun i => (v >>> (w * i)) % 2 ^ w)

/-- The bytes of one packing group. -/
def packGroup (fmt : Nat) (cs : List Nat) : List Nat :=
  let (_, b) := packInfo fmt
  if fmt = 0xE then
    (List.range 32).flatMap (fun i => leBytes 4 (cs.getD i 0 >>> 16)) ++
      (List.range 32).flatMap (fun i => leBytes 2 (cs.getD i 0))
  else
    let w := elemBits fmt
    leBytes b ((cs.zipIdx.map (fun p => (p.1 % 2 ^ w) <<< (w * p.2))).sum)

/-- Cut a list of positions into runs of consecutive ones: (first, length). -/
def runsOf : List Nat → List (Nat × Nat)
  | [] => []
  | p :: t => match runsOf t with
    | [] => [(p, 1)]
    | (q, n) :: rest => if q = p + 1 then (p, n + 1) :: rest else (p, 1) :: (q, n) :: rest

/-- Read the codes of a run of positions of a format at a base address. -/
def readRun (u : Using) (fmt base p n : Nat) : Act (List Nat) := do
  let (k, b) := packInfo fmt
  let g0 := p / k
  let g1 := (p + n - 1) / k
  let bs ← vread u (base + g0 * b) ((g1 + 1 - g0) * b)
  let all := (chunksOf b bs).flatMap (unpackGroup fmt)
  return (all.drop (p - g0 * k)).take n

/-- Read the codes at positions. -/
def readPos (u : Using) (fmt base : Nat) (ps : List Nat) : Act (List Nat) := do
  let rs ← (runsOf ps).mapM (fun r => readRun u fmt base r.1 r.2)
  return rs.flatten

/-- Write the codes of a run of positions. The places that remain up to the next multiple of `pad` after it are written as
code 0: those of the last group or block where the run ends its row, none for `pad` 1; other partial groups are merged. -/
def writeRun (u : Using) (fmt base p : Nat) (cs : List Nat) (pad : Nat) : Act Unit := do
  let (k, b) := packInfo fmt
  let n := cs.length
  let tail := (pad - (p + n) % pad) % pad
  let cs := cs ++ List.replicate tail 0
  let n := cs.length
  let g0 := p / k
  let g1 := (p + n - 1) / k
  if p % k = 0 && (p + n) % k = 0 then
    vwrite u (base + g0 * b) ((chunksOf k cs).flatMap (packGroup fmt))
  else
    let old ← readRun u fmt base (g0 * k) ((g1 + 1 - g0) * k)
    let new := old.take (p - g0 * k) ++ cs ++ old.drop (p - g0 * k + n)
    vwrite u (base + g0 * b) ((chunksOf k new).flatMap (packGroup fmt))

/-- The padding that follows a position: to the end of its packing group, or of its block of 32 in block-scaled storage, where
it ends a row (R24, R32, R39); none elsewhere. -/
def rowPad (blk : Bool) (fmt : Nat) (ends : List Nat) (p : Nat) : Nat :=
  if ends.contains p then (if blk then 32 else (packInfo fmt).1) else 1

/-- Write codes at positions; `pad` says of a position to which multiple its row is padded after it. -/
def writePos (u : Using) (fmt base : Nat) (ps cs : List Nat) (pad : Nat → Nat) : Act Unit := do
  let _ ← (runsOf ps).foldlM (fun (cs : List Nat) r => do
    writeRun u fmt base r.1 (cs.take r.2) (pad (r.1 + r.2 - 1))
    return cs.drop r.2) cs
  return ()

/-- The use of a descriptor's own data. -/
def Using.of (u : Using) (d : Desc) : Using := { u with place := some (d.place, d.loc) }

/-- Read the elements at coordinates. -/
def readCoords (u : Using) (d : Desc) (cs : List (List Nat)) : Act (List Nat) :=
  readPos (u.of d) d.fmt d.base (cs.map d.pos)

/-- Write the elements at coordinates; the last of dimension 0 ends its row. -/
def writeCoords (u : Using) (d : Desc) (cs : List (List Nat)) (codes : List Nat) : Act Unit :=
  let ends := (cs.filter (fun c => c.getD 0 0 + 1 = d.size 0)).map d.pos
  writePos (u.of d) d.fmt d.base (cs.map d.pos) codes (rowPad (isBlock d.fmt) d.fmt ends)

/-- The scale bytes of the blocks that hold positions, one per position in order (R33). -/
def readScales (u : Using) (d : Desc) (ps : List Nat) : Act (List Nat) := do
  let bl := (ps.map (· / 32)).dedup
  let bl := sortBy id bl
  let vs ← readPos (u.of d) 0xB d.scalePtr bl
  let t := bl.zip vs
  return ps.map (fun p => Tbl.look 0 (p / 32) t)

/-- Coordinates of a linear index of a tensor of given sizes, dimension 0 fastest. -/
def coordsOf (sizes : List Nat) (i : Nat) : List Nat :=
  let s0 := sizes.getD 0 1
  let s1 := sizes.getD 1 1
  let s2 := sizes.getD 2 1
  [i % s0, i / s0 % s1, i / (s0 * s1) % s2, i / (s0 * s1 * s2)]

end Sys2Proof.Machine
end

