-- ==== Sys2Proof/Machine/Encode.lean ====
section
/-! DEFINITION. The 512 bits of a command, from its origin and its fields (R400 to R415, R498): what a stream holds of a
command, so that it can be issued again (R399) or wait at the head (R439, R505). -/
namespace Sys2Proof.Machine
open Sys2Proof

/-- A word of fields: byte offset, bits [hi:lo] of the field there, value. -/
def word (fs : List (Nat × Nat × Nat × Nat)) : Nat :=
  fs.foldl (fun r (f : Nat × Nat × Nat × Nat) => r + (f.2.2.2 % 2 ^ (f.2.1 + 1 - f.2.2.1)) <<< (8 * f.1 + f.2.2.1)) 0

/-- The header of a command (R400). -/
def hdrFields (o : Origin) (op : Nat) : List (Nat × Nat × Nat × Nat) :=
  [(0, 7, 0, op), (0, 13, 8, o.slot), (0, 47, 32, o.seq), (0, 48, 48, b2n o.barrier), (0, 49, 49, b2n o.sigEn),
   (0, 63, 50, o.sigObj)]

/-- An address field, bits [51:6] (R404). -/
def addrField (off va : Nat) : Nat × Nat × Nat × Nat := (off, 51, 6, va / 64)

/-- A command as its stream holds it. -/
def cmdOf (o : Origin) (op reserved : Nat) (fs : List (Nat × Nat × Nat × Nat)) : Option QCmd :=
  some ⟨(word (hdrFields o op ++ fs) ||| reserved) % 2 ^ 512, o.stamp, false, 0⟩

/-- SWAIT and SSIGNAL (R407): object, operation or timeout, value. -/
def swaitFields (obj timeout value : Nat) : List (Nat × Nat × Nat × Nat) :=
  [(8, 13, 0, obj), (12, 31, 0, timeout), (16, 63, 0, value)]

/-- SSIGNAL (R407). -/
def ssignalFields (obj operation value : Nat) : List (Nat × Nat × Nat × Nat) :=
  [(8, 13, 0, obj), (10, 0, 0, operation), (16, 63, 0, value)]

/-- SREMOTE (R407). -/
def sremoteFields (obj rank handle value : Nat) : List (Nat × Nat × Nat × Nat) :=
  [(8, 13, 0, obj), (10, 9, 0, rank), (12, 31, 0, handle), (16, 63, 0, value)]

/-- SFENCE (R407). -/
def sfenceFields (addr value : Nat) : List (Nat × Nat × Nat × Nat) := [(8, 63, 0, addr), (16, 63, 0, value)]

/-- MTILE (R405). -/
def mtileFields (f : MtileF) : List (Nat × Nat × Nat × Nat) :=
  [addrField 8 f.wDesc, (8, 59, 58, f.wKdim), (8, 57, 56, f.wNdim), (8, 55, 54, f.aKdim), (8, 53, 52, f.aMdim),
   addrField 16 f.aDesc, (16, 59, 58, f.dMdim), (16, 57, 56, f.dNdim), (16, 55, 55, f.setNo), (16, 54, 54, f.accumulate),
   (16, 53, 52, f.drain), (16, 5, 5, f.wKeep), (16, 4, 3, f.interval), (16, 2, 0, f.rounding),
   addrField 24 f.dDesc, (24, 55, 55, f.sat), (24, 54, 54, f.intOverflow), (24, 53, 53, f.heirloom),
   (35, 7, 0, f.kCount), (32, 23, 0, f.tensor), (36, 31, 0, f.k0), (40, 31, 0, f.n0), (44, 31, 0, f.m0),
   (48, 9, 0, f.nCount), (50, 8, 0, f.mCount)]

/-- Vector commands (R406). -/
def vecFields (op : Nat) (f : VecF) : List (Nat × Nat × Nat × Nat) :=
  [addrField 8 f.aDesc, (8, 63, 59, f.fn), (8, 58, 58, f.axis), (8, 57, 57, f.order), (8, 5, 3, f.rounding),
   (8, 2, 2, f.sat), (8, 1, 1, f.intOverflow), (if op = 0x27 then (16, 31, 0, f.beta) else addrField 16 f.bDesc),
   addrField 24 f.cDesc, (24, 58, 52, f.k), addrField 32 f.dDesc, (40, 31, 0, f.alpha), (44, 23, 0, f.tensor),
   (48, 47, 0, f.srOrigin), (56, 31, 0, f.srExtent)]

/-- Move commands (R408). -/
def moveFields (f : MoveF) : List (Nat × Nat × Nat × Nat) := [addrField 8 f.src, addrField 16 f.dst, addrField 24 f.index]

/-- Collectives (R411). -/
def collFields (f : CollF) : List (Nat × Nat × Nat × Nat) :=
  [(if f.srcKind = 1 then (8, 31, 0, f.emit) else addrField 8 f.src), addrField 16 f.dst, addrField 24 f.positions,
   (32, 31, 0, f.handle), (36, 21, 12, f.root), (36, 11, 10, f.scheme), (36, 9, 8, f.combine), (36, 7, 7, f.srcKind),
   (36, 6, 6, f.delKind), (36, 5, 3, f.rounding), (36, 2, 2, f.sat), (40, 23, 0, f.tensor), (44, 6, 0, f.k)]

/-- CHANDLE (R498). -/
def handleFields (action : Nat) (f : HandleF) : List (Nat × Nat × Nat × Nat) :=
  [(8, 2, 0, action), (9, 1, 0, f.wire), (10, 7, 0, f.group), (12, 31, 0, f.handle), (16, 51, 6, f.table / 64),
   (24, 63, 0, f.job), (32, 31, 0, f.timeout), (36, 31, 0, f.emit)]

/-- RJOBS (R412). -/
def rjobsFields (list count : Nat) : List (Nat × Nat × Nat × Nat) := [addrField 8 list, (16, 15, 0, count)]

/-- UNORM (R412): the list control is bytes 28 to 31. -/
def unormFields (list table handle control : Nat) : List (Nat × Nat × Nat × Nat) :=
  [addrField 8 list, addrField 16 table, (24, 31, 0, handle), (28, 17, 0, control)]

/-- HPHASE (R415). -/
def hphaseFields (lead duration cls parts : Nat) : List (Nat × Nat × Nat × Nat) :=
  [(8, 31, 0, lead), (12, 31, 0, duration), (16, 1, 0, cls), (17, 7, 0, parts)]

/-- SOPEN and SRESTORE (R414). -/
def snapFields (op : Nat) (f : SnapF) : List (Nat × Nat × Nat × Nat) :=
  [addrField 8 f.manifest, addrField 16 f.table, addrField 24 f.status, (32, 31, 0, f.handle), (36, 31, 0, f.localBase),
   (40, 31, 0, f.localLen), (44, 15, 0, f.entries), (47, 0, 0, f.opt)] ++
  (if op = 0x78 then [(46, 7, 0, f.netInterval), (48, 13, 0, f.obj)] else [(48, 31, 0, f.obj)])

/-- CHANDLE from a command's bits (R498). -/
def handleOf (raw : Nat) : HandleF :=
  { wire := bits (bytesAt raw 9 1) 1 0, group := bytesAt raw 10 1, handle := bytesAt raw 12 4, table := addrAt raw 16,
    job := bytesAt raw 24 8, timeout := bytesAt raw 32 4, emit := bytesAt raw 36 4,
    reserved := reservedOf raw (headerMask + fieldMask 8 7 3 + fieldMask 9 7 2 + fieldMask 11 7 0 + fieldMask 16 63 52 +
      fieldMask 16 5 0 + fieldMask 40 191 0) }

end Sys2Proof.Machine
end

