-- ==== Sys2Proof/Machine/Flags.lean ====
section
/-! DEFINITION. Computed status: the status line of a stream (R390), the state of bank sets (R102), and the counts that
entries show of the parts. -/
namespace Sys2Proof.Machine
open Sys2Proof

/-- Is the stream IDLE: no accepted and no incomplete issued command (R390)? -/
def Stream.idle (s : Stream) : Bool := s.q.isEmpty && s.run.isEmpty && !s.waiting

/-- Is every stream of a context IDLE? -/
def Dev.ctxIdle (d : Dev) (c : Nat) : Bool := (d.ctx c).streams.all Stream.idle

/-- Accepted commands of a stream that wait to issue; a wait held at the head is one of them (R388). -/
def Stream.unissued (s : Stream) : Nat := s.q.length + b2n (s.waiting && !s.waitMet)

/-- Is the oldest unissued command of a stream held for a wait, a barrier or a fence (R390, R394)? -/
def Stream.heldHead (s : Stream) : Bool :=
  s.waiting ||
  match s.q with
  | [] => false
  | q :: _ => (bit q.raw 48 || opcodeOf q.raw = 0x05 || opcodeOf q.raw = 0x62) && !s.run.isEmpty

/-- The state field of the status line (R390). -/
def Stream.state (s : Stream) : Nat :=
  if s.stopped then 3 else if s.idle then 0 else if s.heldHead then 2 else 1

/-- The sequence of the oldest accepted command not yet issued; with none, the expected sequence. -/
def Stream.nextSeq (s : Stream) : Nat :=
  if s.waiting && !s.waitMet then
    match s.run.find? (fun e => e.op = 0x02 && e.status = 0) with
    | some e => e.seq
    | none => s.expected
  else match s.q with
    | q :: _ => bits q.raw 47 32
    | [] => s.expected

/-- The status line of a stream, 64 bytes (R390). -/
def Stream.line (s : Stream) : Nat :=
  leNat (leBytes 2 s.expected ++ leBytes 2 s.nextSeq ++ leBytes 1 s.state ++ leBytes 1 (if s.stopped then s.cause else 0) ++
    leBytes 2 (if s.stopped then s.reason else 0) ++ leBytes 2 (if s.stopped then s.stopSeq else 0) ++
    leBytes 1 (if s.stopped then s.stopOp else 0) ++ leBytes 1 0 ++ leBytes 4 s.dropped ++ leBytes 8 s.completed ++
    leBytes 8 s.lastChange)

/-- Bank set states, 0x3000+e:0B: two bits a set (R102). -/
def Dev.setStates (d : Dev) (e : Nat) : Nat :=
  let x := d.eng e
  ((x.sets.getD 0 ⟨0, Accum.empty⟩).st % 4) + ((x.sets.getD 1 ⟨0, Accum.empty⟩).st % 4) <<< 2

/-- Waits registered at the sync-object unit, 0x4C00:03: streams, and jobs in a root engine's queue of 16 (R270, R423, R428). -/
def Dev.waits (d : Dev) : Nat :=
  ((d.ctxs.map (fun p => (p.2.streams.filter (fun s => s.waiting && !s.waitMet)).length)).sum) +
  ((d.stks.map (fun p => (((p.2.queue.filter (fun r => !r.started)).take 16).filter (fun r => r.j.r.waitEn && !r.released)).length)).sum)

end Sys2Proof.Machine
end

