-- ==== Sys2Proof/Machine/Precision.lean ====
section
/-! DEFINITION. Precision areas (R104 to R120), the reading of operands that may be widened (R119), the producer of
encoded tensors (R36, R108 to R125, R134, R145, R150), and the precision records of layers (R133 to R135). -/
namespace Sys2Proof.Machine
open Sys2Proof

/-- Run a numeric computation; what it counts goes to the counters (R58). -/
def Act.num {α : Type} (e : Option Nat) (m : Num α) : Act α := do
  let (a, t) := m.run []
  Act.upd (fun d => d.applyCounts e t)
  return a

/-- The seed of a context (R49). -/
def Dev.seed (d : Dev) (c : Nat) : Nat := d.ctxReg c 0x07

/-- Raise an event once per tensor and step (R116, R125). -/
def Dev.raiseOnce (d : Dev) (code c tensor step : Nat) (fields : List Nat) : Dev :=
  if (d.ctx c).onceEv.contains (code, tensor, step) then d
  else (d.updCtx c (fun x => { x with onceEv := x.onceEv ++ [(code, tensor, step)] })).raiseCtx code c fields

/-! Geometry. -/

/-- Elements of a precision tile across K: 256 along M, 512 along N (R105). -/
def PrecH.width (h : PrecH) : Nat := if h.act then 256 else 512
/-- The two descriptor dimensions that are neither K nor the header's X dimension, lower first (R105). -/
def PrecH.others (h : PrecH) : List Nat := [1, 2, 3].filter (· ≠ h.xdim)
/-- Tiles along K. -/
def PrecH.nK (_h : PrecH) (d : Desc) : Nat := ceilDiv (d.size 0) 128
/-- Tiles across K. -/
def PrecH.nX (h : PrecH) (d : Desc) : Nat := ceilDiv (d.size h.xdim) h.width
/-- The number of tiles (R105). -/
def PrecH.count (h : PrecH) (d : Desc) : Nat :=
  h.nK d * h.nX d * (h.others.map d.size).foldl (· * ·) 1
/-- The tile that holds an element (R105). -/
def PrecH.tileOf (h : PrecH) (d : Desc) (c : List Nat) : Nat :=
  let a := h.others.getD 0 0
  let b := h.others.getD 1 0
  let o := c.getD a 0 + d.size a * c.getD b 0
  (o * h.nX d + c.getD h.xdim 0 / h.width) * h.nK d + c.getD 0 0 / 128
/-- K-fastest place of an element inside its tile (R117). -/
def PrecH.slotIdx (h : PrecH) (c : List Nat) : Nat := c.getD 0 0 % 128 + 128 * (c.getD h.xdim 0 % h.width)
/-- The position field of a runner (R109). -/
def PrecH.runnerPos (h : PrecH) (c : List Nat) : Nat :=
  let k := c.getD 0 0 % 128
  let x := c.getD h.xdim 0 % h.width
  if h.act then x <<< 7 ||| k else k <<< 9 ||| x
/-- K offset and X offset of a runner position. -/
def PrecH.runnerKX (h : PrecH) (p : Nat) : Nat × Nat :=
  if h.act then (p % 128, (p >>> 7) % 256) else ((p >>> 9) % 128, p % 512)
/-- Runner entries of a slot (R104). -/
def PrecH.cap (h : PrecH) : Nat := if h.act then 128 else 256
/-- The address of a tile entry. -/
def PrecH.entryVa (h : PrecH) (t : Nat) : Nat := h.addr + 64 + 16 * t
/-- The address of a runner slot (R104). -/
def PrecH.runnerVa (h : PrecH) (t : Nat) : Nat := h.addr + 64 + 16 * h.tiles + t * (4 * h.cap)
/-- The address of a widen slot (R117). -/
def PrecH.widenVa (h : PrecH) (t : Nat) : Nat := h.widen + t * (if h.act then 65536 else 131072)
/-- Elements of a whole tile. -/
def PrecH.slotEls (h : PrecH) : Nat := 128 * h.width
/-- Points of the rotation, 0 for none (R106, R150). -/
def PrecH.rotPoints (h : PrecH) : Nat := if h.heirloomRot then 64 else if h.rot = 0 then 0 else 16 <<< h.rot

/-- The ranges of a precision area: header, tile entries and runner slots, its widen region, its check copies (R104, R117,
R125). -/
def PrecH.extents (h : PrecH) (d : Desc) : List (Nat × Nat) :=
  (h.addr, 64 + h.tiles * (16 + 4 * h.cap)) ::
    ((if h.widen = 0 then [] else [(h.widen, h.tiles * (if h.act then 65536 else 131072))]) ++
     (if h.copies && h.copyAddr ≠ 0 then [(h.copyAddr, h.copySlots * (h.nK d * 128 * h.width * 2))] else []))

/-- The use of a precision area: not the operand's own data. -/
def Using.area (u : Using) : Using := { u with place := none, onlySpad := false }

/-- The use of a layer's precision record: no operand of the command, so R241 does not bind it. -/
def Using.record (u : Using) : Using := { u.area with own := false }

/-- The use of a fetch of a widened tile or a runner slot, through port 1 (R119, R185, R197). -/
def Using.fetch (u : Using) : Using := { u.area with port := 1 }

/-- What is fetched or computed passes through the precision staging bank of the engine at work (R120). -/
def Act.stage (u : Using) (x : Staged) : Act Unit :=
  match u.who with
  | .array e | .vector e => Act.upd (fun d => d.updEng e (fun k => { k with staging := k.staging ++ [x] }))
  | _ => pure ()

/-- The staging bank is free for the next piece of work (R120). -/
def Act.unstage (e : Nat) : Act Unit := Act.upd (fun d => d.updEng e (fun k => { k with staging := [] }))

/-- Read and check a tensor's precision area (R106, R107); none for a pointer of 0. `role` is the role that a tile job's
operand position asks for. -/
def readArea (u : Using) (d : Desc) (role : Option Bool) : Act (Option PrecH) := do
  if d.prec = 0 then return none
  let raw ← vreadNat u.area d.prec 64
  let x := bytesAt raw 2 1
  let f := bytesAt raw 3 1
  let h : PrecH :=
    { addr := d.prec, layer := bits (bytesAt raw 0 2) 11 0, xdim := bits x 2 1, act := bit x 0, rot := bits f 3 2,
      heirloomRot := bit f 1, copies := bit f 0, tiles := bytesAt raw 4 4, widen := bits (bytesAt raw 8 8) 51 0,
      copyAddr := bits (bytesAt raw 16 8) 51 0, copySlots := bytesAt raw 24 4, signs := bytesAt raw 32 8 }
  let res := fieldMask 0 15 12 + fieldMask 2 7 3 + fieldMask 3 7 4 + fieldMask 8 63 52 + fieldMask 16 63 52 +
    fieldMask 28 31 0 + fieldMask 40 191 0
  let roleBad := match role with
    | some r => r != h.act
    | none => false
  Act.refuseIf (raw &&& res ≠ 0 || h.xdim = 0 || roleBad || (h.rot ≠ 0 && h.heirloomRot) || h.tiles ≠ h.count d) 0x0405
  return some h

/-! Tile entries and runner lists. -/

/-- What a reader needs of a tile entry (R108): rung, widened, runner count. -/
def readEntry (u : Using) (h : PrecH) (t : Nat) : Act (Nat × Bool × Nat) := do
  let v ← vreadNat u.area (h.entryVa t) 16
  return (bits v 23 22, bit v 21, bits v 8 0)

/-- The runners of a tile: K offset, X offset, FP32 value, in the order of the slot (R109, R185). -/
def readRunners (u : Using) (h : PrecH) (t : Nat) : Act (List (Nat × Nat × Nat)) := do
  let (_, _, n) ← readEntry u h t
  let n := min n h.cap
  if n = 0 then return []
  let bs ← vread u.fetch (h.runnerVa t) (4 * n)
  let rs := (chunksOf 4 bs).map (fun b =>
    let v := leNat b
    let (k, x) := h.runnerKX (v % 65536)
    (k, x, if isNanF bf16 (v >>> 16) then nan32 else (v >>> 16) <<< 16))
  Act.stage u ⟨1, [], rs⟩
  return rs

/-! Elements of an operand, from the base storage or from widen slots (R119). -/

/-- Read elements of the base storage. -/
def readBase (u : Using) (d : Desc) (cs : List (List Nat)) : Act (List El) := do
  let codes ← readCoords u d cs
  if isBlock d.fmt then
    let sc ← readScales u d (cs.map d.pos)
    let f := if d.fmt = 0xC then 0x6 else 0x3
    return (codes.zip sc).map (fun p => ⟨f, true, p.1, p.2⟩)
  return codes.map (fun c => ⟨d.fmt, false, c, 0⟩)

/-- Read elements of one widen slot at a rung, through port 1 and the precision staging bank (R117, R119). -/
def readWiden (u : Using) (d : Desc) (h : PrecH) (t rung : Nat) (cs : List (List Nat)) : Act (List El) := do
  let (f, blk) := (rungFmt d.fmt rung).getD (d.fmt, false)
  let va := h.widenVa t
  let idx := cs.map h.slotIdx
  let codes ← readPos u.fetch f va idx
  let bl := if blk then sortBy id (idx.map (· / 32)).dedup else []
  let sc ← readPos u.fetch 0xB (va + h.slotEls * elemBits f / 8) bl
  let tb : Tbl Nat := bl.zip sc
  let els := (codes.zip idx).map (fun p => (⟨f, blk, p.1, Tbl.look 0 (p.2 / 32) tb⟩ : El))
  Act.stage u ⟨0, els, []⟩
  return els

/-- Read the elements at coordinates, each from where its tile stands. -/
def readEls (u : Using) (d : Desc) (h : Option PrecH) (cs : List (List Nat)) : Act (List El) := do
  match h with
  | none => readBase u d cs
  | some h =>
    let tiles := sortBy id (cs.map (h.tileOf d)).dedup
    let ents ← tiles.mapM (fun t => do
      let e ← readEntry u h t
      return (t, e))
    let wide := fun (c : List Nat) => (Tbl.look (0, false, 0) (h.tileOf d c) ents).2.1
    let at_ := fun (c : List Nat) => d.linear c
    let base := cs.filter (fun c => !wide c)
    let b ← if base.isEmpty then pure [] else readBase u d base
    let mut tb : Tbl El := (base.map at_).zip b
    for (t, e) in ents do
      if e.2.1 then
        let mine := cs.filter (fun c => h.tileOf d c = t)
        let w ← readWiden u d h t e.1 mine
        tb := tb ++ (mine.map at_).zip w
    return cs.map (fun c => Tbl.look ⟨d.fmt, false, 0, 0⟩ (at_ c) tb)

/-- The value T × (S × x) of a block-scaled element of any rung (R35, R123). Step 5 of R35 names NaN elements of VB8 only; an
E2M1, E2M3 or E4M3 element that is NaN decodes as NaN at every rung (DESIGN CHOICE, log entry 234). -/
def scaledValue (f scale code tile : Nat) : Num Nat := do
  if scale = 0 then return 0
  let u := unpackFloat ue5m3 scale
  let v := unpackFloat (elemFmt f) code
  if u.cls = .nan || v.cls = .nan then return nan32
  if v.cls = .zero then return packMag v.s 0 fp32
  let w := unpackFloat fp32 tile
  convertFloat (normalise v.s (u.sig * v.sig * w.sig) (u.e + v.e + w.e - 189)) fp32 0 false 0

/-- An element times its tensor's tile scale, the element exact, one rounding (R755, R41); an integer is rounded to FP32
first. -/
def tiled (f code tile : Nat) : Num Nat := do
  match floatFmt f with
  | none => mul32 (← toFp32 f code) tile
  | some t =>
    let u := unpackFloat t code
    let w := unpackFloat fp32 tile
    if u.cls = .finite then convertFloat (normalise u.s (u.sig * w.sig) (u.e + w.e - 126)) fp32 0 false 0
    else convertFloat u fp32 0 false 0

/-- The FP32 value of an element of a tensor of tile scale `tile` (R35, R41, R162, R755). -/
def El.value (e : El) (tile : Nat) : Num Nat := do
  if e.blk then scaledValue e.fmt e.scale e.code tile
  else if e.fmt = 0xE && tile ≠ one32 then tiled e.fmt e.code tile
  else
    let v ← toFp32 e.fmt e.code
    if tile = one32 then return v else mul32 v tile

/-! Precision records of layers (R133, R135). -/

/-- The record of a layer, if the context has one (R135). -/
def Dev.recordVa (d : Dev) (c layer : Nat) : Option Nat :=
  let base := bits (d.ctxReg c 0x0A) 51 0
  let n := bits (d.ctxReg c 0x0B) 12 0
  if base ≠ 0 && layer < n then some (base + 576 * layer) else none

/-- Lift and maximum lift of a layer (R134, R135). -/
def liftOf (u : Using) (layer : Nat) : Act (Nat × Nat) := do
  let d ← Act.dev
  match d.recordVa u.ctx layer with
  | none => return (0, 3)
  | some va =>
    let v ← vreadNat u.record va 2
    return (bits v 1 0, bits v 9 8)

/-- Charge an encoding or a check to its layer's record: tiles, troubled tiles, checks run, checks failed (R135). The two
counts of checks are U16 and stop at 65,535: R133 says so of the widenings only (DESIGN CHOICE, log entry 235). -/
def charge (u : Using) (layer step tiles troubled run failed : Nat) : Act Unit := do
  let d ← Act.dev
  match d.recordVa u.ctx layer with
  | none => Act.upd (fun d => d.incReg 0x5000 0x29)
  | some va =>
    let a := va + 64 + 16 * (step % 32)
    let old ← vreadNat u.record a 16
    let tag := step % 2 ^ 32
    let v := if bytesAt old 0 4 = tag then old else 0
    let cap16 := fun (x : Nat) => min x 65535
    vwrite u.record a (leBytes 4 tag ++ leBytes 4 (bytesAt v 4 4 + tiles) ++ leBytes 4 (bytesAt v 8 4 + troubled) ++
      leBytes 2 (cap16 (bytesAt v 12 2 + run)) ++ leBytes 2 (cap16 (bytesAt v 14 2 + failed)))

/-! The producer. -/

/-- What an encoding is made with: the access, the engine whose counters it feeds, destination and area, rounding (with
tensor id and step), integer-overflow field, source format (0x100 + a format for bits that are copied), policy, and whether
runners are taken. -/
structure Prod where
  u : Using
  eng : Option Nat
  d : Desc
  h : Option PrecH
  rnd : Rnd
  ovf : Nat
  src : Nat
  pol : Policy
  runners : Bool
  /-- does one command give a precision tile piece by piece, to be charged once (R157)? -/
  pieces : Bool
  deriving DecidableEq, Repr

/-- A value to store: its coordinates, its code in the source format, its index for SR. -/
structure Val where
  c : List Nat
  code : Nat
  index : Nat
  deriving DecidableEq, Repr

/-- Cut values into blocks of 32 along dimension 0, in order (R30). -/
def blocksOf (d : Desc) (vs : List Val) : List (List Val) :=
  vs.foldl (fun (acc : List (List Val)) v =>
    match acc.getLast? with
    | some b => match b.getLast? with
      | some w => if (d.linear v.c) = d.linear w.c + 1 && v.c.getD 0 0 / 32 = w.c.getD 0 0 / 32 && v.c.getD 0 0 ≠ 0
                  then acc.dropLast ++ [b ++ [v]] else acc ++ [[v]]
      | none => acc ++ [[v]]
    | none => [[v]]) []

/-- Store encoded elements and scales in the base storage. -/
def writeBase (p : Prod) (bl : List (List Val)) (enc : TileEnc) : Act Unit := do
  let vs := bl.flatten
  let codes := enc.blocks.flatMap (·.codes)
  writeCoords p.u p.d (vs.map (·.c)) codes
  if isBlock p.d.fmt then
    let sc := (bl.zip enc.blocks).map (fun q => ((p.d.pos ((q.1.headD ⟨[], 0, 0⟩).c)) / 32, q.2.scale))
    writePos (p.u.of p.d) 0xB p.d.scalePtr (sc.map (·.1)) (sc.map (·.2)) (fun _ => 1)

/-- Store encoded elements and scales in a widen slot (R117), the rest of a row's last group or block as code 0 (R24, R32). -/
def writeWiden (p : Prod) (h : PrecH) (t : Nat) (bl : List (List Val)) (enc : TileEnc) : Act Unit := do
  let vs := bl.flatten
  let codes := enc.blocks.flatMap (·.codes)
  let va := h.widenVa t
  let ends := (vs.filter (fun v => v.c.getD 0 0 + 1 = p.d.size 0)).map (fun v => h.slotIdx v.c)
  writePos p.u.area enc.elem va (vs.map (fun v => h.slotIdx v.c)) codes (rowPad enc.blk enc.elem ends)
  if enc.blk then
    let sc := (bl.zip enc.blocks).map (fun q => (h.slotIdx ((q.1.headD ⟨[], 0, 0⟩).c) / 32, q.2.scale))
    writePos p.u.area 0xB (va + h.slotEls * elemBits enc.elem / 8) (sc.map (·.1)) (sc.map (·.2)) (fun _ => 1)

/-- Source elements of blocks for the encoder. -/
def srcEls (pos : List Nat → Nat) (bl : List (List Val)) : List (List SrcEl) :=
  bl.map (fun b => b.map (fun v => ⟨v.code, pos v.c, v.index⟩))

/-- Encode and store values of a tensor without a precision area. Its blocks are counted in 0x5000:23 to 26 although no tile
entry counts them (R121, R151); those that COMPRESS and a collective encode are not (DESIGN CHOICE, log entry 237). -/
def produceFlat (p : Prod) (vs : List Val) : Act Unit := do
  if vs.isEmpty then return ()
  let blk := isBlock p.d.fmt
  let elem := if p.d.fmt = 0xC then 0x6 else if p.d.fmt = 0xD then 0x3 else p.d.fmt
  let bl := blocksOf p.d vs
  let (enc, cnt) := (encodeTile p.src elem blk p.d.tile (srcEls p.d.linear bl) 0 0 0 true p.ovf p.rnd).run []
  let (z, u, s, c) := enc.counts
  writeBase p bl enc
  Act.upd (fun d => ((((d.applyCounts p.eng cnt).addReg 0x5000 0x24 z).addReg 0x5000 0x25 u).addReg 0x5000 0x26 s).addReg
    0x5000 0x23 c)

/-- The FP32 code of a source value; source 0x100 + a format is that format's own code. -/
def srcFp32 (src code : Nat) : Num Nat := toFp32 (if src < 0x100 then src else src - 0x100) code

/-- The values of a tile after the rotation of its tensor (R145, R150), in ascending position along K: the source format
becomes FP32. A NaN that a group without one gives a float destination is counted (R56). -/
def rotated (p : Prod) (h : PrecH) (vs : List Val) : Act (Nat × List Val) := do
  let n := h.rotPoints
  if n = 0 then return (p.src, vs)
  let gs := vs.foldl (fun (acc : List (List Val)) v =>
    match acc.getLast? with
    | some g => if v.c.getD 0 0 % n = 0 then acc ++ [[v]] else acc.dropLast ++ [g ++ [v]]
    | none => [[v]]) []
  let out ← gs.mapM (fun g => do
    let k0 := ((g.headD ⟨[], 0, 0⟩).c).getD 0 0
    let xs ← Act.num p.eng (g.mapM (fun v => srcFp32 p.src v.code))
    let (ys, cnt) := (rotate h.heirloomRot (!h.act) h.signs n k0 xs).run []
    let made := if isInt p.d.fmt || xs.any isNan32 then 0 else (ys.filter isNan32).length
    Act.upd (fun d => (d.applyCounts p.eng (cnt.filter (fun (q : Nat × Nat) => q.1 ≠ 0x06))).addReg 0x5000 0x06 made)
    return (g.zip ys).map (fun q => { q.1 with code := q.2 }))
  return (0, out.flatten)

/-- Is a strip selected (R124)? -/
def Dev.stripSel (d : Dev) (c : Nat) (pol : Policy) (h : PrecH) (step j : Nat) : Bool :=
  selected (d.seed c) (b2n h.act) h.layer step j (pol.rate / 2)

/-- The check-copy slot of a strip: how many selected strips precede it (R125). -/
def Dev.stripSlot (d : Dev) (c : Nat) (pol : Policy) (h : PrecH) (step j : Nat) : Nat :=
  ((List.range j).filter (fun i => d.stripSel c pol h step i)).length

/-- The address of an element's check copy in slot q, K-fastest (R125). -/
def PrecH.copyVa (h : PrecH) (d : Desc) (q : Nat) (c : List Nat) : Nat :=
  let row := h.nK d * 128
  h.copyAddr + 2 * (q * row * h.width + (c.getD h.xdim 0 % h.width) * row + c.getD 0 0)

/-- The check copy of a value: the FP32 value rounded to BF16, an M48 value once (R41, R125). A value beyond the BF16 range
becomes an infinity whatever the command's sat flag (DESIGN CHOICE, log entry 238). -/
def copyCode (src code : Nat) : Num Nat := do
  if src = 0xE then convertCode src 0x1 code Rnd.rne 0 0
  else convertCode 0 0x1 (← srcFp32 src code) Rnd.rne 0 0

/-- Write the check copies of a tile whose strip is selected (R125). -/
def writeCopies (p : Prod) (h : PrecH) (src t : Nat) (vs : List Val) : Act Unit := do
  let d ← Act.dev
  let c := p.u.ctx
  let strip := t / h.nK p.d
  if !h.copies || !(d.stripSel c p.pol h p.rnd.step strip) then return ()
  let q := d.stripSlot c p.pol h p.rnd.step strip
  if h.copySlots ≤ q then
    let key := (0x29, p.rnd.tensor * 2 ^ 32 + strip, p.rnd.step)
    if !((d.ctx c).onceEv.contains key) then
      Act.upd (fun d => (d.incReg 0x5000 0x29).updCtx c (fun x => { x with onceEv := x.onceEv ++ [key] }))
    Act.upd (fun d => d.raiseOnce 0x8405 c p.rnd.tensor p.rnd.step [p.rnd.tensor, p.rnd.step])
  else
    let codes ← Act.num p.eng (vs.mapM (fun v => copyCode src v.code))
    writePos p.u.area 0x1 0 (vs.map (fun v => h.copyVa p.d q v.c / 2)) codes (fun _ => 1)

/-- The attempts of an encoding: from a rung upward until the runner slot holds the candidates, or to the clamp (R115,
R116). Answers rung, encoding, counts of the numeric layer, and how many attempts overflowed. -/
def attempts (p : Prod) (h : PrecH) (src : Nat) (bl : List (List SrcEl)) (last : Nat) :
    Nat → Nat → Nat → Nat × TileEnc × Tbl Nat × Nat
  | 0, rung, ovs => (rung, ⟨0, false, [], [], false, 0⟩, [], ovs)
  | fuel + 1, rung, ovs =>
    let (f, blk) := (rungFmt p.d.fmt rung).getD (p.d.fmt, false)
    let rep := !p.pol.clamp && h.widen ≠ 0 && decide (rung < last)
    let (enc, cnt) := (encodeTile src f blk p.d.tile bl (if p.runners then h.cap else 0) p.pol.fexp p.pol.cand (!rep)
      p.ovf p.rnd).run []
    if enc.overflow && rep then attempts p h src bl last fuel (rung + 1) (ovs + 1)
    else (rung, enc, cnt, ovs + b2n enc.overflow)

/-- Encode and store the values of one precision tile (R108 to R125, R134, R145). Answers whether its runner candidates
were clamped. -/
def produceTile (p : Prod) (h : PrecH) (t : Nat) (vs : List Val) : Act Bool := do
  let (src, vs) ← rotated p h (sortBy (fun v => p.d.linear v.c) vs)
  let (lift, maxLift) ← liftOf p.u h.layer
  let last := min maxLift (topRung p.d.fmt)
  let start := if h.widen = 0 then 0 else min lift last
  let bl := blocksOf p.d vs
  let (rung, enc, cnt, ovs) := attempts p h src (srcEls h.runnerPos bl) last 5 start 0
  let (z, u, s, c) := enc.counts
  -- a tile that a command gives piece by piece counts with its first piece
  let once := b2n (!p.pieces || vs.any (fun v => h.slotIdx v.c = 0))
  if rung = 0 then writeBase p bl enc else writeWiden p h t bl enc
  if enc.blk then
    let d ← Act.dev
    let n := enc.runners.length
    -- entries beyond the count stay undefined (R109, log entry 6)
    let rest := (List.range (h.cap - n)).map (fun i => Config.runnerRest (d.fresh + i))
    Act.upd (fun d => { d with fresh := d.fresh + rest.length })
    vwrite p.u.area (h.runnerVa t) ((enc.runners.map (fun r => r.2 <<< 16 + r.1) ++ rest).flatMap (leBytes 4))
    Act.upd (fun d => d.addReg 0x5000 0x20 n)
  let m := fun (x : Nat) => min x 0xFFFF
  let entry := (p.rnd.step % 2 ^ 32) <<< 96 + (m c) <<< 80 + (m s) <<< 64 + (m u) <<< 48 + (m z) <<< 32 + rung <<< 22 +
    (b2n (rung ≠ 0)) <<< 21 + (b2n (ovs ≠ 0)) <<< 20 + enc.runners.length
  vwrite p.u.area (h.entryVa t) (leBytes 16 entry)
  Act.upd (fun d =>
    ((((((d.applyCounts p.eng cnt).addReg 0x5000 0x21 ovs).addReg 0x5000 0x22 (if rung ≠ 0 then once else 0)).addReg 0x5000 0x23 c).addReg
      0x5000 0x24 z).addReg 0x5000 0x25 u).addReg 0x5000 0x26 s)
  if once = 1 then charge p.u h.layer p.rnd.step 1 (b2n (ovs ≠ 0 || c ≠ 0 || s ≠ 0 || u ≠ 0)) 0 0
  writeCopies p h src t vs
  return enc.overflow || enc.nanReturned ≠ 0

/-- Are the values whole aligned groups of the tensor's rotation (R146)? `n0`, `n` are the first position and the count
along dimension 0 that a command writes. -/
def rotWhole (d : Desc) (h : Option PrecH) (n0 n : Nat) : Bool :=
  match h with
  | none => true
  | some h =>
    let r := h.rotPoints
    r = 0 || (d.size 0 % r = 0 && n0 % r = 0 && n % r = 0)

/-- Encode and store values of a tensor: tile by tile, in tile order, where it has a precision area. -/
def produce (p : Prod) (vs : List Val) : Act Unit := do
  match p.h with
  | none => produceFlat p vs
  | some h =>
    let tiles := sortBy id (vs.map (fun v => h.tileOf p.d v.c)).dedup
    let mut n := 0
    for t in tiles do
      let cl ← produceTile p h t (vs.filter (fun v => h.tileOf p.d v.c = t))
      if cl then n := n + 1
    if n ≠ 0 then
      Act.upd (fun d => d.raiseOnce 0x8402 p.u.ctx p.rnd.tensor p.rnd.step [p.rnd.tensor, p.rnd.step, n])

end Sys2Proof.Machine
end

