-- ==== Sys2Proof/Machine/DictBase.lean ====
section
/-! DEFINITION. The object dictionary: the checks of a write in their order, replies, and the states of switchable
functions (R660 to R676). -/
namespace Sys2Proof.Machine
open Sys2Proof

/-- A write's answer: its reason code (0 accepted) and the state after it. -/
abbrev WR := Nat × State

/-- The host site of a mailbox requester. -/
def viaHost : Via → Option Nat
  | .mailbox h => some h.val
  | _ => none

/-- Does the request arrive over I3C/MCTP? -/
def viaI3c : Via → Bool
  | .i3c _ => true
  | _ => false

/-- Change everything that is neither memory nor persistent. -/
def State.onDev (s : State) (f : Dev → Dev) : State := { s with dev := f s.dev }

/-- An index of contexts, and its context. -/
def ctxIdx (idx : Nat) : Option Nat := if 0x4000 ≤ idx && idx < 0x4400 then some (idx - 0x4000) else none
/-- An index of host sites, and its site. -/
def siteIdx (idx : Nat) : Option Nat := if 0x4800 ≤ idx && idx < 0x4804 then some (idx - 0x4800) else none

/-- Is there an entry table at an index (R665)? -/
def idxPresent (idx : Nat) : Bool :=
  idx = 0x1000 || idx = 0x1100 || idx = 0x1800 || idx = 0x2000 || idx = 0x2100 || idx = 0x2200 || idx = 0x2400 ||
  idx = 0x2800 || (0x2C00 ≤ idx && idx < 0x2C18) || (0x3000 ≤ idx && idx < 0x3040) ||
  (0x3400 ≤ idx && idx < 0x3408) || (0x3800 ≤ idx && idx < 0x3820) || (ctxIdx idx).isSome ||
  (siteIdx idx).isSome || idx = 0x4C00 || idx = 0x5000 || idx = 0x5400 || idx = 0x5800 || idx = 0x5C00 ||
  idx = 0x6000 || idx = 0x7000

/-- The scope that the index map gives an index (R665). -/
def scopeOf (idx : Nat) : Scope :=
  if 0x2C00 ≤ idx && idx < 0x2C18 then .port
  else if 0x3000 ≤ idx && idx < 0x3040 then .engine
  else if 0x3400 ≤ idx && idx < 0x3408 then .partition
  else if 0x3800 ≤ idx && idx < 0x3820 then .stack
  else if (ctxIdx idx).isSome then .context
  else if (siteIdx idx).isSome then .host
  else .device

/-- The row of the count entry at sub-index 0 of an index (R660), with the scope of the index (R665). -/
def countRow (idx : Nat) : EntryRow :=
  { units := 1, stride := 1, lo := 0, hi := 0, ty := .u8, size := 1, acc := .ro, i3cOnly := false, scope := scopeOf idx,
    dflt := 0, resv := 0, min := 0, max := 255 }

/-- The row of an entry that the part presents (R660, R664): an absent site presents 0, 02 and 03 only. -/
def Dev.row (d : Dev) (idx sub : Nat) : Option EntryRow :=
  let absent := match siteIdx idx with
    | some h => !d.populated h
    | none => false
  if sub = 0 then (if idxPresent idx then some (countRow idx) else none)
  else if absent && sub ≠ 2 && sub ≠ 3 then none
  else rowOf idx sub

/-- The sub-indices present at an index, sub-index 0 not among them, ascending. -/
def Dev.subs (d : Dev) (idx : Nat) : List Nat := ((List.range 255).map (· + 1)).filter (fun s => (d.row idx s).isSome)

/-- Is the context of an index owned by host site h? -/
def Dev.ownsIdx (d : Dev) (h idx : Nat) : Bool :=
  match ctxIdx idx with
  | some c => d.owner c == some h
  | none => true

/-- Step 4 of R672: may a requester see the entry (R676)? -/
def Dev.visible (d : Dev) (via : Via) (idx sub : Nat) : Bool :=
  match viaHost via with
  | none => true
  | some h =>
    d.ownsIdx h idx &&
    (match siteIdx idx with
      | some g => g == h
      | none => true) &&
    !(idx = 0x1800 && (sub = 0x10 || sub = 0x11))

/-- Step 6 of R672: the reason code of a write that its transport does not permit, 0 when it does (R676, R677 and the
rules of the entries: R237, R382, R447, R474, R526, R560, R604, R636, R678). -/
def Dev.transportCode (d : Dev) (via : Via) (idx sub : Nat) (row : EntryRow) : Nat :=
  match via with
  | .i3c _ => 0
  | .vlan _ =>
    if row.i3cOnly then (if idx = 0x2100 then 0x0901 else if idx = 0x5400 then 0x0105 else 0x0108) else 0
  | .mailbox h =>
    if (ctxIdx idx).isSome then (if sub = 0x03 || d.ownsIdx h idx then 0 else 0x0202)
    else match siteIdx idx with
      | some g =>
        if sub = 0x40 then 0x030E
        else if sub = 0x01 || sub = 0x07 || g ≠ h.val then 0x0804 else 0
      | none =>
        if (idx = 0x4C00 && sub = 0x02) || (idx = 0x3400 && 0x40 ≤ sub && sub ≤ 0x7F) then 0
        else if 0x3000 ≤ idx && idx < 0x3040 then
          if sub = 0x24 || sub = 0x25 then 0x030E
          else if sub = 0x01 && d.reg idx 0x24 % 16 = 2 ^ h.val then 0 else 0x0108
        else if 0x3800 ≤ idx && idx < 0x3820 then
          let p := (idx - 0x3800) / 4
          if sub = 0x01 && (List.range 8).all (fun i => d.engReg (8 * p + i) 0x24 % 16 == 2 ^ h.val) then 0 else 0x0108
        else if idx = 0x2800 && sub = 0x01 then 0x0508
        else if idx = 0x2800 && sub = 0x02 then 0
        else if (idx = 0x1100 && (sub = 0x01 || sub = 0x03 || sub = 0x04 || sub = 0x0D || sub = 0x0E)) ||
            (0x2C00 ≤ idx && idx < 0x2C18) then 0x0709
        else if idx = 0x5400 && sub = 0x11 then 0x0105
        else if idx = 0x2100 && sub = 0x01 then 0x0901
        else if idx = 0x2000 || idx = 0x2100 || idx = 0x2200 then 0x0902
        else if idx = 0x6000 && sub = 0x30 then 0
        else 0x0108

/-- Values inside an entry's outer bounds that break a step, a gap or a field's own limit (R672 step 10, R728, R600,
R524, R642, R448, R152, R635). -/
def rangeRule (idx sub v : Nat) : Bool :=
  if idx = 0x7000 && 0x10 ≤ sub && sub ≤ 0x1F then
    let k := bits v 63 60
    let t := bits v 59 48
    let m := bits v 47 40
    match k with
    | 0 => true
    | 1 | 2 => t / 16 ≤ 17 && 1 ≤ m
    | 3 => t / 16 < 8 + 64 && 1 ≤ m
    | 4 => t < 32 && 1 ≤ m
    | 5 => t < 96 && 1 ≤ m
    | 6 => t < 96 && 1 ≤ m && m ≤ 2
    | 7 => t < 32 && 1 ≤ m && m ≤ 8
    | _ => false
  else if idx = 0x2100 && sub = 0x0B then (List.range 4).all (fun i => bytesAt v i 1 ≤ 0x0B)
  else if idx = 0x5C00 && sub = 0x03 then v = 0 || 100 ≤ v
  else if idx = 0x2400 && sub = 0x31 then v % 100 = 0
  else if idx = 0x5000 && sub = 0x13 then v % 2 = 0
  else if 0x4000 ≤ idx && idx < 0x4400 && sub = 0x26 then v = 0 || 1024 ≤ v
  else if idx = 0x1100 && sub = 0x04 then v % 256 < 96
  else if idx = 0x3400 && 0x80 ≤ sub && sub ≤ 0x87 then
    1 ≤ bits v 55 48 && bits v 55 48 ≤ 64 && 1 ≤ bits v 47 40 && 1 ≤ bits v 39 38
  else true

/-- A reserved field inside a DOMAIN value that is not 0 (R234, R472); those of a settings image and of a token have a check of
their own (R681, R709). -/
def domainReserved (idx sub v : Nat) : Bool :=
  if idx = 0x2800 && sub = 0x01 then (List.range 2048).any (fun i => bits (bytesAt v i 1) 5 4 ≠ 0)
  else if idx = 0x3400 && 0x40 ≤ sub && sub ≤ 0x7F then bits (bytesAt v 8 1) 7 4 ≠ 0 || bytesAt v 9 7 ≠ 0
  else false

/-- The place of an FP32 code among all codes in rising order of their values. -/
def f32Order (v : Nat) : Nat := if bit v 31 then 2 ^ 31 - v % 2 ^ 31 else 2 ^ 31 + v % 2 ^ 31

/-- Steps 9 and 10 of R672 on a value; a rounding mode of 5 to 7 has a code of its own (R59). -/
def valueCode (row : EntryRow) (idx sub v : Nat) : Nat :=
  if v &&& row.resv ≠ 0 || domainReserved idx sub v then 0x0106
  else if idx = 0x5000 && (sub = 0x01 || sub = 0x02) && 5 ≤ v then 0x0401
  else match row.ty with
    | .domain | .vstr => if rangeRule idx sub v then 0 else 0x0105
    | .f32 =>
      if isNan32 v || f32Order v < f32Order row.min || f32Order row.max < f32Order v then 0x0105 else 0
    | _ => if v < row.min || row.max < v || !rangeRule idx sub v then 0x0105 else 0

/-- Has an index a switchable function (R674, R675)? -/
def isFunction (idx : Nat) : Bool :=
  (0x2C00 ≤ idx && idx < 0x2C18) || (0x3000 ≤ idx && idx < 0x3040) || (0x3800 ≤ idx && idx < 0x3820) ||
  (ctxIdx idx).isSome || (siteIdx idx).isSome || idx = 0x5800 || idx = 0x5C00 || idx = 0x7000

/-- The state of the function at an index: 0 OFF, 1 STARTING, 2 ON, 3 STOPPING. -/
def Dev.fn (d : Dev) (idx : Nat) : Nat := d.reg idx 0x02 % 4

/-- Step 11 of R672: may an RWD entry be written now (R674)? -/
def Dev.rwdOk (d : Dev) (idx sub v : Nat) : Bool :=
  if idx = 0x1100 && sub = 0x03 then (List.range 24).all (fun n => d.fn (0x2C00 + n) == 0)
  else if idx = 0x1100 && sub = 0x04 then
    -- bits [6:0] name the sub-port 4n + k
    d.fn (0x2C00 + bits (d.reg 0x1100 0x04) 6 2) == 0 && d.fn (0x2C00 + bits v 6 2) == 0
  else isFunction idx && d.fn idx == 0

/-- Steps 2 to 6 of R672 on a write: the row of its entry, or the code of the first that fails. Every write to the index of an
absent site is refused (R664). -/
def Dev.writeHead (d : Dev) (via : Via) (idx sub : Nat) : Except Nat EntryRow :=
  if !(idxPresent idx) then .error 0x0101
  else if (siteIdx idx).any (fun h => !(d.populated h)) then .error 0x0103
  else match d.row idx sub with
    | none => .error 0x0102
    | some row =>
      if row.acc = .const || row.acc = .ro then .error 0x0103
      else
        let t := d.transportCode via idx sub row
        if t ≠ 0 then .error t else .ok row

/-- Steps 9 to 11 of R672 on a whole value: 0 when all pass. -/
def Dev.valueChecks (d : Dev) (row : EntryRow) (idx sub v : Nat) : Nat :=
  let c := valueCode row idx sub v
  if c ≠ 0 then c
  else if row.acc = .rwd && !(d.rwdOk idx sub v) then 0x0107 else 0

/-- Steps 2 to 6 and 9 to 11 of R672 on a write of a whole value: 0 when all pass. -/
def Dev.writeCode (d : Dev) (via : Via) (idx sub v : Nat) : Nat :=
  match d.writeHead via idx sub with
  | .error c => c
  | .ok row => d.valueChecks row idx sub v

/-! Replies (R668, R676, R677). -/

/-- The state byte of a reply (R668). -/
def Dev.fnByte (d : Dev) (idx : Nat) : Nat :=
  if isFunction idx then (if Tbl.look 0 idx d.latch = 2 then 4 else 0) + d.fn idx else 0

/-- Send a reply: over the mailbox it waits for the host and vector 2 is raised; over the management VLAN it is kept
among the last 16 of its sender, where the request had a tag; a mailbox whose link is lost takes none; requests are counted
(R668, R676, R677, R678). -/
def Dev.sendReply (d : Dev) (via : Via) (tagged : Bool) (r : Reply) : Dev :=
  let d := if r.reason = 0 then d.incReg 0x1100 0x10 else d.incReg 0x1100 0x11
  match via with
  | .mailbox h =>
    if (d.site h).link ≠ 3 then d
    else ((d.updSite h (fun s => { s with mbState := 2, mbReply := some r })).msix h 2).out (.reply via r)
  | .vlan a =>
    let d := if !tagged then d else
      let mine := d.dict.kept.filter (fun (k : Nat × Reply) => k.1 = a)
      let others := d.dict.kept.filter (fun (k : Nat × Reply) => k.1 ≠ a)
      { d with dict := { d.dict with kept := others ++ mine.drop (mine.length - 15) ++ [(a, r)] } }
    d.out (.reply via r)
  | .i3c _ => d.out (.reply via r)

/-- The reply to a write without a payload. -/
def Dev.writeReply (d : Dev) (tag idx sub reason : Nat) : Reply :=
  { opcode := 0x82, tag := tag, index := idx, sub := sub, count := 0, reason := reason, ty := 0,
    state := d.fnByte idx, payload := [] }

/-- Is the dictionary available (R685 step 10)? -/
def Dev.avail (d : Dev) : Bool := d.reg 0x6000 0x02 = 10

/-- Is a sender not among the allowed managers (R677, R678)? -/
def Dev.unlisted (d : Dev) (via : Via) : Bool :=
  match via with
  | .vlan a => a = 0 || !((List.range 8).any (fun i => bytesAt (d.reg 0x1100 0x0E) (16 * i) 16 = a))
  | _ => false

/-- Is a transport silent: every one while RESET# or THERMTRIP# is asserted; before step 10 all but I3C/MCTP (R688, R691); a
mailbox without a host link, or while it holds a request (R676)? -/
def Dev.mute (d : Dev) (via : Via) : Bool :=
  d.boot.reset || d.boot.thermtrip || (!d.avail && !(viaI3c via)) ||
    (match via with
      | .mailbox h => (d.site h).link ≠ 3 || (d.site h).mbState = 1
      | _ => false)

/-- Does a request go unheard? A datagram of a sender that is not listed is dropped (R677). -/
def Dev.deaf (d : Dev) (via : Via) : Bool := d.mute via || d.unlisted via

/-- An unheard request leaves its mark only as a dropped datagram (R677, R678). -/
def Dev.unheard (d : Dev) (via : Via) : Dev := if d.mute via then d else d.incReg 0x1100 0x11

/-- The code of a write while the dictionary is not available: 0x0B08, or in SCRAPPED those of R706 (R688). -/
def State.notYet (s : State) (idx sub : Nat) : Nat :=
  if s.persist.life = 4 && 5 ≤ s.dev.reg 0x6000 0x02 then
    (if idx = 0x6000 && sub = 0x30 then 0x0B09 else if idx = 0x1000 || idx = 0x6000 then 0x0103 else 0x0101)
  else 0x0B08

/-- A write of an entry that has a command of its own, answered: the checks of R672, then the entry's own rules and effect. None
takes effect before the dictionary is available (R688), or unheard. Such a command carries no tag, and 0 stands for it. -/
def State.dictWrite (s : State) (via : Via) (idx sub v : Nat) (eff : State → WR) : State :=
  if s.dev.deaf via then s.onDev (fun d => d.unheard via) else
  let c := if s.dev.avail then s.dev.writeCode via idx sub v else s.notYet idx sub
  let r := if c ≠ 0 then (c, s) else eff s
  r.2.onDev (fun d => d.sendReply via false (d.writeReply 0 idx sub r.1))

/-! Requests that wait (R673). -/

/-- A type's code (R661). -/
def Ty.code : Ty → Nat
  | .bool => 1 | .u8 => 2 | .u16 => 3 | .u32 => 4 | .u64 => 5 | .i16 => 6 | .i32 => 7 | .f32 => 8 | .vstr => 9 | .domain => 10

/-- Does a write whose completion is delayed hold back later requests to an index (R673)? -/
def Dev.busyIdx (d : Dev) (idx : Nat) : Bool := d.dict.waiting.any (fun w => w.kind ≠ 0 && w.req.index = idx)

/-- A request begins to wait; a mailbox is busy meanwhile (R673, R676). -/
def Dev.park (d : Dev) (w : Waiting) : Dev :=
  let d := { d with dict := { d.dict with waiting := d.dict.waiting ++ [w] } }
  match w.via with
  | .mailbox h => d.updSite h (fun x => { x with mbState := 1, mbReply := none })
  | _ => d

/-- Reply to the waiting writes of a kind. -/
def Dev.replyWaiting (d : Dev) (kind code : Nat) : Dev :=
  let mine := d.dict.waiting.filter (fun w => w.kind = kind)
  let d := { d with dict := { d.dict with waiting := d.dict.waiting.filter (fun w => w.kind ≠ kind) } }
  mine.foldl (fun d w => d.sendReply w.via (!w.plain) (d.writeReply w.req.tag w.req.index w.req.sub code)) d

/-- A write that a command of its own stands for, as a request: the whole value, committed where the entry is a DOMAIN. -/
def Dev.wholeWrite (d : Dev) (via : Via) (idx sub v : Nat) : Waiting :=
  let (ty, size) := match d.row idx sub with
    | some row => (row.ty, row.size)
    | none => (Ty.u8, 1)
  { via := via, opcode := 2, kind := 0, plain := true,
    req := { version := 1, tag := 0, index := idx, sub := sub, count := 0, offset := 0, length := size, ty := ty.code,
             flags := if ty = .domain then 1 else 0, payload := leBytes size v } }

/-- A command that writes an entry waits behind a delayed write of its index (R673). -/
def State.gated (s : State) (via : Via) (idx sub v : Nat) (k : State → State) : State :=
  if !(s.dev.deaf via) && s.dev.busyIdx idx then s.onDev (fun d => d.park (d.wholeWrite via idx sub v)) else k s

/-! Switchable functions (R675). -/

/-- How a function starts and stops: its check at enable, whether STARTING ends at once, the code that refuses a disable,
what entering STARTING or ON does, what entering STOPPING does. -/
structure FnRule where
  check : State → Nat
  atOnce : Bool
  refuse : State → Nat
  start : State → State
  stop : State → State

/-- Set the state of a function. -/
def State.setFn (s : State) (idx st : Nat) : State := s.onDev (fun d => d.setField idx 0x02 1 0 st)

/-- Enter STARTING, and ON where STARTING ends at once. -/
def State.fnStart (s : State) (r : FnRule) (idx : Nat) : State :=
  r.start ((s.onDev (fun d => d.setReg idx 0x01 1)).setFn idx (if r.atOnce then 2 else 1))

/-- A write to an enable entry (R675). -/
def State.fnWrite (s : State) (r : FnRule) (idx v : Nat) : WR :=
  let st := s.dev.fn idx
  if v % 2 = 1 then
    match st with
    | 0 => let c := r.check s
           if c ≠ 0 then (c, s) else (0, s.fnStart r idx)
    | 3 => (0, s.onDev (fun d => { d.setReg idx 0x01 1 with latch := Tbl.put idx 2 d.latch }))
    | _ => (0, s.onDev (fun d => d.setReg idx 0x01 1))
  else
    match st with
    | 0 => (0, s.onDev (fun d => d.setReg idx 0x01 0))
    | 1 => (0, s.onDev (fun d => { d.setReg idx 0x01 0 with latch := Tbl.put idx 1 d.latch }))
    | 2 => let c := r.refuse s
           if c ≠ 0 then (c, s) else (0, r.stop ((s.onDev (fun d => d.setReg idx 0x01 0)).setFn idx 3))
    | _ => (0, s.onDev (fun d => { d.setReg idx 0x01 0 with latch := Tbl.del idx d.latch }))

/-- STARTING has ended: ON, or STOPPING when a stop was latched (R675). -/
def State.fnStarted (s : State) (r : FnRule) (idx : Nat) : State :=
  let l := Tbl.look 0 idx s.dev.latch
  let s := (s.onDev (fun d => { d with latch := Tbl.del idx d.latch })).setFn idx 2
  if l = 1 then r.stop (s.setFn idx 3) else s

/-- STOPPING has ended: OFF, or the check again where a re-arm was latched; a check that fails raises 0x8104 (R675). -/
def State.fnStopped (s : State) (r : FnRule) (idx : Nat) : State :=
  let l := Tbl.look 0 idx s.dev.latch
  let s := (s.onDev (fun d => { d with latch := Tbl.del idx d.latch })).setFn idx 0
  if l = 2 then
    let c := r.check s
    if c = 0 then s.fnStart r idx
    else s.onDev (fun d => (d.setReg idx 0x01 0).raiseDev 0x8104 [idx, c])
  else s

end Sys2Proof.Machine
end

