-- ==== Sys2Proof/Machine/Streams.lean ====
section
/-! DEFINITION. Command streams: intake, scoreboards, completion, stopping (R380 to R399, R620), and the sync objects
(R422 to R434). -/
namespace Sys2Proof.Machine
open Sys2Proof

/-! Stopping and failing (R398). -/

/-- Event 0x8202. -/
def Dev.stopEvent (d : Dev) (c i seq op code : Nat) : Dev := d.raiseCtx 0x8202 c [c, i, seq, op, code]

/-- A wait that is held at the head of its stream has not issued (R394): it goes back to the front of the queue. -/
def Stream.unheld (s : Stream) : Stream :=
  if !s.waiting || s.waitMet then s else
  let held := s.run.find? (fun e => e.op = 0x02 && e.status = 0)
  { s with
    waiting := false, run := s.run.filter (fun e => !(e.op = 0x02 && e.status = 0)),
    q := (match held with
      | some e => e.cmd.toList
      | none => []) ++ s.q }

/-- A stream stops: the status line records cause, reason, sequence and opcode, unless the stream is stopped already. A wait
held at its head waits again once the stream is restarted (R393, R399). -/
def Dev.stopStream (d : Dev) (c i cause code seq op : Nat) (cmd : Option QCmd) : Dev :=
  if (d.stream c i).stopped then d else
  d.updStream c i (fun s => { s.unheld with
    stopped := true, cause := cause, reason := code, stopSeq := seq, stopOp := op, stopCmd := cmd, waitMet := false,
    lastChange := d.now })

/-- A command is refused or fails: counted, its stream stopped, event 0x8202 raised; no signal (R398). -/
def Dev.failCommand (d : Dev) (c i cause code seq op : Nat) (cmd : Option QCmd) : Dev :=
  ((d.incReg (0x4000 + c) 0x15).stopStream c i cause code seq op cmd).stopEvent c i seq op code

/-- A stream is stopped without a stopping command (R398): cause 2, the oldest unissued sequence, opcode 0; not counted. -/
def Dev.stopBare (d : Dev) (c i code : Nat) : Dev :=
  let seq := (d.stream c i).nextSeq
  (d.stopStream c i 2 code seq 0 none).stopEvent c i seq 0 code

/-- Every stream of a context is stopped without a stopping command. -/
def Dev.stopCtx (d : Dev) (c code : Nat) : Dev :=
  (List.range (d.streamCount c)).foldl (fun d i => d.stopBare c i code) d

/-! The scoreboard (R440). -/

/-- Change the issued command of a sequence. -/
def Dev.updIssued (d : Dev) (c i seq : Nat) (f : Issued → Issued) : Dev :=
  d.updStream c i (fun s => { s with run := s.run.map (fun e => if e.seq = seq then f e else e) })

/-- Mark an issued command as done. -/
def Dev.markDone (d : Dev) (c i seq : Nat) : Dev :=
  d.updIssued c i seq (fun e => if e.status = 0 then { e with status := 1 } else e)

/-- Mark an issued command as failed; one that stalls on a secure bank waits for the end of the wipe (R213). -/
def Dev.markFailed (d : Dev) (c i seq : Nat) (f : Fail) : Dev :=
  match f.stall with
  | some die => { d with stalled := d.stalled ++ [(die, c, i, seq)] }
  | none => d.updIssued c i seq (fun e => if e.status = 0 || e.status = 1 then { e with status := 2, fail := f } else e)

/-- The scoreboard entry of a command that its unit has received (R440). -/
def issuedOf (o : Origin) (op input : Nat) (cmd : Option QCmd) : Issued :=
  { seq := o.seq, op := op, slot := o.slot, input := input, stamp := o.stamp, sigEn := o.sigEn, sigObj := o.sigObj,
    status := 0, fail := ⟨0, 0, false, none⟩, logPos := (cmd.map (·.logPos)).getD 0, cmd := cmd }

/-- A command enters its scoreboard. -/
def State.board (s : State) (o : Origin) (op input : Nat) (cmd : Option QCmd) : State :=
  s.onDev (fun d => d.updStream o.ctx.val o.stream.val (fun t => { t with
    run := t.run ++ [issuedOf o op input cmd], lastChange := d.now }))

/-- The command as its unit receives it: it enters the scoreboard, its checks and its work at issue run. A refusal (cause
1) takes it off again and stops its stream; a failure (cause 2) waits for its completion; `true` means its work is done,
`false` that it runs on. -/
def State.issueCmd (s : State) (o : Origin) (op input : Nat) (cmd : Option QCmd) (m : Act Bool) : State :=
  let c := o.ctx.val
  let i := o.stream.val
  let r := (s.board o op input cmd).runAct m
  match r.1 with
  | .ok true => r.2.onDev (fun d => d.markDone c i o.seq)
  | .ok false => r.2
  | .error f =>
    if f.cause = 1 then
      r.2.onDev (fun d => (d.updStream c i (fun t => { t with run := t.run.filter (fun e => e.seq ≠ o.seq) })).failCommand
        c i 1 f.code o.seq op cmd)
    else r.2.onDev (fun d => d.markFailed c i o.seq f)

/-! Sync objects (R422 to R434). -/

/-- The entry of a block (R422). -/
def Dev.block (d : Dev) (b : Nat) : Nat := Tbl.look 0 b d.blocks
/-- The owner context of the block that holds an object, if it is assigned. -/
def Dev.objOwner (d : Dev) (y : Nat) : Option Nat :=
  let b := d.block (y / 64)
  if bit b 31 then some (bits b 9 0) else none
/-- Does a context own an object (R431)? -/
def Dev.ownsObj (d : Dev) (c y : Nat) : Bool := d.objOwner y == some c
/-- May a context wait on an object (R431)? -/
def Dev.waitsObj (d : Dev) (c y : Nat) : Bool :=
  d.ownsObj c y || ((d.objOwner y).isSome && (match d.owner c with
    | some h => bit (d.block (y / 64)) (24 + h)
    | none => false))
/-- The counter of an object. -/
def Dev.counter (d : Dev) (y : Nat) : Nat := Tbl.look 0 y d.sync

/-- Queue an operation at the sync-object unit. -/
def Dev.signal (d : Dev) (input y : Nat) (isSet : Bool) (v : Nat) : Dev :=
  { d with syncQ := d.syncQ ++ [⟨input, y, isSet, v, 0⟩] }

/-! The pipeline schedule of a context (R455). -/

/-- The first unfinished entry, of one stream where one is given (R455). -/
def Ctx.firstEntry (x : Ctx) (i : Option Nat) : Option Nat :=
  (List.range x.schedTab.length).find? (fun k => !(x.schedDone.contains k) &&
    (match i with
      | some i => x.schedTab.getD k 0 % 4 = i
      | none => true))

/-- May a stream issue under the schedule (R455)? -/
def Ctx.schedAllows (x : Ctx) (i : Nat) : Bool :=
  if !(bit x.gated i) || x.schedTab.isEmpty then true else
  match x.firstEntry none, x.firstEntry (some i) with
  | some cur, some k => k ≤ cur + x.lookahead
  | _, _ => false

/-- A stream has issued a command: its entry may finish (R455). -/
def Ctx.schedIssued (x : Ctx) (i : Nat) : Ctx :=
  if !(bit x.gated i) then x else
  match x.firstEntry (some i) with
  | none => x
  | some k =>
    let n := x.schedCnt.getD i 0 + 1
    if bits (x.schedTab.getD k 0) 63 48 ≤ n then
      { x with schedDone := k :: x.schedDone, schedCnt := setAt x.schedCnt i 0 }
    else { x with schedCnt := setAt x.schedCnt i n }

/-- A command has issued: counted, its schedule entry advanced, and the turn of the next stream (R437, R455, R472). -/
def Dev.countIssue (d : Dev) (c i : Nat) : Dev :=
  ({ (d.incReg 0x3400 0x91) with lastIssue := 4 * c + i }).updCtx c (fun x => x.schedIssued i)

/-- Release the waiters of an object whose conditions hold (R394, R426, R427): the SWAIT that held a stream issues and
completes, root-engine jobs may start. -/
def Dev.releaseWaiters (d : Dev) (y : Nat) : Dev :=
  let v := d.counter y
  let d := d.ctxs.foldl (fun d p =>
    (List.range 4).foldl (fun d i =>
      let s := d.stream p.1 i
      if s.waiting && !s.waitMet && s.waitObj = y && s.waitVal ≤ v then
        (d.updStream p.1 i (fun s => { s with
          waiting := false, waitMet := false, lastChange := d.now,
          run := s.run.map (fun e => if e.op = 0x02 && e.status = 0 then { e with status := 1 } else e) })).countIssue p.1 i
      else d) d) d
  { d with stks := d.stks.map (fun p => (p.1, { p.2 with
      queue := p.2.queue.map (fun r =>
        if r.j.r.waitEn && r.j.r.waitObj = y && r.j.r.waitVal ≤ v then { r with released := true } else r) })) }

/-- Apply an operation to an object: the counter changes modulo 2^64, waiters are compared, a notify block posts event
0x8208 (R426, R427, R433, R434). -/
def Dev.applySync (d : Dev) (y : Nat) (isSet : Bool) (v : Nat) : Dev :=
  let new := if isSet then v % two64 else (d.counter y + v) % two64
  let d := { d with sync := if new = 0 then Tbl.del y d.sync else Tbl.put y new d.sync }
  let d := d.releaseWaiters y
  let b := d.block (y / 64)
  if bit b 31 && bit b 29 then d.raiseCtx 0x8208 (bits b 9 0) [y, new] else d

/-- Of the inputs that may be granted, the highest-numbered one's first operation to arrive (R215). -/
def pickSync (blocked : List Nat) (q : List SyncOp) : Option SyncOp :=
  q.foldl (fun best o =>
    if blocked.contains o.input then best else
    match best with
    | none => some o
    | some b => if b.input < o.input then some o else best) none

/-- The operation that the arbiter grants next when no loss is forced on an input (R215). -/
def Dev.nextSync (d : Dev) : Option SyncOp := pickSync [] d.syncQ

/-- Is operation n of the queue beyond the four entries of its input's pending queue, held by its requester (R216, R217)? -/
def heldSync (q : List SyncOp) (n : Nat) (o : SyncOp) : Bool :=
  4 ≤ ((q.take n).filter (fun x => x.input = o.input)).length

/-- A cycle passes: every operation in a pending queue has waited one more cycle; those that requesters hold have not entered
it. -/
def ageSync (q : List SyncOp) : List SyncOp :=
  q.zipIdx.map (fun p => if heldSync q p.2 p.1 then p.1 else { p.1 with wait := p.1.wait + 1 })

/-- Count a grant of the sync-object unit and the wait of what it granted (R223, R225). -/
def Dev.countSync (d : Dev) (o : SyncOp) : Dev :=
  let d := d.incReg 0x4C00 0x30
  if d.reg 0x4C00 0x32 < o.wait then (d.setReg 0x4C00 0x32 o.wait).setReg 0x4C00 0x33 o.input else d

/-- One cycle of the sync-object unit: the granted operation leaves the queue and is applied (R215 to R217, R426). A forced
loss withholds the input that would win (R728 kind 3, R730). -/
def Dev.grantSync (d : Dev) : Dev :=
  if d.syncQ.isEmpty then d else
  let lose := (Tbl.look Arb.reset 0 d.arbs).lose
  let blocked := (lose.filter (fun p => 0 < p.2)).map (·.1)
  let first := pickSync blocked d.syncQ
  let hit := match first with
    | some o => d.perturb 3 o.input
    | none => ([], d)
  let d := hit.2
  let lose := lose.map (fun (p : Nat × Nat) => (p.1, p.2 - 1))
  let (lose, won) := match hit.1, first with
    | m :: _, some o => (Tbl.put o.input (m - 1) lose, pickSync (o.input :: blocked) d.syncQ)
    | _, _ => (lose, first)
  let d := if lose.isEmpty then d else { d with arbs := Tbl.upd Arb.reset 0 (fun a => { a with lose := lose }) d.arbs }
  let rest := match won with
    | some o => d.syncQ.erase o
    | none => d.syncQ
  let d := if rest.zipIdx.any (fun p => heldSync rest p.2 p.1) then d.incReg 0x4C00 0x31 else d
  let d := { d with syncQ := ageSync rest }
  match won with
  | some o => (d.countSync o).applySync o.obj o.set o.value
  | none => d

/-! Checks that every command meets at issue (R402, R403, R431, R444, R631; their order is log entry 14). -/

/-- The header of a command that uses no engine. -/
def plainHeader (o : Origin) (reserved : Nat) : Act Unit := do
  Act.refuseIf (reserved ≠ 0 || o.slot ≠ 0) 0x0201
  let d ← Act.dev
  Act.refuseIf (o.sigEn && !(d.ownsObj o.ctx.val o.sigObj)) 0x0203

/-- The header of a command that its slot's engine runs: answers the engine. -/
def slotHeader (o : Origin) (reserved : Nat) : Act Nat := do
  Act.refuseIf (reserved ≠ 0) 0x0201
  let d ← Act.dev
  match d.slotEngine o.ctx.val o.slot with
  | none => Act.refuse 0x0205
  | some e =>
    let granted := match d.owner o.ctx.val with
      | some h => bit (d.engReg e 0x24) h
      | none => false
    Act.refuseIf (!granted) 0x020E
    Act.refuseIf (d.service (partOfEng e) = 2) 0x030F
    Act.refuseIf (o.sigEn && !(d.ownsObj o.ctx.val o.sigObj)) 0x0203
    return e

/-- The input of the sync-object unit at which a slot command's signal enters (R758). -/
def Dev.slotInput (d : Dev) (o : Origin) : Nat :=
  match d.slotEngine o.ctx.val o.slot with
  | some e => 5 + partOfEng e
  | none => 15

/-- Does an engine run commands: its function ON, or STOPPING until its sets are FREE and its queues empty (R103, R675), its
partition in service and not resetting? -/
def Dev.engRuns (d : Dev) (e : Nat) : Bool := 2 ≤ d.fn (0x3000 + e) && d.service (partOfEng e) == 0

/-! Completion (R396, R397). -/

/-- A command completes: it leaves the scoreboard, is counted, and gives its signal (R396, R397, R758). -/
def Dev.completeCmd (d : Dev) (c i : Nat) (e : Issued) : Dev :=
  let d := d.updStream c i (fun s => { s with
    run := s.run.filter (fun x => x.seq ≠ e.seq), completed := (s.completed + 1) % two64, lastChange := d.now })
  let d := d.incReg (0x4000 + c) 0x14
  if e.sigEn then d.signal e.input e.sigObj false 1 else d

/-- A command that failed leaves the scoreboard and stops its stream; the status line of one that is STOPPED stays (R398). -/
def Dev.failIssued (d : Dev) (c i : Nat) (e : Issued) : Dev :=
  let d := d.updStream c i (fun s => { s with run := s.run.filter (fun x => x.seq ≠ e.seq) })
  d.failCommand c i e.fail.cause e.fail.code e.seq e.op e.cmd

/-! Submission (R386 to R392). -/

/-- The step stamp of a command accepted now (R50). -/
def Dev.stampNow (d : Dev) (c : Nat) : Nat := ((d.ctx c).stampBase + (d.ctx c).fences) % two64

/-- The use of the coordinator's accesses for a context. -/
def coordUse (c : Nat) : Using :=
  { who := .net, ctx := c, part := 0, port := 0, input := 3, b30 := 0x030C, own := false, place := none,
    onlySpad := false }

/-- Is replay enabled for a context (R620)? -/
def Dev.replayOn (d : Dev) (c : Nat) : Bool := d.ctxReg c 0x25 ≠ 0

/-- Mark a context as not replayable (R623). -/
def Dev.markUnreplayable (d : Dev) (c : Nat) : Dev :=
  if (d.ctx c).rep.marked then d else
  (d.updCtx c (fun x => { x with rep := { x.rep with marked := true, clearIn := 2 } })).raiseCtx 0x8307 c [c]

/-- Write an accepted command into the log ring (R620, R623). -/
def logCommand (c i raw : Nat) : Act Unit := do
  let d ← Act.dev
  if !(d.replayOn c) then return ()
  let r := (d.ctx c).rep
  let cap := d.ctxReg c 0x26
  if r.marked || r.logHead - r.logTail ≥ cap then Act.upd (fun d => d.markUnreplayable c)
  else
    vwrite (coordUse c) (d.ctxReg c 0x25 + 64 * (r.logHead % cap)) (leBytes 64 (setBits raw 15 14 i))
    Act.upd (fun d => d.updCtx c (fun x => { x with rep := { x.rep with logHead := x.rep.logHead + 1 } }))

/-- Event 0x8201 for the drops not yet reported (R389). -/
def Dev.dropEvent (d : Dev) (c i : Nat) : Dev :=
  let s := d.stream c i
  let d := d.raiseCtx 0x8201 c [c, i, s.expected, s.dropNum, s.dropCause]
  d.updStream c i (fun s => { s with dropNum := 0, dropCause := 0, dropTimer := true })

/-- A write to a window is dropped for a cause (R388, R389): counted, and reported at most once per millisecond. -/
def Dev.dropWrite (d : Dev) (c i cause : Nat) : Dev :=
  let d := d.updStream c i (fun s => { s with
    dropped := (s.dropped + 1) % 2 ^ 32, dropNum := s.dropNum + 1, lastChange := d.now,
    dropCause := if s.dropNum = 0 then cause else s.dropCause })
  let d := d.incReg (0x4000 + c) 0x16
  if (d.stream c i).dropTimer then d else d.dropEvent c i

/-- Why a write to a window is dropped; 0 when it is accepted (R388, R389; the order of the causes is log entry 13). -/
def Dev.dropCause (d : Dev) (h c i slot size : Nat) (aligned : Bool) (data : Nat) : Nat :=
  let s := d.stream c i
  if d.ctxState c ≠ 2 || d.ctxReg c 0x22 % 2 = 1 then 1
  else if d.owner c ≠ some h then 2
  else if d.streamCount c ≤ i then 3
  else if size ≠ 64 || !aligned || slot = 63 then 6
  else if bits data 47 32 ≠ s.expected then 4
  else if 256 ≤ s.unissued then 5
  else 0

/-- Accept a command: it is appended to its stream's queue with its stamp, and logged where replay is enabled. -/
def State.accept (s : State) (c i data : Nat) : State :=
  let stamp := s.dev.stampNow c
  let pos := (s.dev.ctx c).rep.logHead
  let s := s.onDev (fun d =>
    let d := d.updStream c i (fun t => { t with
      q := t.q ++ [⟨data % 2 ^ 512, stamp, false, pos⟩], expected := (t.expected + 1) % 65536, lastChange := d.now })
    if opcodeOf data = 0x62 then d.updCtx c (fun x => { x with fences := x.fences + 1 }) else d)
  (s.runAct (logCommand c i (data % 2 ^ 512))).2

/-! Restarting (R399). -/

/-- Clear the stop of a stream. -/
def Dev.unstop (d : Dev) (c i : Nat) : Dev :=
  d.updStream c i (fun s => { s with
    stopped := false, cause := 0, reason := 0, stopSeq := 0, stopOp := 0, stopCmd := none, lastChange := d.now })

/-- Discard the accepted commands of a stream that have not issued. -/
def Dev.discard (d : Dev) (c i : Nat) : Dev :=
  d.updStream c i (fun s => { s with
    q := [], waiting := false, waitMet := false,
    run := s.run.filter (fun e => !(e.op = 0x02 && e.status = 0)) })

/-- Stream control (R399): 1 resume after the stopped command, 2 discard, 3 retry it. -/
def Dev.streamControl (d : Dev) (c i action : Nat) : Nat × Dev :=
  let s := d.stream c i
  if !s.stopped || action = 0 then (0x0208, d)
  else
    match action with
    | 2 => (0, (d.discard c i).unstop c i)
    | 3 =>
      let again := s.stopCmd.toList
      (0, (d.updStream c i (fun s => { s with q := again ++ s.q })).unstop c i)
    | _ => (0, d.unstop c i)

end Sys2Proof.Machine
end

