-- ==== Sys2Proof/Machine/Vector.lean ====
section
/-! DEFINITION. The vector and element-wise engine: its commands tile by tile, and whole (R154 to R192, R755 to R757). -/
namespace Sys2Proof.Machine
open Sys2Proof

/-! What a command carries (R170, R406). -/

/-- Which sources an operation has, as the number of its leading descriptors a, b, c. -/
def vecSources (op : Nat) : Nat :=
  match op with
  | 0x21 | 0x22 | 0x23 | 0x25 | 0x26 | 0x28 | 0x33 => 2
  | 0x24 | 0x2A => 3
  | 0x2B => 0
  | _ => 1

/-- Fields an operation does not use and that must be 0 (R170, R406). VWIN converts nothing, so it uses neither the rounding
fields nor the SR inputs; every other operation uses them for some destination, and may carry them for any (log entry 246). -/
def vecUnused (op : Nat) (f : VecF) : Bool :=
  let n := vecSources op
  let fn := [0x29, 0x2A, 0x2F, 0x31].contains op
  let axis := [0x2D, 0x2E, 0x2F, 0x33].contains op
  let alpha := [0x27, 0x2A, 0x2B, 0x2D, 0x2E, 0x2F, 0x32, 0x33].contains op
  (n < 1 && f.aDesc ≠ 0) || (n < 2 && f.bDesc ≠ 0) || (n < 3 && op ≠ 0x30 && f.cDesc ≠ 0) || (!fn && f.fn ≠ 0) ||
  (!axis && f.axis ≠ 0) || (op ≠ 0x30 && (f.order ≠ 0 || f.k ≠ 0)) || (!alpha && f.alpha ≠ 0) ||
  (op ≠ 0x27 && f.beta ≠ 0) ||
  (op = 0x31 && (f.rounding ≠ 0 || f.sat ≠ 0 || f.intOverflow ≠ 0 || f.tensor ≠ 0 || f.srOrigin ≠ 0 || f.srExtent ≠ 0))

/-- Function codes and counts out of their ranges: the reason code, 0 when all are good (R171, R175, R177, R180, R182). -/
def vecRange (op : Nat) (f : VecF) : Nat :=
  if f.rounding > 4 then 0x0401
  else if (op = 0x29 && f.fn > 14) || (op = 0x2A && f.fn > 5) || ((op = 0x2F || op = 0x31) && f.fn > 1) then 0x0301
  else if op = 0x30 && (f.k = 0 || f.k > 64) then 0x030A
  else 0

/-- Formats that an operation does not take (R172, R181, R756). -/
def vecFormats (op : Nat) (x : VecCmd) : Bool :=
  let fa := (x.a.map (fun p => p.1.fmt)).getD 0
  let fb := (x.b.map (fun p => p.1.fmt)).getD 0
  let fc := (x.c.map (fun p => p.1.fmt)).getD 0
  let fp := (x.p.map (·.fmt)).getD 0
  fa = 0xE || fb = 0xE || fc = 0xE || x.d.1.fmt = 0xE || (fp ≠ 0 && fp ≠ 0xA) ||
  (op = 0x31 && !([0x0, 0x1, 0x2, 0xA, 0x7].contains fa)) || (op = 0x33 && (!isInt fa || fb ≠ 0))

/-- Does a source shape broadcast to the destination's (R159)? -/
def broadcasts (s d : Desc) : Bool := (List.range 4).all (fun i => s.size i == d.size i || s.size i == 1)

/-- Sizes that do not match (R159, R177, R179, R756). The spec gives no shape for VSOFTMAX and VTRANS: the model asks for the
destination's sizes and for the exchanged sizes (DESIGN CHOICE, log entry 247). -/
def vecShapes (op : Nat) (f : VecF) (x : VecCmd) : Bool :=
  let d := x.d.1
  let ok := fun (p : Option (Desc × Option PrecH)) => match p with
    | some (s, _) => broadcasts s d
    | none => true
  let same := fun (i j : Nat) (g : Nat → Nat) => match x.a with
    | some (a, _) => (List.range 4).all (fun k => (if k = i || k = j then true else a.size k == d.size k)) &&
        (List.range 4).all (fun k => if k = i || k = j then g k == d.size k else true)
    | none => true
  let asz := fun k => match x.a with
    | some (a, _) => a.size k
    | none => 1
  if op = 0x2C then !(same 0 1 (fun k => asz (1 - k)))
  else if op = 0x2D || op = 0x2E || op = 0x2F then !(same f.axis f.axis (fun _ => 1))
  else if op = 0x30 then !(same 0 0 (fun _ => f.k)) || (match x.p with
    | some p => p.sizes ≠ d.sizes
    | none => false)
  else if op = 0x31 then false
  else if op = 0x32 then !(same 4 4 id)
  else if op = 0x33 then !(ok x.a) || (match x.b with
    | some (b, _) => !((List.range 4).all (fun k => if k = f.axis then b.size k == d.size k else b.size k == 1))
    | none => false)
  else !(ok x.a) || !(ok x.b) || !(ok x.c)

/-- The use of the vector engine's accesses. -/
def vecUse (c e : Nat) : Using :=
  { who := .vector e, ctx := c, part := partOfEng e, port := 2, input := 3, b30 := 0x0309, own := false, place := none,
    onlySpad := false }

/-- The use of descriptor reads by the scheduler of an engine's partition. -/
def schedUse (c p : Nat) : Using :=
  { who := .sched p, ctx := c, part := p, port := 0, input := 3, b30 := 0x030C, own := false, place := none,
    onlySpad := false }

/-- A source descriptor with its precision area; one outside the engine's scratchpad is refused (R155). -/
def vecSource (u : Using) (e va : Nat) : Act (Desc × Option PrecH) := do
  let d ← readDesc u va
  Act.refuseIf (d.place ≠ 3 || d.loc ≠ e / 2) 0x0309
  let h ← readArea u d none
  return (d, h)

/-- The checks of a vector command and the reading of its descriptors (R192, R421). -/
def vecIssue (op : Nat) (o : Origin) (f : VecF) : Act (Nat × VecCmd) := do
  let e ← slotHeader o (f.reserved + b2n (vecUnused op f))
  let c := vecRange op f
  Act.refuseIf (c ≠ 0) c
  let u := { schedUse o.ctx.val (partOfEng e) with b30 := 0x0309 }
  let n := vecSources op
  let a ← if n ≥ 1 then some <$> vecSource u e f.aDesc else pure none
  let b ← if n ≥ 2 then some <$> vecSource u e f.bDesc else pure none
  let cc ← if n ≥ 3 then some <$> vecSource u e f.cDesc else pure none
  let d ← readDesc u f.dDesc
  let p ← if op = 0x30 then some <$> readDesc u f.cDesc else pure none
  let away := fun (d : Desc) => d.place = 3 && d.loc ≠ e / 2
  let x : VecCmd := { op := op, o := o, f := f, a := a, b := b, c := cc, d := (d, none), p := p, next := 0 }
  Act.refuseIf (vecFormats op x) 0x0402
  Act.refuseIf (vecShapes op f x) 0x0308
  Act.refuseIf (op = 0x32 && (a.map (fun q => q.1.size 0)).getD 0 > 4096) 0x030B
  Act.refuseIf (away d || (p.map away).getD false) 0x0309
  let h ← if op = 0x31 then pure none else readArea u d none
  Act.refuseIf (!(rotWhole d h 0 (d.size 0))) 0x0406
  return (e, { x with d := (d, h) })

/-! The walk of the destination (R157, R757). -/

/-- The precision area by whose tiles a destination is walked: that of a block-scaled tensor (R757). -/
def walkArea (d : Desc) (h : Option PrecH) : Option PrecH := if isBlock d.fmt then h else none

/-- The width of a walk's tiles along dimension 0: 64 (R157), or a whole group of a rotation over 128 points (R146; DESIGN
CHOICE, log entry 248). -/
def walkWidth (h : Option PrecH) : Nat := max 64 ((h.map PrecH.rotPoints).getD 0)

/-- How many tiles the walk of a destination has. -/
def walkTiles (d : Desc) (h : Option PrecH) : Nat :=
  match walkArea d h with
  | some h => h.count d
  | none => ceilDiv (d.size 0) (walkWidth h) * ceilDiv (d.size 1) 64 * d.size 2 * d.size 3

/-- The coordinates of a precision tile, K fastest. -/
def PrecH.coords (h : PrecH) (d : Desc) (t : Nat) : List (List Nat) :=
  let i := t % h.nK d
  let j := t / h.nK d % h.nX d
  let o := t / (h.nK d * h.nX d)
  let a := h.others.getD 0 0
  let b := h.others.getD 1 0
  let ks := min 128 (d.size 0 - 128 * i)
  let xs := min h.width (d.size h.xdim - h.width * j)
  (List.range xs).flatMap (fun x => (List.range ks).map (fun k =>
    (List.range 4).map (fun q =>
      if q = 0 then 128 * i + k else if q = h.xdim then h.width * j + x
      else if q = a then o % d.size a else if q = b then o / d.size a else 0)))

/-- The coordinates of tile n of a walk, dimension 0 fastest. -/
def walkCoords (d : Desc) (h : Option PrecH) (n : Nat) : List (List Nat) :=
  match walkArea d h with
  | some h => h.coords d n
  | none =>
    let w := walkWidth h
    let n0 := ceilDiv (d.size 0) w
    let n1 := ceilDiv (d.size 1) 64
    let t0 := n % n0
    let t1 := n / n0 % n1
    let r := n / (n0 * n1)
    (List.range (min 64 (d.size 1 - 64 * t1))).flatMap (fun y =>
      (List.range (min w (d.size 0 - w * t0))).map (fun x =>
        [w * t0 + x, 64 * t1 + y, r % d.size 2, r / d.size 2]))

/-! Values of a tile. -/

/-- Source coordinates under broadcasting (R159). -/
def bcast (s : Desc) (c : List Nat) : List Nat := (List.range 4).map (fun i => if s.size i = 1 then 0 else c.getD i 0)

/-- The use of a source's data. -/
def srcUse (c e : Nat) : Using := { vecUse c e with onlySpad := true }

/-- The elements of a source at coordinates; 0 where an operation has none. -/
def readLines (u : Using) (s : Option (Desc × Option PrecH)) (cs : List (List Nat)) : Act (List El) := do
  match s with
  | none => return cs.map (fun _ => ⟨0, false, 0, 0⟩)
  | some (d, h) => readEls u d h cs

/-- The tile scale of a source. -/
def srcTile (s : Option (Desc × Option PrecH)) : Nat := (s.map (fun p => p.1.tile)).getD one32

/-- Is the operand an integer tensor without a tile scale other than 1.0 (R164, R755)? -/
def intOperand (s : Option (Desc × Option PrecH)) : Bool :=
  match s with
  | some (d, _) => isInt d.fmt && d.tile = one32
  | none => true

/-- Does the command take the integer path (R164, R755)? -/
def intPathOf (x : VecCmd) : Bool :=
  [0x21, 0x22, 0x23, 0x25, 0x26, 0x2D, 0x2E, 0x2F].contains x.op && intOperand x.a && intOperand x.b &&
  isInt x.d.1.fmt && x.d.1.tile = one32

/-- The signed value of an integer element. -/
def El.int (e : El) : Int := toSigned ((intWidth e.fmt).getD 32) e.code

/-- An element's exact value for a conversion: the INT32 code of an integer, otherwise the FP64 code that holds the value
exactly; with a tile scale, the FP32 product of R755 (R46, R162). Answers source format and code. -/
def El.exact (e : El) (tile : Nat) : Num (Nat × Nat) := do
  if e.blk then return (0x10, ← convertFloat (unpackFloat fp32 (← e.value tile)) fp64 0 false 0)
  else if tile ≠ one32 then return (0x10, ← convertFloat (unpackFloat fp32 (← tiled e.fmt e.code tile)) fp64 0 false 0)
  else if isInt e.fmt then return (0xA, ofSigned 32 e.int)
  else return (0x10, ← convertFloat (unpackFloat (elemFmt e.fmt) e.code) fp64 0 false 0)

/-- Count a NaN result none of whose sources is a NaN (R167); the arithmetic's own counts of NaNs are not kept. -/
def nanCounted (srcs : List Nat) (m : Num Nat) : Num Nat := do
  let (v, t) := m.run []
  let _ ← (t.filter (fun (p : Nat × Nat) => p.1 ≠ 0x06)).mapM (fun p => Num.count p.1 p.2)
  if isNan32 v && !(srcs.any isNan32) then countNan
  return v

/-- One element of an element-wise operation of the float path (R168, R171, R173, R756). -/
def vecElem (op : Nat) (f : VecF) (a b c : Nat) : Num Nat :=
  let w := unpackFloat fp32 f.alpha
  let alpha := if w.cls = .zero then packMag w.s 0 fp32 else canon fp32 f.alpha
  match op with
  | 0x21 => nanCounted [a, b] (add32 a b)
  | 0x22 => nanCounted [a, b] (sub32 a b)
  | 0x23 => nanCounted [a, b] (mul32 a b)
  | 0x24 => nanCounted [a, b, c] (fma32 a b c)
  | 0x25 => greater32 a b
  | 0x26 => lesser32 a b
  | 0x27 => nanCounted [a, alpha, f.beta] (fma32 a alpha f.beta)
  | 0x28 => nanCounted [a, b] (quotF a b)
  | 0x29 => nanCounted [a] (vfunc f.fn a)
  | 0x2A => return canon fp32 (if vcmp f.fn a alpha then b else c)
  | 0x2B => return alpha
  | 0x33 => nanCounted [a, b, alpha] (do mul32 (← mul32 a b) alpha)
  | _ => return a

/-- One element of the integer path (R164). -/
def vecInt (op ovf : Nat) (a b : Int) : Num Nat :=
  match op with
  | 0x21 => narrowInt 32 ovf (a + b)
  | 0x22 => narrowInt 32 ovf (a - b)
  | 0x23 => narrowInt 32 ovf (a * b)
  | 0x25 => return ofSigned 32 (max a b)
  | _ => return ofSigned 32 (min a b)

/-- The line of a reduction or ranking along an axis. -/
def lineOf (s : Desc) (axis : Nat) (c : List Nat) : List (List Nat) :=
  (List.range (s.size axis)).map (fun i => setAt c axis i)

/-- A line's reduction on the float path (R177). -/
def redFloat (op : Nat) (f : VecF) (xs : List Nat) : Num Nat := do
  let ninf := packMag true fp32.infmag fp32
  match op with
  | 0x2D => nanCounted (f.alpha :: xs) (do mul32 (← reduceLine add32 0x80000000 xs) f.alpha)
  | 0x2E => nanCounted (f.alpha :: xs) (do
      let sq ← xs.mapM (fun v => mul32 v v)
      mul32 (← reduceLine add32 0x80000000 sq) f.alpha)
  | _ => if f.fn = 0 then reduceLine greater32 ninf xs else reduceLine lesser32 nan32 xs

/-- A line's reduction on the integer path (R177). -/
def redInt (op : Nat) (f : VecF) (xs : List Int) : Num Nat := do
  let cs := xs.map (ofSigned 32)
  let gt := fun (a b : Nat) => (return if toSigned 32 a < toSigned 32 b then b else a : Num Nat)
  let lt := fun (a b : Nat) => (return if toSigned 32 b < toSigned 32 a then b else a : Num Nat)
  match op with
  | 0x2D => reduceLine (addInt32 f.intOverflow) 0 cs
  | 0x2E =>
    let sq ← xs.mapM (fun v => narrowInt 32 f.intOverflow (v * v))
    reduceLine (addInt32 f.intOverflow) 0 sq
  | _ => if f.fn = 0 then reduceLine gt 0x80000000 cs else reduceLine lt 0x7FFFFFFF cs

/-- A line's softmax (R178), with its NaNs counted where no source is one (R167). -/
def softmaxOf (alpha ta : Nat) (l : List El) : Num (List Nat) := do
  let xs ← l.mapM (fun q => q.value ta)
  let (ys, t) := (softmaxLine xs alpha).run []
  let _ ← (t.filter (fun (p : Nat × Nat) => p.1 ≠ 0x06)).mapM (fun p => Num.count p.1 p.2)
  if !(xs.any isNan32) && !isNan32 alpha then Num.count 0x06 (ys.filter isNan32).length
  return ys

/-- Is a line of the row buffer this command's? -/
def RowBuf.of (r : RowBuf) (x : VecCmd) : Bool :=
  r.ctx = x.o.ctx.val && r.stream = x.o.stream.val && r.seq = x.o.seq

/-- The lines of a softmax that a tile needs (R178): each is read and computed once, at the first tile that it reaches, and
stays in the row buffer for the tiles that follow. -/
def softmaxLines (e : Nat) (u : Using) (x : VecCmd) (src : Option Desc) (keys : List (List Nat)) :
    Act (List (List Nat × List Nat)) := do
  let d ← Act.dev
  let mine := if x.next = 0 then [] else (d.eng e).row.filter (fun r => r.of x && keys.contains r.line)
  let have_ := mine.map (fun r => (r.line, r.out))
  let need := keys.filter (fun q => !(have_.any (fun p => p.1 = q)))
  let s := src.getD x.d.1
  let els ← readLines u x.a (need.flatMap (fun q => lineOf s 0 (0 :: q)))
  let out ← Act.num (some e) ((chunksOf (s.size 0) els).mapM (softmaxOf x.f.alpha (srcTile x.a)))
  let all := have_ ++ need.zip out
  Act.upd (fun d => d.updEng e (fun k => { k with
    row := k.row.filter (fun r => !(r.of x)) ++
      all.map (fun p => ⟨x.o.ctx.val, x.o.stream.val, x.o.seq, p.1, p.2⟩) }))
  return all

/-- The first k of a line in ranking order with their positions (R176, R179, R180). `key` rises with rank. -/
def topK (key : Nat → Int) (smallest : Bool) (k fill : Nat) (xs : List Nat) : List (Nat × Int) :=
  let r := fun (i : Nat) => if smallest then key (xs.getD i 0) else -(key (xs.getD i 0))
  let lo := (List.range xs.length).foldl (fun (m : Int) i => min m (r i)) 0
  let order := sortBy (fun i => (r i - lo).toNat) (List.range xs.length)
  let out := (order.take k).map (fun i => (xs.getD i 0, (i : Int)))
  out ++ List.replicate (k - out.length) (fill, -1)

/-- The source format and values of a destination tile, and for VTOPK the positions. The NaN that fills a missing slot of VTOPK
is not counted in 0x5000:06 (DESIGN CHOICE, log entry 249). -/
def tileVals (e : Nat) (x : VecCmd) (cs : List (List Nat)) : Act (Nat × List Nat × List Int) := do
  let u := srcUse x.o.ctx.val e
  let f := x.f
  let op := x.op
  let eng := some e
  let src := x.a.map (·.1)
  let ta := srcTile x.a
  if op = 0x20 || op = 0x2C then
    let from_ := fun (c : List Nat) =>
      if op = 0x2C then [c.getD 1 0, c.getD 0 0, c.getD 2 0, c.getD 3 0] else
      match src with
      | some s => bcast s c
      | none => c
    let els ← readLines u x.a (cs.map from_)
    let plain := op = 0x2C && (src.map (·.fmt)) = some x.d.1.fmt && !(isBlock x.d.1.fmt) && ta = one32 &&
      x.d.1.tile = one32 && els.all (fun l => l.fmt = x.d.1.fmt)
    if plain then return (0x100 + x.d.1.fmt, els.map (·.code), [])
    let vs ← Act.num eng (els.mapM (fun l => l.exact ta))
    return ((vs.headD (0x10, 0)).1, vs.map (·.2), [])
  if op = 0x2D || op = 0x2E || op = 0x2F then
    let s := src.getD x.d.1
    let lines := cs.map (lineOf s f.axis)
    let els ← readLines u x.a lines.flatten
    let ls := chunksOf (s.size f.axis) els
    if intPathOf x then
      let vs ← Act.num eng (ls.mapM (fun l => redInt op f (l.map (·.int))))
      return (0xA, vs, [])
    let vs ← Act.num eng (ls.mapM (fun l => do redFloat op f (← l.mapM (fun q => q.value ta))))
    return (0, vs, [])
  if op = 0x32 then
    let tb ← softmaxLines e u x src (cs.map (fun c => c.drop 1)).dedup
    let vs := cs.map (fun c => (((tb.find? (fun p => p.1 = c.drop 1)).map (·.2)).getD []).getD (c.getD 0 0) 0)
    return (0, vs, [])
  if op = 0x30 then
    let s := src.getD x.d.1
    let keys := (cs.map (fun c => c.drop 1)).dedup
    let els ← readLines u x.a (keys.flatMap (fun q => lineOf s 0 (0 :: q)))
    let ls := chunksOf (s.size 0) els
    let isI := intOperand x.a
    let fill := if isInt x.d.1.fmt then 0 else if isI then 0 else nan32
    let fillNan := isI && !(isInt x.d.1.fmt)
    let out ← Act.num eng (ls.mapM (fun l => do
      if isI then
        return topK (fun v => toSigned 32 v) (f.order = 1) f.k fill (l.map (fun q => ofSigned 32 q.int))
      let xs ← l.mapM (fun q => q.value ta)
      return topK (rankF fp32) (f.order = 1) f.k fill (xs.map (canon fp32))))
    let tb := keys.zip out
    let at_ := fun (c : List Nat) =>
      ((((tb.find? (fun p => p.1 = c.drop 1)).map (·.2)).getD []).getD (c.getD 0 0) (fill, -1))
    -- an integer source into a float destination: missing slots are NaN, so the values go as FP64
    if fillNan then
      let vs ← Act.num eng (cs.mapM (fun c => do
        let (v, p) := at_ c
        if p < 0 then return fp64.nan
        convertFloat (unpackInt (toSigned 32 v)) fp64 0 false 0))
      return (0x10, vs, cs.map (fun c => (at_ c).2))
    return (if isI then 0xA else 0, cs.map (fun c => (at_ c).1), cs.map (fun c => (at_ c).2))
  let co := fun (s : Option (Desc × Option PrecH)) => cs.map (fun c => match s with
    | some (d, _) => bcast d c
    | none => c)
  let ea ← readLines u x.a (co x.a)
  let eb ← readLines u x.b (co x.b)
  let ec ← readLines u x.c (co x.c)
  if intPathOf x then
    let vs ← Act.num eng ((ea.zip eb).mapM (fun p => vecInt op f.intOverflow p.1.int p.2.int))
    return (0xA, vs, [])
  let vs ← Act.num eng ((ea.zip (eb.zip ec)).mapM (fun (p, q, r) => do
    vecElem op f (← p.value ta) (← q.value (srcTile x.b)) (← r.value (srcTile x.c))))
  return (0, vs, [])

/-- The rounding of a vector command (R49, R166). -/
def vecRnd (d : Dev) (x : VecCmd) : Rnd :=
  { mode := x.f.rounding, sat := x.f.sat = 1, seed := d.seed x.o.ctx.val, tensor := x.f.tensor, step := x.o.stamp }

/-- The index of a destination element for SR (R166). -/
def vecIndex (x : VecCmd) (c : List Nat) : Nat :=
  let d := x.d.1
  let l0 := if x.f.srExtent ≠ 0 then x.f.srExtent else d.size 0
  x.f.srOrigin + c.getD 0 0 + l0 * (c.getD 1 0 + d.size 1 * (c.getD 2 0 + d.size 2 * c.getD 3 0))

/-- VWIN (R181, R182): the control record of the winner of the whole source. -/
def vecWin (e : Nat) (x : VecCmd) : Act Unit := do
  let u := srcUse x.o.ctx.val e
  let s := (x.a.map (·.1)).getD x.d.1
  let els ← readLines u x.a ((List.range s.total).map (coordsOf s.sizes))
  let isI := intOperand x.a
  let vals ← Act.num (some e) (els.mapM (fun l => if isI then return ofSigned 32 l.int else do
    return canon fp32 (← l.value s.tile)))
  let key := fun (v : Nat) => if isI then toSigned 32 v else rankF fp32 v
  let live := vals.zipIdx.filter (fun p => isI || !isNan32 p.1)
  let nans := vals.length - live.length
  let best := live.foldl (fun (b : Option (Nat × Nat)) p =>
    match b with
    | none => some p
    | some q => if (if x.f.fn = 0 then key q.1 < key p.1 else key p.1 < key q.1) then some p else b) none
  let rec_ := match best with
    | some (v, i) => v + i <<< 32 + (live.filter (fun p => key p.1 = key v)).length <<< 64 + nans <<< 96
    | none => (if isI then 0 else nan32) + 0xFFFFFFFF <<< 32 + nans <<< 96
  vwrite ((vecUse x.o.ctx.val e).of x.d.1) x.d.1.base (leBytes 16 rec_)
  Act.upd (fun d => d.incReg (0x3000 + e) 0x11)

/-- Run tile `x.next` of a command: every source is read before any element is written (R158). A position written to an FP32
positions tensor is rounded by RNE: the spec does not say which mode (DESIGN CHOICE, log entry 250). -/
def vecTile (e : Nat) (x : VecCmd) : Act Unit := do
  if x.op = 0x31 then vecWin e x
  else
    Act.unstage e
    let cs := walkCoords x.d.1 x.d.2 x.next
    let (src, vs, ps) ← tileVals e x cs
    let d ← Act.dev
    let u := vecUse x.o.ctx.val e
    if (walkArea x.d.1 x.d.2).isSome then Act.stage u ⟨4, vs.map (fun v => ⟨src, false, v, 0⟩), []⟩
    let p : Prod := { u := u, eng := some e, d := x.d.1, h := x.d.2, rnd := vecRnd d x, ovf := x.f.intOverflow,
                      src := src, pol := (d.ctx x.o.ctx.val).policy, runners := true, pieces := true }
    produce p ((cs.zip vs).map (fun q => ⟨q.1, q.2, vecIndex x q.1⟩))
    match x.p with
    | some pd =>
      let codes ← Act.num (some e) (ps.mapM (fun i =>
        if pd.fmt = 0xA then return ofSigned 32 i else convertFloat (unpackInt i) fp32 0 false 0))
      writeCoords u pd cs codes
    | none => pure ()
    Act.upd (fun d => d.addReg (0x3000 + e) 0x11 (cs.length + (if x.p.isSome then cs.length else 0)))

/-- Tiles of a command; VWIN is one. -/
def VecCmd.tiles (x : VecCmd) : Nat := if x.op = 0x31 then 1 else walkTiles x.d.1 x.d.2

/-- Count a retired vector command (R191). -/
def Dev.vecRetired (d : Dev) (e op : Nat) : Dev :=
  let d := d.incReg (0x3000 + e) 0x10
  if op = 0x31 then d.incReg (0x3000 + e) 0x13 else d

/-- The cycles of a command that runs whole: what it and the ports stalled and it was busy are free values (R191, R202;
log entry 245). -/
def Dev.vecCycles (d : Dev) (e : Nat) : Dev :=
  let (f, d) := d.draw
  ((d.addReg (0x3000 + e) 0x16 (Config.vecStall f)).addReg (0x3000 + e) 0x17 (Config.vecBusy f)).portStalls e 0

/-- Run a command from its first tile to its last. -/
def vecRun (e : Nat) (x : VecCmd) : Act Unit := do
  for i in List.range x.tiles do
    vecTile e { x with next := i }
  Act.upd (fun d => (d.vecCycles e).vecRetired e x.op)

/-- A vector command at its engine: it runs whole where the engine runs and none waits before it (R395), and otherwise waits in
the engine's queue. -/
def vecWhole (op : Nat) (o : Origin) (f : VecF) : Act Bool := do
  let (e, x) ← vecIssue op o f
  let d ← Act.dev
  if d.engRuns e && (d.eng e).vq.isEmpty then
    Act.work o.ctx.val e (vecRun e x)
    return true
  Act.upd (fun d => d.updEng e (fun k => { k with vq := k.vq ++ [x] }))
  return false

/-- The effect of a vector command that is delivered. -/
def runVec (op : Nat) (o : Origin) (f : VecF) (s : State) : State :=
  s.issueCmd o op (s.dev.slotInput o) (cmdOf o op f.reserved (vecFields op f)) (vecWhole op o f)

/-- VCONV (R162). -/
def execVconv (o : Origin) (f : VecF) (s : State) : Host.Outcome State Fault Refusal :=
  .next (runVec 0x20 o f s)

/-- VADD (R168). -/
def execVadd (o : Origin) (f : VecF) (s : State) : Host.Outcome State Fault Refusal :=
  .next (runVec 0x21 o f s)

/-- VSUB (R168). -/
def execVsub (o : Origin) (f : VecF) (s : State) : Host.Outcome State Fault Refusal :=
  .next (runVec 0x22 o f s)

/-- VMUL (R168). -/
def execVmul (o : Origin) (f : VecF) (s : State) : Host.Outcome State Fault Refusal :=
  .next (runVec 0x23 o f s)

/-- VFMA (R168). -/
def execVfma (o : Origin) (f : VecF) (s : State) : Host.Outcome State Fault Refusal :=
  .next (runVec 0x24 o f s)

/-- VMAX (R176). -/
def execVmax (o : Origin) (f : VecF) (s : State) : Host.Outcome State Fault Refusal :=
  .next (runVec 0x25 o f s)

/-- VMIN (R176). -/
def execVmin (o : Origin) (f : VecF) (s : State) : Host.Outcome State Fault Refusal :=
  .next (runVec 0x26 o f s)

/-- VSCALE (R168). -/
def execVscale (o : Origin) (f : VecF) (s : State) : Host.Outcome State Fault Refusal :=
  .next (runVec 0x27 o f s)

/-- VDIV (R173). -/
def execVdiv (o : Origin) (f : VecF) (s : State) : Host.Outcome State Fault Refusal :=
  .next (runVec 0x28 o f s)

/-- VFUNC (R174, R175). -/
def execVfunc (o : Origin) (f : VecF) (s : State) : Host.Outcome State Fault Refusal :=
  .next (runVec 0x29 o f s)

/-- VSEL (R171). -/
def execVsel (o : Origin) (f : VecF) (s : State) : Host.Outcome State Fault Refusal :=
  .next (runVec 0x2a o f s)

/-- VFILL (R168). -/
def execVfill (o : Origin) (f : VecF) (s : State) : Host.Outcome State Fault Refusal :=
  .next (runVec 0x2b o f s)

/-- VTRANS (R162). -/
def execVtrans (o : Origin) (f : VecF) (s : State) : Host.Outcome State Fault Refusal :=
  .next (runVec 0x2c o f s)

/-- VREDSUM (R177). -/
def execVredsum (o : Origin) (f : VecF) (s : State) : Host.Outcome State Fault Refusal :=
  .next (runVec 0x2d o f s)

/-- VREDSQ (R177). -/
def execVredsq (o : Origin) (f : VecF) (s : State) : Host.Outcome State Fault Refusal :=
  .next (runVec 0x2e o f s)

/-- VREDMAX (R177). -/
def execVredmax (o : Origin) (f : VecF) (s : State) : Host.Outcome State Fault Refusal :=
  .next (runVec 0x2f o f s)

/-- VTOPK (R179, R180). -/
def execVtopk (o : Origin) (f : VecF) (s : State) : Host.Outcome State Fault Refusal :=
  .next (runVec 0x30 o f s)

/-- VWIN (R181, R182). -/
def execVwin (o : Origin) (f : VecF) (s : State) : Host.Outcome State Fault Refusal :=
  .next (runVec 0x31 o f s)

/-- VSOFTMAX (R178). -/
def execVsoftmax (o : Origin) (f : VecF) (s : State) : Host.Outcome State Fault Refusal :=
  .next (runVec 0x32 o f s)

/-- VDEQ (R756). -/
def execVdeq (o : Origin) (f : VecF) (s : State) : Host.Outcome State Fault Refusal :=
  .next (runVec 0x33 o f s)

end Sys2Proof.Machine
end

