-- ==== Sys2Proof/Machine/Sched.lean ====
section
/-! DEFINITION. The choice between contexts on the units of an engine, and what is charged for the time they use (R457 to
R459, R449). -/
namespace Sys2Proof.Machine
open Sys2Proof

/-- Evaluation contexts attached to a training context whose window is open, with an engine in their beds (R458, R468). -/
def Dev.windowCtxs (d : Dev) (e : Nat) (cs : List Nat) : List Nat :=
  cs.filter (fun c =>
    let v := d.ctxReg c 0x1C
    bit v 15 && (d.ctx (v % 1024)).win = 2 && bit (d.ctx c).bedMask e)

/-- Is an engine in the bed of an evaluation context whose window is open, whether ready or not? -/
def Dev.windowOn (d : Dev) (e : Nat) : Bool := !(d.windowCtxs e (d.ctxs.map (·.1))).isEmpty

/-- The element of a list with the least key; the first on ties. -/
def leastBy (key : Nat → Nat) (l : List Nat) : Option Nat :=
  l.foldl (fun b x => match b with
    | none => some x
    | some y => if key x < key y then some x else b) none

/-- choose of R458 among ready contexts, given the unit's running context. -/
def Dev.choose (d : Dev) (e : Nat) (sc : Sched) (ready : List Nat) : Option Nat :=
  let ready := sortBy id ready.dedup
  let k := d.eng e
  let vt := fun c => Tbl.look 0 c k.vt
  match leastBy vt (d.windowCtxs e ready) with
  | some c => some c
  | none =>
    let q := d.reg 0x3400 0x90 * 1000
    let stay := match sc.cur with
      | some c => ready.contains c && sc.ran < q
      | none => false
    if stay then sc.cur else
    let sites := sortBy id ((ready.map (fun c => (d.owner c).getD 4)).dedup)
    match leastBy (fun h => Tbl.look 0 h k.hvt) sites with
    | none => none
    | some h => leastBy vt (ready.filter (fun c => (d.owner c).getD 4 = h))

/-- The unit's scheduling record after a choice; a change of context is counted (R458, R473). -/
def Dev.grantUnit (d : Dev) (e c : Nat) (sc : Sched) : Sched × Dev :=
  if sc.cur = some c then (sc, d)
  else (⟨some c, 0⟩, if sc.cur.isSome then d.incReg (0x3000 + e) 0x26 else d)

/-- charge of R458: time of a unit used by a context, also to the context's engine time and its share of the partition's static
energy (R571). -/
def Dev.chargeTime (d : Dev) (e c ns : Nat) : Dev :=
  let w := max 1 (d.ctxReg c 0x18)
  let d := d.addReg (0x4000 + c) 0x21 ns
  let d := d.updPowP (partOfEng e) (fun q => { q with time := Tbl.upd 0 c (· + ns) q.time })
  let d := match d.owner c with
    | some h =>
      let wh := max 1 (d.siteReg h 0x40)
      d.updEng e (fun k => { k with hvt := Tbl.upd 0 h (· + ns * 256 / wh) k.hvt })
    | none => d
  d.updEng e (fun k => { k with vt := Tbl.upd 0 c (· + ns * 256 / w) k.vt })

/-- The same for an array or a vector engine, whose time the beds of the context's split groups are charged too (R449). -/
def Dev.chargeUnit (d : Dev) (e c ns : Nat) : Dev :=
  (d.chargeTime e c ns).updCtx c (fun x =>
    let beds := (List.range 64).filter (fun b => bit (bytesAt (d.reg 0x3400 (0x40 + b)) 0 8) e)
    -- only beds that a split group of the context lists are measured (R449)
    let listed := (List.range 8).flatMap (fun g =>
      let v := d.reg 0x3400 (0x80 + g)
      if bit v 63 && bits v 9 0 = c then (List.range (bits v 39 38 + 1)).map (fun i => bits v (15 + 6 * i) (10 + 6 * i))
      else [])
    { x with bedNs := (beds.filter listed.contains).foldl (fun t b => Tbl.upd 0 b (· + ns) t) x.bedNs })

/-- Contexts with work in any queue of an engine. -/
def Eng.busyCtxs (k : Eng) : List Nat :=
  (k.jobs.map (fun j => j.o.ctx.val) ++ k.vq.map (fun x => x.o.ctx.val) ++ k.dq.map (fun x => x.o.ctx.val)).dedup

/-- becomes_ready of R458: before a context's command joins a queue of an engine on which it has no work. -/
def Dev.becomesReady (d : Dev) (e c : Nat) : Dev :=
  let k := d.eng e
  let cs := k.busyCtxs
  if cs.contains c then d else
  let low := fun (t : Tbl Nat) (xs : List Nat) => match xs with
    | [] => 0
    | x :: r => r.foldl (fun m y => min m (Tbl.look 0 y t)) (Tbl.look 0 x t)
  let hs := (cs.filterMap d.owner).dedup
  d.updEng e (fun k =>
    let k := { k with vt := Tbl.upd 0 c (fun v => max v (low k.vt cs)) k.vt }
    match d.owner c with
    | some h => { k with hvt := Tbl.upd 0 h (fun v => max v (low k.hvt hs)) k.hvt }
    | none => k)

/-- May a context put another command into a queue that holds `n` entries, `mine` of them its own (R439)? -/
def queueRoom (n mine : Nat) : Bool := n < 32 && mine < 8

/-- A vector command that only joins its engine's queue (R439). -/
def vecQueue (op : Nat) (o : Origin) (f : VecF) : Act Bool := do
  let (e, x) ← vecIssue op o f
  Act.upd (fun d => (d.becomesReady e o.ctx.val).updEng e (fun k => { k with vq := k.vq ++ [x] }))
  return false

/-! The vector engine between tiles (R189, R190). -/

/-- The command of a context that comes next on the vector engine: a VWIN ahead of data unless four have run since the
last tile of another command of that context. -/
def Eng.nextVec (k : Eng) (c : Nat) : Option VecCmd :=
  let mine := k.vq.filter (fun x => x.o.ctx.val = c)
  let win := mine.find? (fun x => x.op = 0x31)
  let dat := mine.find? (fun x => x.op ≠ 0x31)
  match win, dat with
  | some w, some x => if Tbl.look 0 c k.vwins < 4 then some w else some x
  | some w, none => some w
  | none, x => x

/-- A boundary between destination tiles: the time and PCLK cycles used by the command that ran are charged, the next work
is chosen and its next tile runs (R189, R191). A pending merge has a row of its own, RUNNER_MERGE, and goes first. -/
def vectorBoundary (e ns busy stalled : Nat) (s : State) : State :=
  let k := s.dev.eng e
  let s := s.onDev (fun d =>
    let d := (d.addReg (0x3000 + e) 0x17 busy).addReg (0x3000 + e) 0x16 stalled
    match k.scV.cur with
    | some c => (d.chargeUnit e c ns).updEng e (fun k => { k with scV := { k.scV with ran := k.scV.ran + ns } })
    | none => d)
  let k := s.dev.eng e
  let merging := k.jobs.any (fun j => j.ph = 2 && !j.merged)
  if merging || !(s.dev.engRuns e) then s else
  match s.dev.choose e k.scV (k.vq.map (fun x => x.o.ctx.val)) with
  | none => s.onDev (fun d => d.updEng e (fun k => { k with scV := ⟨none, 0⟩ }))
  | some c =>
    let (sc, d) := s.dev.grantUnit e c k.scV
    let s := s.onDev (fun _ => d.updEng e (fun k => { k with scV := sc }))
    match (s.dev.eng e).nextVec c with
    | none => s
    | some x =>
      let drop := fun (d : Dev) => d.updEng e (fun k => { k with vq := k.vq.filter (fun y => !(y.o.ctx = x.o.ctx &&
        y.o.stream = x.o.stream && y.o.seq = x.o.seq)) })
      let r := s.runAct (Act.work c e (vecTile e x))
      match r.1 with
      | .error f => r.2.onDev (fun d => (drop d).markFailed c x.o.stream.val x.o.seq f)
      | .ok _ => r.2.onDev (fun d =>
          let d := d.portStalls e 0
          let d := d.updEng e (fun k => { k with vwins := Tbl.put c (if x.op = 0x31 then Tbl.look 0 c k.vwins + 1 else 0) k.vwins })
          if x.next + 1 < x.tiles then
            d.updEng e (fun k => { k with vq := k.vq.map (fun y =>
              if y.o.ctx = x.o.ctx && y.o.stream = x.o.stream && y.o.seq = x.o.seq then { y with next := y.next + 1 }
              else y) })
          else ((drop d).vecRetired e x.op).markDone c x.o.stream.val x.o.seq)

/-- VECTOR_TILE_BOUNDARY (R189). -/
def execVectorTileBoundary (e : Fin 64) (ns busy stalled : Nat) (s : State) : Host.Outcome State Fault Refusal :=
  .next (vectorBoundary e.val ns busy stalled s)

end Sys2Proof.Machine
end

