-- ==== Sys2Proof/Machine/Array.lean ====
section
/-! DEFINITION. The matrix array: tile jobs from issue to drain, bank sets, save areas, the runner merge and the sampled
tile check (R60 to R101, R119 to R132, R146 to R149, R183 to R188, R460 to R464). -/
namespace Sys2Proof.Machine
open Sys2Proof

/-! Issue (R93). -/

/-- The class of an operand format (R64): 0 8-bit float, 1 FP16, 2 integer. -/
def arrayClass (fmt : Nat) : Option Nat :=
  match fmt with
  | 0x1 | 0x3 | 0x4 | 0x5 | 0x6 | 0xC | 0xD => some 0
  | 0x2 => some 1
  | 0x7 | 0x8 | 0x9 => some 2
  | _ => none

/-- Is a format a destination of a class (R89)? -/
def drainFmt (cls fmt : Nat) : Bool :=
  [0x0, 0x1, 0x2, 0x3, 0x4, 0x5, 0x6, 0xC, 0xD].contains fmt || (cls == 2 && [0xA, 0x7, 0x8, 0x9].contains fmt)

/-- The promotion interval (R92). -/
def mtN (f : MtileF) : Nat := 16 <<< f.interval

/-- The weight fields of a tile job (R93). -/
def mtWkey (f : MtileF) : List Nat := [f.wDesc, f.wKdim, f.wNdim, f.k0, f.kCount, f.n0, f.nCount]

/-- The rotation of an operand: field, heirloom flag, signs where one is selected (R146). -/
def rotKey (h : Option PrecH) : Nat × Bool × Nat :=
  match h with
  | none => (0, false, 0)
  | some h => (h.rot, h.heirloomRot, if h.rotPoints = 0 then 0 else h.signs)

/-- What a context holds of a set on an engine, as its commands issued so far leave it: class, window and least next k0
(R93, R461). -/
structure AccView where
  cls : Nat
  m0 : Nat
  mCount : Nat
  n0 : Nat
  nCount : Nat
  nextK : Nat
  deriving DecidableEq, Repr

/-- The view of an accumulation. -/
def Accum.view (a : Accum) : AccView := ⟨a.cls, a.m0, a.mCount, a.n0, a.nCount, a.nextK⟩

/-- The accumulation that a context holds of a set, OPEN or saved. -/
def Eng.heldAcc (k : Eng) (c set : Nat) : Option Accum :=
  let s := k.sets.getD set ⟨0, Accum.empty⟩
  if s.st = 1 && s.acc.ctx = c then some s.acc
  else (k.saves.find? (fun p => p.1 = set && p.2.ctx = c)).map (·.2)

/-- The view after the jobs that are queued. -/
def Eng.accView (k : Eng) (c set : Nat) : Option AccView :=
  let own := k.jobs.filter (fun j => j.o.ctx.val = c && j.f.setNo = set)
  -- a retired job has joined the accumulation already, and a draining one has left it
  let base := if own.any (fun j => j.ph = 2 && j.f.drain = 1) then none else (k.heldAcc c set).map Accum.view
  (own.filter (fun j => j.ph < 2)).foldl (fun v j =>
    if j.f.drain ≠ 0 then none
    else some (match v with
      | some v => { v with nextK := j.f.k0 + j.f.kCount }
      | none => ⟨j.cls, j.f.m0, j.f.mCount, j.f.n0, j.f.nCount, j.f.k0 + j.f.kCount⟩)) base

/-- The weights of a context's last tile job on an engine (R93, R464). -/
def Eng.lastWeights (k : Eng) (c : Nat) : Option (List Nat) :=
  match (k.jobs.filter (fun j => j.o.ctx.val = c && j.ph = 0)).getLast? with
  | some j => some (mtWkey j.f)
  | none => Tbl.look? c k.lastW

/-- The checks of R93 that need fields and descriptors only: the reason code, 0 when all pass. -/
def mtileCode (f : MtileF) (wd ad : Desc) (dd : Option Desc) : Nat :=
  let cw := arrayClass wd.fmt
  let blk := isBlock wd.fmt || isBlock ad.fmt
  let heirBad := f.heirloom = 1 && !((wd.fmt = 0x1 && ad.fmt = 0x1) || (wd.fmt = 0x7 && ad.fmt = 0x7 &&
    (match dd with
    | some d => d.fmt = 0x0 || d.fmt = 0x1
    | none => true)))
  let dBad := match dd with
    | none => false
    | some d => !(drainFmt (cw.getD 0) d.fmt) ||
        (isBlock d.fmt && (f.dNdim ≠ 0 || f.n0 % 32 ≠ 0 ||
          ((f.n0 + f.nCount) % 32 ≠ 0 && f.n0 + f.nCount < d.size 0)))
  if heirBad then 0x0407
  else if cw.isNone || cw ≠ arrayClass ad.fmt || dBad then 0x0402
  else if (isBlock wd.fmt && f.wKdim ≠ 0) || (isBlock ad.fmt && f.aKdim ≠ 0) || (blk && f.k0 % 32 ≠ 0) then 0x0305
  else if f.heirloom = 0 && 2 ≤ f.interval && (blk || cw = some 1) then 0x0404
  else 0

/-- MTILE's checks and descriptors (R93, R107, R146, R147): answers its engine and the job. -/
def mtileIssue (o : Origin) (f : MtileF) : Act (Nat × TileJob) := do
  let e ← slotHeader o f.reserved
  let c := o.ctx.val
  Act.refuseIf (f.kCount = 0 || f.kCount > 128 || f.nCount = 0 || f.nCount > 512 || f.mCount = 0 || f.mCount > 256 ||
    f.drain = 3) 0x0301
  Act.refuseIf (f.rounding > 4) 0x0401
  Act.refuseIf (f.wKdim = f.wNdim || f.aKdim = f.aMdim || f.dMdim = f.dNdim) 0x0305
  let u := schedUse c (partOfEng e)
  let wd ← readDesc u f.wDesc
  let ad ← readDesc u f.aDesc
  let dd ← if f.drain = 1 then some <$> readDesc u f.dDesc else pure none
  let code := mtileCode f wd ad dd
  Act.refuseIf (code ≠ 0) code
  let wh ← readArea u wd (some false)
  let ah ← readArea u ad (some true)
  let dh ← match dd with
    | some d => readArea u d none
    | none => pure none
  Act.refuseIf (rotKey wh ≠ rotKey ah) 0x0406
  let dimsBad := match dd with
    | some d => if f.dNdim = 0 then !(rotWhole d dh f.n0 (min f.nCount (d.size 0 - f.n0)))
                else if f.dMdim = 0 then !(rotWhole d dh f.m0 (min f.mCount (d.size 0 - f.m0)))
                else !(rotWhole d dh 0 1)
    | none => false
  Act.refuseIf dimsBad 0x0406
  let d ← Act.dev
  let k := d.eng e
  let cls := (arrayClass wd.fmt).getD 0
  let held := k.accView c f.setNo
  match held with
  | none => Act.refuseIf (f.accumulate = 1) 0x0302
  | some v =>
    Act.refuseIf (f.accumulate = 0) 0x0315
    Act.refuseIf (v.cls ≠ cls || v.m0 ≠ f.m0 || v.mCount ≠ f.mCount || v.n0 ≠ f.n0 || v.nCount ≠ f.nCount) 0x0303
    Act.refuseIf (f.k0 < v.nextK) 0x0304
  Act.refuseIf (f.wKeep = 1 && k.lastWeights c ≠ some (mtWkey f)) 0x0306
  let j : TileJob := { o := o, f := f, wd := wd, ad := ad, dd := dd, wh := wh, ah := ah, dh := dh, cls := cls, ph := 0,
                       loaded := false, carry := [], pass := none, merged := false, checked := false }
  return (e, j)

/-- MTILE at its engine: it joins the array's queue. -/
def mtileQueue (o : Origin) (f : MtileF) : Act Bool := do
  let (e, j) ← mtileIssue o f
  Act.upd (fun d => (d.becomesReady e o.ctx.val).updEng e (fun k => { k with jobs := k.jobs ++ [j] }))
  return false

/-- MTILE (R92). -/
def execMtile (o : Origin) (f : MtileF) (s : State) : Host.Outcome State Fault Refusal :=
  .next (s.issueCmd o 0x10 (s.dev.slotInput o) (cmdOf o 0x10 f.reserved (mtileFields f)) (mtileQueue o f))

/-! Operands. -/

/-- The use of the array's accesses through a scratchpad port. -/
def arrayUse (c e port : Nat) : Using :=
  { who := .array e, ctx := c, part := partOfEng e, port := port, input := 3, b30 := 0x030C, own := false, place := none,
    onlySpad := false }

/-- Coordinates with K and N or M along the given dimensions. -/
def opdCoord (kd xd k x : Nat) : List Nat := (List.range 4).map (fun i => if i = kd then k else if i = xd then x else 0)

/-- The element outside a tensor: +0 (R96). -/
def El.zero : El := ⟨0x1, false, 0, 0⟩

/-- Is a coordinate inside the tensor? -/
def Desc.inside (d : Desc) (c : List Nat) : Bool := (List.range 4).all (fun i => c.getD i 0 < d.size i)

/-- An operand's elements of a pass: a list per N or M position, each over K (R95, R96, R119). -/
def readOpd (u : Using) (d : Desc) (h : Option PrecH) (kd xd k0 kc x0 xc : Nat) : Act (List (List El)) := do
  let rows := (List.range xc).map (fun x => (List.range kc).map (fun k => opdCoord kd xd (k0 + k) (x0 + x)))
  let els ← readEls u d h (rows.flatten.filter d.inside)
  let tb := ((rows.flatten.filter d.inside).map d.linear).zip els
  return rows.map (fun r => r.map (fun c => if d.inside c then Tbl.look El.zero (d.linear c) tb else El.zero))

/-- The tiles of an operand that a window touches. -/
def tilesOf (d : Desc) (h : PrecH) (kd xd k0 kc x0 xc : Nat) : List Nat :=
  let ks := (List.range (ceilDiv (k0 % 128 + kc) 128)).map (fun i => (k0 / 128 + i) * 128)
  let xs := (List.range (ceilDiv (x0 % h.width + xc) h.width)).map (fun i => (x0 / h.width + i) * h.width)
  ((ks.flatMap (fun k => xs.map (fun x => opdCoord kd xd k x))).filter d.inside).map (h.tileOf d)

/-- Those runners of a tile that lie inside a pass's window, as (K offset, N or M offset, value) in the window. -/
def inWindow (d : Desc) (h : PrecH) (t k0 kc x0 xc : Nat) (rs : List (Nat × Nat × Nat)) : List (Nat × Nat × Nat) :=
  let kb := t % h.nK d * 128
  let xb := t / h.nK d % h.nX d * h.width
  (rs.filter (fun (k, x, _) => k0 ≤ kb + k && kb + k < k0 + kc && x0 ≤ xb + x && xb + x < x0 + xc)).map
    (fun (k, x, v) => (kb + k - k0, xb + x - x0, v))

/-- Runners of an operand inside a pass's window, fetched from the slots of the tiles given (R185). -/
def opdRunners (u : Using) (d : Desc) (h : Option PrecH) (ts : List Nat) (k0 kc x0 xc : Nat) :
    Act (List (Nat × Nat × Nat)) := do
  match h with
  | none => return []
  | some h =>
    let rs ← ts.mapM (fun t => do return inWindow d h t k0 kc x0 xc (← readRunners u h t))
    return rs.flatten

/-- What a pass records of an operand (R183): the tiles whose runner slots hold a runner in its window, and every tile that
it reads with its rung. How the device comes to know the slots' contents before the merge fetches them is open: the model
looks at them without an access, and records a slot that could not be read (DESIGN CHOICE, log entry 240). -/
def opdRecord (u : Using) (d : Desc) (h : Option PrecH) (kd xd k0 kc x0 xc : Nat) :
    Act (List Nat × List (Nat × Nat)) := do
  match h with
  | none => return ([], [])
  | some h =>
    let rs ← (tilesOf d h kd xd k0 kc x0 xc).mapM (fun t => do
      let (rung, wide, _) ← readEntry u h t
      let seen ← if isBlock d.fmt then Act.peek (readRunners u h t) else pure (some [])
      let holds := match seen with
        | some rs => !(inWindow d h t k0 kc x0 xc rs).isEmpty
        | none => true
      return (t, holds, if wide then rung else 0))
    return ((rs.filter (·.2.1)).map (·.1), rs.map (fun (t, _, r) => (t, r)))

/-! One pass. -/

/-- An element in the array's operand form (R67, R35): an element of a block of scale 0xFF is a NaN, of scale 0x00 a
zero. -/
def El.opnd (e : El) : Opnd :=
  if e.blk && e.scale = 0 then opnd0
  else if e.blk && e.scale = 0xFF then ⟨.nan, false, 0, 0⟩
  else Sys2Proof.Machine.opnd e.fmt e.code

/-- The block scales of the four row groups of an operand vector. -/
def groupScales (l : List El) : List (Option Nat) :=
  (List.range 4).map (fun g => match l[32 * g]? with
    | some e => if e.blk then some e.scale else none
    | none => none)

/-- A vector of 128 operands: rows beyond k_count are +0. -/
def padOpnds (l : List El) : List Opnd := l.map El.opnd ++ List.replicate (128 - l.length) opnd0

/-- A BF16 code list of 128 for a heirloom pass. -/
def padCodes (l : List El) : List Nat := l.map (·.code) ++ List.replicate (128 - l.length) 0

/-- The carries of a pass in row-major order (R67 to R79, R148, R149); `n` is the promotion interval. -/
def passCarry (cls : Nat) (f : MtileF) (n : Nat) (w a : List (List El)) : Num (List Nat) := do
  let rows ← a.mapM (fun av => w.mapM (fun wv =>
    if cls = 2 then intPass f.intOverflow (if f.heirloom = 1 then 128 else n) (av.map El.int) (wv.map El.int)
    else if f.heirloom = 1 then heirloomPass (padCodes av) (padCodes wv)
    else floatPass (cls == 1) n (padOpnds av) (padOpnds wv) (groupScales av) (groupScales wv)))
  return rows.flatten

/-- The bank after a pass: each carry scaled by the tile scales and taken or added (R78, R79, R82). -/
def bankAfter (cls ovf tw ta : Nat) (first : Bool) (bank carry : List Nat) : Num (List Nat) := do
  if cls = 2 then
    if first then return carry
    (bank.zip carry).mapM (fun p => addInt32 ovf p.1 p.2)
  else
    let tc ← mul32 tw ta
    (carry.zipIdx).mapM (fun (c, i) => bankPass (bank.getD i 0) c tc first)

/-! Choosing and feeding. -/

/-- Is a queued job held for its set (R83, R460 to R462)? A job with accumulate = 0 waits for a set that is free or
draining, one with accumulate = 1 for its own accumulation in its set. -/
def Eng.setReady (k : Eng) (j : TileJob) : Bool :=
  let s := k.sets.getD j.f.setNo ⟨0, Accum.empty⟩
  let busy := k.jobs.any (fun i => (i.ph = 1 || i.ph = 2) && i.f.setNo = j.f.setNo && i.o.ctx ≠ j.o.ctx)
  let area := decide (k.saves.length < 8) && !busy
  if j.f.accumulate = 0 then s.st ≠ 1 || s.acc.ctx = j.o.ctx.val || area
  else
    match k.heldAcc j.o.ctx.val j.f.setNo with
    | none => true
    | some _ => s.st ≠ 1 || s.acc.ctx = j.o.ctx.val || area

/-- Each context's first tile job that has not been fed. -/
def Eng.heads (k : Eng) : List TileJob :=
  let q := k.jobs.filter (fun j => j.ph = 0)
  ((q.map (fun j => j.o.ctx.val)).dedup).filterMap (fun c => q.find? (fun j => j.o.ctx.val = c))

/-- The tile job that the array takes next (R458). -/
def Dev.nextJob (d : Dev) (e : Nat) : Option TileJob :=
  let k := d.eng e
  let hs := k.heads.filter k.setReady
  match d.choose e k.scA (hs.map (fun j => j.o.ctx.val)) with
  | none => none
  | some c => hs.find? (fun j => j.o.ctx.val = c)

/-- Is it the same job? -/
def TileJob.same (a b : TileJob) : Bool := a.o.ctx == b.o.ctx && a.o.stream == b.o.stream && a.o.seq == b.o.seq

/-- Change a job of an engine. -/
def Eng.updJob (k : Eng) (j : TileJob) (f : TileJob → TileJob) : Eng :=
  { k with jobs := k.jobs.map (fun i => if i.same j then f i else i) }

/-- Take a job off an engine. -/
def Eng.dropJob (k : Eng) (j : TileJob) : Eng := { k with jobs := k.jobs.filter (fun i => !(i.same j)) }

/-- A job of an engine fails: it leaves the queue and its command fails at completion (R398). -/
def Dev.failJob (d : Dev) (e : Nat) (j : TileJob) (f : Fail) : Dev :=
  (d.updEng e (fun k => { k.dropJob j with lastW := Tbl.del j.o.ctx.val k.lastW })).markFailed
    j.o.ctx.val j.o.stream.val j.o.seq f

/-- A job of an engine is done. -/
def Dev.jobDone (d : Dev) (e : Nat) (j : TileJob) : Dev :=
  (d.updEng e (fun k => k.dropJob j)).markDone j.o.ctx.val j.o.stream.val j.o.seq

/-- The accumulation that a fed or retired job belongs to: the one that opens behind a drain where an earlier job of the
context closes the set's present one (R90), otherwise the one held. -/
def Eng.accOf (k : Eng) (j : TileJob) : Option Accum :=
  let behind := (k.jobs.takeWhile (fun i => !(i.same j))).any (fun i =>
    i.o.ctx = j.o.ctx && i.f.setNo = j.f.setNo && i.f.drain ≠ 0 && i.ph ≠ 0)
  match k.opening.find? (fun p => p.1 = j.f.setNo && p.2.ctx = j.o.ctx.val) with
  | some (_, a) => if behind then some a else k.heldAcc j.o.ctx.val j.f.setNo
  | none => k.heldAcc j.o.ctx.val j.f.setNo

/-- Does a fed or retired job of a context close a set's accumulation, its drain or its free still to come (R87)? -/
def Eng.closing (k : Eng) (c set : Nat) : Bool :=
  k.jobs.any (fun i => i.o.ctx.val = c && i.f.setNo = set && i.f.drain ≠ 0 && (i.ph = 1 || i.ph = 2))

/-- The accumulation that a context's next pass into a set would join: the one that opens behind a drain; none behind a job
that closes the set; otherwise the one held (R83, R90). -/
def Eng.joinAcc (k : Eng) (c set : Nat) : Option Accum :=
  match k.opening.find? (fun p => p.1 = set && p.2.ctx = c) with
  | some (_, a) => some a
  | none => if k.closing c set then none else k.heldAcc c set

/-- The weights of a job, read through port 5. -/
def readWeights (e : Nat) (j : TileJob) : Act (List (List El)) :=
  readOpd (arrayUse j.o.ctx.val e 5) j.wd j.wh j.f.wKdim j.f.wNdim j.f.k0 j.f.kCount j.f.n0 j.f.nCount

/-- WEIGHT_LOAD_COMPLETE: the weight tile of the next job stands in the shadow registers (R61, R95). -/
def weightLoad (e : Nat) (s : State) : State :=
  if !(s.dev.engRuns e) then s else
  match s.dev.nextJob e with
  | none => s
  | some j =>
    if j.f.wKeep = 1 || j.loaded then s else
    let r := s.runAct (readWeights e j)
    match r.1 with
    | .error f => r.2.onDev (fun d => d.failJob e j f)
    | .ok els => r.2.onDev (fun d => d.updEng e (fun k =>
        let k := { k with
          shadow := some ⟨j.o.ctx.val, mtWkey j.f, els⟩,
          jobs := k.jobs.map (fun (i : TileJob) => ({ i with loaded := false } : TileJob)) }
        k.updJob j (fun i => { i with loaded := true })))

/-- WEIGHT_LOAD_COMPLETE (R61). -/
def execWeightLoadComplete (e : Fin 64) (s : State) : Host.Outcome State Fault Refusal := .next (weightLoad e.val s)

/-- Is a class or element format narrow (R64)? -/
def El.narrow (e : El) : Bool := e.blk || [0x3, 0x4, 0x5, 0x6, 0x8, 0x9].contains e.fmt

/-- Does a strip of an operand take part in the check: selected by the step stamp of the tile job (R50, R124, R126) and, of a
narrow operand, with a check copy, which stands in the slot that its own encoding gave it (R125; log entry 15)? Of a window
that crosses two strips the first decides (DESIGN CHOICE, log entry 241). -/
def stripChecked (u : Using) (pol : Policy) (d : Desc) (h : Option PrecH) (act : Bool) (layer step kd xd k0 x0 : Nat) :
    Act Bool := do
  let v ← Act.dev
  match h with
  | none =>
    let w := if act then 256 else 512
    return !(isNarrow d.fmt) && selected (v.seed u.ctx) (b2n act) layer step (x0 / w) (pol.rate / 2)
  | some h =>
    let t := h.tileOf d (opdCoord kd xd k0 x0)
    let raw ← vreadNat u.area (h.entryVa t) 16
    let tag := bits raw 127 96
    let strip := t / h.nK d
    if !(v.stripSel u.ctx pol h step strip) then return false
    return !(isNarrow d.fmt) || (h.copies && v.stripSel u.ctx pol h tag strip &&
      decide (v.stripSlot u.ctx pol h tag strip < h.copySlots))

/-- Is an accumulation sampled at its first pass (R126)? Answers the layer. -/
def sampleOf (e : Nat) (j : TileJob) : Act (Option Nat) := do
  let d ← Act.dev
  let c := j.o.ctx.val
  let pol := (d.ctx c).policy
  let layer := match j.wh, j.ah with
    | some w, some a => if w.layer = a.layer then some w.layer else none
    | some w, none => some w.layer
    | none, some a => some a.layer
    | none, none => none
  match layer with
  | none => return none
  | some l =>
    if !pol.check || j.cls ≠ 0 || j.f.heirloom = 1 || !(isNarrow j.wd.fmt || isNarrow j.ad.fmt) then return none
    let u := arrayUse c e 4
    let w ← stripChecked u pol j.wd j.wh false l j.o.stamp j.f.wKdim j.f.wNdim j.f.k0 j.f.n0
    let a ← stripChecked u pol j.ad j.ah true l j.o.stamp j.f.aKdim j.f.aMdim j.f.k0 j.f.m0
    return if w && a then some l else none

/-- The counts of a fed pass, the passes of a check's reference and repeat included (R66, R68, R102): one MAC per product of
the rows used, one promotion per column and run of interval n, the MACs of a narrow weight as gated, its elements outside
the tensor too. Rows beyond k_count count no MAC, yet their runs promote as the others do (DESIGN CHOICE, log entry 242). The
bank addition of each element is work of context `c` too (R570 term 4). -/
def Dev.feedCounts (d : Dev) (e c cls : Nat) (f : MtileF) (n : Nat) (wd : Desc) (w : List (List El)) : Dev :=
  let macs := f.mCount * f.kCount * f.nCount
  let gated := fun (x k : Nat) (v : El) => v.narrow ||
    (isNarrow wd.fmt && !(wd.inside (opdCoord f.wKdim f.wNdim (f.k0 + k) (f.n0 + x))))
  let narrow := ((w.zipIdx.map (fun c => (c.1.zipIdx.filter (fun v => gated c.2 v.2 v.1)).length)).sum) * f.mCount
  let d := ((d.addReg (0x3000 + e) (4 + cls) macs).addReg (0x3000 + e) 0x07 narrow).addAct (e / 8) c 4 (f.mCount * f.nCount)
  if f.heirloom = 1 then d else d.addReg (0x3000 + e) 0x0A (f.mCount * f.nCount * (128 / n))

/-- Does a pass carry runners (R183)? -/
def PassRec.carries (p : PassRec) : Bool := !p.wTiles.isEmpty || !p.aTiles.isEmpty

/-- The work of a job's feed: weights, activations, carries, runners, and the state of its set (R82 to R86, R183). -/
def feedJob (e : Nat) (j : TileJob) : Act Unit := do
  let c := j.o.ctx.val
  let f := j.f
  let d ← Act.dev
  let k := d.eng e
  let s := k.sets.getD f.setNo ⟨0, Accum.empty⟩
  let acc := k.joinAcc c f.setNo
  -- a pass behind one that has failed meets the checks of R93 again
  match acc with
  | none => if f.accumulate = 1 then Act.fail2 0x0302
  | some a =>
    if f.accumulate = 0 then Act.fail2 0x0315
    if a.cls ≠ j.cls || a.m0 ≠ f.m0 || a.mCount ≠ f.mCount || a.n0 ≠ f.n0 || a.nCount ≠ f.nCount then Act.fail2 0x0303
    if f.k0 < a.nextK then Act.fail2 0x0304
  let ua := arrayUse c e 4
  Act.unstage e
  let (wTiles, wRungs) ← opdRecord (arrayUse c e 1) j.wd j.wh f.wKdim f.wNdim f.k0 f.kCount f.n0 f.nCount
  let (aTiles, aRungs) ← opdRecord (arrayUse c e 1) j.ad j.ah f.aKdim f.aMdim f.k0 f.kCount f.m0 f.mCount
  let rec_ : PassRec := { f := f, wd := j.wd, ad := j.ad, wh := j.wh, ah := j.ah, wTiles := wTiles, aTiles := aTiles,
                          wRungs := wRungs, aRungs := aRungs }
  -- the passes recorded so far: those that have joined, and those fed that will join the same accumulation
  let fed := (k.jobs.filter (fun i => i.ph = 1 && i.o.ctx = j.o.ctx && i.f.setNo = f.setNo)).foldl
    (fun l i => if i.f.drain ≠ 0 then [] else l ++ i.pass.toList) []
  let before := (acc.map (·.passes)).getD [] ++ (if f.accumulate = 0 then [] else fed)
  if rec_.carries && 512 ≤ (before.filter PassRec.carries).length then Act.fail2 0x0307
  let keepHere := match k.active with
    | some w => w.ctx = c && w.key = mtWkey f
    | none => false
  let w ← match k.shadow, k.active with
    | some t, act =>
      if f.wKeep = 0 then pure t.els
      else match act with
        | some a => if keepHere then pure a.els else readWeights e j
        | none => readWeights e j
    | none, some a => if keepHere then pure a.els else readWeights e j
    | none, none => readWeights e j
  if f.wKeep = 1 && !keepHere then Act.upd (fun d => d.incReg (0x3000 + e) 0x29)
  let a ← readOpd ua j.ad j.ah f.aKdim f.aMdim f.k0 f.kCount f.m0 f.mCount
  let carry ← Act.num (some e) (passCarry j.cls f (mtN f) w a)
  let smp ← if f.accumulate = 0 && f.drain ≠ 2 then sampleOf e j else pure none
  Act.upd (fun d =>
    let d := d.feedCounts e c j.cls f (mtN f) j.wd w
    let d := if f.heirloom = 1 then d.incReg 0x5000 0x2B else d
    d.updEng e (fun k =>
      let k := k.updJob j (fun i => { i with ph := 1, carry := carry, pass := some rec_ })
      let k := { k with active := some ⟨c, mtWkey f, w⟩, shadow := if f.wKeep = 0 then none else k.shadow,
                        lastW := Tbl.put c (mtWkey f) k.lastW, gated := false }
      if f.accumulate = 0 then
        let acc : Accum := { ctx := c, cls := j.cls, m0 := f.m0, mCount := f.mCount, n0 := f.n0, nCount := f.nCount,
                             nextK := f.k0 + f.kCount, bank := [], passes := [], sampled := smp.isSome,
                             layer := smp.getD 0 }
        -- behind a drain, begun or to come, the set opens when it is FREE (R90); the pass carries its accumulation until then
        if s.st = 0 then { k with sets := setAt k.sets f.setNo ⟨1, acc⟩ } else
          { k with opening := k.opening ++ [(f.setNo, acc)] }
      else k))

/-- Is the array held for a sampled accumulation whose check has not run (R127)? -/
def Eng.checkHold (k : Eng) : Bool :=
  k.jobs.any (fun j => (j.ph = 1 || j.ph = 2) && j.f.drain = 1 && !j.checked &&
    match k.accOf j with
    | some a => a.sampled
    | none => false)

/-- May the chosen job's feed start: its weights loaded, its set free, its own, or behind a drain begun or to come (R83, R90,
R98)? Behind such a drain one accumulation may wait to open. A set that its own context has OPEN without a job that closes it
is met by R93's check in the feed. -/
def Eng.mayFeed (k : Eng) (j : TileJob) : Bool :=
  let s := k.sets.getD j.f.setNo ⟨0, Accum.empty⟩
  let waits := k.opening.any (fun p => p.1 = j.f.setNo)
  (j.f.wKeep = 1 || j.loaded) && !k.checkHold &&
  (if j.f.accumulate = 0 then s.st = 0 || ((s.st = 2 || (s.st = 1 && s.acc.ctx = j.o.ctx.val)) && !waits)
   else (s.st = 1 && s.acc.ctx = j.o.ctx.val) || k.opening.any (fun p => p.1 = j.f.setNo && p.2.ctx = j.o.ctx.val) ||
     (k.heldAcc j.o.ctx.val j.f.setNo).isNone)

/-- TILE_FEED_START (R98): the chosen job's feed starts and computes its pass. A job that its feed refuses changes no counter of
the engine (R192). -/
def feedStart (e waited stalled : Nat) (s : State) : State :=
  if !(s.dev.engRuns e) then s else
  match s.dev.nextJob e with
  | none => s
  | some j =>
    if !((s.dev.eng e).mayFeed j) then s else
    let r := s.runAct (Act.work j.o.ctx.val e (feedJob e j))
    match r.1 with
    | .error f => r.2.onDev (fun d => d.failJob e j f)
    | .ok _ => r.2.onDev (fun d =>
        let (sc, d) := d.grantUnit e j.o.ctx.val (d.eng e).scA
        (((d.updEng e (fun k => { k with scA := sc })).addReg (0x3000 + e) 0x08 waited).addReg (0x3000 + e) 0x09 stalled).portStalls e 0)

/-- TILE_FEED_START (R98). -/
def execTileFeedStart (e : Fin 64) (waited stalled : Nat) (s : State) : Host.Outcome State Fault Refusal :=
  .next (feedStart e.val waited stalled s)

/-! Retirement, merge, drain. -/

/-- A set becomes FREE; a job fed behind its drain opens it (R87, R90). -/
def Eng.freeSet (k : Eng) (set : Nat) : Eng :=
  match k.opening.find? (fun p => p.1 = set) with
  | some (_, a) => { k with sets := setAt k.sets set ⟨1, a⟩, opening := k.opening.filter (fun p => p.1 ≠ set) }
  | none => { k with sets := setAt k.sets set ⟨0, Accum.empty⟩ }

/-- A pass joins its accumulation (R82, R84, R126). -/
def joinPass (e : Nat) (j : TileJob) (a : Accum) : Act Accum := do
  let bank ← Act.num (some e) (bankAfter j.cls j.f.intOverflow j.wd.tile j.ad.tile (j.f.accumulate = 0) a.bank j.carry)
  let layers := (j.wh.map (·.layer)).toList ++ (j.ah.map (·.layer)).toList
  let cancel := a.sampled && layers.any (· ≠ a.layer)
  if cancel then Act.upd (fun d => d.incReg 0x5000 0x29)
  return { a with bank := bank, passes := a.passes ++ j.pass.toList, nextK := j.f.k0 + j.f.kCount,
                  sampled := a.sampled && !cancel }

/-- TILE_JOB_RETIRE (R84): the oldest fed job makes its last bank write and is counted (R102); `ns` is the time it used the
array. -/
def jobRetire (e ns : Nat) (s : State) : State :=
  let k := s.dev.eng e
  match k.jobs.find? (fun j => j.ph = 1) with
  | none => s
  | some j =>
    let st := k.sets.getD j.f.setNo ⟨0, Accum.empty⟩
    -- a pass fed behind a drain waits until its own accumulation stands in the set (R90)
    let behind := k.jobs.any (fun i => i.ph = 2 && i.f.setNo = j.f.setNo)
    if st.st ≠ 1 || st.acc.ctx ≠ j.o.ctx.val || behind then s else
    let r := s.runAct (joinPass e j st.acc)
    match r.1 with
    | .error f => r.2.onDev (fun d => d.failJob e j f)
    | .ok a => r.2.onDev (fun d =>
        let d := d.chargeUnit e j.o.ctx.val ns
        let d := d.updEng e (fun k => { k with scA := { k.scA with ran := k.scA.ran + ns } })
        let d := d.incReg (0x3000 + e) 0x03
        if j.f.drain = 0 then (d.updEng e (fun k => { k with sets := setAt k.sets j.f.setNo ⟨1, a⟩ })).jobDone e j
        else if j.f.drain = 2 then
          (d.updEng e (fun k => k.freeSet j.f.setNo)).jobDone e j
        else
          let run := a.passes.any PassRec.carries
          let smp := a.sampled && a.passes.length ≤ 512
          d.updEng e (fun k => { k with sets := setAt k.sets j.f.setNo ⟨1, { a with sampled := smp }⟩ }.updJob j
            (fun i => { i with ph := 2, carry := [], merged := !run, checked := !smp })))

/-- TILE_JOB_RETIRE (R84). -/
def execTileJobRetire (e : Fin 64) (ns : Nat) (s : State) : Host.Outcome State Fault Refusal := .next (jobRetire e.val ns s)

/-- FP32 values of an operand for the merge (R185, R35). -/
def opdValues (e : Nat) (d : Desc) (els : List (List El)) : Act (List (List Nat)) :=
  Act.num (some e) (els.mapM (fun r => r.mapM (fun x => x.value d.tile)))

/-- Merge the runners of one pass into a bank (R186), given the dense operand values. -/
def mergeOne (e : Nat) (f : MtileF) (wRun aRun : List (Nat × Nat × Nat)) (wv av : List (List Nat)) (bank : List Nat) :
    Act (List Nat) := do
  let tb : Tbl Nat := bank.zipIdx.map (fun p => ((p.2 / f.nCount) * 512 + p.2 % f.nCount, p.1))
  let rs := fun (l : List (Nat × Nat × Nat)) => l.map (fun p => (⟨p.1, p.2.1, p.2.2⟩ : Runner))
  let out ← Act.num (some e) (mergePass tb f.mCount f.nCount f.kCount (rs wRun) (rs aRun)
    (fun m k => (av.getD m []).getD k 0) (fun k n => (wv.getD n []).getD k 0))
  -- a merge in progress is vector busy time too (R191)
  let n := mergeCycles f.mCount f.nCount f.kCount wRun.length aRun.length
  Act.upd (fun d => ((d.incReg (0x3000 + e) 0x14).addReg (0x3000 + e) 0x15 n).addReg (0x3000 + e) 0x17 n)
  return out.map (·.2)

/-- Merge every recorded pass of an accumulation (R184 to R187): its runner slots are fetched through port 1 into the staging
bank, the dense operand values through port 2. -/
def mergeAll (e c : Nat) (a : Accum) : Act (List Nat) := do
  Act.unstage e
  (a.passes.filter PassRec.carries).foldlM (fun bank p => do
    let f := p.f
    let u := arrayUse c e 2
    let wRun ← opdRunners u p.wd p.wh p.wTiles f.k0 f.kCount f.n0 f.nCount
    let aRun ← opdRunners u p.ad p.ah p.aTiles f.k0 f.kCount f.m0 f.mCount
    let w ← readOpd u p.wd p.wh f.wKdim f.wNdim f.k0 f.kCount f.n0 f.nCount
    let x ← readOpd u p.ad p.ah f.aKdim f.aMdim f.k0 f.kCount f.m0 f.mCount
    let wv ← opdValues e p.wd w
    let av ← opdValues e p.ad x
    mergeOne e f wRun aRun wv av bank) a.bank

/-- RUNNER_MERGE (R184): the oldest retired accumulation with runners is merged; its time is charged to the context that
owns the accumulation (R189). -/
def runnerMerge (e ns : Nat) (s : State) : State :=
  let k := s.dev.eng e
  if !(s.dev.engRuns e) then s else
  match k.jobs.find? (fun j => j.ph = 2 && !j.merged) with
  | none => s
  | some j =>
    let st := k.sets.getD j.f.setNo ⟨0, Accum.empty⟩
    let r := s.runAct (Act.work j.o.ctx.val e (mergeAll e j.o.ctx.val st.acc))
    let r := (r.1, r.2.onDev (fun d => d.chargeUnit e j.o.ctx.val ns))
    match r.1 with
    | .error f => r.2.onDev (fun d =>
        (d.updEng e (fun k => k.freeSet j.f.setNo)).failJob e j f)
    | .ok bank => r.2.onDev (fun d => d.updEng e (fun k =>
        { k with sets := setAt k.sets j.f.setNo ⟨1, { st.acc with bank := bank }⟩ }.updJob j
          (fun i => { i with merged := true })))

/-- RUNNER_MERGE (R184). -/
def execRunnerMerge (e : Fin 64) (ns : Nat) (s : State) : Host.Outcome State Fault Refusal :=
  .next (runnerMerge e.val ns s)

/-- The values that a drain writes, row by row (R87, R88, R149). -/
def drainVals (e : Nat) (j : TileJob) (d : Desc) (a : Accum) : Act (Nat × List (List Val)) := do
  let f := j.f
  let heir := f.heirloom = 1 && j.cls = 2
  let sw ← if heir then (List.range f.nCount).mapM (fun n =>
      vreadNat (arrayUse j.o.ctx.val e 5) (j.wd.scalePtr + 4 * (f.n0 + n)) 4) else pure []
  let rows ← (List.range f.mCount).mapM (fun m => (List.range f.nCount).mapM (fun n => do
    let v := a.bank.getD (m * f.nCount + n) 0
    let v ← if heir then Act.num (some e) (do
        mul32 (← mul32 (← convertFloat (unpackInt (toSigned 32 v)) fp32 0 false 0) (sw.getD n 0)) j.ad.tile) else pure v
    let c := opdCoord f.dMdim f.dNdim (f.m0 + m) (f.n0 + n)
    return (⟨c, v, d.linear c⟩ : Val)))
  -- elements outside the destination's sizes are not written (R96)
  return (if j.cls = 2 && !heir then 0xA else 0, rows.map (fun r => r.filter (fun v => d.inside v.c)))

/-- Convert and write the rows of a set (R87 to R89). -/
def drainRows (e : Nat) (j : TileJob) (d : Desc) (a : Accum) : Act Unit := do
  let (src, rows) ← drainVals e j d a
  let v ← Act.dev
  let c := j.o.ctx.val
  Act.upd (fun d => d.addAct (e / 8) c 4 rows.flatten.length)
  let p : Prod := { u := arrayUse c e 3, eng := some e, d := d, h := j.dh,
                    rnd := { mode := j.f.rounding, sat := j.f.sat = 1, seed := v.seed c, tensor := j.f.tensor,
                             step := j.o.stamp },
                    ovf := j.f.intOverflow, src := src, pol := (v.ctx c).policy, runners := true, pieces := false }
  match j.dh with
  | none => do
    let _ ← rows.mapM (fun r => produceFlat p r)
    return ()
  | some _ => produce p (rows.flatten)

/-- DRAIN_START (R87): the set moves to DRAINING and its rows are written; a drain that fails frees the set and fails the
job. -/
def drainStart (e set : Nat) (s : State) : State :=
  let k := s.dev.eng e
  match k.jobs.find? (fun j => j.ph = 2 && j.f.setNo = set && j.merged && j.checked) with
  | none => s
  | some j =>
    let st := k.sets.getD set ⟨0, Accum.empty⟩
    match j.dd with
    | none => s
    | some dd =>
      let r := s.runAct (Act.work j.o.ctx.val e (drainRows e j dd st.acc))
      match r.1 with
      | .error f => r.2.onDev (fun d => (d.updEng e (fun k => k.freeSet set)).failJob e j f)
      | .ok _ => r.2.onDev (fun d => (d.updEng e (fun k =>
          { k with sets := setAt k.sets set ⟨2, st.acc⟩ }.updJob j (fun i => { i with ph := 3 }))).portStalls e 0)

/-- DRAIN_START (R87). -/
def execDrainStart (e : Fin 64) (set : Fin 2) (s : State) : Host.Outcome State Fault Refusal :=
  .next (drainStart e.val set.val s)

/-- DRAIN_COMPLETE (R87): the set becomes FREE and the job is done; the cycles that the drain lost on its port are a free value
(R100, R102; log entry 245). -/
def drainComplete (e set : Nat) (d : Dev) : Dev :=
  match (d.eng e).jobs.find? (fun j => j.ph = 3 && j.f.setNo = set) with
  | none => d
  | some j =>
    let (f, d) := d.draw
    ((d.updEng e (fun k => k.freeSet set)).jobDone e j).addReg (0x3000 + e) 0x09 (Config.drainStall f)

/-- DRAIN_COMPLETE (R87). -/
def execDrainComplete (e : Fin 64) (set : Fin 2) (s : State) : Host.Outcome State Fault Refusal :=
  .next (s.onDev (drainComplete e.val set.val))

/-- ARRAY_CLOCK_GATE (R99): with no tile job on the array, its clock is gated. A job that is only queued, held, waiting for its
merge or draining counts as one too: the rule does not say (DESIGN CHOICE, log entry 243). -/
def execArrayClockGate (e : Fin 64) (s : State) : Host.Outcome State Fault Refusal :=
  .next (s.onDev (fun d => if (d.eng e.val).jobs.isEmpty then d.updEng e.val (fun k => { k with gated := true }) else d))

/-! Save areas (R460 to R463). -/

/-- Save an OPEN set into a free area. -/
def Dev.saveSet (d : Dev) (e set : Nat) : Dev :=
  let k := d.eng e
  let st := k.sets.getD set ⟨0, Accum.empty⟩
  if st.st ≠ 1 || 8 ≤ k.saves.length then d
  else (d.updEng e (fun k => { k with saves := k.saves ++ [(set, st.acc)],
                                      sets := setAt k.sets set ⟨0, Accum.empty⟩ })).incReg (0x3000 + e) 0x27

/-- Does a job need a set that another context occupies: with accumulate 0, or with its own set saved (R460)? -/
def Eng.needsSet (k : Eng) (j : TileJob) (set : Nat) : Bool :=
  decide (j.f.setNo = set) && (decide (j.f.accumulate = 0) || k.saves.any (fun p => p.1 = set && p.2.ctx = j.o.ctx.val))

/-- SET_SAVE (R460, R384): an OPEN set that another context's next job needs, or whose context is stopping, is saved. -/
def setSave (e set : Nat) (d : Dev) : Dev :=
  let k := d.eng e
  let st := k.sets.getD set ⟨0, Accum.empty⟩
  let inUse := k.jobs.any (fun j => (j.ph = 1 || j.ph = 2) && j.f.setNo = set)
  let wanted := match d.nextJob e with
    | some j => k.needsSet j set && j.o.ctx.val ≠ st.acc.ctx
    | none => false
  if st.st = 1 && !inUse && (wanted || d.ctxState st.acc.ctx = 3) then d.saveSet e set else d

/-- SET_SAVE (R460). -/
def execSetSave (e : Fin 64) (set : Fin 2) (s : State) : Host.Outcome State Fault Refusal :=
  .next (s.onDev (setSave e.val set.val))

/-- SET_RESTORE (R461): the saved accumulation of the next job's context returns to its set. -/
def setRestore (e set : Nat) (d : Dev) : Dev :=
  let k := d.eng e
  let st := k.sets.getD set ⟨0, Accum.empty⟩
  match d.nextJob e with
  | none => d
  | some j =>
    if st.st ≠ 0 || j.f.accumulate = 0 || j.f.setNo ≠ set then d else
    match k.saves.find? (fun p => p.1 = set && p.2.ctx = j.o.ctx.val) with
    | none => d
    | some (_, a) =>
      (d.updEng e (fun k => { k with
        saves := k.saves.filter (fun p => !(p.1 = set && p.2.ctx = j.o.ctx.val)),
        sets := setAt k.sets set ⟨1, a⟩ })).incReg (0x3000 + e) 0x28

/-- SET_RESTORE (R461). -/
def execSetRestore (e : Fin 64) (set : Fin 2) (s : State) : Host.Outcome State Fault Refusal :=
  .next (s.onDev (setRestore e.val set.val))

/-- Free the save areas of a context: at reclamation, a write of its table root or bed, or a reset (R463). -/
def Dev.dropSaves (d : Dev) (c : Nat) : Dev :=
  { d with engs := d.engs.map (fun p => (p.1, { p.2 with saves := p.2.saves.filter (fun q => q.2.ctx ≠ c) })) }

/-! The sampled tile check (R127 to R131). -/

/-- The check copies of an operand over a window, as BF16 elements (R125, R127). -/
def readCopies (u : Using) (pol : Policy) (d : Desc) (h : PrecH) (kd xd k0 kc x0 xc : Nat) : Act (List (List El)) := do
  let v ← Act.dev
  let rows := (List.range xc).map (fun x => (List.range kc).map (fun k => opdCoord kd xd (k0 + k) (x0 + x)))
  rows.mapM (fun r => r.mapM (fun c => do
    if !(d.inside c) then return El.zero
    let t := h.tileOf d c
    let tag := bits (← vreadNat u.area (h.entryVa t) 16) 127 96
    let q := v.stripSlot u.ctx pol h tag (t / h.nK d)
    return ⟨0x1, false, ← vreadNat u.fetch (h.copyVa d q c) 2, 0⟩))

/-- The reference of one operand: its check copy at tile scale 1.0 where it is narrow, otherwise itself (R127). -/
def refOpd (u : Using) (pol : Policy) (d : Desc) (h : Option PrecH) (kd xd k0 kc x0 xc : Nat) :
    Act (List (List El) × Nat) := do
  let (els, tile) ← match h, isNarrow d.fmt with
    | some h, true => (fun l => (l, one32)) <$> readCopies u pol d h kd xd k0 kc x0 xc
    | h, _ => (fun l => (l, d.tile)) <$> readOpd u d h kd xd k0 kc x0 xc
  Act.stage u ⟨2, els.flatten, []⟩
  return (els, tile)

/-- Rerun passes into a bank, each with the operands that `opds` gives (elements and tile scale of weight and
activation), then the merge of the runners it gives. -/
def rerun (e c : Nat) (passes : List PassRec) (interval : PassRec → Nat)
    (opds : PassRec → Act ((List (List El) × Nat) × (List (List El) × Nat))) : Act (List Nat) := do
  let (bank, _) ← passes.foldlM (fun ((bank, first) : List Nat × Bool) p => do
    let ((w, tw), (a, ta)) ← opds p
    Act.upd (fun d => d.feedCounts e c 0 p.f (interval p) p.wd w)
    let carry ← Act.num (some e) (passCarry 0 p.f (interval p) w a)
    let b ← Act.num (some e) (bankAfter 0 0 tw ta first bank carry)
    return (b, false)) ([], true)
  return bank

/-- The threshold of the narrowest operand (R128). -/
def thrOf (pol : Policy) (fmt : Nat) : Option Nat :=
  match fmt with
  | 0xC | 0x6 => some pol.thr4
  | 0x5 => some pol.thr6
  | 0x3 | 0xD => some pol.thr8
  | 0x4 => some pol.thr52
  | _ => none

/-- The threshold of an accumulation (R128): the lowest of its narrow operands' formats, over all its passes (R85). The rule's
sentence says the lower one; its example takes VB4's threshold beside FP8 E4M3, the higher one: the model follows the
sentence (DESIGN CHOICE, log entry 244). -/
def thrMin (pol : Policy) (fmts : List Nat) : Nat :=
  match fmts.filterMap (thrOf pol) with
  | [] => 0
  | x :: l => l.foldl (fun m y => if lt32 y m then y else m) x

/-- One precision tile encoded again from its check copy at a rung, with RNE, into the precision staging bank (R129): elements
by linear index, and runners as absolute (K, X) positions with values. -/
def reencode (e : Nat) (u : Using) (pol : Policy) (d : Desc) (h : PrecH) (t rung : Nat) :
    Act (Tbl El × List (Nat × Nat × Nat)) := do
  let cs := h.coords d t
  let v ← Act.dev
  let tag := bits (← vreadNat u.area (h.entryVa t) 16) 127 96
  let q := v.stripSlot u.ctx pol h tag (t / h.nK d)
  let codes ← cs.mapM (fun c => vreadNat u.fetch (h.copyVa d q c) 2)
  let vals ← Act.num (some e) (codes.mapM (toFp32 0x1))
  let vs := (cs.zip vals).map (fun p => (⟨p.1, p.2, 0⟩ : Val))
  let bl := blocksOf d vs
  let (f, blk) := (rungFmt d.fmt rung).getD (d.fmt, false)
  let enc ← Act.num (some e) (encodeTile 0 f blk d.tile (srcEls h.runnerPos bl) h.cap pol.fexp pol.cand true 0 Rnd.rne)
  let els := (bl.zip enc.blocks).flatMap (fun (b, k) => (b.zip k.codes).map (fun (v, c) =>
    (d.linear v.c, (⟨f, blk, c, k.scale⟩ : El))))
  let kb := t % h.nK d * 128
  let xb := t / h.nK d % h.nX d * h.width
  let runs := enc.runners.map (fun (p, v) =>
    let (k, x) := h.runnerKX p
    (kb + k, xb + x, if isNanF bf16 v then nan32 else v <<< 16))
  Act.stage u ⟨3, els.map (·.2), runs⟩
  return (els, runs)

/-- The rung of a repeat: one above the rung read, within the layer's maximum and the ladder (R129). -/
def nextRung (maxLift fmt r : Nat) : Nat := if r < min maxLift (topRung fmt) then r + 1 else r

/-- An operand of a repeat: encoded one rung wider where it is narrow; with its runners inside the window. -/
def repeatOpd (e : Nat) (u : Using) (pol : Policy) (maxLift : Nat) (d : Desc) (h : Option PrecH)
    (rungs : List (Nat × Nat)) (kd xd k0 kc x0 xc : Nat) : Act (List (List El) × List (Nat × Nat × Nat)) := do
  match h, isNarrow d.fmt with
  | some h, true =>
    let tiles ← rungs.mapM (fun (t, r) => reencode e u pol d h t (nextRung maxLift d.fmt r))
    let tb := tiles.flatMap (·.1)
    let rows := (List.range xc).map (fun x => (List.range kc).map (fun k => opdCoord kd xd (k0 + k) (x0 + x)))
    let els := rows.map (fun r => r.map (fun c => if d.inside c then Tbl.look El.zero (d.linear c) tb else El.zero))
    let runs := (tiles.flatMap (·.2)).filter (fun (k, x, _) => k0 ≤ k && k < k0 + kc && x0 ≤ x && x < x0 + xc)
    return (els, runs.map (fun (k, x, v) => (k - k0, x - x0, v)))
  | h, _ => return (← readOpd u d h kd xd k0 kc x0 xc, [])

/-- Run the repeat of an accumulation (R129, R188): the new bank. -/
def repeatAcc (e c : Nat) (pol : Policy) (maxLift : Nat) (a : Accum) : Act (List Nat) := do
  let u := arrayUse c e 4
  let ops ← a.passes.mapM (fun p => do
    let f := p.f
    let w ← repeatOpd e u pol maxLift p.wd p.wh p.wRungs f.wKdim f.wNdim f.k0 f.kCount f.n0 f.nCount
    let x ← repeatOpd e u pol maxLift p.ad p.ah p.aRungs f.aKdim f.aMdim f.k0 f.kCount f.m0 f.mCount
    return (p, w, x))
  let (bank, _) ← ops.foldlM (fun ((bank, first) : List Nat × Bool) (p, w, x) => do
    Act.upd (fun d => d.feedCounts e c 0 p.f (mtN p.f) p.wd w.1)
    let carry ← Act.num (some e) (passCarry 0 p.f (mtN p.f) w.1 x.1)
    let b ← Act.num (some e) (bankAfter 0 0 p.wd.tile p.ad.tile first bank carry)
    return (b, false)) ([], true)
  ops.foldlM (fun bank (p, w, x) => do
    if w.2.isEmpty && x.2.isEmpty then return bank
    let wv ← opdValues e p.wd w.1
    let av ← opdValues e p.ad x.1
    mergeOne e p.f w.2 x.2 wv av bank) bank

/-- The check of a sampled accumulation (R127 to R130): its bank to drain. -/
def checkAcc (e : Nat) (j : TileJob) (a : Accum) : Act (List Nat) := do
  let d ← Act.dev
  let c := j.o.ctx.val
  let pol := (d.ctx c).policy
  let u := arrayUse c e 4
  Act.unstage e
  let ref ← rerun e c a.passes (fun _ => 16) (fun p => do
    let f := p.f
    let w ← refOpd u pol p.wd p.wh f.wKdim f.wNdim f.k0 f.kCount f.n0 f.nCount
    let x ← refOpd u pol p.ad p.ah f.aKdim f.aMdim f.k0 f.kCount f.m0 f.mCount
    return (w, x))
  let verdict ← Act.num (some e) (checkFails a.bank ref
    (thrMin pol (a.passes.flatMap (fun p => [p.wd.fmt, p.ad.fmt]))))
  match verdict with
  | none =>
    Act.upd (fun d => d.incReg 0x5000 0x29)
    return a.bank
  | some failed =>
    Act.upd (fun d => (d.incReg 0x5000 0x27).addReg 0x5000 0x28 (b2n failed))
    charge u a.layer j.o.stamp 0 0 1 (b2n failed)
    if !failed then return a.bank
    let (_, maxLift) ← liftOf u a.layer
    let rises := a.passes.any (fun p =>
      (isNarrow p.wd.fmt && p.wRungs.any (fun (_, r) => nextRung maxLift p.wd.fmt r ≠ r)) ||
      (isNarrow p.ad.fmt && p.aRungs.any (fun (_, r) => nextRung maxLift p.ad.fmt r ≠ r)))
    if !rises then
      Act.upd (fun d => d.raiseCtx 0x8404 c [c, a.layer, j.o.stamp])
      return a.bank
    repeatAcc e c pol maxLift a

/-- TILE_CHECK (R127): waits for the other set, which it saves when it is OPEN, runs the check and any repeat, frees the
reference set and restores what it saved. -/
def tileCheck (e : Nat) (s : State) : State :=
  let k := s.dev.eng e
  if !(s.dev.engRuns e) then s else
  match k.jobs.find? (fun j => j.ph = 2 && j.merged && !j.checked) with
  | none => s
  | some j =>
    let other := 1 - j.f.setNo
    let ost := k.sets.getD other ⟨0, Accum.empty⟩
    if ost.st = 2 || (ost.st = 1 && 8 ≤ k.saves.length) then s else
    let st := k.sets.getD j.f.setNo ⟨0, Accum.empty⟩
    let r := s.runAct (Act.work j.o.ctx.val e (checkAcc e j st.acc))
    -- the save and the restore around the check leave the other set as it was
    let r2 := r.2.onDev (fun d =>
      if ost.st = 1 then (d.incReg (0x3000 + e) 0x27).incReg (0x3000 + e) 0x28 else d)
    match r.1 with
    | .error f => r2.onDev (fun d => (d.updEng e (fun k => k.freeSet j.f.setNo)).failJob e j f)
    | .ok bank => r2.onDev (fun d => d.updEng e (fun k =>
        { k with sets := setAt k.sets j.f.setNo ⟨1, { st.acc with bank := bank }⟩ }.updJob j
          (fun i => { i with checked := true })))

/-- TILE_CHECK (R127). -/
def execTileCheck (e : Fin 64) (s : State) : Host.Outcome State Fault Refusal := .next (tileCheck e.val s)

end Sys2Proof.Machine
end

