-- ==== Sys2Proof/Machine/Crypto.lean ====
section
/-! DEFINITION. The cryptographic functions that the spec names (R692 to R709): SHA-384, HMAC-SHA-384, and ECDSA over
brainpoolP384r1 with the deterministic nonces of RFC 6979. The spec cites them; their definitions and constants are those
of FIPS 180-4, RFC 2104, RFC 5639 and RFC 6979 (PRESUMED, log entry 43). -/
namespace Sys2Proof.Crypto
open Sys2Proof

/-- The number that bytes spell, the first byte highest. -/
def beNat (bs : List Nat) : Nat := bs.foldl (fun v b => v * 256 + b % 256) 0

/-- The lowest n bytes of a number, the highest first. -/
def beBytes (n v : Nat) : List Nat := (leBytes n v).reverse

/-! SHA-384. -/

/-- The first 80 primes. -/
def primes : List Nat :=
  (List.range 410).filter (fun n => decide (1 < n) && [2, 3, 5, 7, 11, 13, 17, 19].all (fun q => n == q || n % q != 0))

/-- The first 64 bits of the fraction of the k-th root of p: the largest r with r ^ k at most p · 2 ^ (64 k), bit by bit. -/
def rootFraction (k p : Nat) : Nat :=
  (List.range 67).foldr (fun i r => if (r + 2 ^ i) ^ k ≤ p <<< (64 * k) then r + 2 ^ i else r) 0 % 2 ^ 64

/-- The round constants: of the cube roots of the primes. -/
def roundConstants : List Nat := primes.map (rootFraction 3)

/-- The initial hash value of SHA-384: of the square roots of the ninth to the sixteenth prime. -/
def initial : List Nat := ((primes.drop 8).take 8).map (rootFraction 2)

/-- A 64-bit word rotated right. -/
def rotr (x n : Nat) : Nat := (x >>> n ||| x <<< (64 - n)) % 2 ^ 64

/-- The exclusive or of several rotations of a word. -/
def mix (x : Nat) (by_ : List Nat) : Nat := by_.foldl (fun v n => v ^^^ rotr x n) 0

/-- The next word of a message schedule, from the words before it, newest first. -/
def nextWord (w : List Nat) : Nat :=
  let late := w.getD 1 0
  let early := w.getD 14 0
  ((mix late [19, 61] ^^^ late >>> 6) + (mix early [1, 8] ^^^ early >>> 7) + w.getD 6 0 + w.getD 15 0) % 2 ^ 64

/-- The message schedule of a block of 128 bytes, oldest word first. -/
def schedule (block : List Nat) : List Nat :=
  ((List.range 64).foldl (fun w _ => nextWord w :: w) ((chunksOf 8 block).map beNat).reverse).reverse

/-- One round on the last four values of the two sequences that the working variables are (a to d, and e to h), newest first;
`kw` is the sum of the round's constant and schedule word. -/
def round (v : List Nat × List Nat) (kw : Nat) : List Nat × List Nat :=
  match v with
  | (a :: b :: c :: d :: _, e :: f :: g :: h :: _) =>
    let chosen := g ^^^ (e &&& (f ^^^ g))
    let most := (a &&& b) ||| (c &&& (a ||| b))
    let sum := kw + h + mix e [14, 18, 41] + chosen
    ([(sum + mix a [28, 34, 39] + most) % 2 ^ 64, a, b, c], [(d + sum) % 2 ^ 64, e, f, g])
  | _ => v

/-- The compression of one block. -/
def compress (h block : List Nat) : List Nat :=
  let v := (List.zipWith (· + ·) roundConstants (schedule block)).foldl round (h.take 4, h.drop 4)
  List.zipWith (fun x y => (x + y) % 2 ^ 64) h (v.1 ++ v.2)

/-- SHA-384 of bytes: 48 bytes. -/
def sha384 (bs : List Nat) : List Nat :=
  let zeros := (239 - bs.length % 128) % 128
  let blocks := chunksOf 128 (bs ++ 0x80 :: List.replicate zeros 0 ++ beBytes 16 (8 * bs.length))
  ((blocks.foldl compress initial).take 6).flatMap (beBytes 8)

/-- HMAC-SHA-384. -/
def hmac (key msg : List Nat) : List Nat :=
  let key := if 128 < key.length then sha384 key else key
  let key := key ++ List.replicate (128 - key.length) 0
  sha384 (key.map (· ^^^ 0x5C) ++ sha384 (key.map (· ^^^ 0x36) ++ msg))

/-! The curve brainpoolP384r1. -/

/-- The field's prime. -/
def prime : Nat :=
  0x8CB91E82A3386D280F5D6F7E50E641DF152F7109ED5456B412B1DA197FB71123ACD3A729901D1A71874700133107EC53
/-- The coefficient A. -/
def coeffA : Nat :=
  0x7BC382C63D8C150C3C72080ACE05AFA0C2BEA28E4FB22787139165EFBA91F90F8AA5814A503AD4EB04A8C7DD22CE2826
/-- The coefficient B. -/
def coeffB : Nat :=
  0x04A8C7DD22CE28268B39B55416F0447C2FB77DE107DCD2A62E880EA53EEB62D57CB4390295DBC9943AB78696FA504C11
/-- The base point. -/
def base : Nat × Nat :=
  (0x1D1C64F068CF45FFA2A63A81B7C13F6B8847A3E77EF14FE3DB7FCAFE0CBD10E8E826E03436D646AAEF87B2E247D4AF1E,
   0x8ABE1D7520F9C2A45CB1EB8E95CFD55262B70B29FEEC5864E19C054FF99129280E4646217791811142820341263C5315)
/-- The order of the base point. -/
def order : Nat :=
  0x8CB91E82A3386D280F5D6F7E50E641DF152F7109ED5456B31F166E6CAC0425A7CF3AB6AF6B7FC3103B883202E9046565

/-- The power of a number modulo m, over the lowest 384 bits of the exponent. -/
def powMod (a e m : Nat) : Nat :=
  (List.range 384).foldr (fun i r => let r := r * r % m; if bit e i then r * a % m else r) 1

/-- The inverse of a number modulo a prime of at most 384 bits. -/
def inverse (a m : Nat) : Nat := powMod (a % m) (m - 2) m

/-- A point of the curve; `none` is the point at infinity. -/
abbrev Point := Option (Nat × Nat)

/-- Is a pair of coordinates a point of the curve? -/
def onCurve (x y : Nat) : Bool :=
  x < prime && y < prime && y * y % prime = (x * x * x + coeffA * x + coeffB) % prime

/-- The sum of two points. -/
def add (a b : Point) : Point :=
  match a, b with
  | none, q => q
  | p, none => p
  | some (x1, y1), some (x2, y2) =>
    if x1 = x2 && (y1 + y2) % prime = 0 then none else
    let l := if x1 = x2 then (3 * x1 * x1 + coeffA) * inverse (2 * y1) prime % prime
      else (y2 + prime - y1) * inverse (x2 + prime - x1) prime % prime
    let x3 := (l * l + 2 * prime - x1 - x2) % prime
    some (x3, (l * (x1 + prime - x3) + prime - y1) % prime)

/-- A multiple of a point, over the lowest 384 bits of the factor. -/
def mul (k : Nat) (p : Point) : Point :=
  (List.range 384).foldr (fun i r => let r := add r r; if bit k i then add r p else r) none

/-- A point as its 97 bytes: SEC1 uncompressed (R693). -/
def pointBytes (p : Point) : List Nat :=
  match p with
  | none => [0]
  | some (x, y) => 4 :: (beBytes 48 x ++ beBytes 48 y)

/-- The point that 97 bytes spell, if it is one of the curve. -/
def pointOf (bs : List Nat) : Option (Nat × Nat) :=
  let x := beNat ((bs.drop 1).take 48)
  let y := beNat ((bs.drop 49).take 48)
  if bs.headD 0 = 4 && bs.length = 97 && onCurve x y then some (x, y) else none

/-- Does a signature r ‖ s, big-endian, over a message verify under a public key (R693, R695)? -/
def verify (key msg sig : List Nat) : Bool :=
  match pointOf key with
  | none => false
  | some q =>
    let r := beNat (sig.take 48)
    let s := beNat ((sig.drop 48).take 48)
    if r = 0 || order ≤ r || s = 0 || order ≤ s then false else
    let w := inverse s order
    let e := beNat (sha384 msg)
    match add (mul (e * w % order) (some base)) (mul (r * w % order) (some q)) with
    | none => false
    | some (x, _) => x % order = r

/-- The nonces of RFC 6979, one after the other until one lies in range (at most `fuel` are tried). -/
def nonceFrom : Nat → List Nat → List Nat → Nat
  | 0, _, _ => 1
  | fuel + 1, k, v =>
    let v := hmac k v
    let t := beNat v
    if t ≠ 0 && t < order then t
    else
      let k := hmac k (v ++ [0])
      nonceFrom fuel k (hmac k v)

/-- The deterministic nonce for a private key and a message digest (RFC 6979). -/
def nonce (d : Nat) (h : List Nat) : Nat :=
  let x := beBytes 48 d ++ beBytes 48 (beNat h % order)
  let v := List.replicate 48 1
  let k := hmac (List.replicate 48 0) (v ++ [0] ++ x)
  let v := hmac k v
  let k := hmac k (v ++ [1] ++ x)
  nonceFrom 64 k (hmac k v)

/-- The signature of a message by a private key: r ‖ s, big-endian, 96 bytes (R702). -/
def sign (d : Nat) (msg : List Nat) : List Nat :=
  let h := sha384 msg
  let k := nonce d h
  match mul k (some base) with
  | none => List.replicate 96 0
  | some (x, _) =>
    let r := x % order
    let s := inverse k order * (beNat h + r * d) % order
    beBytes 48 r ++ beBytes 48 s

/-- The private scalar that a secret, a label and a context give (R702). -/
def scalar (secret label ctx : List Nat) : Nat := beNat (hmac secret (label ++ ctx)) % (order - 1) + 1

/-- The public key of a private scalar. -/
def publicKey (d : Nat) : List Nat := pointBytes (mul d (some base))

end Sys2Proof.Crypto
end

