-- ==== Sys2Proof/Machine/NetBase.lean ====
section
/-! DEFINITION. Handles, flows and paths of the transport, failing collectives, fault notices (R485 to R509, R627). -/
namespace Sys2Proof.Machine
open Sys2Proof

/-- Change the network interfaces. -/
def Dev.updNet (d : Dev) (f : Net → Net) : Dev := { d with net := f d.net }
/-- An open handle. -/
def Dev.handle? (d : Dev) (h : Nat) : Option Handle := Tbl.look? h d.net.handles
/-- Change an open handle. -/
def Dev.updHandle (d : Dev) (h : Nat) (f : Handle → Handle) : Dev :=
  match d.handle? h with
  | none => d
  | some x => d.updNet (fun n => { n with handles := Tbl.put h (f x) n.handles })
/-- A port. -/
def Dev.port (d : Dev) (n : Nat) : Port := Tbl.look Port.reset n d.net.ports
/-- Change a port. -/
def Dev.updPort (d : Dev) (n : Nat) (f : Port → Port) : Dev :=
  d.updNet (fun x => { x with ports := Tbl.upd Port.reset n f x.ports })

/-- The mode of a port (R477). -/
def Dev.portMode (d : Dev) (n : Nat) : Nat := d.portReg n 0x03 % 4
/-- The sub-ports of a port (R477). -/
def Dev.subPorts (d : Dev) (n : Nat) : Nat := 1 <<< d.portMode n
/-- Lanes of a sub-port after shedding (R477, R479, R583). -/
def Dev.subLanes (d : Dev) (n : Nat) : Nat := max 1 ((4 >>> d.portMode n) >>> (d.port n).shed)
/-- The rate of a sub-port in bits per second: 200 Gb/s a lane (R477). -/
def Dev.lineRate (d : Dev) (n : Nat) : Nat := 200000000000 * d.subLanes n

/-- Is the gateway of a sub-port resolved (R482)? The resolved MAC stands at 32 + 6k. -/
def Dev.gateway (d : Dev) (n k : Nat) : Bool := bytesAt (d.portReg n 0x07) (32 + 6 * k) 6 ≠ 0

/-- The sub-ports, as 4n + k, that carry paths: port ON, link up, gateway resolved, no retraining (R479, R482, R527). -/
def Dev.activeSubs (d : Dev) : List Nat :=
  (List.range 96).filter (fun x =>
    let n := x / 4
    let k := x % 4
    d.fn (0x2C00 + n) == 2 && (d.port n).up.contains k && !(d.port n).retraining && d.gateway n k && d.locked 11 (n / 6))

/-- The sub-ports whose link is up, as 4n + k, of the ports that are ON: a frame that is no IP packet needs no gateway (R482,
R494). -/
def Dev.upSubs (d : Dev) : List Nat :=
  (List.range 96).filter (fun x => d.fn (0x2C00 + x / 4) == 2 && (d.port (x / 4)).up.contains (x % 4) && d.locked 11 (x / 24))

/-- Send a frame from a sub-port: counted, and the bytes of its port (R525, R583). -/
def Dev.sendFrame (d : Dev) (sub kind : Nat) (fields : List Nat) (bytes : Nat) : Dev :=
  let d := d.incReg (0x2C00 + sub / 4) 0x0B
  (d.updPort (sub / 4) (fun p => { p with bytes := p.bytes + bytes })).out (.frame sub kind fields)

/-- The classes of traffic with a priority of their own (R483). -/
inductive Traffic where
  | collective
  | storage
  | congestion
  deriving DecidableEq, Repr

/-- The 802.1Q priority and the DSCP of a class (R483). -/
def Dev.marks (d : Dev) : Traffic → List Nat
  | .collective => [bits (d.reg 0x1100 0x02) 2 0, bits (d.reg 0x1100 0x02) 13 8]
  | .storage => [2, 18]
  | .congestion => [6, 48]

/-- The address of a peer's sub-port: its base address plus the sub-port's number, added to the low 32 bits (R487). -/
def Handle.peerAddr (x : Handle) (rank sub : Nat) : Nat :=
  let b := x.members.getD rank 0
  b / 2 ^ 32 * 2 ^ 32 + (b + sub) % 2 ^ 32

/-- The ECN codepoint ECT(0), which every transport packet carries (R481). -/
def ect0 : Nat := 2

/-- The MAC address that a sub-port's IP packets go to: its gateway's (R482). -/
def Dev.gatewayMac (d : Dev) (sub : Nat) : Nat := bytesAt (d.portReg (sub / 4) 0x07) (32 + 6 * (sub % 4)) 6

/-- What the headers of a job-handle packet name beside its fields: DestQP, job id bits [31:0], epoch (R485). -/
def Dev.jobHead (d : Dev) (h : Nat) : List Nat :=
  match d.handle? h with
  | some x => [h % 2 ^ 24, x.job % 2 ^ 32, x.epoch]
  | none => [h % 2 ^ 24, 0, 0]

/-- The route of a packet of a flow on a path: its marks, ECT(0), its sub-port, the gateway's MAC address, the peer's sub-port,
the UDP source port, whose low 20 bits are the IPv6 flow label too (R481, R482, R483, R486, R487); then what its headers name. -/
def Dev.route (d : Dev) (h rank sub : Nat) (t : Traffic) : List Nat :=
  d.marks t ++ [ect0, sub, d.gatewayMac sub, (match d.handle? h with
    | some x => x.peerAddr rank sub
    | none => 0), 0xC000 ||| ((rank * 96 + sub) &&& 0x3FFF)] ++ d.jobHead h

/-- The route of a packet of a storage handle: its marks, ECT(0), its sub-port, the gateway's MAC address, the store's address
(R481, R482, R483, R493). -/
def Dev.storeRoute (d : Dev) (x : Handle) : List Nat :=
  d.marks .storage ++ [ect0, x.sub, d.gatewayMac x.sub, bytesAt x.store 0 16]

/-- Send a packet of the transport without collective data on a path. -/
def Dev.packetOut (d : Dev) (h rank sub kind : Nat) (t : Traffic) (fields : List Nat) : Dev :=
  (d.incReg (0x2C00 + sub / 4) 0x0B).out (.packet h rank kind (d.route h rank sub t) fields [])

/-- A packet of the transport without collective data: acknowledgements, answers, probes, notices, remote signals. It leaves
on the lowest active sub-port (log entry 40). -/
def Dev.control (d : Dev) (h rank kind : Nat) (fields : List Nat) : Dev :=
  match d.activeSubs.head? with
  | some x => d.packetOut h rank x kind .collective fields
  | none => d.out (.packet h rank kind (d.marks .collective ++ [ect0] ++ d.jobHead h) fields [])

/-- Toward a target of images or of streaming: 0 a snapshot port, 1 the store of a network handle, whose packets wait for
their acknowledgement (R300, R367, R493). -/
def Dev.imageOut (d : Dev) (target dest op addr : Nat) (bytes : List Nat) : Dev :=
  let d := if target = 1 then d.updHandle dest (fun x =>
      let ps := (chunksOf 4096 bytes).zipIdx
      { x with psn := (x.psn + ps.length) % 2 ^ 24,
               unacked := x.unacked ++ ps.map (fun (p : List Nat × Nat) => ((x.psn + p.2) % 2 ^ 24, p.1.length)) })
    else d
  let route := match target, d.handle? dest with
    | 1, some x => d.storeRoute x
    | _, _ => []
  d.out (.image target dest op addr route bytes)

/-- A path of a flow; one not yet used runs at its line's rate (R492). -/
def Dev.path (d : Dev) (f : Flow) (sub : Nat) : Path := Tbl.look ⟨d.lineRate (sub / 4), false, 0⟩ sub f.paths

/-- The path of the next packet: of those not paused, the one with the earliest permitted send time, the lowest sub-port
among equals (R492, R494). -/
def Dev.pickPath (d : Dev) (f : Flow) : Option Nat :=
  let subs := d.activeSubs.filter (fun x => !((d.port (x / 4)).paused.contains (x % 4)))
  subs.foldl (fun best x =>
    match best with
    | none => some x
    | some b => if (d.path f x).next < (d.path f b).next then some x else some b) none

/-- Put a packet on a path, with its collective header and the CRC32C of its payload: answers it as sent, the flow with the path's
next time, the part (R485, R490, R492). -/
def Dev.transmit (d : Dev) (h rank : Nat) (f : Flow) (p : Pkt) : Option (Pkt × Flow × Dev) :=
  match d.pickPath f with
  | none => none
  | some sub =>
    let q := d.path f sub
    let next := max d.now q.next + (p.bytes.length * 8000000000 / q.rate)
    let f := { f with paths := Tbl.put sub { q with next := next } f.paths }
    let d := d.incReg (0x2C00 + sub / 4) 0x0B
    let d := d.updPort (sub / 4) (fun x => { x with bytes := x.bytes + p.bytes.length })
    let d := d.out (.packet h rank 0 (d.route h rank sub .collective) [p.psn, sub, p.seq, p.phase, p.chunk, p.off, p.digest, crc32c p.bytes] p.bytes)
    some ({ p with sub := sub, sentAt := d.now }, f, d)

/-- The window of a flow (R489): free until its first acknowledgement (log entry 22). -/
def Flow.window (f : Flow) (fresh : Nat) : Nat := f.win.getD (Config.firstWindow fresh)

/-- Is a packet beyond the highest PSN that the flow's peer has acknowledged (R489)? -/
def Flow.beyond (f : Flow) (p : Pkt) : Bool :=
  match f.hi with
  | none => true
  | some k => (p.psn + 2 ^ 24 - k) % 2 ^ 24 ≠ 0 && (p.psn + 2 ^ 24 - k) % 2 ^ 24 < 2 ^ 23

/-- Send the waiting packets of a flow as far as its window and its paths allow (R489). -/
def Dev.pump (d : Dev) (h rank : Nat) : Dev :=
  match d.handle? h with
  | none => d
  | some x =>
    let f := Tbl.look Flow.reset rank x.flows
    let (fr, d) := if f.win.isNone && !f.wait.isEmpty then d.draw else (d.fresh, d)
    let win := f.window fr
    let r := f.wait.foldl (fun (acc : Flow × Dev × Nat × List Pkt) p =>
      let (f, d, out, kept) := acc
      if !kept.isEmpty || out + p.bytes.length > win then (f, d, out, kept ++ [p])
      else match d.transmit h rank f p with
        | none => (f, d, out, kept ++ [p])
        | some (p, f, d) => ({ f with sent := f.sent ++ [p] }, d, out + p.bytes.length, kept))
      (f, d, ((f.sent.filter f.beyond).map (fun p => p.bytes.length)).sum, [])
    r.2.1.updHandle h (fun x => { x with flows := Tbl.put rank { r.1 with wait := r.2.2.2 } x.flows })

/-- Send a message of a collective to a rank, in packets of up to 4,096 bytes (R485, R488). -/
def Dev.sendMsg (d : Dev) (h rank seq phase chunk digest : Nat) (bytes : List Nat) : Dev :=
  let ps := chunksOf 4096 bytes
  let d := d.updHandle h (fun x =>
    let f := Tbl.look Flow.reset rank x.flows
    let pk := ps.zipIdx.map (fun (b : List Nat × Nat) =>
      ({ psn := (f.psn + b.2) % 2 ^ 24, seq := seq, phase := phase, chunk := chunk, off := 4096 * b.2, bytes := b.1,
         digest := digest, sub := 0, sentAt := 0, resends := 0, later := 0 } : Pkt))
    { x with flows := Tbl.put rank { f with psn := (f.psn + ps.length) % 2 ^ 24, wait := f.wait ++ pk } x.flows })
  d.pump h rank

/-- Send a packet again, on the path that is picked now (R490); it counts in 0x1100:09. -/
def Dev.resend (d : Dev) (h rank psn : Nat) : Dev :=
  match d.handle? h with
  | none => d
  | some x =>
    let f := Tbl.look Flow.reset rank x.flows
    match f.sent.find? (fun p => p.psn = psn) with
    | none => d
    | some p =>
      let rest := f.sent.filter (fun q => q.psn ≠ psn)
      let again := { p with resends := p.resends + 1, later := 0 }
      match d.transmit h rank f again with
      | none => d.updHandle h (fun x =>
          let f := { f with sent := rest, wait := { again with resends := p.resends } :: f.wait }
          { x with flows := Tbl.put rank f x.flows })
      | some (p, f, d) =>
        (d.incReg 0x1100 0x09).updHandle h (fun x =>
          { x with flows := Tbl.put rank { f with sent := rest ++ [p] } x.flows })

/-! Failing collectives (R502 to R509, R324). -/

/-- Event 0x8704, at most once per millisecond per handle (R509). -/
def Dev.collEvent (d : Dev) (h seq code rank : Nat) : Dev :=
  match d.handle? h with
  | none => d
  | some x =>
    let quiet := match x.eventAt with
      | some t => decide (d.now < t + 1000000)
      | none => false
    if quiet then d else
    (d.updHandle h (fun x => { x with eventAt := some d.now })).raiseCtx 0x8704 x.ctx [h, seq, code, rank]

/-- A collective in progress fails (R509): its command fails, its data are discarded; the collective of a norm raises event
0x8604 as well (R324). -/
def Dev.failColl (d : Dev) (h seq code rank : Nat) : Dev :=
  match d.handle? h with
  | none => d
  | some x =>
    match x.colls.find? (fun c => c.seq = seq) with
    | none => d
    | some c =>
      let d := d.updHandle h (fun x => { x with
        colls := x.colls.filter (fun c => c.seq ≠ seq), rx := x.rx.filter (fun m => m.seq ≠ seq) })
      let d := if c.op = 0x61 then
        (d.updUpd c.o.ctx.val (fun u => { u with norm := none })).raiseCtx 0x8604 c.o.ctx.val [c.o.ctx.val, x.epoch]
        else d
      let d := if c.f.srcKind = 1 then d.updNet (fun n => { n with
        ready := n.ready.filter (fun r => !(r.ctx = c.o.ctx.val && r.tensor = c.f.tensor)) }) else d
      (d.markFailed c.o.ctx.val c.o.stream.val c.o.seq ⟨2, code, false, none⟩).collEvent h seq code rank

/-- Every collective of a handle fails; answers how many. -/
def Dev.failHandle (d : Dev) (h code rank : Nat) : Nat × Dev :=
  match d.handle? h with
  | none => (0, d)
  | some x => (x.colls.length, x.colls.foldl (fun d c => d.failColl h c.seq code rank) d)

/-- A handle is closed (R502): its collectives fail with 0x0703. -/
def Dev.closeHandle (d : Dev) (h : Nat) : Dev :=
  let own := match d.handle? h with
    | some x => x.rank
    | none => 0
  let d := (d.failHandle h 0x0703 own).2
  let d := d.updNet (fun n => { n with handles := Tbl.del h n.handles })
  d.setReg 0x1100 0x0B d.net.handles.length

/-- The open handles of a context. -/
def Dev.handlesOf (d : Dev) (c : Nat) : List Nat := (d.net.handles.filter (fun p => p.2.ctx = c)).map (·.1)

/-- Has a context an open job handle with more than one member (R625)? -/
def Dev.jobBound (d : Dev) (c : Nat) : Bool := d.net.handles.any (fun p => p.2.ctx = c && p.2.kind = 0 && 1 < p.2.n)

/-- Send a fault notice on a job handle to every member: the kind and the contexts concerned (R627). -/
def Dev.notice (d : Dev) (h kind : Nat) (ctxs : List Nat) : Dev :=
  match d.handle? h with
  | none => d
  | some x =>
    if x.kind ≠ 0 then d else
    let others := (List.range x.n).filter (· ≠ x.rank)
    others.foldl (fun d r => (d.incReg 0x5400 0x0C).control h r 7 ([x.rank, kind] ++ ctxs)) d

/-- Send a fault notice on every open job handle. -/
def Dev.noticeAll (d : Dev) (kind : Nat) (ctxs : List Nat) : Dev :=
  d.net.handles.foldl (fun d p => d.notice p.1 kind ctxs) d

end Sys2Proof.Machine
end

