-- ==== Sys2Proof/Machine/Faults.lean ====
section
/-! DEFINITION. Faults of partitions and of the device, suspects, the floor, the wipe of a secure bank (R212, R584, R612 to
R632). -/
namespace Sys2Proof.Machine
open Sys2Proof

/-- Hold the floor (R584): OP0 at duty 0, memory slots at 1; it shows in 0x2100:04 and as the ceiling's cause. -/
def Dev.holdFloor (d : Dev) : Dev :=
  let d := { d with pow := { d.pow with floor := true, mlev := 1, comp := 16 } }
  let d := d.setField 0x2100 0x04 15 15 1
  (List.range 8).foldl (fun d p =>
    (d.setReg (0x3400 + p) 0x13 0).setReg (0x3400 + p) 0x14 (4 <<< 4)) d

/-- The engines of a partition (R9). -/
def partEngs (p : Nat) : List Nat := (List.range 8).map (8 * p + ·)
/-- The stacks of a partition (R9). -/
def partStks (p : Nat) : List Nat := (List.range 4).map (4 * p + ·)

/-- The contexts with work on a partition (R619). -/
def Dev.suspects (d : Dev) (p : Nat) : List Nat :=
  let es := (partEngs p).flatMap (fun e =>
    let k := d.eng e
    k.jobs.map (fun j => j.o.ctx.val) ++ k.vq.map (fun v => v.o.ctx.val) ++ k.dq.map (fun m => m.o.ctx.val) ++
      (k.sets.filter (fun b => b.st = 1)).map (fun b => b.acc.ctx) ++ k.saves.map (fun a => a.2.ctx) ++
      k.opening.map (fun a => a.2.ctx))
  let ss := (partStks p).flatMap (fun s =>
    let k := d.stk s
    k.queue.map (fun r => r.j.ctx.val) ++ k.arms.map (fun a => a.j.ctx.val))
  let all := es ++ ss
  (List.range 1024).filter (fun c => all.contains c)

/-- The engine commands of a partition, as context, stream and sequence. -/
def Dev.partCmds (d : Dev) (p : Nat) : List (Nat × Nat × Nat) :=
  (partEngs p).flatMap (fun e =>
    let k := d.eng e
    (k.jobs.map (fun j => j.o) ++ k.vq.map (fun v => v.o) ++ k.dq.map (fun m => m.o)).map
      (fun (o : Origin) => (o.ctx.val, o.stream.val, o.seq)))

/-- The root engine of a stack abandons its work (R303): jobs, armed STAGE jobs, chunk buffers, emissions. -/
def Dev.abandonRoot (d : Dev) (s : Nat) : Dev :=
  (d.updStk s (fun k => { k with
    queue := [], arms := [], chunks := [], emits := [], xc := [] })).setReg (0x3800 + s) 0x08 256

/-- Securing abandons the streaming of a stack; its share starts again from its first range (R369). -/
def Dev.restartShare (d : Dev) (s : Nat) : Dev :=
  { d with upds := d.upds.map (fun q => (q.1, { q.2 with sec := q.2.sec.map (fun (x : Secure) =>
      let back := x.data.filter (fun (y : SData) => y.stack = s)
      { x with
        ranges := back.map (fun (y : SData) => (⟨y.stack, y.tag, y.runs⟩ : SRange)) ++ x.ranges,
        data := x.data.filter (fun (y : SData) => y.stack ≠ s) }) })) }

/-- The work of a partition is abandoned without a signal (R616): commands leave their scoreboards. -/
def Dev.abandon (d : Dev) (p : Nat) : Dev :=
  let d := (d.partCmds p).foldl (fun d x =>
    d.updStream x.1 x.2.1 (fun t => { t with run := t.run.filter (fun e => e.seq ≠ x.2.2), lastChange := d.now })) d
  let d := (partEngs p).foldl (fun d e => d.updEng e (fun k => { k with
    jobs := [], vq := [], dq := [], shadow := none, active := none, opening := [], writeback := k.writeback,
    sets := k.sets.map (fun b => if b.st = 2 then ⟨0, Accum.empty⟩ else b) })) d
  (partStks p).foldl (fun d s => (d.abandonRoot s).restartShare s) d

/-- A wipe of the secure bank of a die begins: the bank is assigned to nobody and its accesses stall (R212, R213). -/
def Dev.wipeStart (d : Dev) (die cause : Nat) : Dev :=
  let v := d.engReg (16 * die) 0x22
  let holder := if bit v 15 then some (bits v 9 0) else none
  -- a wipe under way goes on: of two causes the one that wipes more, and the holder it found, stay
  let old := match Tbl.look? die d.wiping with
    | some (c, h) => (c, h)
    | none => (cause, none)
  let d := d.setReg (0x3000 + 16 * die) 0x22 0
  let d := if die = 0 && cause ≤ 2 then { d with boot := { d.boot with keys := false } } else d
  { d with wiping := Tbl.put die (min cause old.1, holder.orElse (fun _ => old.2)) d.wiping }

/-- The device-wide fault of a cause (R632): every stream of every context that is not OFF stops with 0x0314, notices of
kind 2, event 0x8101, the floor, the tray flag. -/
def State.deviceFault (s : State) (cause : Nat) : State :=
  if bit (s.dev.reg 0x5400 0x05) 0 then s else
  let on := (List.range 1024).filter (fun c => s.dev.ctxState c ≠ 0)
  let s := s.onDev (fun d =>
    let d := d.setReg 0x5400 0x05 (cause <<< 4 + 1)
    let d := on.foldl (fun d c => d.stopCtx c 0x0314) d
    let d := d.noticeAll 2 on
    let d := d.raiseDev 0x8101 [cause]
    (d.holdFloor).setReg 0x5400 0x11 1)
  { s with persist := { s.persist with tray := true } }

/-- The scoreboard entries of the engine commands of a partition, with context and stream. -/
def Dev.partIssued (d : Dev) (p : Nat) : List (Nat × Nat × Issued) :=
  (d.partCmds p).filterMap (fun x =>
    ((d.stream x.1 x.2.1).run.find? (fun e => e.seq = x.2.2)).map (fun e => (x.1, x.2.1, e)))

/-- A partition goes out of service (R631): its commands and its suspects fail with 0x030F (R398), event 0x8304 (cause 1 stack failed, 2 self-test
failed, 3 escalation, 4 start-up), and a second such partition makes the fault device-wide. -/
def State.partitionOut (s : State) (p cause : Nat) (sus : List Nat) : State :=
  if s.dev.service p = 2 then s else
  let s := s.onDev (fun d =>
    let cmds := d.partIssued p
    let d := d.abandon p
    let d := { d with integ := { d.integ with resets := Tbl.del p d.integ.resets } }
    let d := (d.setReg (0x3400 + p) 0x26 2).setReg 0x5400 0x04 (d.reg 0x5400 0x04 ||| 1 <<< p)
    let d := cmds.foldl (fun d x => d.failCommand x.1 x.2.1 2 0x030F x.2.2.seq x.2.2.op x.2.2.cmd) d
    let d := sus.foldl (fun d c => d.stopCtx c 0x030F) d
    d.raise 0x8304 6 p none none [p, cause])
  if popCount 8 (s.dev.reg 0x5400 0x04) ≥ 2 then s.deviceFault 1 else s

/-- The resets of a partition inside the sliding window of 0x5400:03 minutes (R630). -/
def Dev.resetsInWindow (d : Dev) (p : Nat) : Nat :=
  ((Tbl.look [] p d.integ.times).filter (fun t => d.now < t + d.reg 0x5400 0x03 * 60000000000)).length

/-- A reset of a partition begins (R616): its generation advances, its work is abandoned, notices of kind 0 go out on the
job handles of its suspects. `unit` is the last reset cause of R634. -/
def Dev.resetStart (d : Dev) (p unit : Nat) : Dev :=
  let sus := d.suspects p
  let d := d.setReg (0x3400 + p) 0x22 ((d.partReg p 0x22 + 1) % 16)
  let d := ((d.setReg (0x3400 + p) 0x26 1).setReg (0x3400 + p) 0x25 unit).incReg 0x5400 0x09
  let d := { d with integ := { d.integ with
    resets := Tbl.put p ⟨1, sus⟩ d.integ.resets,
    times := Tbl.upd [] p (fun l => l ++ [d.now]) d.integ.times } }
  let d := d.setReg (0x3400 + p) 0x24 (min 255 (d.resetsInWindow p))
  let hs := d.net.handles.filter (fun q => q.2.kind = 0 && sus.contains q.2.ctx)
  let d := hs.foldl (fun d q => d.notice q.1 0 sus) d
  d.abandon p

end Sys2Proof.Machine
end

