-- ==== Sys2Proof/Machine/Energy.lean ====
section
/-! DEFINITION. The energy model, its charges and its calibration (R567 to R573, R576, R577, R595 to R598, R647 to R649).
Model energies are binary64 where the spec's pseudo-code says so and where it names no format (log entry 44); charges are
whole picojoules. -/
namespace Sys2Proof.Machine
open Sys2Proof

/-! Arithmetic of the governor: results without the counters of R58, which count no governor's work. -/

/-- The result of a numeric computation, its counts dropped. -/
def val (m : Num Nat) : Nat := (m []).1
/-- A natural number as binary64. -/
def f64 (n : Nat) : Nat := val (convertFloat (unpackInt n) fp64 0 false 0)
/-- An FP32 code as binary64. -/
def f64of32 (c : Nat) : Nat := val (convertFloat (unpackFloat fp32 c) fp64 0 false 0)
/-- A binary64 code as FP32. -/
def f32of64 (c : Nat) : Nat := val (convertFloat (unpackFloat fp64 c) fp32 0 false 0)
/-- Sum of binary64 codes. -/
def add64 (a b : Nat) : Nat := val (addF fp64 a b)
/-- Difference of binary64 codes. -/
def sub64 (a b : Nat) : Nat := val (subF fp64 a b)
/-- Product of binary64 codes. -/
def mul64 (a b : Nat) : Nat := val (mulF fp64 a b)
/-- Quotient of binary64 codes. -/
def div64 (a b : Nat) : Nat := val (divF fp64 a b)
/-- Square root of a binary64 code. -/
def sqrt64 (a : Nat) : Nat := val (sqrtF fp64 a)
/-- Is a binary64 value less than another? -/
def lt64 (a b : Nat) : Bool := ltF fp64 a b
/-- The sum of a list of binary64 codes, from its first element on. -/
def sum64 (l : List Nat) : Nat := l.foldl add64 0
/-- The whole part of a non-negative finite binary64 value; 0 for every other one. -/
def floor64 (c : Nat) : Nat :=
  let u := unpackFloat fp64 c
  if u.cls = .finite && !u.s then
    let (m, x) := u.mag
    if 0 ≤ x then m <<< x.toNat else m >>> x.natAbs
  else 0
/-- Sum, difference, product and quotient of FP32 codes. -/
def a32 (a b : Nat) : Nat := val (add32 a b)
/-- Difference of FP32 codes. -/
def s32 (a b : Nat) : Nat := val (sub32 a b)
/-- Product of FP32 codes. -/
def m32 (a b : Nat) : Nat := val (mul32 a b)
/-- Quotient of FP32 codes. -/
def d32 (a b : Nat) : Nat := val (div32 a b)
/-- A natural number as FP32. -/
def f32 (n : Nat) : Nat := val (convertFloat (unpackInt n) fp32 0 false 0)
/-- The greater of two FP32 values. -/
def max32 (a b : Nat) : Nat := if lt32 a b then b else a
/-- The lesser of two FP32 values. -/
def min32 (a b : Nat) : Nat := if lt32 b a then b else a
/-- The whole part of a non-negative finite FP32 value. -/
def floor32 (c : Nat) : Nat := floor64 (f64of32 c)
/-- Power in W, as FP32, of an energy in pJ spent in a time of n × 250 ns. -/
def watts (pj n : Nat) : Nat := f32of64 (div64 (f64 (4 * pj)) (f64 (1000000 * n)))

/-! The terms of a tick (R570). -/

/-- The core set-point over 0.78 V. -/
def Dev.volts (d : Dev) (p : Nat) : Nat := div64 (f64 (d.partReg p 0x11)) (f64 7800)

/-- The coefficients in force of a partition, FP32 codes (R602). -/
def Dev.coeffs (d : Dev) (p : Nat) : List Nat := (List.range 12).map (fun i => bytesAt (d.partReg p 0x1E) (4 * i) 4)

/-- Powered SerDes lanes of a die: of its ports that are not OFF, at their target lanes (R570 term 10, R583). -/
def Dev.lanesOf (d : Dev) (die : Nat) : Nat :=
  ((List.range 6).map (fun i =>
    let n := 6 * die + i
    if d.fn (0x2C00 + n) = 0 then 0 else 4 >>> (d.port n).shed)).sum

/-- Term 10 of a tick: lane-microseconds of the die, halved. -/
def Dev.term10 (d : Dev) (p : Nat) : Nat := div64 (f64 (d.lanesOf (p / 2))) (f64 8)

/-- Term 12 of a tick: a quarter of a microsecond, times (V / 0.78 V)³ × 2^((T − 85) / 18), T in sixteenths of a degree. -/
def Dev.term12 (d : Dev) (p : Nat) : Nat :=
  let v := d.volts p
  let t := toSigned 16 (d.partReg p 0x15) - 1360
  let x := val (div32 (val (convertFloat (unpackInt t) fp32 0 false 0)) (f32 288))
  div64 (mul64 (mul64 (mul64 v v) v) (f64of32 (val (exp2F x)))) (f64 4)

/-- The scaled terms that activity on a partition gives: terms 1 to 7 by (V / 0.78 V)², 8, 9 and 11 as they are (R570).
`l` holds terms 1 to 9 and 11. -/
def Dev.terms (d : Dev) (p : Nat) (l : List Nat) : List Nat :=
  let v := d.volts p
  let s := mul64 v v
  let x := fun (i : Nat) => f64 (l.getD i 0)
  (List.range 7).map (fun i => mul64 (x i) s) ++ [x 7, x 8, 0, x 9, 0]

/-- The energy that coefficients give terms, in whole pJ. -/
def energy (k x : List Nat) : Nat := floor64 (sum64 ((k.zip x).map (fun q => mul64 (f64of32 q.1) q.2)))

/-- The static energy of a tick of a partition (terms 10 and 12). -/
def Dev.staticTerms (d : Dev) (p : Nat) : List Nat :=
  List.replicate 9 0 ++ [d.term10 p, 0, d.term12 p]

/-- Sum of two lists of terms. -/
def addTerms (a b : List Nat) : List Nat := (a.zip b).map (fun q => add64 q.1 q.2)

/-- The account that a context, or none, is charged to; 1024 is the device account. -/
def account (c : Option (Fin 1024)) : Nat := match c with
  | some c => c.val
  | none => 1024

/-- Activity of an account on a partition is charged to it (R571); static energy is kept for the window's end. -/
def Dev.chargeTerms (d : Dev) (p c : Nat) (l : List Nat) : Dev :=
  let x := d.terms p l
  let e := energy (d.coeffs p) x
  d.updPowP p (fun q => { q with
    x := addTerms q.x x, charges := Tbl.upd 0 c (· + e) q.charges, dyn := Tbl.upd 0 c (· + e) q.dyn })

/-- The activity that the device counted since the last tick is charged: terms 1 to 4, 6 and 9 (R102, R570). -/
def Dev.chargeLedger (d : Dev) : Dev :=
  d.pow.acts.foldl (fun d x =>
    d.chargeTerms (x.1 / 16 / 1025) (x.1 / 16 % 1025) ((List.range 10).map (fun i => if i + 1 = x.1 % 16 then x.2 else 0)))
    { d with pow := { d.pow with acts := [] } }

/-- The activity that a tick carries: of the terms that no counter of the device gives, 5, 7, 8 and 11; the withheld cycles
are counted (R580). -/
def Dev.chargeAct (d : Dev) (a : ActF) : Dev :=
  let d := d.chargeTerms a.part.val (account a.ctx)
    ((List.range 10).map (fun i => if [4, 6, 7, 9].contains i then a.x.getD i 0 else 0))
  if a.withheld = 0 then d else d.addReg (0x3400 + a.part.val) 0x19 a.withheld

/-- The static energy of a tick enters the window of a partition. -/
def Dev.chargeStatic (d : Dev) (p : Nat) : Dev :=
  let x := d.staticTerms p
  let e := energy (d.coeffs p) x
  d.updPowP p (fun q => { q with x := addTerms q.x x, stat := q.stat + e })

/-! Rails (R567 to R569, R739, R741). -/

/-- Set-point of a rail in 0.1 mV. -/
def Dev.railSet (d : Dev) (r : Nat) : Nat :=
  match r % 8 with
  | 0 => d.partReg (2 * (r / 8)) 0x11
  | 1 => d.partReg (2 * (r / 8) + 1) 0x11
  | 4 | 5 => 10500
  | 7 => 12000
  | _ => 7500

/-- Maximum current of a rail in mA (R739). -/
def railMax (r : Nat) : Nat :=
  match r % 8 with
  | 0 | 1 => 520000
  | 2 | 3 => 60000
  | 4 | 5 => 80000
  | 6 => 120000
  | _ => 200000

/-- The rails of a partition's group: core, SRAM, memory, fabric, I/O (R567, R741). -/
def railsOf (p : Nat) : List Nat := [8 * (p / 2) + p % 2, 8 * (p / 2) + 2 + p % 2, 8 * (p / 2) + 4 + p % 2, 8 * (p / 2) + 6, 8 * (p / 2) + 7]

/-- A rail. -/
def Dev.rail (d : Dev) (r : Nat) : Rail := Tbl.look ⟨0, false, 0, 0⟩ r d.pow.rails

/-- One reading: 50 µs at its voltage and current, in pJ; readings beyond the limits mark the window (R568, R569). -/
def Dev.sample (d : Dev) (x : SampleF) : Dev :=
  let r := x.rail.val
  if !x.valid then d else
  let p := 2 * (r / 8) + r % 2
  let changing := r % 8 < 2 && (d.powP p).phase ≠ 0
  let y := d.rail r
  let mv : Int := (10 * x.mv : Nat)
  let far := 500 < (mv - (d.railSet r : Int)).natAbs
  let off := if far && !changing then y.off + 1 else 0
  let hi := (3 * railMax r : Nat) < 2 * x.ma || 50 * x.ma < -(railMax r : Int)
  let y := { at_ := d.now, beyond := y.beyond || hi || 3 ≤ off, off := off, pj := y.pj + (x.mv : Int) * x.ma * 50 : Rail }
  { d with pow := { d.pow with rails := Tbl.put r y d.pow.rails } }

/-- TELEMETRY_SAMPLE (R568). -/
def execTelemetrySample (samples : List SampleF) (s : State) : Host.Outcome State Fault Refusal :=
  .next (s.onDev (fun d => samples.foldl Dev.sample d))

/-- The measured energy of a partition in the window: its own rails whole, the die's rails half (R567, R568). -/
def Dev.measured (d : Dev) (p : Nat) : Nat :=
  match railsOf p with
  | [c, m, h, f, i] => ((d.rail c).pj + (d.rail m).pj + (d.rail h).pj + ((d.rail f).pj + (d.rail i).pj) / 2).toNat
  | _ => 0

/-- The telemetry state of a partition in this window and the rail that gives it (R569): 0 fresh, 1 stale, 2 implausible. -/
def Dev.telemetryState (d : Dev) (p : Nat) : Nat × Nat :=
  match (railsOf p).find? (fun r => (d.rail r).at_ + 10000000 < d.now), (railsOf p).find? (fun r => (d.rail r).beyond) with
  | some r, _ => (1, r)
  | none, some r => (2, r)
  | none, none => (0, (railsOf p).headD 0)

/-! Calibration (R595 to R598). -/

/-- An entry of a 12 × 12 matrix. -/
def mat (m : List Nat) (i j : Nat) : Nat := m.getD (12 * i + j) 0

/-- The normal matrix and the vector after a fresh window (R595). -/
def normalUpdate (lam : Nat) (x : List Nat) (y : Nat) (nm bv : List Nat) : List Nat × List Nat :=
  ((List.range 144).map (fun k => add64 (mul64 lam (nm.getD k 0)) (mul64 (x.getD (k / 12) 0) (x.getD (k % 12) 0))),
   (List.range 12).map (fun i => add64 (mul64 lam (bv.getD i 0)) (mul64 (x.getD i 0) y)))

/-- The Cholesky factor of a matrix over its free rows, with a pivot test that freezes a row: the mask of frozen rows and
the factor (R596). -/
def factorise (a : List Nat) (test : Option Nat) (fz : Nat) : Nat × List Nat :=
  (List.range 12).foldl (fun (st : Nat × List Nat) j =>
    let (fz, l) := st
    if bit fz j then st else
    let below := (List.range j).filter (fun k => !(bit fz k))
    let piv := sub64 (mat a j j) (sum64 (below.map (fun k => mul64 (mat l j k) (mat l j k))))
    if test.any (fun eps => lt64 piv eps) then (fz ||| 1 <<< j, l)
    else
      let diag := sqrt64 piv
      let l := setAt l (12 * j + j) diag
      (fz, ((List.range 12).filter (fun i => j < i && !(bit fz i))).foldl (fun l i =>
        setAt l (12 * i + j)
          (div64 (sub64 (mat a i j) (sum64 (below.map (fun k => mul64 (mat l i k) (mat l j k))))) diag)) l))
    (fz, List.replicate 144 0)

/-- Solve l × lᵀ × z = r over the free rows. -/
def solve (l r : List Nat) (fz : Nat) : List Nat :=
  let free := (List.range 12).filter (fun i => !(bit fz i))
  let y := free.foldl (fun y i =>
    setAt y i (div64 (sub64 (r.getD i 0) (sum64 ((free.filter (· < i)).map (fun k => mul64 (mat l i k) (y.getD k 0)))))
      (mat l i i))) (List.replicate 12 0)
  free.reverse.foldl (fun z i =>
    setAt z i (div64 (sub64 (y.getD i 0) (sum64 ((free.filter (i < ·)).map (fun k => mul64 (mat l k i) (z.getD k 0)))))
      (mat l i i))) (List.replicate 12 0)

/-- The calibration of R596: new coefficients (binary64) and the mask of frozen ones. Where a frozen coefficient has no
excitation at all, its product in the right side is 0 (log entry 45). -/
def calibrate (nm bv k0 kc : List Nat) (eps mu : Nat) : List Nat × Nat :=
  let s := (List.range 12).map (fun i => if lt64 0 (mat nm i i) then div64 (f64 1) (sqrt64 (mat nm i i)) else 0)
  let fz := ((List.range 12).map (fun i => if (unpackFloat fp64 (mat nm i i)).cls = .zero then 2 ^ i else 0)).sum
  let a := (List.range 144).map (fun k => mul64 (mul64 (s.getD (k / 12) 0) (nm.getD k 0)) (s.getD (k % 12) 0))
  let r := (List.range 12).map (fun i => mul64 (s.getD i 0) (bv.getD i 0))
  let (fz, l) := factorise a (some eps) fz
  let out := fun (z : List Nat) => (List.range 12).map (fun i =>
    if bit fz i then kc.getD i 0 else mul64 (s.getD i 0) (z.getD i 0))
  if fz = 0 then (out (solve l r 0), 0)
  else
    let free := fun (i : Nat) => !(bit fz i)
    let frozen := (List.range 12).filter (fun f => bit fz f)
    let r := (List.range 12).map (fun i =>
      if free i then
        let pull := sum64 (frozen.map (fun f =>
          if (unpackFloat fp64 (s.getD f 0)).cls = .zero then 0
          else div64 (mul64 (mat a i f) (kc.getD f 0)) (s.getD f 0)))
        add64 (sub64 (r.getD i 0) pull) (div64 (mul64 mu (k0.getD i 0)) (s.getD i 0))
      else 0)
    let a := (List.range 144).map (fun k => if k / 12 = k % 12 && free (k / 12) then add64 (a.getD k 0) mu else a.getD k 0)
    let (_, l) := factorise a none fz
    (out (solve l r fz), fz)

/-- The coefficients of a result that R597 rejects: not finite, or outside a quarter to four times the test-time value. -/
def rejected (k k0 : List Nat) : Nat :=
  ((List.range 12).map (fun i =>
    let x := k.getD i 0
    let y := k0.getD i 0
    let cls := (unpackFloat fp64 x).cls
    if cls = .nan || cls = .inf || lt64 x (div64 y (f64 4)) || lt64 (mul64 y (f64 4)) x then 2 ^ i else 0)).sum

/-- A calibration of a partition starts (R577, R596, R597): with calibration disabled none does. -/
def Dev.calibrateNow (d : Dev) (p : Nat) : Dev :=
  if d.reg 0x2200 0x01 = 0 then d else
  let q := d.powP p
  let k0 := (List.range 12).map (fun i => f64of32 (bytesAt (d.partReg p 0x1F) (4 * i) 4))
  let kc := (d.coeffs p).map f64of32
  let (k, fz) := calibrate q.nm q.bv k0 kc (f64of32 (d.reg 0x2200 0x04)) (f64of32 (d.reg 0x2200 0x05))
  let d := d.updPowP p (fun q => { q with fresh := 0 })
  let d := d.setReg (0x3400 + p) 0x20 fz
  let d := if fz ≠ 0 then (d.incReg 0x2200 0x08).raise 0x8907 6 p none none [p, fz] else d
  let bad := rejected k k0
  if bad ≠ 0 then (d.incReg 0x2200 0x09).raise 0x8908 6 p none none [p, bad]
  else (d.incReg 0x2200 0x07).updPowP p (fun q => { q with next := some (k.map f32of64) })

/-- A calibration takes effect at a window's end: coefficients in force, no history, no held factor (R598). -/
def Dev.takeCalibration (d : Dev) (p : Nat) : Dev :=
  match (d.powP p).next with
  | none => d
  | some k =>
    (d.updPowP p (fun q => { q with next := none, hist := [], streak := 0, factor := none })).setReg (0x3400 + p) 0x1E
      (leNat ((k.map (leBytes 4)).flatten))

/-! Factors (R576, R577). -/

/-- The factor of a partition: 1.2 without fresh telemetry; the held one; else the greater of guard and mean ratio. -/
def Dev.factor (d : Dev) (p : Nat) : Nat :=
  let q := d.powP p
  if d.partReg p 0x21 ≠ 0 then 0x3F99999A
  else match q.factor with
    | some f => f
    | none =>
      let h := q.hist.take 8
      if h.isEmpty then d.reg 0x2100 0x08
      else max32 (d.reg 0x2100 0x08) (f32of64 (div64 (sum64 h) (f64 h.length)))

/-- 1.15 as binary64, and its reciprocal. -/
def disagreeHi : Nat := div64 (f64 115) (f64 100)
/-- 1 / 1.15 as binary64. -/
def disagreeLo : Nat := div64 (f64 1) disagreeHi

/-- What the last eight consecutive fresh windows say (R577): direction 1 above, 0 below. -/
def Dev.disagree (d : Dev) (p : Nat) : Dev :=
  let q := d.powP p
  let h := q.hist.take 8
  if q.streak < 8 || h.length < 8 then d
  else if h.all (fun r => lt64 disagreeHi r) then
    let m := h.foldl (fun a r => if lt64 a r then r else a) 0
    let d := d.updPowP p (fun q => { q with factor := some (f32of64 m) })
    (d.calibrateNow p).raise 0x8906 6 p none none [p, 1, f32of64 (h.headD 0)]
  else if h.all (fun r => lt64 r disagreeLo) then
    (d.calibrateNow p).raise 0x8906 6 p none none [p, 0, f32of64 (h.headD 0)]
  else d

/-! The end of a window (R571 to R573, R647, R649). -/

/-- The static energy of the window is shared by engine time, or goes to the device account (R571). -/
def Dev.shareStatic (d : Dev) (p : Nat) : Dev :=
  let q := d.powP p
  let total := (q.time.map (·.2)).sum
  let shares := if d.reg 0x2200 0x06 = 1 && total ≠ 0 then q.time.map (fun t => (t.1, q.stat * t.2 / total)) else []
  let rest := q.stat - (shares.map (·.2)).sum
  let charges := (shares ++ [(1024, rest)]).foldl (fun (t : Tbl Nat) (x : Nat × Nat) => Tbl.upd 0 x.1 (· + x.2) t) q.charges
  d.updPowP p (fun q => { q with charges := charges, stat := 0, time := [] })

/-- Add picojoules to a counter of whole microjoules, the rest kept (R649); answers the microjoules counted. -/
def Dev.addMicro (d : Dev) (key pj : Nat) : Nat × Dev :=
  let cum := Tbl.look 0 key d.pow.rest + pj
  (cum / 1000000, { d with pow := { d.pow with rest := Tbl.put key (cum % 1000000) d.pow.rest } })

/-- A partition's window ends: telemetry state, scaling of its charges, ratio, calibration (R569, R572, R576, R577, R595
to R598). Answers the charges, with ballast, and the ballast by account. -/
def Dev.endPartition (d : Dev) (p : Nat) : (Tbl Nat × Tbl Nat) × Dev :=
  let d := d.shareStatic p
  let (st, rail) := d.telemetryState p
  let d := if st ≠ d.partReg p 0x21 then (d.setReg (0x3400 + p) 0x21 st).raise 0x8905 6 p none none [p, rail, st] else d
  let q := d.powP p
  let est := (q.charges.map (·.2)).sum
  let m := d.measured p
  let d := (d.setReg (0x3400 + p) 0x1B (watts m 4000)).setReg (0x3400 + p) 0x1C (watts est 4000)
  let clear := fun (d : Dev) => d.updPowP p (fun q => { q with
    x := List.replicate 12 0, charges := [], ballast := [] })
  if st ≠ 0 || est = 0 then
    ((q.charges, q.ballast), clear ((d.updPowP p (fun q => { q with streak := 0 })).takeCalibration p))
  else
    let scale := fun (t : Tbl Nat) => t.map (fun x => (x.1, x.2 * m / est))
    let ctxs := (scale q.charges).filter (fun x => x.1 < 1024)
    let all := Tbl.put 1024 (m - (ctxs.map (·.2)).sum) ctxs
    let rho := div64 (f64 m) (f64 est)
    let lam := div64 (f64 (d.reg 0x2200 0x02)) (f64 65536)
    let (nm, bv) := normalUpdate lam q.x (f64 m) q.nm q.bv
    let d := d.updPowP p (fun q => { q with
      hist := (rho :: q.hist).take 8, streak := q.streak + 1, fresh := q.fresh + 1, nm := nm, bv := bv })
    let d := if q.next.isSome then d.takeCalibration p
      else
        let d := d.disagree p
        if d.reg 0x2200 0x03 ≤ (d.powP p).fresh then d.calibrateNow p else d
    ((all, scale q.ballast), clear d)

/-- TELEMETRY_WINDOW_END: the counters of every context, the device account and the package take the window's charges in
whole microjoules, so that they add up (R573, R647, R649). -/
def windowEnd (d : Dev) : Dev :=
  let (tabs, d) := (List.range 8).foldl (fun (st : List ((Tbl Nat × Tbl Nat) × Nat) × Dev) p =>
    let r := st.2.endPartition p
    (st.1 ++ [(r.1, p)], r.2)) ([], d)
  let merge := fun (l : List (Tbl Nat)) =>
    l.flatten.foldl (fun (t : Tbl Nat) (x : Nat × Nat) => Tbl.upd 0 x.1 (· + x.2) t) []
  let charges := merge (tabs.map (fun t => t.1.1))
  let ballast := merge (tabs.map (fun t => t.1.2))
  let (total, d) := d.addMicro 1024 ((charges.map (·.2)).sum)
  let (sum, d) := (charges.filter (fun (x : Nat × Nat) => x.1 < 1024)).foldl (fun (st : Nat × Dev) (x : Nat × Nat) =>
    let r := st.2.addMicro x.1 x.2
    (st.1 + r.1, r.2.addReg (0x4000 + x.1) 0x23 r.1)) (0, d)
  let d := (ballast.filter (fun (x : Nat × Nat) => x.1 < 1024)).foldl (fun (d : Dev) (x : Nat × Nat) =>
    let r := d.addMicro (2048 + x.1) x.2
    r.2.addReg (0x4000 + x.1) 0x24 r.1) d
  let d := tabs.foldl (fun d t =>
    let r := d.addMicro (4096 + t.2) ((t.1.2.map (·.2)).sum)
    r.2.addReg (0x3400 + t.2) 0x1A r.1) d
  let d := (d.addReg 0x2200 0x0B total).addReg 0x2200 0x0A ((total + two64 - sum) % two64)
  let d := d.setReg 0x2100 0x13 ((List.range 8).foldl (fun w p => a32 w (d.partReg p 0x1B)) 0)
  let d := (List.range 8).foldl (fun d p => d.setReg (0x3400 + p) 0x1D (d.factor p)) d
  let d := (List.range 24).foldl (fun d n => if (d.port n).bytes = 0 then d else d.updPort n (fun x => { x with bytes := 0 })) d
  { d with
    pow := { d.pow with rails := d.pow.rails.map (fun r => (r.1, { r.2 with beyond := false, pj := 0 })) }
    tele := { d.tele with lastWindow := d.now } }

/-- TELEMETRY_WINDOW_END (R572). -/
def execTelemetryWindowEnd (s : State) : Host.Outcome State Fault Refusal := .next (s.onDev windowEnd)

end Sys2Proof.Machine
end

