-- ==== Sys2Proof/Machine/Memory.lean ====
section
/-! DEFINITION. The memories' own events: write-backs, scrubs, wipes, arbiters, stack controllers, host accesses, refresh,
retraining, and the tables of slabs, translations and bank grants (R205 to R268, R446). -/
namespace Sys2Proof.Machine
open Sys2Proof

/-! Scratchpads (R205 to R214). -/

/-- The bank of a scratchpad word, by its key (R193). -/
def wordBank (word : Nat) : Nat × Nat := (word * 8 / Config.spadBytes, word * 8 % Config.spadBytes / Config.bankBytes)

/-- SCRATCHPAD_WRITEBACK: the oldest corrected word of a bank is written back whole, over whatever struck it since it was read
(R205); one found uncorrectable meanwhile stays so (R206). -/
def spadWriteback (e bank : Nat) (s : State) : State :=
  match (s.dev.eng e).writeback.find? (fun w => wordBank w = (e, bank)) with
  | none => s
  | some w =>
    let flips := Tbl.look 0 w s.mem.spadErr
    { s with
      mem := if bit flips 72 then s.mem else { s.mem with spadErr := Tbl.del w s.mem.spadErr }
      dev := s.dev.updEng e (fun k => { k with writeback := k.writeback.erase w }) }

/-- SCRATCHPAD_WRITEBACK (R205). -/
def execScratchpadWriteback (e : Fin 64) (bank : Fin 32) (s : State) : Host.Outcome State Fault Refusal :=
  .next (spadWriteback e.val bank.val s)

/-- Upsets strike words of a bank: (word in the bank, mask of flipped bits). -/
def Store.upsetWords (m : Store) (e bank : Nat) (ups : List (Nat × Nat)) : Store :=
  ups.foldl (fun m u =>
    m.flipWord ((spadKey e (bank * Config.bankBytes)) / 8 + u.1 % (Config.bankBytes / 8)) (u.2 % 2 ^ 72)) m

/-- A scrub read of the next line of a bank (R207). A scrub is no port's access: its port reads as 6 in event 0x8301 (DESIGN
CHOICE, log entry 24). -/
def scrubLine (e bank : Nat) (ups : List (Nat × Nat)) (s : State) : State :=
  let s := { s with mem := s.mem.upsetWords e bank ups }
  let line := Tbl.look 0 bank (s.dev.eng e).scrubLine
  let s := (s.runMm (spadGet e (bank * Config.bankBytes + line * 2048) 2048 6)).2
  s.onDev (fun d => d.updEng e (fun k => { k with scrubLine := Tbl.put bank ((line + 1) % 384) k.scrubLine }))

/-- SCRUB_READ (R207). -/
def execScrubRead (e : Fin 64) (bank : Fin 32) (upsets : List (Nat × Nat)) (s : State) :
    Host.Outcome State Fault Refusal := .next (scrubLine e.val bank.val upsets s)

/-- SCRUB_FORCED: the scrub takes the bank for one cycle, in which any port may stall (R202, R207). -/
def execScrubForced (e : Fin 64) (bank : Fin 32) (upsets : List (Nat × Nat)) (s : State) :
    Host.Outcome State Fault Refusal :=
  .next ((scrubLine e.val bank.val upsets s).onDev (fun d => (d.incReg (0x3000 + e.val) 0x20).portStalls e.val 2))

/-- Zero a range of a scratchpad with valid check bits. -/
def Store.zeroSpad (m : Store) (e off n : Nat) : Store :=
  { m with
    spad := cellsZero m.spad (spadKey e off) n
    spadErr := m.spadErr.filter (fun p => !(spadKey e off ≤ p.1 * 8 && p.1 * 8 < spadKey e off + n)) }

/-- A sealed context whose bank was wiped by anything but its own release (R713). -/
def Dev.sealedLoss (d : Dev) (c die cause : Nat) : Dev :=
  let d := d.stopCtx c 0x0B0B
  (d.setReg (0x4000 + c) 0x28 5).raiseCtx 0x8B06 c [c, die, cause]

/-- The commands that stalled on a die's secure bank complete as failed with 0x0B01 (R213). -/
def Dev.endStalls (d : Dev) (die : Nat) : Dev :=
  let (out, rest) := d.stalled.partition (fun q => q.1 = die)
  out.foldl (fun d q => d.markFailed q.2.1 q.2.2.1 q.2.2.2 ⟨2, 0x0B01, false, none⟩) { d with stalled := rest }

/-- WIPE_COMPLETE: the bank is zero, except the Gardener's 64 KiB where the cause keeps them; the accesses that stalled
complete as failed, the wipe is counted and event 0x8B01 raised (R210, R212 to R214, R713). -/
def wipeComplete (die : Nat) (s : State) : State :=
  match Tbl.look? die s.dev.wiping with
  | none => s
  | some (cause, holder) =>
    let n := if die = 0 && 3 ≤ cause then Config.bankBytes - 65536 else Config.bankBytes
    let s := { s with mem := s.mem.zeroSpad (16 * die) (31 * Config.bankBytes) n }
    s.onDev (fun d =>
      let d := ({ d with wiping := Tbl.del die d.wiping }).endStalls die
      let v := (d.engReg (16 * die) 0x23 + 1) % 2 ^ 32
      let d := (d.setReg (0x3000 + 16 * die) 0x23 v).raiseDev 0x8B01 [die, cause]
      match holder with
      | some c => if cause ≠ 3 then d.sealedLoss c die cause else d
      | none => d)

/-- WIPE_COMPLETE (R214). -/
def execWipeComplete (d : Fin 4) (s : State) : Host.Outcome State Fault Refusal := .next (wipeComplete d.val s)

/-! Arbiters (R215 to R226). -/

/-- The entries of an arbiter place: 0 the sync-object unit, 1 + s the TSV port of stack s, 33 + s the intake of its root
engine, 65 + 3d + j the link end of die d toward its j-th partner, 77 the management bus; index and base sub-index
(R225). -/
def placeEntry (place : Nat) : Option (Nat × Nat) :=
  if place = 0 then some (0x4C00, 0x30)
  else if place ≤ 32 then some (0x3800 + (place - 1), 0x30)
  else if place ≤ 64 then some (0x3800 + (place - 33), 0x34)
  else if place ≤ 76 then some (0x3400 + 2 * ((place - 65) / 3), 0x30 + 4 * ((place - 65) % 3))
  else if place = 77 then some (0x1100, 0x30)
  else none

/-- The row of R225 that a place belongs to: 0 sync-object unit, 1 TSV ports, 2 intakes, 3 link ends, 4 management bus. -/
def placeRow (place : Nat) : Nat :=
  if place = 0 then 0 else if place ≤ 32 then 1 else if place ≤ 64 then 2 else if place ≤ 76 then 3 else 4

/-- One cycle of an arbiter (R215 to R217, R220): requests presented join those queued; the highest-numbered input that may
be granted is; the rest queue, up to four of an input, or are held. -/
def arbCycle (a : Arb) (presented : List Nat) (limit : Nat) (blocked : List Nat) : Arb × Option (Nat × Nat) × Bool :=
  let queue := a.queue.map (fun (q : Nat × Nat) => (q.1, q.2 + 1))
  let all := queue ++ (a.held ++ presented).map (fun i => (i, 0))
  let below := all.any (fun q => q.1 < 3)
  let tsvFull := limit < 64 && below && limit ≤ (a.window.filter id).length
  let may := fun (q : Nat × Nat) => !(blocked.contains q.1) && !(tsvFull && q.1 = 3)
  let best := all.foldl (fun (b : Option Nat) q => if may q then some (max (b.getD 0) q.1) else b) none
  let granted := best.bind (fun i => all.find? (fun q => q.1 = i))
  let rest := match granted with
    | some g => all.erase g
    | none => all
  let step := rest.foldl (fun (acc : List (Nat × Nat) × List Nat) q =>
    if (acc.1.filter (fun r => r.1 = q.1)).length < 4 then (acc.1 ++ [q], acc.2) else (acc.1, acc.2 ++ [q.1])) ([], [])
  let top := match granted with
    | some g => g.1 == 3
    | none => false
  ({ a with queue := step.1, held := step.2, window := (a.window ++ [top]).drop (a.window.length + 1 - 64),
            last := granted.map (·.1) }, granted, !step.2.isEmpty)

/-- The link end at the other die of a link (R225): ends are numbered by die and by partner in ascending die number. -/
def oppositeEnd (place : Nat) : Nat :=
  let d := (place - 65) / 3
  let j := (place - 65) % 3
  let y := if j < d then j else j + 1
  65 + 3 * y + (if d < y then d else d - 1)

/-- The inputs of a link end whose requests are answered by a reply (DESIGN CHOICE, log entry 254): all but replies,
sync-object messages and harvest transfers, which are messages themselves. -/
def asksReply (input : Nat) : Bool := input == 0 || (2 ≤ input && input ≤ 5)

/-- A grant at a link end: of a request it makes a reply outstanding at the opposite end, of a reply one fewer is (R219,
R221). -/
def Dev.linkReplies (d : Dev) (place input : Nat) : Dev :=
  if placeRow place ≠ 3 then d
  else if input = 7 then { d with arbs := Tbl.upd Arb.reset place (fun a => { a with replies := a.replies - 1 }) d.arbs }
  else if asksReply input then
    { d with arbs := Tbl.upd Arb.reset (oppositeEnd place) (fun a => { a with replies := a.replies + 1 }) d.arbs }
  else d

/-- The inputs of a link end that 256 outstanding replies at the opposite end withhold (R221). -/
def Dev.linkFull (d : Dev) (place : Nat) : List Nat :=
  if placeRow place = 3 && 256 ≤ (Tbl.look Arb.reset (oppositeEnd place) d.arbs).replies then
    (List.range 8).filter asksReply
  else []

/-- An arbiter at its next cycle: at a boundary of 64 cycles a TSV port takes the limit L from its entry (R226). -/
def Arb.tick (a : Arb) (l : Nat) : Arb :=
  { a with limit := if a.cycle % 64 = 0 then l else a.limit, cycle := (a.cycle + 1) % 64 }

/-- ARBITER_GRANT: one cycle of a place in which the given inputs present a request. A forced loss (R728 kind 3, R730)
withholds the input that would win. The sync-object unit's grants are counted where they are applied (R426). -/
def arbiterGrant (place : Nat) (presented : List Nat) (d : Dev) : Dev :=
  match placeEntry place with
  | none => d
  | some (idx, b) =>
    let a := (Tbl.look Arb.reset place d.arbs).tick (d.reg idx 0x38)
    let limit := if placeRow place = 1 then a.limit else 64
    let blocked := (a.lose.filter (fun p => 0 < p.2)).map (·.1) ++ d.linkFull place
    let r := arbCycle a presented limit blocked
    let hit := match r.2.1 with
      | some g => d.perturb 3 (16 * placeRow place + g.1)
      | none => ([], d)
    let d := hit.2
    -- a firing makes the winner lose this cycle and those that follow
    let a := { a with lose := a.lose.map (fun (p : Nat × Nat) => (p.1, p.2 - 1)) }
    let (a, r) := match hit.1, r.2.1 with
      | m :: _, some g =>
        let a := { a with lose := Tbl.put g.1 (m - 1) a.lose }
        (a, arbCycle a presented limit (g.1 :: blocked))
      | _, _ => (a, arbCycle a presented limit blocked)
    let d := { d with arbs := Tbl.put place { r.1 with lose := a.lose } d.arbs }
    let d := if r.2.2 then d.incReg idx (b + 1) else d
    match r.2.1 with
    | none => d
    | some g =>
      let d := (if place = 0 then d else d.incReg idx b).linkReplies place g.1
      if d.reg idx (b + 2) < g.2 then (d.setReg idx (b + 2) g.2).setReg idx (b + 3) g.1 else d

/-- ARBITER_GRANT (R215). -/
def execArbiterGrant (place : Nat) (presented : List Nat) (s : State) : Host.Outcome State Fault Refusal :=
  .next (s.onDev (arbiterGrant place presented))

/-- LONGEST_WAIT_CLEAR (R224): only 0 is accepted. -/
def execLongestWaitClear (via : Via) (place v : Nat) (s : State) : Host.Outcome State Fault Refusal :=
  match placeEntry place with
  | none => .next s
  | some (idx, b) =>
    .next (s.dictWrite via idx (b + 2) v (fun s =>
      if v ≠ 0 then (0x0105, s) else (0, s.onDev (fun d => d.setReg idx (b + 2) 0))))

/-! Stack controllers (R228 to R264). -/

/-- Errors strike symbols of a line: (symbol, change). -/
def Store.upsetLine (m : Store) (s off : Nat) (ups : List (Nat × Nat)) : Store :=
  let ups := (ups.filter (fun u => u.1 < 72 && u.2 % 256 ≠ 0)).map (fun u => (u.1, u.2 % 256))
  if ups.isEmpty then m else m.corrupt (hbmKey s (off / 64 * 64) / 64) ups

/-- Does a stack's controller serve requests: its partition neither resetting nor out of service, MCLK locked (R616, R618,
R631, R717)? -/
def Dev.stackServes (d : Dev) (s : Nat) : Bool := d.service (partOfStk s) == 0 && d.locked 9 (s / 8)

/-- HBM_REQUEST: a granted read or write of up to 2 KiB; errors strike its first line before it is served (R231, R232, R257
to R260). -/
def hbmRequest (st input : Nat) (write : Bool) (off len data : Nat) (ctx : Option Nat) (ups : List (Nat × Nat))
    (s : State) : State :=
  if !(s.dev.stackServes st) || len = 0 || 2048 < len || Config.stackBytes < off + len then s else
  let s := { s with mem := s.mem.upsetLine st off ups }
  if write then
    let r := s.runMm (hbmPut st off (leBytes len data) input ctx)
    r.2.onDev (fun d => d.out (.memData st input [] r.1))
  else
    let r := s.runMm (hbmGet st off len input ctx)
    r.2.onDev (fun d => d.out (.memData st input r.1.1 r.1.2))

/-- HBM_REQUEST (R231). -/
def execHbmRequest (st : Fin 32) (input : Fin 4) (write : Bool) (off len data : Nat) (ctx : Option (Fin 1024))
    (upsets : List (Nat × Nat)) (s : State) : Host.Outcome State Fault Refusal :=
  .next (hbmRequest st.val input.val write off len data (ctx.map (·.val)) upsets s)

/-- A host CXL.mem access is refused (R254): counted at the stack addressed, event 0x8505 at most once per millisecond
per site. -/
def Dev.hostRefused (d : Dev) (h dpa : Nat) : Dev :=
  let st := match dpaPhys dpa with
    | some (_, _, st, _) => st
    | none => 0
  let d := d.incReg (0x3800 + st) 0x47
  let quiet := match (d.site h).refusedEv with
    | some t => decide (d.now < t + 1000000)
    | none => false
  if quiet then d else
  (d.updSite h (fun x => { x with refusedEv := some d.now })).raise 0x8505 1 h none (some h) [h, dpa]

/-- Does a site's function decode CXL.mem accesses (R536, R537, R539)? -/
def Dev.hostMem (d : Dev) (h : Nat) : Bool :=
  let x := d.site h
  let linked := x.phase = 3 || x.phase = 4 || (x.phase = 5 && x.link = 3)
  linked && x.hdm

/-- A host write to a stream window (R386 to R388). A site that is not ATTACHED submits nothing (R543 step 4, R544 step 1):
its write is dropped, of cause 2 where no cause of R389 holds (log entry 120). -/
def State.windowWrite (s : State) (h off size : Nat) (aligned : Bool) (data : Nat) : State :=
  let c := off / 16384
  let i := off % 16384 / 4096
  let slot := off % 4096 / 64
  if 1024 ≤ c then s else
  let cause := match s.dev.dropCause h c i slot size aligned data with
    | 0 => if (s.dev.site h).phase ≠ 4 then 2 else 0
    | k => k
  if cause ≠ 0 then s.onDev (fun d => d.dropWrite c i cause) else s.accept c i data

/-- What a host reads at an offset of its intake region: the status line of a stream to the context's owner, 0 elsewhere
(R386, R390). -/
def Dev.intakeRead (d : Dev) (h off len : Nat) : Nat :=
  let c := off / 16384
  let i := off % 16384 / 4096
  if c < 1024 && i < d.streamCount c && off % 4096 / 64 = 63 && d.owner c = some h then
    bytesAt ((d.stream c i).line) (off % 64) len
  else 0

/-- HOST_CXL_MEM_ACCESS (R253, R254, R539, R610): a slab that the site owns, in the view of its mode; the intake region at
HDM offset 0x600_0000_0000; anything else is answered poisoned or dropped. -/
def hostAccess (h : Nat) (write : Bool) (dpa len data : Nat) (s : State) : State :=
  if !(s.dev.hostMem h) || len = 0 || 64 < len then s else
  if 0x60000000000 ≤ dpa && dpa < 0x60002000000 then
    let off := dpa - 0x60000000000
    if write then s.windowWrite h off len (off % 64 == 0) data
    else s.onDev (fun d => d.out (.hostData h (leBytes len (d.intakeRead h off len)) false))
  else
    match s.dev.dpaCheck (some h) dpa, dpaPhys dpa with
    | none, some (_, _, st, off) =>
      if !(s.dev.stackServes st) then s else
      let s := s.onDev (fun d => d.cross (some h) (st / 8) len write)
      if write then
        let r := s.runMm (hbmPut st off (leBytes len data) 3 none)
        if r.1 then r.2.onDev (fun d => d.incReg (0x3800 + st) 0x47) else r.2
      else
        let r := s.runMm (hbmGet st off len 3 none)
        r.2.onDev (fun d => d.out (.hostData h r.1.1 r.1.2))
    | _, _ =>
      s.onDev (fun d =>
        let d := d.hostRefused h dpa
        if write then d else d.out (.hostData h (List.replicate len 0) true))

/-- HOST_CXL_MEM_ACCESS (R253). -/
def execHostCxlMemAccess (h : Fin 4) (write : Bool) (dpa len data : Nat) (s : State) :
    Host.Outcome State Fault Refusal :=
  .next (s.hostSide h.val (.hostCxlMemAccess h write dpa len data) (hostAccess h.val write dpa len data))

/-- HBM_WRITEBACK: a corrected line is written back unless a write to it came first (R259). -/
def hbmWriteback (st line : Nat) (s : State) : State :=
  let key := hbmKey st (line * 64) / 64
  if !((s.dev.stk st).writeback.contains key) then s else
  let errs := Tbl.look [] key s.mem.hbmErr
  { s with
    mem := if markedLine errs then s.mem else { s.mem with hbmErr := Tbl.del key s.mem.hbmErr }
    dev := s.dev.updStk st (fun k => { k with writeback := k.writeback.erase key }) }

/-- HBM_WRITEBACK (R259); `line` is the line's number in its stack. -/
def execHbmWriteback (st : Fin 32) (line : Nat) (s : State) : Host.Outcome State Fault Refusal :=
  .next (hbmWriteback st.val line s)

/-- The marked-lane entry of a stack (R267). -/
def Dev.laneEntry (d : Dev) (st : Nat) : Nat :=
  let n := ((d.stk st).marked.filter (fun p => p.2 = 1)).length
  let per := (List.range 64).map (fun pc => ((d.markedOf st pc).length, pc))
  let top := per.foldl (fun (a : Nat × Nat) b => if a.1 < b.1 then b else a) (0, 0)
  (n % 256) <<< 16 + min 4 top.1 <<< 8 + top.2

/-- A lane is marked failed (R258); a fifth one in a pseudo-channel fails the stack, and its partition goes out of
service (R612). -/
def State.markLane (s : State) (st pc lane cause : Nat) : State :=
  let s := s.onDev (fun d =>
    let d := d.updStk st (fun k => { k with marked := Tbl.put (pc * 36 + lane) 1 k.marked })
    d.setReg (0x3800 + st) 0x42 (d.laneEntry st))
  if 5 ≤ (s.dev.markedOf st pc).length then s.partitionOut (partOfStk st) cause (s.dev.suspects (partOfStk st)) else s

/-- LANE_MARK: sixteen corrections of this second are attributed to the lane (R258). -/
def laneMark (st pc lane : Nat) (s : State) : State :=
  let k := s.dev.stk st
  if k.laneSec ≠ s.dev.now / 1000000000 || Tbl.look 0 (pc * 36 + lane) k.laneCnt < 16 ||
      (s.dev.markedOf st pc).contains lane then s else
  (s.onDev (fun d => d.raise 0x8503 5 st none none [st, pc, lane])).markLane st pc lane 1

/-- LANE_MARK (R258). -/
def execLaneMark (st : Fin 32) (pc : Fin 64) (lane : Fin 36) (s : State) : Host.Outcome State Fault Refusal :=
  .next (laneMark st.val pc.val lane.val s)

/-- The stack offset of the n-th line of a pseudo-channel, in ascending offset (R229, R230, R261). -/
def pcLine (pc n : Nat) : Nat :=
  let low := n % 4
  let hi := n / 4 % 4
  let rest := n / 16
  -- rest holds offset bits [35:16]; bits [27:22] of the offset select the pseudo-channel together with [13:8]
  let off := rest <<< 16
  off + hi <<< 14 + ((pc ^^^ bits off 27 22) % 64) <<< 8 + low <<< 6

/-- A patrol scrub read of the next line of a pseudo-channel, 2^24 lines to a pass (R261, R264): nothing while scrub is
disabled. A pass of the stack is complete when every pseudo-channel has completed it. -/
def patrol (st pc : Nat) (ups : List (Nat × Nat)) (s : State) : State :=
  if s.dev.reg 0x2800 0x04 = 0 || s.dev.service (partOfStk st) = 1 then s else
  let n := Tbl.look 0 pc (s.dev.stk st).scrub
  let off := pcLine pc (n % 2 ^ 24)
  let s := { s with mem := s.mem.upsetLine st off ups }
  let s := (s.runMm (hbmGet st off 64 3 none)).2
  s.onDev (fun d =>
    let passes := fun (k : Stk) => (List.range 64).foldl (fun a q => min a (Tbl.look 0 q k.scrub / 2 ^ 24)) (n + 1)
    let before := passes (d.stk st)
    let d := d.updStk st (fun k => { k with scrub := Tbl.put pc (n + 1) k.scrub })
    if before < passes (d.stk st) then d.incReg (0x3800 + st) 0x45 else d)

/-- PATROL_SCRUB_READ (R261). -/
def execPatrolScrubRead (st : Fin 32) (pc : Fin 64) (upsets : List (Nat × Nat)) (s : State) :
    Host.Outcome State Fault Refusal := .next (patrol st.val pc.val upsets s)

/-- PATROL_SCRUB_FORCED (R261): the overdue scrub read goes ahead of queued requests, which are only delayed. -/
def execPatrolScrubForced (st : Fin 32) (pc : Fin 64) (upsets : List (Nat × Nat)) (s : State) :
    Host.Outcome State Fault Refusal := .next (patrol st.val pc.val upsets s)

/-- The key of a bank's refresh. -/
def bankKey (pc sid bank : Nat) : Nat := pc * 64 + sid * 16 + bank

/-- REFRESH: a refresh interval of a bank passes. While requests to the bank are queued, or its pseudo-channel retrains, the
refresh is postponed, unless one was pulled in for it; after 8 intervals it goes ahead of every request. An idle bank takes
every refresh that it owes, and one more is pulled in, up to 8 (R262, R264; how many is DESIGN CHOICE, log entry 255). -/
def refresh (st pc sid bank : Nat) (busy : Bool) (d : Dev) : Dev :=
  d.updStk st (fun k =>
    let key := bankKey pc sid bank
    let owed := Tbl.look 0 key k.postponed
    let early := Tbl.look 0 key k.ahead
    if !busy then
      { k with postponed := Tbl.del key k.postponed, ahead := Tbl.put key (min 8 (early + 1)) k.ahead }
    else if 1 < early then { k with ahead := Tbl.put key (early - 1) k.ahead }
    else if early = 1 then { k with ahead := Tbl.del key k.ahead }
    else { k with postponed := Tbl.put key (min 8 (owed + 1)) k.postponed })

/-- REFRESH (R262). -/
def execRefresh (st : Fin 32) (pc : Fin 64) (sid : Fin 4) (bank : Fin 16) (busy : Bool) (s : State) :
    Host.Outcome State Fault Refusal := .next (s.onDev (refresh st.val pc.val sid.val bank.val busy))

/-- A refresh of a bank postponed for 8 intervals goes ahead of every request, and one fewer is owed (R262); a bank that owes
fewer is forced to nothing. -/
def refreshForced (st pc sid bank : Nat) (d : Dev) : Dev :=
  let key := bankKey pc sid bank
  if Tbl.look 0 key (d.stk st).postponed < 8 then d else
  d.updStk st (fun k => { k with postponed := Tbl.put key 7 k.postponed })

/-- REFRESH_FORCED (R262). -/
def execRefreshForced (st : Fin 32) (pc : Fin 64) (sid : Fin 4) (bank : Fin 16) (s : State) :
    Host.Outcome State Fault Refusal := .next (s.onDev (refreshForced st.val pc.val sid.val bank.val))

/-- A pseudo-channel retrains (R263): counted, and its time taken. Refreshes that it postponed stand in the count of the
8 intervals; the retraining itself is over within the step. -/
def retrain (st pc : Nat) (d : Dev) : Dev :=
  let d := d.incReg (0x3800 + st) 0x43
  d.updStk st (fun k => { k with lastTrain := Tbl.put pc d.now k.lastTrain })

/-- RETRAINING (R263). -/
def execRetraining (st : Fin 32) (pc : Fin 64) (s : State) : Host.Outcome State Fault Refusal :=
  .next (s.onDev (retrain st.val pc.val))

/-- RETRAINING_FORCED (R263). -/
def execRetrainingForced (st : Fin 32) (pc : Fin 64) (s : State) : Host.Outcome State Fault Refusal :=
  .next (s.onDev (fun d => (retrain st.val pc.val d).incReg (0x3800 + st.val) 0x44))

/-! Tables (R235 to R237, R251, R446). -/

/-- Does a cached translation lie inside a range: 0 a 64 KiB page, 1 a 2 MiB page, 2 a 1 GiB page, 3 the context (R251)? -/
def XEnt.inRange (x : XEnt) (c range va : Nat) : Bool :=
  let k := if range = 0 then 16 else if range = 1 then 21 else 30
  let base := va >>> k <<< k
  x.ctx = c && (range = 3 || (x.va <<< x.size < base + 2 ^ k && base < (x.va + 1) <<< x.size))

/-- Drop the cached translations that a predicate names, in every cache. -/
def Dev.dropXlat (d : Dev) (p : XEnt → Bool) : Dev :=
  { d with
    engs := d.engs.map (fun q => (q.1, { q.2 with xc := q.2.xc.filter (fun x => !(p x)) }))
    stks := d.stks.map (fun q => (q.1, { q.2 with xc := q.2.xc.filter (fun x => !(p x)) }))
    xcP := d.xcP.map (fun q => (q.1, q.2.filter (fun x => !(p x)))) }

/-- An invalidation of cached translations, refused from the mailbox of a site when another site owns the context (R251). -/
def invalidate (via : Via) (v : Nat) (s : State) : WR :=
  let c := bits v 61 52
  if (viaHost via).any (fun h => (s.dev.owner c).any (· != h)) then (0x0508, s)
  else (0, s.onDev (fun d => d.dropXlat (fun x => x.inRange c (bits v 63 62) (bits v 51 16 * 65536))))

/-- TRANSLATION_INVALIDATE (R251). Accesses are whole steps, so none is in flight when the write completes. -/
def execTranslationInvalidate (via : Via) (v : Nat) (s : State) : Host.Outcome State Fault Refusal :=
  .next (s.dictWrite via 0x2800 0x02 v (invalidate via v))

/-- Is a slab table refused (R235)? A change to free is a change of mode that every slab may make (log entry 25). -/
def Dev.slabBad (d : Dev) (table : Nat) : Bool :=
  (List.range 32).any (fun st => (List.range 64).any (fun i =>
    let b := bytesAt table (64 * st + i) 1
    let old := d.slab st i
    let mode := b / 64
    let mask := b % 16
    if i = 63 then b ≠ 0 else
    (mode = 0 && mask ≠ 0) || (mode ≠ 0 && mask = 0) ||
    (List.range 4).any (fun h => bit mask h && !(d.populated h)) ||
    (mode = 2 && (List.range 4).any (fun j => bytesAt table (64 * (st / 4 * 4 + j) + i) 1 ≠ b)) ||
    (mode = 3 && (List.range 32).any (fun j => bytesAt table (64 * j + i) 1 ≠ b)) ||
    (mode ≠ old / 64 && mode ≠ 0 && old % 16 ≠ 0)))

/-- The slabs, as (stack, slab), that a translation's leaf reaches. -/
def leafSlabs (leaf : Nat) : List (Nat × Nat) :=
  if bit leaf 60 then [] else
  let dpa := bits leaf 42 16 * 65536
  match bits dpa 42 41 with
  | 0 => [(bits dpa 40 36, bits dpa 35 30)]
  | 1 => (List.range 4).map (fun j => (4 * bits dpa 40 38 + j, bits dpa 37 32))
  | 2 => (List.range 32).map (fun j => (j, bits dpa 40 35))
  | _ => []

/-- Zero a slab with valid check bytes (R236). -/
def Store.zeroSlab (m : Store) (st i : Nat) : Store :=
  let a := hbmKey st (i * 2 ^ 30)
  { m with
    hbm := cellsZero m.hbm a (2 ^ 30)
    hbmErr := m.hbmErr.filter (fun p => !(a ≤ p.1 * 64 && p.1 * 64 < a + 2 ^ 30)) }

/-- SLAB_TABLE_WRITE (R235 to R237): the table is applied whole, after translations into changed slabs are dropped and
slabs that lost an owner are zeroed. -/
def slabTableWrite (table : Nat) (s : State) : WR :=
  if s.dev.slabBad table then (0x0507, s) else
  let all := (List.range 32).flatMap (fun st => (List.range 64).map (fun i => (st, i)))
  let new := fun (q : Nat × Nat) => bytesAt table (64 * q.1 + q.2) 1
  let changed := all.filter (fun (q : Nat × Nat) => new q ≠ s.dev.slab q.1 q.2)
  let lost := changed.filter (fun (q : Nat × Nat) => clearMask (s.dev.slab q.1 q.2 % 16) (new q % 16) ≠ 0)
  let s := { s with mem := lost.foldl (fun m (q : Nat × Nat) => m.zeroSlab q.1 q.2) s.mem }
  (0, s.onDev (fun d =>
    (d.dropXlat (fun x => (leafSlabs x.leaf).any (fun q => changed.contains q))).setReg 0x2800 0x01 table))

/-- SLAB_TABLE_WRITE (R236). -/
def execSlabTableWrite (via : Via) (table : Nat) (s : State) : Host.Outcome State Fault Refusal :=
  .next (s.dictWrite via 0x2800 0x01 table (slabTableWrite table))

/-- BANK_GRANT_WRITE: a bank whose grant loses a site is zeroed before the write completes (R446). -/
def bankGrantWrite (e v : Nat) (s : State) : WR :=
  let old := s.dev.engReg e 0x25
  let lost := (List.range 32).filter (fun b => clearMask (bits old (4 * b + 3) (4 * b)) (bits v (4 * b + 3) (4 * b)) ≠ 0)
  let s := { s with mem := lost.foldl (fun m b => m.zeroSpad e (b * Config.bankBytes) Config.bankBytes) s.mem }
  (0, s.onDev (fun d => d.setReg (0x3000 + e) 0x25 v))

/-- BANK_GRANT_WRITE (R446). -/
def execBankGrantWrite (via : Via) (e : Fin 64) (v : Nat) (s : State) : Host.Outcome State Fault Refusal :=
  .next (s.dictWrite via (0x3000 + e.val) 0x25 v (bankGrantWrite e.val v))

end Sys2Proof.Machine
end

