-- ==== Sys2Proof/Machine/Root.lean ====
section
/-! DEFINITION. Root engines: job records and their forwarding by RJOBS, the start and the end of a job, STAGE, COMPRESS,
COPY, CONVERT, STREAM_IN, translation replies (R270 to R307, R412, R413, R622). -/
namespace Sys2Proof.Machine
open Sys2Proof

/-- The use of a root engine's accesses through a TSV-port input; `own` asks for its own stack (R17, R241). -/
def rootUse (c s input : Nat) (own : Bool) : Using :=
  { who := .root s, ctx := c, part := partOfStk s, port := 0, input := input, b30 := 0x030C, own := own, place := none,
    onlySpad := false }

/-- Formats of a working copy (R278). -/
def copyFmt (f : Nat) : Bool := [0x1, 0x2, 0x3, 0x4, 0x5, 0x6, 0xC, 0xD].contains f

/-- R279 and R280 on the fields of a record that root engine `s` receives: the reason code, 0 for a good one. -/
def jobCode (r : JobRec) (s : Nat) : Nat :=
  let zero := match r.ty with
    | 1 => r.src0 = 0 && r.src1 = 0
    | 2 => r.aux = 0
    | 3 => true
    | 4 | 5 | 6 => r.src1 = 0 && r.aux = 0
    | 7 => r.src0 = 0 && r.src1 = 0
    | _ => false
  let emit := match r.ty with
    | 2 => r.emit = 1
    | 6 => r.emit = 1 || r.emit = 2
    | _ => r.emit = 0
  if !zero || !emit || r.reserved ≠ 0 || r.stack ≠ s || r.count = 0 || (r.ty ≠ 5 && r.conv ≠ 0) then 0x0601
  else if r.conv % 8 ≥ 5 then 0x0401 else 0

/-- The descriptor operands of a record, and whether each is written (R278). -/
def jobOperands (r : JobRec) : List (Nat × Bool) :=
  let opt := fun (va : Nat) (w : Bool) => if va = 0 then [] else [(va, w)]
  match r.ty with
  | 1 | 7 => [(r.dst, true)]
  | 2 => (r.src0, false) :: opt r.src1 true
  | 3 => opt r.src1 false ++ opt r.dst true
  | 6 => [(r.src0, false)]
  | _ => [(r.src0, false), (r.dst, true)]

/-- Does a type accept the formats of its operands (R278, R280)? The descriptors stand as `jobOperands` lists them. -/
def jobFormats (r : JobRec) (ds : List Desc) : Bool :=
  let f := fun (i : Nat) => (ds.map (·.fmt)).getD i 0xF
  match r.ty with
  | 1 => f 0 = 0x1
  | 2 => (f 0 = 0x0 || f 0 = 0x1) && (r.src1 = 0 || f 1 = 0xD)
  | 3 => (r.src1 = 0 || f 0 = 0xA) && (r.dst = 0 || copyFmt (f (b2n (r.src1 ≠ 0))))
  | 4 => f 0 = 0xE && copyFmt (f 1)
  | _ => true

/-- The address ranges of a tensor: its elements, and its block scales (R419, R33). -/
def Desc.extents (d : Desc) : List (Nat × Nat) :=
  let last := (List.range 4).foldl (fun a i => a + (d.size i - 1) * d.stride i) 0
  let (k, b) := packInfo d.fmt
  (d.base, (last / k + 1) * b) :: (if isBlock d.fmt then [(d.scalePtr, last / 32 + 1)] else [])

/-- Translate a range for a root engine: the partition's unit delivers the leaf into the engine's cache, and the access is checked
as the engine will make it (R281, R241). -/
def forwardRange (c s : Nat) (write : Bool) : Nat → Nat → Nat → Act Unit
  | 0, _, _ => return ()
  | fuel + 1, va, n => do
    if n = 0 then return ()
    let k := min n (4096 - va % 4096)
    let x ← leafOf (schedUse c (partOfStk s)) va
    Act.upd (fun d => d.xcFill (.root s) (partOfStk s) x)
    let _ ← translate (rootUse c s 1 true) va write
    forwardRange c s write fuel (va + k) (n - k)

/-- Put a job into the queue of its root engine (R282). -/
def Dev.queueJob (d : Dev) (s : Nat) (j : JobIn) : Dev :=
  d.updStk s (fun k => { k with queue := k.queue ++ [
    { j := j, policy := (d.ctx j.ctx.val).policy, started := false,
      released := !j.r.waitEn || decide (j.r.waitVal ≤ d.counter j.r.waitObj), jobHold := false, written := 0 }] })

/-- Records that wait at a root engine: of these the first 16 stand in its job queue and up to 4 more at its intake; before the
engine is ON the intake holds them all (R216, R270, R276). -/
def Dev.waitingRecords (d : Dev) (s : Nat) : Nat := ((d.stk s).queue.filter (fun r => !r.started)).length

/-- Does the intake of a root engine accept a record: it has room, and no earlier record waits for it (R217, R270, R276)? -/
def Dev.intakeRoom (d : Dev) (s : Nat) : Bool :=
  d.waitingRecords s < (if d.fn (0x3800 + s) = 2 then 20 else 4) && !(d.fwd.any (fun f => f.stack = s))

/-- The descriptors of a record's operands, read by the partition's scheduler, which delivers what they say with the record
(R17, R281, R413; DEDUCED, log entry 220). -/
def jobDescs (c : Nat) (r : JobRec) : Act (List Desc) :=
  (jobOperands r).mapM (fun p => readDesc (schedUse c (partOfStk r.stack)) p.1)

/-- The precision areas that a record names, checked: well formed (R107); of a destination whole rotation groups (R146), and
its widen and check-copy regions in the engine's own stack (R298). -/
def jobAreas (c : Nat) (r : JobRec) (ds : List Desc) : Act Unit := do
  for (x, p) in ds.zip (jobOperands r) do
    match ← readArea (rootUse c r.stack 1 true) x none with
    | none => pure ()
    | some h =>
      if p.2 && 3 ≤ r.ty && r.ty ≤ 5 then
        -- an UPDATE of listed rows writes whole rows
        let n := if r.ty = 3 && r.src1 ≠ 0 then x.size 0 else min r.count x.total
        Act.refuseIf (!(rotWhole x (some h) 0 n)) 0x0406
        for (va, n) in h.extents x do
          forwardRange c r.stack true (n / 4096 + 2) va n

/-- A refusal under R279 or R280 counts in 0x3800+s:04 (R304). -/
def refuseJob (s : Nat) (b : Bool) (code : Nat) : Act Unit := do
  if b then
    Act.upd (fun d => d.incReg (0x3800 + s) 0x04)
    Act.refuse code

/-- Check, translate and forward one record (R413). -/
def forwardJob (c : Fin 1024) (stamp : Nat) (r : JobRec) : Act Unit := do
  let s := r.stack
  let code := jobCode r s
  refuseJob s (code ≠ 0) code
  let ops := jobOperands r
  let ds ← jobDescs c.val r
  refuseJob s (!(jobFormats r ds)) 0x0402
  jobAreas c.val r ds
  let d ← Act.dev
  Act.refuseIf (d.service (partOfStk s) = 2) 0x030F
  Act.refuseIf ((r.sigEn && !(d.ownsObj c.val r.sigObj)) || (r.waitEn && !(d.waitsObj c.val r.waitObj))) 0x0203
  for (x, p) in ds.zip ops do
    for (va, n) in x.extents do
      forwardRange c.val s p.2 (n / 4096 + 2) va n
  if r.ty = 1 then forwardRange c.val s true (r.count / 1024 + 2) r.aux (4 * (r.count + 1))
  if r.ty = 3 then
    forwardRange c.val s false 2 r.src0 128
    forwardRange c.val s true 2 r.aux 16
  Act.upd (fun d => d.queueJob s { ctx := c, stamp := stamp, r := r })

/-- Forward `n` records of a list from the i-th one on, as far as their intakes have room: none when all are forwarded,
otherwise the record that waits and its stack (R413). -/
def forwardFrom (o : Origin) (list : Nat) : Nat → Nat → Act (Option (Nat × Nat))
  | 0, _ => return none
  | n + 1, i => do
    let raw ← vreadNat (schedUse o.ctx.val 0) (list + 64 * i) 64
    let r := jobRecOf raw
    let d ← Act.dev
    if !(d.intakeRoom r.stack) then return some (i, r.stack)
    forwardJob o.ctx o.stamp r
    forwardFrom o list n (i + 1)

/-- RJOBS: the records in list order; it is done when the last is forwarded (R413). -/
def rjobs (o : Origin) (list count reserved : Nat) : Act Bool := do
  plainHeader o (reserved + list % 64)
  Act.refuseIf (count = 0 || 65535 < count) 0x0201
  match ← forwardFrom o list count 0 with
  | none => return true
  | some (i, st) =>
    Act.upd (fun d => { d with fwd := d.fwd ++ [⟨o, list, count, i, st⟩] })
    return false

/-- The RJOBS commands that wait go on as far as the intakes have room; one that is no longer in its scoreboard is dropped
(R413). -/
def State.forwarded (s : State) : State :=
  if s.dev.fwd.isEmpty then s else
  s.dev.fwd.foldl (fun s f =>
    let c := f.o.ctx.val
    let i := f.o.stream.val
    if !((s.dev.stream c i).run.any (fun e => e.seq = f.o.seq && e.op = 0x60 && e.status = 0)) then s else
    let r := s.runAct (forwardFrom f.o f.list (f.count - f.next) f.next)
    match r.1 with
    | .ok none => r.2.onDev (fun d => d.markDone c i f.o.seq)
    | .ok (some (n, st)) => r.2.onDev (fun d => { d with fwd := d.fwd ++ [{ f with next := n, stack := st }] })
    | .error e => r.2.onDev (fun d => d.markFailed c i f.o.seq { e with cause := 2 }))
    (s.onDev (fun d => { d with fwd := [] }))

/-- The input at which the signal of an RJOBS enters: the scheduler of the partition of its first record's stack (R438,
R758). -/
def State.rjobsInput (s : State) (c list : Nat) : Nat :=
  match (s.runAct (vreadNat (schedUse c 0) list 64)).1 with
  | .ok raw => 5 + partOfStk (jobRecOf raw).stack
  | .error _ => 5

/-- RJOBS (R413). -/
def execRjobs (o : Origin) (list count reserved : Nat) (s : State) : Host.Outcome State Fault Refusal :=
  .next (s.issueCmd o 0x60 (s.rjobsInput o.ctx.val list)
    (cmdOf o 0x60 reserved (rjobsFields list count)) (rjobs o list count reserved))

/-! Undo records (R622, R623). -/

/-- Append an undo record of a context on a stack. The coordinator reads the table of undo areas, which lies in no root
engine's stack (R17). -/
def undoAppend (c s : Nat) (rec_ : List Nat) : Act Unit := do
  let d ← Act.dev
  let r := (d.ctx c).rep
  if !(d.replayOn c) || r.marked then return ()
  let tab := bits (d.ctxReg c 0x27) 51 0
  let e ← if tab = 0 then pure 0 else vreadNat (coordUse c) (tab + 16 * s) 16
  let cap := bits e 95 64
  let kept := Tbl.look [] s r.undo
  if cap ≤ kept.length then Act.upd (fun d => d.markUnreplayable c)
  else
    let n := Tbl.look 0 s r.undoTail + kept.length
    vwrite (rootUse c s 1 true) (bits e 51 0 + 64 * (n % cap)) (leBytes 64 (Config.undoBytes rec_))
    Act.upd (fun d => d.updCtx c (fun x => { x with rep := { x.rep with undo := Tbl.put s (kept ++ [rec_]) x.rep.undo } }))

/-! The life of a job (R282 to R285). -/

/-- Does a root engine start jobs: ON, its partition in service, its clocks locked (R276, R717)? -/
def Dev.rootRuns (d : Dev) (s : Nat) : Bool := d.fn (0x3800 + s) == 2 && d.stackServes s

/-- A job leaves its queue and gives its signal (R283). -/
def Dev.jobRetired (d : Dev) (s : Nat) (r : RJob) : Dev :=
  let d := (d.updStk s (fun k => { k with queue := k.queue.erase r })).incReg (0x3800 + s) 0x03
  if r.j.r.sigEn then d.signal 13 r.j.r.sigObj false 1 else d

/-- Discard jobs of a context from a queue that have not started, with their waits; answers how many. -/
def Dev.discardJobs (d : Dev) (s c : Nat) : Dev :=
  let n := ((d.stk s).queue.filter (fun r => r.j.ctx.val = c && !r.started)).length
  (d.updStk s (fun k => { k with queue := k.queue.filter (fun r => !(r.j.ctx.val = c && !r.started)) })).addReg
    (0x3800 + s) 0x04 n

/-- A job fails (R285, R611): no signal; on poison event 0x8602 and the context's later jobs are discarded; a job refused under
R279, R280 or R287 counts in 0x3800+s:04 (R304). The fence of the context will fail (R344). -/
def Dev.jobFailed (d : Dev) (s : Nat) (r : RJob) (f : Fail) : Dev :=
  let c := r.j.ctx.val
  let d := d.updStk s (fun k => { k with queue := k.queue.erase r })
  let d := d.updUpd c (fun u => { u with rootFailed := true })
  if f.poison then (d.raiseCtx 0x8602 c [s, c, r.j.r.ty]).discardJobs s c
  else if f.cause = 1 && ([0x0401, 0x0601, 0x0603].contains f.code || (f.code = 0x0402 && r.j.r.ty ≠ 3)) then
    d.incReg (0x3800 + s) 0x04
  else d

/-- Do ranges of a stack overlap ranges of an image that still wait to be streamed (R358)? -/
def Dev.unstreamed (d : Dev) (c s : Nat) (rs : List (Nat × Nat)) : Bool :=
  match (d.upd c).sec with
  | none => false
  | some x => x.image ≠ 0 && x.ranges.any (fun g => g.stack = s &&
      g.runs.any (fun p => rs.any (fun q => p.1 < q.1 + q.2 && q.1 < p.1 + p.2)))

/-- The runs of a stack that ranges of addresses occupy. -/
def stackRuns (u : Using) (write : Bool) (xs : List (Nat × Nat)) : Act (List (Nat × Nat)) := do
  let mut out : List (Nat × Nat) := []
  for (va, n) in xs do
    let ps ← locate u write va n
    out := out ++ ps.filterMap (fun p => match p.1 with
      | .hbm _ off => some (off, p.2)
      | .spad _ _ => none)
  return out

/-- A job of a context is held for securing: event 0x8A05 once per context and step (R358). -/
def Dev.holdEvent (d : Dev) (c : Nat) : Dev :=
  let step := d.ctxReg c 0x08
  match (d.upd c).sec with
  | some x => if x.heldStep = some step then d
    else (d.updUpd c (fun u => { u with sec := some { x with heldStep := some step } })).raiseCtx 0x8A05 c [c, step]
  | none => d

/-- A job that would write an unstreamed range is held (R358). -/
def Dev.holdJob (d : Dev) (s : Nat) (r : RJob) : Dev :=
  (d.updStk s (fun k => { k with queue := k.queue.map (fun x => if x = r then { x with jobHold := true } else x) })).holdEvent
    r.j.ctx.val

/-- Is the unit of the root engine free that a job needs: the pipeline holds while an emission waits (R296), the stream mover
takes one STREAM_IN at a time (R302)? -/
def Dev.unitFree (d : Dev) (s ty : Nat) : Bool :=
  let k := d.stk s
  if ty = 7 then !(k.queue.any (fun x => x.started && x.j.r.ty = 7))
  else if 2 ≤ ty && ty ≤ 5 then k.emits.isEmpty else true

/-- May a queued job start: its engine runs, it stands in the job queue of 16 and not at the intake, its wait is released,
every earlier job of its context has started, its unit is free (R270, R276, R282, R283, R296, R302)? -/
def Dev.mayStart (d : Dev) (s : Nat) (r : RJob) : Bool :=
  let ahead := (d.stk s).queue.takeWhile (fun x => x ≠ r)
  let before := ahead.filter (fun x => x.j.ctx = r.j.ctx)
  d.rootRuns s && r.released && !r.started && before.all (·.started) && d.unitFree s r.j.r.ty &&
    (ahead.filter (fun x => !x.started)).length < 16

/-- The first job of a queue that is the one named and has not started. -/
def Dev.waitingJob (d : Dev) (s : Nat) (j : JobIn) : Option RJob :=
  (d.stk s).queue.find? (fun r => r.j = j && !r.started)

/-- A job as its root engine receives it, unless it is queued already: a malformed one is refused and counted (R279); one for
which the intake has no room stays with its sender (R217). -/
def Dev.receiveJob (d : Dev) (s : Nat) (j : JobIn) : Dev :=
  if (d.waitingJob s j).isSome then d
  else if jobCode j.r s ≠ 0 then d.incReg (0x3800 + s) 0x04
  else if !(d.intakeRoom s) then d
  else d.queueJob s j

/-- The checks of a job on the operands that it names, as at its forwarding: formats (R280; an UPDATE checks its own, R316) and
precision areas. -/
def jobOk (r : RJob) : Act Unit := do
  let c := r.j.ctx.val
  let ds ← jobDescs c r.j.r
  Act.refuseIf (r.j.r.ty ≠ 3 && !(jobFormats r.j.r ds)) 0x0402
  jobAreas c r.j.r ds

/-- How a run ends: the job is over, or it stays with its engine (armed, or waiting for its emissions or its data). -/
inductive JobEnd where
  | over
  | stays
  deriving DecidableEq, Repr

/-- Run a job of type `ty`: received if need be, checked, held back where its writes meet an image, started and run. -/
def rootJob (ty s : Nat) (j : JobIn) (writes : RJob → Act (List (Nat × Nat))) (run : RJob → Act JobEnd) (st : State) :
    State :=
  if j.r.ty ≠ ty then st.onDev (fun d => d.incReg (0x3800 + s) 0x04) else
  let st := st.onDev (fun d => d.receiveJob s j)
  match st.dev.waitingJob s j with
  | none => st
  | some r =>
    if !(st.dev.mayStart s r) then st else
    let w := st.runAct (do jobOk r; writes r)
    match w.1 with
    | .error f => w.2.onDev (fun d => d.jobFailed s r f)
    | .ok rs =>
      if st.dev.unstreamed j.ctx.val s rs then st.onDev (fun d => d.holdJob s r) else
      let go := { r with started := true, jobHold := false }
      let st := st.onDev (fun d => d.updStk s (fun k => { k with queue := k.queue.map (fun x => if x = r then go else x) }))
      let e := st.runAct (run go)
      match e.1 with
      | .error f => e.2.onDev (fun d => d.jobFailed s go f)
      | .ok .over => e.2.onDev (fun d => d.jobRetired s go)
      | .ok .stays => e.2

/-- A job that writes no range of an image. -/
def noWrites (_ : RJob) : Act (List (Nat × Nat)) := return []

/-- The job pipeline of a stack is busy for a context for n cycles: they are counted and feed the energy model (R304, R570). -/
def Dev.pipeBusy (d : Dev) (s c n : Nat) : Dev := (d.addReg (0x3800 + s) 0x0B n).addAct (s / 4) c 9 n

/-- Work of the job pipeline: elements, and cycles at the rate of R278 in elements per BCLK (log entry 27). -/
def Dev.pipeline (d : Dev) (s c n rate : Nat) : Dev := (d.addReg (0x3800 + s) 0x05 n).pipeBusy s c (ceilDiv n rate)

/-! STAGE (R287). -/

/-- A STAGE job arms the staging unit: refused beside another of its context and tensor id, kept waiting behind eight. -/
def stageRun (s : Nat) (r : RJob) : Act JobEnd := do
  let d ← Act.dev
  let k := d.stk s
  Act.refuseIf (k.arms.any (fun a => a.j.ctx = r.j.ctx && a.j.r.tensor = r.j.r.tensor)) 0x0603
  let c := r.j.ctx.val
  let x ← readDesc (schedUse c (partOfStk s)) r.j.r.dst
  Act.upd (fun d => d.updStk s (fun k => { k with queue := k.queue.erase r, arms := k.arms ++ [⟨r.j, x, [], false⟩] }))
  Act.upd (fun d => d.updUpd c (fun u => { u with staged := Tbl.put r.j.r.dst r.j.r.tensor u.staged }))
  return .stays

/-- The ranges that a STAGE writes: its staged gradient and its partials (R287, R290). -/
def stageWrites (s : Nat) (r : RJob) : Act (List (Nat × Nat)) := do
  let d ← readDesc (schedUse r.j.ctx.val (partOfStk s)) r.j.r.dst
  stackRuns (rootUse r.j.ctx.val s 2 true) true (d.extents ++ [(r.j.r.aux, 4 * (r.j.r.count + 1))])

/-- STAGE (R287). -/
def execStage (st : Fin 32) (j : JobIn) (s : State) : Host.Outcome State Fault Refusal :=
  let s := s.forwarded
  .next (if 8 ≤ (s.dev.stk st.val).arms.length then s.onDev (fun d => d.receiveJob st.val j)
    else rootJob 1 st.val j (stageWrites st.val) (stageRun st.val) s)

/-! COMPRESS (R294 to R296, R140 to R143). -/

/-- The exact power of two as FP32. -/
def pow2 (e : Int) : Nat :=
  if e < -126 then 0 else if 127 < e then 0x7F800000 else (e + 127).toNat <<< 23

/-- An arithmetic whose own counts of NaNs are not kept: 0x5000:06 counts NaNs that are written (R56). -/
def noNans {α : Type} (m : Num α) : Num α := do
  let (v, t) := m.run []
  let _ ← (t.filter (fun (p : Nat × Nat) => p.1 ≠ 0x06)).mapM (fun p => Num.count p.1 p.2)
  return v

/-- What a group of 32 gives: the compressed codes and scale, decoded values, the new residual. -/
structure CompGroup where
  enc : BlkEnc
  dec : List Nat
  res : List Nat
  nan : Bool
  sums : List Nat
  deriving DecidableEq, Repr

/-- Steps 2 to 4 of R294 on one group: local gradients and residuals as FP32, their indices. An element whose sum is not finite
counts once (R142). -/
def compGroup (rnd : Rnd) (g res idx : List Nat) (withRes : Bool) : Num CompGroup := do
  let sums ← if withRes then noNans ((g.zip res).mapM (fun p => add32 p.1 p.2)) else pure g
  let els : List SrcEl := (sums.zip idx).map (fun p => ⟨p.1, 0, p.2⟩)
  let (enc, _) ← encodeBlock false 0x3 one32 els sums [] [] rnd
  let dec ← enc.codes.mapM (fun c => decodeBlock 0xD enc.scale c one32)
  let new ← (sums.zip dec).mapM (fun p => do
    if isFinite32 p.1 then sub32 p.1 p.2 else do
      if withRes then countNan
      return 0)
  return ⟨enc, dec, new, dec.any isNan32, sums⟩

/-- A COMPRESS job: the whole of its elements, its emissions queued in units of 32 Ki elements (R294, R296). -/
def compressRun (s : Nat) (r : RJob) : Act JobEnd := do
  let j := r.j
  let c := j.ctx.val
  let u := rootUse c s 1 true
  let src ← readDesc (schedUse c (partOfStk s)) j.r.src0
  let n := min j.r.count src.total
  let withRes := decide (j.r.src1 ≠ 0) && r.policy.feedback
  let res ← if withRes then some <$> readDesc (schedUse c (partOfStk s)) j.r.src1 else pure none
  let at_ := fun (d : Desc) => (List.range n).map (coordsOf d.sizes)
  let gs ← do
    let els ← readBase u src (at_ src)
    Act.num none (els.mapM (fun e => e.value src.tile))
  let d ← Act.dev
  -- the residuals follow a changed pre-scale exponent of the tensor's parameter block (R143, R654, log entry 28)
  let key := j.r.tensor * 32 + s
  let seen := Tbl.look? key (d.upd c).pre
  let found ← match Tbl.look? key (d.upd c).blocks with
    | some va => Act.peek (vreadNat u (va + 3) 1)
    | none => pure none
  let at? := (found.map (toSigned 8)).orElse (fun _ => seen)
  let now := at?.getD 0
  let was := ((Tbl.look? j.r.src1 (d.upd c).resid).orElse (fun _ => seen)).getD now
  let (old, oldEls) ← match res with
    | none => pure ([], [])
    | some rd => do
      let els ← readBase u rd (at_ rd)
      let vs ← Act.num none (els.mapM (fun e => do
        let v ← e.value rd.tile
        if now = was then return v else mul32 v (pow2 (now - was))))
      pure (vs, els)
  if withRes && at?.isSome then Act.upd (fun d => d.updUpd c (fun x => { x with resid := Tbl.put j.r.src1 now x.resid }))
  let rnd : Rnd := ⟨r.policy.gradRnd, true, d.seed c, j.r.tensor, j.stamp⟩
  let idx := (List.range n).map (j.r.origin + ·)
  let groups := (chunksOf 32 gs).zip ((chunksOf 32 (if withRes then old else gs)).zip (chunksOf 32 idx))
  let out ← Act.num none (groups.mapM (fun (a, b, i) => compGroup rnd a b i withRes))
  match res with
  | none => pure ()
  | some rd => do
    let cs := at_ rd
    for (p, i) in (chunksOf 32 oldEls).zipIdx do
      let pos := rd.pos (cs.getD (32 * i) [])
      undoAppend c s ([1, rd.base + pos, rd.scalePtr + pos / 32, (p.map (·.scale)).headD 0] ++ p.map (·.code))
    let q : Prod := { u := u, eng := none, d := rd, h := none, rnd := ⟨0, true, d.seed c, j.r.tensor, j.stamp⟩, ovf := 0,
                      src := 0, pol := r.policy, runners := false, pieces := false }
    produceFlat q ((cs.zip (out.flatMap (·.res))).map (fun v => ⟨v.1, v.2, 0⟩))
  if out.any (·.nan) then Act.upd (fun d => d.raiseOnce 0x8401 c j.r.tensor j.stamp [j.r.tensor, j.stamp])
  let zero := gs.all (fun v => abs32 (canon fp32 v) = 0)
  let sat := out.any (fun g => g.enc.satur || g.enc.clamped ≠ 0)
  Act.upd (fun d =>
    let see := fun (p : Bool × Bool) => (p.1 && zero, p.2 || sat)
    let d := d.updUpd c (fun x => { x with obs := Tbl.upd (true, false) j.r.tensor see x.obs })
    let ems := (chunksOf 32768 (out.flatMap (·.dec))).zipIdx.map (fun (p : List Nat × Nat) => (⟨j, 2 * p.2, p.1⟩ : Emis))
    let bytes := n + ceilDiv n 32
    (((d.updStk s (fun k => { k with emits := k.emits ++ ems })).pipeline s c n 64)).addReg (0x3800 + s) 0x0C bytes)
  return .stays

/-- The ranges that a COMPRESS writes. -/
def compressWrites (s : Nat) (r : RJob) : Act (List (Nat × Nat)) := do
  if r.j.r.src1 = 0 || !r.policy.feedback then return []
  let d ← readDesc (schedUse r.j.ctx.val (partOfStk s)) r.j.r.src1
  stackRuns (rootUse r.j.ctx.val s 1 true) true d.extents

/-- COMPRESS (R294). -/
def execCompress (st : Fin 32) (j : JobIn) (s : State) : Host.Outcome State Fault Refusal :=
  .next (rootJob 2 st.val j (compressWrites st.val) (compressRun st.val) s.forwarded)

/-! COPY and CONVERT (R297 to R299). -/

/-- The masters at coordinates: their M48 codes, or the FP32 codes of their values where the tensor carries a tile scale
(R755, log entry 232). The format of the codes comes first. -/
def masterValues (u : Using) (d : Desc) (cs : List (List Nat)) : Act (Nat × List Nat) := do
  let ws ← readCoords u d cs
  if d.tile = one32 then return (0xE, ws)
  return (0x0, ← Act.num none (ws.mapM (fun w => tiled 0xE w d.tile)))

/-- Convert masters into a working copy: codes of a format, the copy's descriptor and area (R297, R41). -/
def copyValues (s : Nat) (r : RJob) (dst : Desc) (h : Option PrecH) (fmt : Nat) (vs : List (List Nat × Nat)) :
    Act Unit := do
  let c := r.j.ctx.val
  let d ← Act.dev
  let p : Prod := { u := rootUse c s 1 true, eng := none, d := dst, h := h,
                    rnd := ⟨0, false, d.seed c, r.j.r.tensor, r.j.stamp⟩, ovf := 0, src := fmt,
                    pol := (d.ctx c).policy, runners := true, pieces := false }
  produce p (vs.map (fun v => ⟨v.1, v.2, 0⟩))

/-- A COPY job. -/
def copyRun (s : Nat) (r : RJob) : Act JobEnd := do
  let c := r.j.ctx.val
  let u := rootUse c s 1 true
  let src ← readDesc (schedUse c (partOfStk s)) r.j.r.src0
  let dst ← readDesc (schedUse c (partOfStk s)) r.j.r.dst
  let h ← readArea u dst none
  let n := min r.j.r.count (min src.total dst.total)
  let (f, ws) ← masterValues u src ((List.range n).map (coordsOf src.sizes))
  copyValues s r dst h f (((List.range n).map (coordsOf dst.sizes)).zip ws)
  Act.upd (fun d => d.pipeline s c n 128)
  return .over

/-- The ranges of a destination and of its precision area. -/
def dstExtents (u : Using) (d : Desc) : Act (List (Nat × Nat)) := do
  let h ← readArea u d none
  return d.extents ++ (match h with
    | some h => h.extents d
    | none => [])

/-- The ranges that a job with a destination writes. -/
def dstWrites (s : Nat) (r : RJob) : Act (List (Nat × Nat)) := do
  let u := rootUse r.j.ctx.val s 1 true
  let d ← readDesc (schedUse r.j.ctx.val (partOfStk s)) r.j.r.dst
  stackRuns u true (← dstExtents u d)

/-- COPY (R297). -/
def execCopy (st : Fin 32) (j : JobIn) (s : State) : Host.Outcome State Fault Refusal :=
  .next (rootJob 4 st.val j (dstWrites st.val) (copyRun st.val) s.forwarded)

/-- A CONVERT job (R299). -/
def convertRun (s : Nat) (r : RJob) : Act JobEnd := do
  let c := r.j.ctx.val
  let u := rootUse c s 1 true
  let src ← readDesc (schedUse c (partOfStk s)) r.j.r.src0
  let dst ← readDesc (schedUse c (partOfStk s)) r.j.r.dst
  let hs ← readArea u src none
  let hd ← readArea u dst none
  let n := min r.j.r.count (min src.total dst.total)
  let els ← readEls u src hs ((List.range n).map (coordsOf src.sizes))
  let d ← Act.dev
  let wide := src.fmt = 0xE && src.tile = one32
  let vs ← if wide then pure (els.map (fun e => (0xE, e.code))) else Act.num none (els.mapM (fun e => e.exact src.tile))
  let p : Prod := { u := u, eng := none, d := dst, h := hd,
                    rnd := ⟨r.j.r.conv % 8, bit r.j.r.conv 4, d.seed c, r.j.r.tensor, r.j.stamp⟩,
                    ovf := b2n (bit r.j.r.conv 3), src := (vs.headD (0x10, 0)).1, pol := r.policy, runners := true, pieces := false }
  produce p ((((List.range n).map (coordsOf dst.sizes)).zip vs).zipIdx.map (fun q => ⟨q.1.1, q.1.2.2, r.j.r.origin + q.2⟩))
  Act.upd (fun d => d.pipeline s c n 128)
  return .over

/-- CONVERT (R299). -/
def execConvert (st : Fin 32) (j : JobIn) (s : State) : Host.Outcome State Fault Refusal :=
  .next (rootJob 5 st.val j (dstWrites st.val) (convertRun st.val) s.forwarded)

/-! Streaming (R300 to R302). -/

/-- The bytes of a region: each group of elements as it is packed and each block scale, in ascending address order (R300). -/
def regionBytes (u : Using) (x : Desc) (n : Nat) : Act (List Nat) := do
  let (k, b) := packInfo x.fmt
  let ps := (List.range n).map (fun i => x.pos (coordsOf x.sizes i))
  let els := (ps.map (· / k)).dedup.map (fun g => (x.base + g * b, b))
  let scales := if isBlock x.fmt then (ps.map (· / 32)).dedup.map (fun g => (x.scalePtr + g, 1)) else []
  let parts ← (sortBy Prod.fst (els ++ scales)).mapM (fun p => vread (u.of x) p.1 p.2)
  return parts.flatten

/-- A STREAM_OUT job of a context (R300). What leaves for the snapshot port of another die crosses the link to it (R273). -/
def streamOutRun (s : Nat) (r : RJob) : Act JobEnd := do
  let c := r.j.ctx.val
  let x ← readDesc (schedUse c (partOfStk s)) r.j.r.src0
  let bytes ← regionBytes (rootUse c s 0 true) x (min r.j.r.count x.total)
  let port := r.j.r.emit = 2
  Act.upd (fun d =>
    let d := if port && r.j.r.dst < 4 then d.crossOut (s / 8) r.j.r.dst bytes.length else d
    (d.imageOut (if port then 0 else 1) r.j.r.dst 0 0 bytes).addReg (0x3800 + s) 0x0C bytes.length)
  return .over

/-- STREAM_IN: data that arrive for the job are written in the order of arrival, once no image waits for the range (R358); it is
over at Count bytes (R301). -/
def streamIn (s : Nat) (j : JobIn) (data : List Nat) (st : State) : State :=
  let st := if (st.dev.stk s).queue.any (fun r => r.j = j) then st else st.onDev (fun d => d.receiveJob s j)
  match (st.dev.stk s).queue.find? (fun r => r.j = j) with
  | none => st
  | some r =>
    if j.r.ty ≠ 7 || !(r.started || st.dev.mayStart s r) then st else
    let bs := data.take (j.r.count - r.written)
    let go := { r with started := true, jobHold := false, written := r.written + bs.length }
    let w := st.runAct (do
      let x ← readDesc (schedUse j.ctx.val (partOfStk s)) j.r.dst
      return (x, ← stackRuns ((rootUse j.ctx.val s 0 true).of x) true [(x.base + r.written, bs.length)]))
    match w.1 with
    | .error f => w.2.onDev (fun d => d.jobFailed s r f)
    | .ok (x, rs) =>
    if st.dev.unstreamed j.ctx.val s rs then st.onDev (fun d => d.holdJob s r) else
    let e := st.runAct (vwrite ((rootUse j.ctx.val s 0 true).of x) (x.base + r.written) bs)
    match e.1 with
    | .error f => e.2.onDev (fun d => d.jobFailed s r f)
    | .ok _ =>
      let st := e.2.onDev (fun d => d.updStk s (fun k => { k with queue := k.queue.map (fun y => if y = r then go else y) }))
      if j.r.count ≤ go.written then st.onDev (fun d => d.jobRetired s go) else st

/-- STREAM_IN (R301). -/
def execStreamIn (st : Fin 32) (j : JobIn) (data : List Nat) (s : State) : Host.Outcome State Fault Refusal :=
  .next (streamIn st.val j data s.forwarded)

/-- TRANSLATION_REPLY: the leaf fills the root engine's cache; a refused translation raises its event (R281, R248). While
the partition resets, the reply is of an older generation: it is dropped and counted (R617). -/
def execTranslationReply (st : Fin 32) (ctx : Fin 1024) (va : Nat) (s : State) : Host.Outcome State Fault Refusal :=
  .next (if s.dev.service (partOfStk st.val) = 1 then s.onDev (fun d => d.incReg (0x3400 + partOfStk st.val) 0x23)
    else (s.runAct (do
      let x ← leafOf (schedUse ctx.val (partOfStk st.val)) va
      Act.upd (fun d => d.xcFill (.root st.val) (partOfStk st.val) x))).2)

/-- FEWEST_BUFFERS_RESET (R305). -/
def execFewestBuffersReset (via : Via) (st : Fin 32) (v : Nat) (s : State) : Host.Outcome State Fault Refusal :=
  .next (s.dictWrite via (0x3800 + st.val) 0x09 v (fun s =>
    if v ≠ 256 then (0x0105, s) else (0, s.onDev (fun d => d.setReg (0x3800 + st.val) 0x09 (d.stkReg st.val 0x08)))))

end Sys2Proof.Machine
end

