-- ==== Sys2Proof/Machine/Collective.lean ====
section
/-! DEFINITION. Collectives: their issue, their chunks, schemes and combine order, delivery to a destination or into
staging (R505 to R519, R287 to R293, R296, R521, R523). -/
namespace Sys2Proof.Machine
open Sys2Proof

/-- The use of the network interface's accesses for a context (R219, input 3 of a TSV port). -/
def netUse (c : Nat) : Using :=
  { who := .net, ctx := c, part := 0, port := 0, input := 3, b30 := 0x030C, own := false, place := none, onlySpad := false }

/-! Schemes (R513, R514). -/

/-- What a member does for a chunk: the ranks that it receives from in order (`true`: combined as received with own, `false`:
own with received), the rank that it sends its value to, the rank that the result comes from, the ranks that it passes the
result to. -/
structure Role where
  recvs : List (Nat × Bool)
  dest : Option Nat
  parent : Option Nat
  children : List Nat
  deriving DecidableEq, Repr

/-- The stage at which relative rank `v` sends in a tree: its lowest set bit. -/
def lowBit (v : Nat) : Nat := ((List.range 11).find? (fun i => v / 2 ^ i % 2 = 1)).elim 0 (fun i => 2 ^ i)

/-- The relative ranks from which `v` receives in a tree of `n` members, stage by stage. -/
def treeFrom (n v : Nat) : List Nat :=
  ((List.range 11).filter (fun i => v % 2 ^ (i + 1) = 0 && v + 2 ^ i < n)).map (fun i => v + 2 ^ i)

/-- The tree of `n` members, whose relative rank `v` is rank `at_ v`. -/
def treeRole (n v : Nat) (at_ : Nat → Nat) : Role :=
  let up := if v = 0 then none else some (at_ (v - lowBit v))
  let down := (treeFrom n v).map at_
  { recvs := down.map (fun r => (r, false)), dest := up, parent := up, children := down }

/-- The ring of `n` members. -/
def ringRole (n v : Nat) (at_ : Nat → Nat) : Role :=
  { recvs := if n < 2 || v = 1 then [] else [(at_ ((v + n - 1) % n), true)],
    dest := if v = 0 then none else some (at_ ((v + 1) % n)),
    parent := if v = 0 then none else some (at_ (v - 1)),
    children := if v + 1 < n then [at_ (v + 1)] else [] }

/-- Two levels: a tree inside each group of `g` consecutive ranks, a ring among the groups' roots; in a smaller last group the root is
that rank modulo its size (DESIGN CHOICE, log entry 278). -/
def twoRole (n g j r : Nat) : Role :=
  let grp := r / g
  let size := fun (q : Nat) => min g (n - q * g)
  let root := fun (q : Nat) => q * g + j % g % size q
  let m := size grp
  let inner := treeRole m ((r - grp * g + m - (root grp - grp * g)) % m) (fun w => grp * g + (root grp - grp * g + w) % m)
  if r ≠ root grp then inner
  else
    let k := ceilDiv n g
    let outer := ringRole k ((grp + k - j / g) % k) (fun w => root ((j / g + w) % k))
    { recvs := inner.recvs ++ outer.recvs, dest := outer.dest, parent := outer.parent, children := outer.children ++ inner.children }

/-- The role of rank `r` for a chunk with lead `j` under a scheme (R513). -/
def roleOf (scheme n g j r : Nat) : Role :=
  let v := (r + n - j % n) % n
  let at_ := fun (w : Nat) => (j + w) % n
  match scheme with
  | 1 => ringRole n v at_
  | 3 => twoRole n (max 1 g) j r
  | _ => treeRole n v at_

/-- The scheme that code 0 selects (R514); with one member nothing is combined and nothing sent. -/
def pickScheme (scheme n bytes chunks : Nat) : Nat :=
  if n = 1 then 2
  else if scheme ≠ 0 then scheme
  else if bytes ≤ 256 * 1024 || chunks < n then 2
  else if 32 ≤ n && bytes ≤ 64 * 1024 * 1024 then 3 else 1

/-! Values on the wire (R515 to R517). -/

/-- Blocks of 32 values encoded as VB8 with a tile scale of 1.0: codes, then scales (R515, R517). -/
def vb8Enc (rnd : Rnd) (vs idx : List Nat) : Num (List Nat) := do
  let bs ← ((chunksOf 32 vs).zip (chunksOf 32 idx)).mapM (fun (p : List Nat × List Nat) => do
    let (e, _) ← encodeBlock false 0x3 one32 ((p.1.zip p.2).map (fun q => ⟨q.1, 0, q.2⟩)) p.1 [] [] rnd
    return e)
  return bs.flatMap (·.codes) ++ bs.map (·.scale)

/-- VB8 codes and scales of `n` values as FP32. -/
def vb8Dec (n : Nat) (bs : List Nat) : Num (List Nat) :=
  let scales := bs.drop n
  (bs.take n).zipIdx.mapM (fun (p : Nat × Nat) => decodeBlock 0xD (scales.getD (p.2 / 32) 0) p.1 one32)

/-- A partial result in a wire format: 0 FP32, 1 BF16, 2 VB8, with RNE (R515). -/
def wireEnc (wire : Nat) (vs : List Nat) : Num (List Nat) :=
  match wire with
  | 0 => return vs.flatMap (leBytes 4)
  | 1 => do return (← vs.mapM (fun v => convertCode 0 0x1 v Rnd.rne 0 0)).flatMap (leBytes 2)
  | _ => vb8Enc Rnd.rne vs (vs.map (fun _ => 0))

/-- A partial result of `n` values as FP32. -/
def wireDec (wire n : Nat) (bs : List Nat) : Num (List Nat) :=
  match wire with
  | 0 => return (chunksOf 4 bs).map leNat
  | 1 => (chunksOf 2 bs).mapM (fun b => toFp32 0x1 (leNat b))
  | _ => vb8Dec n bs

/-- Bytes of `n` values in a wire format. -/
def wireBytes (wire n : Nat) : Nat := if wire = 0 then 4 * n else if wire = 1 then 2 * n else n + ceilDiv n 32

/-- Codes and scales of elements, as a result carries them (R516). -/
def bitsEnc (fmt n : Nat) (vs : List Nat) : List Nat :=
  (vs.take n).flatMap (leBytes (ceilDiv (elemBits fmt) 8)) ++ vs.drop n

/-- The reverse of `bitsEnc`. -/
def bitsDec (fmt n : Nat) (bs : List Nat) : List Nat :=
  let w := ceilDiv (elemBits fmt) 8
  (chunksOf w (bs.take (n * w))).map leNat ++ bs.drop (n * w)

/-- The blocks of a block-scaled tensor that elements lie in. -/
def blkOf (d : Desc) (cs : List (List Nat)) : List Nat := if isBlock d.fmt then cs.map (fun c => d.pos c / 32) else []

/-- Write codes, and the scales that belong to the blocks `keys` of the elements (R516). -/
def writeBits (u : Using) (d : Desc) (cs : List (List Nat)) (codes keys scales : List Nat) : Act Unit := do
  writeCoords u d cs codes
  if isBlock d.fmt then
    let names := keys.dedup
    let sc := keys.map (fun b => scales.getD (names.idxOf b) 0)
    let ps := (blkOf d cs).zip sc
    let bs := (blkOf d cs).dedup
    writePos (u.of d) 0xB d.scalePtr bs (bs.map (fun b => ((ps.find? (fun p => p.1 = b)).map (·.2)).getD 0)) (fun _ => 1)

/-! The chunks of a collective (R512). -/

/-- Elements of a chunk. -/
def chunkEls : Nat := 16384

/-- A chunk that nothing has happened to. -/
def ChunkRun.fresh (g first n lead stack q : Nat) : ChunkRun :=
  { g := g, first := first, n := n, lead := lead, stack := stack, q := q, origin := 0, own := none, acc := [], step := 0,
    sent := false, result := none, passed := false, staged := false }

/-- Chunks of `e` elements from element `first`, numbered from `g`, with a given lead. -/
def cutChunks (g first e : Nat) (lead : Nat → Nat) : List ChunkRun :=
  (List.range (ceilDiv e chunkEls)).map (fun k =>
    ChunkRun.fresh (g + k) (first + k * chunkEls) (min chunkEls (e - k * chunkEls)) (lead (g + k)) 0 0)

/-- The chunks of a collective over `e` source elements on each of `n` members (R512); those of CGATHER and CREDSCAT are cut
within each member's share, CTOPK and CWIN run as one chunk led by rank 0. -/
def chunksFor (op e n root : Nat) : List ChunkRun :=
  match op with
  | 0x50 => cutChunks 0 0 e (· % n)
  | 0x51 => (List.range n).flatMap (fun r => cutChunks (r * ceilDiv (e / n) chunkEls) (r * (e / n)) (e / n) (fun _ => r))
  | 0x52 => (List.range n).flatMap (fun r => cutChunks (r * ceilDiv e chunkEls) (r * e) e (fun _ => r))
  | 0x53 => cutChunks 0 0 e (fun _ => root)
  | _ => [ChunkRun.fresh 0 0 1 0 0 0]

/-- The chunks of compressed gradients: ascending stack, then ascending q (R512, R518). -/
def emitChunks (extent : List Nat) (n : Nat) : List ChunkRun :=
  let all := extent.zipIdx.flatMap (fun (p : Nat × Nat) => (List.range p.1).map (fun q => (p.2, q)))
  all.zipIdx.map (fun (p : (Nat × Nat) × Nat) => ChunkRun.fresh p.2 0 0 (p.2 % n) p.1.1 p.1.2)

/-- Coordinates of the elements of a chunk in the source. -/
def Coll.srcCoords (c : Coll) (k : ChunkRun) : List (List Nat) :=
  match c.src with
  | none => []
  | some s =>
    let base := if c.op = 0x52 then k.first - k.lead * s.total else k.first
    (List.range k.n).map (fun i => coordsOf s.sizes (base + i))

/-- Coordinates of the elements of a chunk in the destination. -/
def Coll.dstCoords (c : Coll) (n : Nat) (k : ChunkRun) : List (List Nat) :=
  match c.dst with
  | none => []
  | some d =>
    let base := if c.op = 0x51 then k.first - k.lead * ((c.src.elim 0 Desc.total) / n) else k.first
    (List.range k.n).map (fun i => coordsOf d.sizes (base + i))

/-! The issue of a collective (R505 to R510). -/

/-- The open job handle of a context that a command names (R502). -/
def jobHandle (c h : Nat) : Act Handle := do
  let d ← Act.dev
  match d.handle? h with
  | some x => if x.kind = 0 && x.ctx = c then return x else Act.refuse 0x0702
  | none => Act.refuse 0x0702

/-- The fields that a collective accepts (R510), on a handle of `n` members, with `e` source elements. -/
def collBad (op : Nat) (f : CollF) (x : Handle) (e : Nat) : Bool :=
  let staged := f.srcKind = 1 || f.delKind = 1
  (f.scheme ≠ 0 && (op = 0x54 || op = 0x55)) || f.combine = 3 || (f.combine ≠ 0 && 0x52 ≤ op) ||
  (staged && (op ≠ 0x50 || f.combine ≠ 0)) || (f.delKind = 1 && f.srcKind = 0) ||
  (f.srcKind = 1 && (Tbl.look? f.emit x.binds).isNone) ||
  (f.delKind = 1 && (f.rounding ≠ 0 || f.sat ≠ 0 || f.dst ≠ 0)) ||
  (op = 0x51 && e % x.n ≠ 0) || (if op = 0x53 then x.n ≤ f.root else f.root ≠ 0) ||
  (if op = 0x54 then f.k = 0 || 64 < f.k else f.k ≠ 0 || f.positions ≠ 0)

/-- Do the shapes of source and destination agree (R510, R511)? -/
def collShapes (op : Nat) (f : CollF) (n : Nat) (s d : Option Desc) (p : Option Desc) : Bool :=
  match s, d with
  | some s, some d =>
    match op with
    | 0x51 => d.total * n = s.total
    | 0x52 => d.total = s.total * n && d.fmt = s.fmt
    | 0x53 => d.total = s.total && d.fmt = s.fmt
    | 0x54 => d.size 0 = f.k && d.size 1 = s.size 1 && d.size 2 = s.size 2 && d.size 3 = s.size 3 &&
        (match p with
          | some p => p.fmt = 0xA && p.sizes = d.sizes
          | none => false)
    | 0x55 => true
    | _ => d.total = s.total
  | _, _ => true

/-- The values of a source as the reduction takes them: FP32 codes. -/
def floatValues (c : Nat) (s : Desc) : Act (List Nat) := do
  let els ← readBase (netUse c) s ((List.range s.total).map (coordsOf s.sizes))
  Act.num none (els.mapM (fun e => e.value s.tile))

/-- The candidates of a member's lines for CTOPK, as values and positions in the concatenation of the members' lines. -/
def localTop (c rank k : Nat) (s : Desc) : Act (List Nat) := do
  let els ← readBase (netUse c) s ((List.range s.total).map (coordsOf s.sizes))
  let vals ← if isInt s.fmt then pure (els.map (fun e => ofSigned 32 e.int)) else
    Act.num none (els.mapM (fun e => e.value s.tile))
  let key := fun (v : Nat) => if isInt s.fmt then toSigned 32 v else rankF fp32 v
  let n := s.size 0
  return (chunksOf n vals).flatMap (fun line =>
    (topK key false k 0 line).flatMap (fun (p : Nat × Int) => [p.1, if p.2 < 0 then 2 ^ 32 - 1 else rank * n + p.2.toNat]))

/-- Two lists of candidates of one line merged: the k that rank first (R510). -/
def mergeTop (int : Bool) (k : Nat) (a b : List Nat) : List Nat :=
  let key := fun (v : Nat) => if int then toSigned 32 v else rankF fp32 v
  let live := ((chunksOf 2 (a ++ b)).map (fun p => (p.getD 0 0, p.getD 1 0))).filter (fun p => p.2 ≠ 2 ^ 32 - 1)
  let byPos := sortBy (fun p => p.2) live
  let hi := byPos.foldl (fun (m : Int) p => max m (key p.1)) 0
  let out := (sortBy (fun p => (hi - key p.1).toNat) byPos).take k
  out.flatMap (fun p => [p.1, p.2]) ++ (List.replicate (k - out.length) [0, 2 ^ 32 - 1]).flatten

/-- Two winners merged (R511): winner, index, ties, NaN elements, rank (2^32 − 1 for none). -/
def mergeWin (a b : List Nat) : List Nat :=
  let g := fun (l : List Nat) (i : Nat) => l.getD i 0
  let none_ := 2 ^ 32 - 1
  let nans := (g a 3 + g b 3) % 2 ^ 32
  let same := rankF fp32 (g a 0) = rankF fp32 (g b 0)
  let (w, ties) :=
    if g b 4 = none_ then (a, g a 2) else if g a 4 = none_ then (b, g b 2)
    else if same then (if g b 4 < g a 4 then b else a, (g a 2 + g b 2) % 2 ^ 32)
    else if rankF fp32 (g a 0) < rankF fp32 (g b 0) then (b, g b 2) else (a, g a 2)
  [g w 0, g w 1, ties, nans, g w 4]

/-- What a member contributes to each chunk (source kind 0), where it contributes. -/
def ownValues (op : Nat) (f : CollF) (c rank : Nat) (s : Desc) (cs : List ChunkRun) : Act (List ChunkRun) := do
  match op with
  | 0x50 | 0x51 => do
    let vs ← floatValues c s
    return cs.map (fun k => { k with own := some ((vs.drop k.first).take k.n) })
  | 0x52 | 0x53 => do
    cs.mapM (fun k => do
      if k.lead ≠ rank then return k
      let base := if op = 0x52 then k.first - rank * s.total else k.first
      let xs := (List.range k.n).map (fun i => coordsOf s.sizes (base + i))
      let codes ← readCoords (netUse c) s xs
      let sc ← if isBlock s.fmt then readPos ((netUse c).of s) 0xB s.scalePtr (blkOf s xs).dedup else pure []
      return { k with own := some (codes ++ sc) })
  | 0x54 => do
    let l ← localTop c rank f.k s
    return cs.map (fun k => { k with own := some l })
  | _ => do
    let r ← vreadNat ((netUse c).of s) s.base 16
    let none_ := bits r 63 32 = 2 ^ 32 - 1
    return cs.map (fun k => { k with
      own := some [bits r 31 0, bits r 63 32, bits r 95 64, bits r 127 96, if none_ then 2 ^ 32 - 1 else rank] })

/-- The formats, combine code and scheme that the digest covers (R485, R507). -/
def collDigest (op e : Nat) (f : CollF) (s d : Option Desc) : Nat :=
  Config.opDigest [op, e, s.elim 0 (·.fmt), d.elim 0 (·.fmt), f.combine, f.scheme] % 2 ^ 32

/-- A collective at its issue: checks, descriptors, sequence, its own values. It answers the sequence. -/
def collEnter (op : Nat) (o : Origin) (f : CollF) : Act Nat := do
  plainHeader o f.reserved
  let c := o.ctx.val
  let x ← jobHandle c f.handle
  Act.refuseIf (5 ≤ f.rounding) 0x0401
  let s ← if f.srcKind = 0 then some <$> readDesc (netUse c) f.src else pure none
  let e := s.elim 0 Desc.total
  Act.refuseIf (collBad op f x e) 0x0706
  let d ← if f.delKind = 0 then some <$> readDesc (netUse c) f.dst else pure none
  let p ← if op = 0x54 then some <$> readDesc (netUse c) f.positions else pure none
  Act.refuseIf (!(collShapes op f x.n s d p)) 0x0706
  for y in s.toList ++ d.toList ++ p.toList do
    let h ← readArea (netUse c) y none
    Act.refuseIf (d = some y && op ≤ 0x51 && !(rotWhole y h 0 (y.size 0))) 0x0406
  let cs := match s with
    | some s => chunksFor op s.total x.n f.root
    | none => emitChunks (Tbl.look [] f.emit x.binds) x.n
  let cs ← match s with
    | some s => ownValues op f c x.rank s cs
    | none => pure cs
  let bytes := wireBytes x.wire (if f.srcKind = 0 then e else cs.length * chunkEls)
  let scheme := if 0x54 ≤ op then 2 else pickScheme f.scheme x.n bytes cs.length
  let w ← Act.dev
  let run : Coll :=
    { o := o, op := op, f := f, seq := x.seq, digest := collDigest op (if f.srcKind = 0 then e else cs.length) f s d,
      scheme := scheme, at_ := w.now, src := s, dst := d, pos := p, chunks := cs }
  Act.upd (fun d => d.updHandle f.handle (fun x => { x with seq := (x.seq + 1) % 2 ^ 32, colls := x.colls ++ [run] }))
  return run.seq

/-! Progress (R513 to R519). -/

/-- The complete payload of a message, where it has arrived whole. -/
def Handle.message (x : Handle) (seq phase chunk rank len : Nat) : Option (List Nat) :=
  match x.rx.find? (fun m => m.seq = seq && m.phase = phase && m.chunk = chunk && m.rank = rank) with
  | none => none
  | some m => if len ≤ ((m.parts.map (fun p => p.2.length)).sum) then some (m.parts.flatMap (·.2)) else none

/-- A message has been used. -/
def Dev.dropMsg (d : Dev) (h seq phase chunk rank : Nat) : Dev :=
  d.updHandle h (fun x => { x with
    rx := x.rx.filter (fun m => !(m.seq = seq && m.phase = phase && m.chunk = chunk && m.rank = rank)) })

/-- Combine a received value with an own one; `first` says that the received one is the first operand (R513). -/
def combineVals (c : Coll) (recv acc : List Nat) (first : Bool) : Num (List Nat) :=
  let f := fun (a b : Nat) => match c.f.combine with
    | 0 => add32 a b
    | 1 => greater32 a b
    | _ => lesser32 a b
  (recv.zip acc).mapM (fun p => if first then f p.1 p.2 else f p.2 p.1)

/-- Is the operand of a CTOPK an integer? -/
def Coll.int (c : Coll) : Bool := c.src.elim false (fun s => isInt s.fmt)

/-- Bytes of a partial result. -/
def Coll.partLen (c : Coll) (wire : Nat) (k : ChunkRun) : Nat :=
  match c.op with
  | 0x54 => 4 * (k.own.elim 0 List.length)
  | 0x55 => 20
  | _ => wireBytes wire k.n

/-- A partial result as it travels. -/
def Coll.partEnc (c : Coll) (wire : Nat) (vs : List Nat) : Num (List Nat) :=
  if 0x54 ≤ c.op then return vs.flatMap (leBytes 4) else wireEnc wire vs

/-- Merge a received partial result (R510, R511, R513, R515). -/
def Coll.merge (c : Coll) (wire n : Nat) (bs acc : List Nat) (first : Bool) : Num (List Nat) := do
  match c.op with
  | 0x54 =>
    let r := (chunksOf 4 bs).map leNat
    let w := 2 * c.f.k
    return ((chunksOf w acc).zip (chunksOf w r)).flatMap (fun p => mergeTop c.int c.f.k p.1 p.2)
  | 0x55 => return mergeWin acc ((chunksOf 4 bs).map leNat)
  | _ => combineVals c (← wireDec wire n bs) acc first

/-- The scale count of a result: blocks of the elements it covers. -/
def Coll.scales (c : Coll) (n : Nat) (k : ChunkRun) : Nat :=
  if c.f.delKind = 1 then 0
  else if c.op = 0x52 || c.op = 0x53 then (c.src.elim [] (fun s => blkOf s (c.srcCoords k))).dedup.length
  else (c.dst.elim [] (fun d => blkOf d (c.dstCoords n k))).dedup.length

/-- The format of a result's codes. -/
def Coll.resFmt (c : Coll) (wire : Nat) : Nat :=
  if c.f.delKind = 1 then (if wire = 2 then 0xB else 0x1) else c.dst.elim 0 (·.fmt)

/-- Bytes of a result. -/
def Coll.resLen (c : Coll) (wire n : Nat) (k : ChunkRun) : Nat :=
  match c.op with
  | 0x54 => 4 * (k.own.elim 0 List.length)
  | 0x55 => 20
  | _ => if c.f.delKind = 1 then (if wire = 2 then k.n + ceilDiv k.n 32 else 2 * k.n)
    else k.n * ceilDiv (elemBits (c.resFmt wire)) 8 + c.scales n k

/-- The lead's conversion to a staged gradient gave a NaN or an infinity: event 0x8401 once a tensor and step (R54, R59). -/
def Coll.noteGradient (c : Coll) (wire n : Nat) (codes : List Nat) : Act Unit := do
  let vs := ((if wire = 2 then vb8Dec n codes else codes.mapM (toFp32 0x1)).run []).1
  if vs.any (fun v => !(isFinite32 v)) then
    Act.upd (fun d => d.raiseOnce 0x8401 c.o.ctx.val c.f.tensor c.o.stamp [c.f.tensor, c.o.stamp])

/-- The result of a chunk at its lead, in the codes that the result phase carries (R516, R517). A destination whose header
selects a rotation is rotated first (R145, R150). -/
def Coll.finish (c : Coll) (x : Handle) (k : ChunkRun) (acc : List Nat) : Act (List Nat) := do
  let w ← Act.dev
  let ctx := c.o.ctx.val
  let pol := (w.ctx ctx).policy
  match c.op with
  | 0x54 =>
    let d := c.dst.getD ⟨0, 0, false, 0, one32, 0, [], [], 0, 0⟩
    let rnd : Rnd := ⟨c.f.rounding, c.f.sat = 1, w.seed ctx, c.f.tensor, c.o.stamp⟩
    let fill := if isInt d.fmt then 0 else (elemFmt d.fmt).nan
    Act.num none (((chunksOf 2 acc).zipIdx.mapM (fun (p : List Nat × Nat) => do
      let pos := p.1.getD 1 0
      if pos = 2 ^ 32 - 1 then return [fill, pos]
      let v ← convertCode (if c.int then 0xA else 0) d.fmt (p.1.getD 0 0) rnd p.2 0
      return [v, pos])) >>= fun l => return l.flatten)
  | 0x55 => return acc
  | _ =>
    if c.f.delKind = 1 then
      let rnd : Rnd := ⟨pol.gradRnd, pol.gradSat, w.seed ctx, c.f.tensor, c.o.stamp⟩
      let idx := (List.range k.n).map (fun i => k.origin + k.q * chunkEls + i)
      let codes ← Act.num none (if x.wire = 2 then vb8Enc { rnd with sat := true } acc idx
        else (acc.zip idx).mapM (fun p => convertCode 0 0x1 p.1 rnd p.2 0))
      c.noteGradient x.wire k.n codes
      return codes
    else
      let d := c.dst.getD ⟨0, 0, false, 0, one32, 0, [], [], 0, 0⟩
      let rnd : Rnd := ⟨c.f.rounding, c.f.sat = 1, w.seed ctx, c.f.tensor, c.o.stamp⟩
      let vals : List Val := ((c.dstCoords x.n k).zip acc).map (fun p => ⟨p.1, p.2, d.linear p.1⟩)
      let h ← readArea (netUse ctx) d none
      let vals ← match h with
        | none => pure vals
        | some h => do
          let p : Prod := { u := netUse ctx, eng := none, d := d, h := some h, rnd := rnd, ovf := 0, src := 0, pol := pol,
                            runners := false, pieces := false }
          let r ← rotated p h vals
          pure r.2
      let bl := blocksOf d vals
      let enc ← Act.num none (encodeTile 0 (if d.fmt = 0xC then 0x6 else if d.fmt = 0xD then 0x3 else d.fmt) (isBlock d.fmt)
        d.tile (srcEls d.linear bl) 0 0 0 true 0 rnd)
      return enc.blocks.flatMap (·.codes) ++ (if isBlock d.fmt then enc.blocks.map (·.scale) else [])

/-- A result reaches this member's destination, or the reassembly buffer on its way into staging. -/
def Coll.deliver (c : Coll) (x : Handle) (k : ChunkRun) (res : List Nat) : Act Unit := do
  let ctx := c.o.ctx.val
  let u := netUse ctx
  match c.op, c.dst with
  | 0x54, some d =>
    let p := c.pos.getD d
    let cs := (List.range d.total).map (coordsOf d.sizes)
    let prs := chunksOf 2 res
    writeCoords u d cs (prs.map (fun q => q.getD 0 0))
    writeCoords u p cs (prs.map (fun q => q.getD 1 0))
  | 0x55, some d =>
    let g := fun (i : Nat) => res.getD i 0
    vwrite (u.of d) d.base (leBytes 4 (g 0) ++ leBytes 4 (g 1) ++ leBytes 4 (g 2) ++ leBytes 4 (g 3) ++ leBytes 4 (g 4) ++
      List.replicate 12 0)
  | _, some d =>
    let keys := if c.op = 0x52 || c.op = 0x53 then c.src.elim [] (fun s => blkOf s (c.srcCoords k)) else blkOf d (c.dstCoords x.n k)
    writeBits u d (c.dstCoords x.n k) (res.take k.n) keys (res.drop k.n)
  | _, none =>
    let els ← if x.wire = 2 then Act.num none (do (← vb8Dec k.n res).mapM (fun v => convertCode 0 0x1 v Rnd.rne 0 0)) else pure res
    let r : ReadyChunk := { stack := k.stack, ctx := ctx, tensor := c.f.tensor, q := k.q, elems := els,
                            bytes := wireBytes x.wire k.n, die := k.stack / 8, since := none, reported := false }
    Act.upd (fun d => d.updNet (fun n => { n with ready := n.ready ++ [r] }))

/-- Has a chunk a result phase on this member? -/
def Coll.results (c : Coll) (k : ChunkRun) (rank : Nat) : Bool := c.op ≠ 0x51 || k.lead = rank

/-- One move of a chunk, where one is possible (R513). -/
def stepChunk (h : Nat) (c : Coll) (k : ChunkRun) : Act (Option ChunkRun) := do
  let w ← Act.dev
  match w.handle? h with
  | none => return none
  | some x =>
    let role := roleOf c.scheme x.n x.group k.lead x.rank
    let moves := c.op = 0x52 || c.op = 0x53
    let own := k.own.getD []
    let acc := if k.step = 0 then own else k.acc
    if !moves && k.result.isNone && !k.sent then
      if k.own.isNone then return none
      match role.recvs[k.step]? with
      | some (rank, first) =>
        match x.message c.seq 0 k.g rank (c.partLen x.wire k) with
        | none => return none
        | some bs =>
          Act.upd (fun d => d.dropMsg h c.seq 0 k.g rank)
          let a ← Act.num none (c.merge x.wire k.n bs acc first)
          return some { k with acc := a, step := k.step + 1 }
      | none =>
        match role.dest with
        | some r =>
          let bs ← Act.num none (c.partEnc x.wire acc)
          Act.upd (fun d => d.sendMsg h r c.seq 0 k.g c.digest bs)
          return some { k with sent := true }
        | none =>
          let r ← c.finish x k acc
          return some { k with result := some r }
    else if k.result.isNone then
      if moves && k.lead = x.rank then return some { k with result := k.own }
      if !(c.results k x.rank) then return none
      match role.parent with
      | none => return none
      | some p =>
        match x.message c.seq 1 k.g p (c.resLen x.wire x.n k) with
        | none => return none
        | some bs =>
          Act.upd (fun d => d.dropMsg h c.seq 1 k.g p)
          let r := if 0x54 ≤ c.op then (chunksOf 4 bs).map leNat else bitsDec (c.resFmt x.wire) k.n bs
          return some { k with result := some r }
    else if !k.passed then
      let r := k.result.getD []
      c.deliver x k r
      let bs := if 0x54 ≤ c.op then r.flatMap (leBytes 4) else bitsEnc (c.resFmt x.wire) k.n r
      if c.op ≠ 0x51 then
        for q in role.children do
          Act.upd (fun d => d.sendMsg h q c.seq 1 k.g c.digest bs)
      return some { k with passed := true }
    else return none

/-- Move a chunk as far as it goes. -/
def runChunk (h : Nat) (c : Coll) : Nat → ChunkRun → Act ChunkRun
  | 0, k => return k
  | n + 1, k => do
    match ← stepChunk h c k with
    | none => return k
    | some k => runChunk h c n k

/-- Is the work of this member on a chunk over? -/
def Coll.chunkDone (c : Coll) (k : ChunkRun) (rank : Nat) : Bool :=
  if c.f.delKind = 1 then k.staged else if c.results k rank then k.passed else k.sent

/-- Move a collective as far as it goes; a complete one leaves its handle and its command is done (R505, R519). -/
def State.moveColl (s : State) (h seq : Nat) : State :=
  match s.dev.handle? h with
  | none => s
  | some x =>
    match x.colls.find? (fun c => c.seq = seq) with
    | none => s
    | some c =>
      if c.op = 0x61 then s else
      let r := s.runAct (c.chunks.mapM (runChunk h c 32))
      match r.1 with
      | .error f => r.2.onDev (fun d =>
          -- a collective that read poison is a data fault, reported to its members (R611, R627)
          let d := d.failColl h seq f.code x.rank
          if f.poison then d.notice h 1 [c.o.ctx.val] else d)
      | .ok ks =>
        if ks.all (fun k => c.chunkDone k x.rank) then
          r.2.onDev (fun d => (d.updHandle h (fun x => { x with
            colls := x.colls.filter (fun c => c.seq ≠ seq), rx := x.rx.filter (fun m => m.seq ≠ seq) })).markDone
              c.o.ctx.val c.o.stream.val c.o.seq)
        else r.2.onDev (fun d => d.updHandle h (fun x => { x with
          colls := x.colls.map (fun c => if c.seq = seq then { c with chunks := ks } else c) }))

/-- Move every collective of a handle. -/
def State.moveHandle (s : State) (h : Nat) : State :=
  match s.dev.handle? h with
  | none => s
  | some x => x.colls.foldl (fun s c => s.moveColl h c.seq) s

/-- Data that arrived before the issue and carry another digest fail the collective (R507). -/
def Dev.checkDigest (d : Dev) (h seq : Nat) : Dev :=
  match d.handle? h with
  | none => d
  | some x =>
    match x.colls.find? (fun c => c.seq = seq) with
    | none => d
    | some c =>
      match x.rx.find? (fun m => m.seq = seq && m.digest ≠ c.digest) with
      | none => d
      | some m => (d.failColl h seq 0x0704 m.rank).control h m.rank 5 [seq]

/-- A collective command at the network interface: with 16 of its handle in progress it waits at the head of its stream
(R505). -/
def State.issueColl (s : State) (o : Origin) (op : Nat) (f : CollF) (cmd : Option QCmd) : State :=
  let full := match s.dev.handle? f.handle with
    | some x => decide (16 ≤ x.colls.length)
    | none => false
  if full then s.onDev (fun d => d.updStream o.ctx.val o.stream.val (fun t => { t with q := cmd.toList ++ t.q })) else
  let s := s.issueCmd o op 14 cmd (do
    let _ ← collEnter op o f
    return false)
  let s := s.onDev (fun d =>
    if (d.stream o.ctx.val o.stream.val).run.any (fun e => e.seq = o.seq && e.status = 2 && e.fail.poison) then
      d.notice f.handle 1 [o.ctx.val]
    else d)
  match s.dev.handle? f.handle with
  | none => s
  | some x =>
    match x.colls.find? (fun c => c.o.ctx = o.ctx && c.o.stream = o.stream && c.o.seq = o.seq) with
    | none => s
    | some c => (s.onDev (fun d => d.checkDigest f.handle c.seq)).moveColl f.handle c.seq

/-- A collective that is delivered. -/
def runColl (op : Nat) (o : Origin) (f : CollF) (s : State) : State :=
  s.issueColl o op f (cmdOf o op f.reserved (collFields f))

/-- CALLRED (R510). -/
def execCallred (o : Origin) (f : CollF) (s : State) : Host.Outcome State Fault Refusal := .next (runColl 0x50 o f s)
/-- CREDSCAT (R510). -/
def execCredscat (o : Origin) (f : CollF) (s : State) : Host.Outcome State Fault Refusal := .next (runColl 0x51 o f s)
/-- CGATHER (R510). -/
def execCgather (o : Origin) (f : CollF) (s : State) : Host.Outcome State Fault Refusal := .next (runColl 0x52 o f s)
/-- CBCAST (R510). -/
def execCbcast (o : Origin) (f : CollF) (s : State) : Host.Outcome State Fault Refusal := .next (runColl 0x53 o f s)
/-- CTOPK (R510). -/
def execCtopk (o : Origin) (f : CollF) (s : State) : Host.Outcome State Fault Refusal := .next (runColl 0x54 o f s)
/-- CWIN (R511). -/
def execCwin (o : Origin) (f : CollF) (s : State) : Host.Outcome State Fault Refusal := .next (runColl 0x55 o f s)

end Sys2Proof.Machine
end

