-- ==== Sys2Proof/Machine/Update.lean ====
section
/-! DEFINITION. The parameter update: parameter blocks, version records, the schedule engine, the norm's arithmetic, UPDATE
jobs (R308 to R343). -/
namespace Sys2Proof.Machine
open Sys2Proof

/-- A parameter block (R314) with its descriptors: masters, first and second moments by slot, staged gradient. -/
structure UBlock where
  opt : Nat
  mode : Nat
  sched : Nat
  k : Int
  rowW : Nat
  record : Nat
  w : List Desc
  m : List Desc
  v : List Desc
  g : Desc
  shard : Nat
  stack : Nat
  b2 : Nat
  eps : Nat
  deriving DecidableEq, Repr

/-- A descriptor that stands for a missing one. -/
def Desc.none : Desc := ⟨0xF, 0, false, 0, one32, 0, [0, 0, 0, 0], [0, 0, 0, 0], 0, 0⟩

/-- The reserved bits of a parameter block (R314). -/
def blockReserved : Nat :=
  fieldMask 0 7 2 + fieldMask 1 7 2 + fieldMask 2 7 3 +
    ((List.range 9).map (fun i => fieldMask (8 + 8 * i) 63 52)).sum + fieldMask 80 7 5 + fieldMask 81 23 0 +
    fieldMask 92 287 0

/-- Read a parameter block and check it but for the norm (R316); `own` is the root engine that runs it, if one does. In
embedding mode rows of D elements are asked of the masters and the gradient (log entry 233). -/
def readBlock (c va : Nat) (own : Option Nat) : Act UBlock := do
  let u := match own with
    | some s => rootUse c s 1 true
    | none => coordUse c
  let raw ← vreadNat u va 128
  let q := fun (i : Nat) => bits (bytesAt raw (8 + 8 * i) 8) 51 0
  let opt := bits raw 1 0
  let st := bits (bytesAt raw 80 1) 4 0
  let mode := bytesAt raw 1 1
  let wrongStack := match own with
    | some s => st ≠ s
    | none => false
  Act.refuseIf (raw &&& blockReserved ≠ 0 || opt = 3 || wrongStack || (opt ≠ 0 && (q 5 ≠ 0 || q 6 ≠ 0)) ||
    (opt = 0 && (q 5 = 0 || q 6 = 0))) 0x0602
  let ud := rootUse c st 1 true
  -- what the residuals of the gradient's tensor follow (R143)
  Act.upd (fun d => d.updUpd c (fun x =>
    match Tbl.look? (q 7) x.staged with
    | some t => { x with blocks := Tbl.put (t * 32 + st) va x.blocks,
                         pre := Tbl.put (t * 32 + st) (toSigned 8 (bytesAt raw 3 1)) x.pre }
    | none => x))
  let w ← [q 1, q 2].mapM (readDesc ud)
  let m ← [q 3, q 4].mapM (readDesc ud)
  let v ← if opt = 0 then [q 5, q 6].mapM (readDesc ud) else pure []
  let g ← readDesc ud (q 7)
  for x in g :: (w ++ m ++ v) do
    let _ ← readArea ud x none
  Act.refuseIf (w.any (fun d => d.fmt ≠ 0xE) || (m ++ v).any (fun d => d.fmt ≠ 0xD) || g.fmt ≠ 0x1) 0x0402
  let rowW := bytesAt raw 4 4
  let n := (w.headD Desc.none).total
  let emb := bit mode 1
  Act.refuseIf ((w ++ m ++ v).any (fun d => d.total ≠ n) ||
    (if emb then rowW = 0 || rowW % 32 ≠ 0 || (w ++ [g]).any (fun d => d.size 0 ≠ rowW) else g.total ≠ n)) 0x0605
  return { opt := opt, mode := mode, sched := bits (bytesAt raw 2 1) 2 0, k := toSigned 8 (bytesAt raw 3 1), rowW := rowW,
           record := q 0, w := w, m := m, v := v, g := g, shard := q 8, stack := st, b2 := bytesAt raw 84 4,
           eps := bytesAt raw 88 4 }

/-! Version records (R309 to R311). -/

/-- The current half of a version record for the update with index `u`: its number, count and slot (R310). Where neither half
has a tag below u the three are free (log entry 231). -/
def currentHalf (raw u : Nat) : Nat × Nat × Nat :=
  let h := fun (i : Nat) => bytesAt raw (8 * i) 8
  let tag := fun (i : Nat) => bits (h i) 63 32
  if u ≤ tag 0 && u ≤ tag 1 then
    let f := Config.noHalf raw u
    (f.1 % 2, f.2.1 % 2 ^ 31, f.2.2 % 2)
  else
    let i := if tag 1 < u && (u ≤ tag 0 || tag 0 < tag 1) then 1 else 0
    (i, bits (h i) 31 1, bits (h i) 0 0)

/-- The half that the update writes. -/
def nextHalf (u count slot : Nat) : Nat := u <<< 32 + (count + 1) % 2 ^ 31 * 2 + (1 - slot)

/-! The state record (R317, R318). -/

/-- FP32 of an integer. -/
def f32OfNat (n : Nat) : Num Nat := convertFloat (unpackInt n) fp32 0 false 0

/-- R330 on a schedule record of 96 bytes: is every field in its range? -/
def schedOk (r : Nat) : Bool :=
  let f := fun (o : Nat) => bytesAt r o 4
  let within := fun (lo hi v : Nat) => !(isNan32 v) && !(lt32 v lo) && !(lt32 hi v)
  bytesAt r 0 1 &&& 0xE3 = 0 && bytesAt r 1 1 ≤ 4 && bytesAt r 2 2 = 0 && within 0 one32 (f 8) &&
    within 0 one32 (f 16) && lt32 0 (f 16) && 1 ≤ f 20 && f 20 ≤ 2 ^ 24 && f 24 ≤ 2 ^ 24 &&
    within one32 0x41800000 (f 28) && within 0 one32 (f 32) && lt32 0 (f 32) && lt32 (f 32) one32 &&
    bytesAt r 56 8 = 0 && bytesAt r 88 8 = 0

/-- almanac of R328: a schedule record with its values for target index `u`. -/
def almanac (r u : Nat) : Num Nat := do
  let g := fun (o : Nat) => bytesAt r o 4
  let shape := bytesAt r 0 1
  let decay := bytesAt r 1 1
  let warm := g 12
  let m32 := fun (x : Nat) => x % 2 ^ 32
  let greater := fun (a b : Nat) => if lt32 a b then b else a
  let (f, cs, cl) ← if u ≤ warm then do
      let x ← div32 (← f32OfNat u) (← f32OfNat warm)
      let f ← if bit shape 2 then exp2F (← mul32 (← sub32 one32 x) (← log2F (g 16))) else pure x
      pure (f, g 48, g 52)
    else do
      let tau := u - warm - 1
      let cl0 := if g 24 > 0 && g 52 = 0 then g 24 else g 52
      let wrap := g 24 > 0 && cl0 ≤ m32 (tau + 2 ^ 32 - g 48)
      let cs := if wrap then m32 (g 48 + cl0) else g 48
      let cl ← if wrap then do
          let q ← mul32 (← f32OfNat cl0) (g 28)
          let n ← convertInt (unpackFloat fp32 q) 64 0 0
          pure (min n (2 ^ 24))
        else pure cl0
      let p := if g 24 > 0 then m32 (tau + 2 ^ 32 - cs) else tau
      let span := if g 24 > 0 then cl else g 20
      let f ← if decay = 1 || decay = 2 then do
          let q ← div32 (← f32OfNat p) (← f32OfNat span)
          let x := if lt32 one32 q then one32 else q
          let h ← if decay = 1 then mul32 0x3F000000 (← add32 one32 (← cospiF x)) else sub32 one32 x
          fma32 (← sub32 one32 (g 8)) h (g 8)
        else if decay = 3 then do
          let y ← exp2F (← mul32 (← f32OfNat p) (← log2F (g 32)))
          pure (greater (g 8) y)
        else if decay = 4 then do
          let y ← exp2F (← mul32 (← f32OfNat (p / g 20)) (← log2F (g 32)))
          pure (greater (g 8) y)
        else pure one32
      pure (f, cs, cl)
  let rate ← mul32 (g 4) f
  let wd ← if bit shape 3 then mul32 (g 36) f else pure (g 36)
  let mom ← if bit shape 4 then fma32 (← sub32 (g 40) (g 44)) (← sub32 one32 f) (g 44) else pure (g 40)
  let out := [(64, rate), (68, wd), (72, mom), (76, f), (80, cs), (84, cl)]
  return out.foldl (fun r p => setBytesAt r p.1 4 p.2) r

/-- norm_of of R321: sum of squares, norm, clip factor, whether the step is skipped. -/
def normOf (t : List Nat) (e : Int) (maxn : Nat) : Num (Nat × Nat × Nat × Bool) := do
  let ss ← mul32 (← reduceLine add32 0x80000000 t) (pow2 (-2 * e))
  if !(isFinite32 ss) then return (ss, nan32, one32, true)
  let n ← sqrt32 ss
  let c ← if lt32 0 maxn && lt32 maxn n then div32 maxn n else pure one32
  return (ss, n, c, false)

/-- The loss-scale rule (R325) on a state record of 1 KiB. -/
def lossScale (r : Nat) (skipped : Bool) : Nat :=
  if bytesAt r 11 1 % 2 = 0 then r else
  let e := toSigned 8 (bytesAt r 10 1)
  let lo := toSigned 8 (bytesAt r 16 1)
  let hi := toSigned 8 (bytesAt r 17 1)
  let grow := bytesAt r 14 2 + 1 = bytesAt r 12 2
  let e' := if skipped then e - 1 else if grow then e + 1 else e
  let e' := if e' = e then e else max lo (min hi e')
  let good := if skipped || grow then 0 else (bytesAt r 14 2 + 1) % 65536
  setBytesAt (setBytesAt r 10 1 (ofSigned 8 e')) 14 2 good

/-- Steps 4 and 5 of R321 on a state record: the norm of a table, the loss scale and the schedules; the norm is valid. -/
def normRecord (r : Nat) (t : List Nat) (epoch : Nat) : Num Nat := do
  let e := toSigned 8 (bytesAt r 10 1)
  let (ss, n, c, skip) ← normOf t e (bytesAt r 20 4)
  let u := (bytesAt r 0 4 + 1) % 2 ^ 32
  let out := [(24, 4, ss), (28, 4, n), (32, 4, c), (9, 1, ofSigned 8 e), (4, 4, u), (40, 4, epoch),
    (36, 4, (bytesAt r 36 4 + b2n skip) % 2 ^ 32), (8, 1, 2 + b2n skip)]
  let r := out.foldl (fun r (p : Nat × Nat × Nat) => setBytesAt r p.1 p.2.1 p.2.2) r
  let r := lossScale r skip
  (List.range 8).foldlM (fun r i => do
    return setBytesAt r (128 + 96 * i) 96 (← almanac (bytesAt r (128 + 96 * i) 96) u)) r

/-! The update pass (R331 to R336). -/

/-- The constants of a job: optimiser, clip-and-scale factor, rate, momentum in force, β2, ε, 1 − momentum, 1 − β2, decay
factor. -/
structure UConst where
  opt : Nat
  gs : Nat
  lr : Nat
  mom : Nat
  b2 : Nat
  eps : Nat
  omb1 : Nat
  omb2 : Nat
  dec : Nat
  deriving DecidableEq, Repr

/-- The constants of a job, from its block and its state record (R331, R333). -/
def uconst (b : UBlock) (r : Nat) : Num UConst := do
  let q := fun (o : Nat) => bytesAt r (128 + 96 * b.sched + o) 4
  let e := toSigned 8 (bytesAt r 9 1)
  let gs ← mul32 (bytesAt r 32 4) (pow2 (-e - b.k))
  let lr := q 64
  let wd := q 68
  let mom := q 72
  let dec ← if bit b.mode 0 then sub32 one32 (← mul32 lr wd) else pure one32
  return ⟨b.opt, gs, lr, mom, b.b2, b.eps, ← sub32 one32 mom, ← sub32 one32 b.b2, dec⟩

/-- bias of R333. -/
def bias (b t : Nat) : Num Nat := do sub32 one32 (← exp2F (← mul32 (← f32OfNat t) (← log2F b)))

/-- An FP32 code as an M48 code: the same value. -/
def m48Of (c : Nat) : Nat := c <<< 16

/-- The new master from the old one and a step direction (R332, R333). -/
def newMaster (k : UConst) (w d : Nat) : Num Nat := do
  let x ← mulF m48 w (m48Of k.dec)
  addF m48 x (m48Of (neg32 (← mul32 k.lr d)))

/-- The optimisers of R333 on one element: gradient, old moments, old master, bias corrections; answers the new moments and
master. -/
def optimise (k : UConst) (g m0 v0 w bm bv : Nat) : Num (Nat × Nat × Nat) := do
  match k.opt with
  | 0 =>
    let m ← fma32 k.mom m0 (← mul32 k.omb1 g)
    let v ← fma32 k.b2 v0 (← mul32 k.omb2 (← mul32 g g))
    let d ← div32 (← div32 m bm) (← add32 (← sqrt32 (← div32 v bv)) k.eps)
    return (m, v, ← newMaster k w d)
  | 1 =>
    let m ← fma32 k.mom m0 g
    let d ← fma32 k.mom m g
    return (m, 0, ← newMaster k w d)
  | _ =>
    let c ← fma32 k.mom m0 (← mul32 k.omb1 g)
    let d := if isNan32 c then nan32 else if abs32 c = 0 then 0 else if bit c 31 then 0xBF800000 else one32
    let m ← fma32 k.b2 m0 (← mul32 k.omb2 g)
    return (m, 0, ← newMaster k w d)

/-- Is an M48 code finite? -/
def finite48 (c : Nat) : Bool := (unpackFloat m48 c).cls = .zero || (unpackFloat m48 c).cls = .finite

/-- Is an M48 code a NaN (R38)? -/
def nan48 (c : Nat) : Bool := (unpackFloat m48 c).cls = .nan

/-- A held master as it is written: a NaN in the canonical form, a zero or an infinity with a zero tail (R28, R40). -/
def heldMaster (w : Nat) : Nat :=
  match (unpackFloat m48 w).cls with
  | .nan => 0x7FC000000000
  | .finite => w
  | .zero => w >>> 47 <<< 47
  | _ => w >>> 16 <<< 16

/-- One element: staged gradient, old moments, old master; whether it was held (R335). A held element counts as one NaN, and
otherwise each NaN written whose sources hold none (log entry 229). -/
def updateElem (k : UConst) (gb m0 v0 w bm bv : Nat) : Num (Nat × Nat × Nat × Bool) := do
  let (g, m, v, x) ← noNans (do
    let g ← mul32 gb k.gs
    let o ← optimise k g m0 v0 w bm bv
    return (g, o))
  if isFinite32 g && !(isFinite32 m && isFinite32 v && finite48 x) then
    countNan
    return (m0, v0, heldMaster w, true)
  let both := [gb, k.gs, k.mom, k.b2]
  if isNan32 m && !((m0 :: both).any isNan32) then countNan
  if isNan32 v && !((v0 :: both).any isNan32) then countNan
  if nan48 x && !nan48 w && !((m0 :: v0 :: k.lr :: k.dec :: k.eps :: both).any isNan32) then countNan
  return (m, v, x, false)

/-- Update the elements at linear positions of a piece from one slot into the other: gradient positions, the count t, SR
indices. Answers how many were held. -/
def updateEls (s : Nat) (r : RJob) (b : UBlock) (k : UConst) (slot t : Nat) (pos gpos idx : List Nat)
    (dst : Option (Desc × Option PrecH)) : Act Nat := do
  let c := r.j.ctx.val
  let u := rootUse c s 1 true
  let get := fun (l : List Desc) (i : Nat) => l.getD i Desc.none
  let co := fun (d : Desc) (ps : List Nat) => ps.map (coordsOf d.sizes)
  let decode := fun (d : Desc) => do
    let els ← readBase u d (co d pos)
    Act.num none (els.mapM (fun e => e.value d.tile))
  let gs ← do
    let els ← readBase u b.g (co b.g gpos)
    Act.num none (els.mapM (fun e => e.value b.g.tile))
  let ms ← decode (get b.m slot)
  let vs ← if b.opt = 0 then decode (get b.v slot) else pure (ms.map (fun _ => 0))
  let w0 := get b.w slot
  let ws ← do
    let (f, cs) ← masterValues u w0 (co w0 pos)
    pure (if f = 0xE then cs else cs.map m48Of)
  let bm ← Act.num none (noNans (if b.opt = 0 then bias k.mom t else pure one32))
  let bv ← Act.num none (noNans (if b.opt = 0 then bias k.b2 t else pure one32))
  let out ← Act.num none ((gs.zip (ms.zip (vs.zip ws))).mapM (fun (g, m, v, w) => updateElem k g m v w bm bv))
  let d ← Act.dev
  let put := fun (x : Desc) (tensor : Nat) (f : Nat × Nat × Nat × Bool → Nat) =>
    produceFlat { u := u, eng := none, d := x, h := none, rnd := ⟨r.policy.momRnd, true, d.seed c, tensor, r.j.stamp⟩,
                  ovf := 0, src := 0, pol := r.policy, runners := false, pieces := false }
      ((co x pos).zip (out.zip idx) |>.map (fun q => ⟨q.1, f q.2.1, q.2.2⟩))
  put (get b.m (1 - slot)) r.j.r.tensor (fun o => o.1)
  if b.opt = 0 then put (get b.v (1 - slot)) (r.j.r.tensor + 1) (fun o => o.2.1)
  let w' := get b.w (1 - slot)
  let cs ← Act.num none (out.mapM (fun o =>
    if w'.tile = one32 then pure o.2.2.1 else m48Of <$> quotExact m48 o.2.2.1 w'.tile))
  writeCoords u w' (co w' pos) cs
  match dst with
  | some (x, h) => copyValues s r x h 0xE ((co x pos).zip (out.map (fun o => o.2.2.1)))
  | none => pure ()
  return (out.filter (fun o => o.2.2.2)).length

/-- Write the version record's next half, after its undo record (R311, R622). -/
def writeHalf (c s va raw u : Nat) : Act Unit := do
  let (i, count, slot) := currentHalf raw u
  undoAppend c s [2, va, 1 - i]
  vwrite (rootUse c s 1 true) (va + 8 * (1 - i)) (leBytes 8 (nextHalf u count slot))

/-- The descriptors and the record of an UPDATE job: block, copy with its area, state record, row list (R315, R316). -/
def updateOperands (s : Nat) (r : RJob) : Act (UBlock × Option (Desc × Option PrecH) × Nat × List Nat) := do
  let c := r.j.ctx.val
  let u := rootUse c s 1 true
  let b ← readBlock c r.j.r.src0 (some s)
  let emb := bit b.mode 1
  Act.refuseIf (!emb && r.j.r.src1 ≠ 0) 0x0601
  let dst ← if r.j.r.dst = 0 then pure none else do
    let x ← readDesc (schedUse c (partOfStk s)) r.j.r.dst
    let h ← readArea u x none
    pure (some (x, h))
  let rl ← if emb then some <$> readDesc (schedUse c (partOfStk s)) r.j.r.src1 else pure none
  Act.refuseIf ((match dst with
    | some (x, _) => !(copyFmt x.fmt)
    | none => false) || (match rl with
    | some x => x.fmt ≠ 0xA
    | none => false)) 0x0402
  let w := b.w.headD Desc.none
  let n := match rl with
    | some x => x.total
    | none => w.total
  Act.refuseIf (r.j.r.origin % 32 ≠ 0 || n < r.j.r.count || (emb && b.g.total < r.j.r.count * b.rowW) ||
    (match dst with
    | some (x, _) => x.total ≠ w.total
    | none => false)) 0x0605
  let rec_ ← vreadNat u b.record 1024
  Act.refuseIf (bytesAt rec_ 8 1 / 2 % 2 = 0) 0x0606
  let rows ← match rl with
    | some x => if bytesAt rec_ 8 1 % 2 = 1 then pure [] else
      readCoords u x ((List.range r.j.r.count).map (coordsOf x.sizes))
    | none => pure []
  return (b, dst, rec_, rows)

/-- An UPDATE job (R333, R341, R342). A skipped step reads and writes no state (R326). -/
def updateRun (s : Nat) (r : RJob) : Act JobEnd := do
  let c := r.j.ctx.val
  let n := r.j.r.count
  let (b, dst, rec_, rows) ← updateOperands s r
  let done := fun (d : Dev) => d.incReg (0x3800 + s) 0x10
  if bytesAt rec_ 8 1 % 2 = 1 then
    Act.upd (fun d => (done d).incReg (0x3800 + s) 0x13)
    return .over
  let u := bytesAt rec_ 4 4
  let k ← Act.num none (noNans (uconst b rec_))
  let use := rootUse c s 1 true
  let aux := r.j.r.aux
  let rate := if b.opt = 0 then 32 else 64
  let undoCopy := fun (more : List Nat) => if r.j.r.dst = 0 then pure () else
    undoAppend c s ([3, r.j.r.src0, r.j.r.dst, aux] ++ more)
  if !(bit b.mode 1) then
    let raw ← vreadNat use aux 16
    let (_, count, slot) := currentHalf raw u
    undoCopy []
    let all := List.range n
    let held ← updateEls s r b k slot (count + 1) all all (all.map (r.j.r.origin + ·)) dst
    writeHalf c s aux raw u
    Act.upd (fun d =>
      let d := (((done d).pipeline s c n rate).addReg (0x3800 + s) 0x11 n).addReg (0x3800 + s) 0x14 held
      if held = 0 then d else d.raiseOnce 0x8605 c r.j.r.tensor r.j.stamp [c, r.j.r.tensor, held])
    return .over
  let table := (b.w.headD Desc.none).size 1
  let vals := rows.map (toSigned 32)
  let rising := (vals.zip (vals.drop 1)).all (fun p => p.1 < p.2)
  Act.refuseIf (!rising || vals.any (fun v => v < 0 || (table : Int) ≤ v)) 0x0604
  undoCopy [r.j.r.src1, n]
  let mut held := 0
  for (row, i) in rows.zipIdx do
    let va := aux + 16 * row
    let raw ← vreadNat use va 16
    let (_, count, slot) := currentHalf raw u
    let cols := List.range b.rowW
    let h ← updateEls s r b k slot (count + 1) (cols.map (row * b.rowW + ·)) (cols.map (i * b.rowW + ·))
      (cols.map (fun x => r.j.r.origin + row * b.rowW + x)) dst
    writeHalf c s va raw u
    held := held + h
  let total := n * b.rowW
  Act.upd (fun d =>
    let d := (((done d).pipeline s c total rate).addReg (0x3800 + s) 0x11 total).addReg (0x3800 + s) 0x14 held
    let d := (d.addReg (0x3800 + s) 0x12 n).pipeBusy s c (16 * n)
    if held = 0 then d else d.raiseOnce 0x8605 c r.j.r.tensor r.j.stamp [c, r.j.r.tensor, held])
  return .over

/-- The ranges that an UPDATE writes: the slots (of a dense piece, the one not current) and the copy (R358). -/
def updateWrites (s : Nat) (r : RJob) : Act (List (Nat × Nat)) := do
  let c := r.j.ctx.val
  let d ← Act.dev
  match (d.upd c).sec with
  | none => return []
  | some x =>
    if x.image = 0 then return []
    let (b, dst, rec_, _) ← updateOperands s r
    if bytesAt rec_ 8 1 % 2 = 1 then return []
    let use := rootUse c s 1 true
    let slots ← if bit b.mode 1 then pure [0, 1] else do
      let raw ← vreadNat use r.j.r.aux 16
      let (_, _, slot) := currentHalf raw (bytesAt rec_ 4 4)
      pure [1 - slot]
    let ds := slots.flatMap (fun i => [b.w.getD i Desc.none, b.m.getD i Desc.none] ++ (b.v[i]?).toList) ++
      (dst.map (·.1)).toList
    stackRuns use true (ds.flatMap (·.extents) ++ (match dst with
      | some (_, some h) => h.extents ((dst.map (·.1)).getD Desc.none)
      | _ => []))

/-- UPDATE (R333). -/
def execUpdate (st : Fin 32) (j : JobIn) (s : State) : Host.Outcome State Fault Refusal :=
  .next (rootJob 3 st.val j (updateWrites st.val) (updateRun st.val) s.forwarded)

end Sys2Proof.Machine
end

