-- ==== Sys2Proof/Machine/Secure.lean ====
section
/-! DEFINITION. Securing: manifests, images, their drain and commit, restore (R349 to R379). -/
namespace Sys2Proof.Machine
open Sys2Proof

/-- A manifest entry (R352). -/
structure MEnt where
  kind : Nat
  stack : Nat
  obj : Nat
  copy : Nat
  aux : Nat
  ok : Bool
  deriving DecidableEq, Repr

/-- An entry from its 32 bytes. -/
def mentOf (raw : Nat) : MEnt :=
  let kind := bits raw 1 0
  let res := fieldMask 0 7 2 + fieldMask 1 7 5 + fieldMask 2 47 0 + fieldMask 8 63 52 +
    (if kind = 1 then fieldMask 16 63 52 else fieldMask 16 63 0) + fieldMask 24 63 52
  { kind := kind, stack := bits (bytesAt raw 1 1) 4 0, obj := bits (bytesAt raw 8 8) 51 0,
    copy := bits (bytesAt raw 16 8) 51 0, aux := bits (bytesAt raw 24 8) 51 0, ok := kind ≠ 0 && raw &&& res = 0 }

/-- Turn a refused placement (R241) of a computation into another code. -/
def Act.recode {α : Type} (m : Act α) (old new : Nat) : Act α := fun w =>
  match m w with
  | (.error f, w') => (.error (if f.code = old && !f.poison then ⟨1, new, false, none⟩ else f), w')
  | r => r

/-- The extents of a row of a row-by-row block (R340, R356). -/
def Desc.rowExtents (d : Desc) (row : Nat) : List (Nat × Nat) :=
  let n := d.size 0
  if d.fmt = 0xE then [(d.base + row * (n / 32 * 192), n / 32 * 192)]
  else [(d.base + row * n, n), (d.scalePtr + row * n / 32, n / 32)]

/-- Items of an entry in the order of R356, with their address ranges: 0 tensor, 1 area, 2 widen region, 7 descriptor of a
region; 3 version records, 4 masters, 5 first and 6 second moments of a block in the slots that hold update `u`. -/
def entryItems (c u : Nat) (e : MEnt) : Act (List (Nat × List (Nat × Nat))) := do
  let use := rootUse c e.stack 0 true
  match e.kind with
  | 1 =>
    let b ← readBlock c e.obj (some e.stack)
    let get := fun (l : List Desc) (i : Nat) => l.getD i Desc.none
    let emb := bit b.mode 1
    let rows := if emb then (get b.w 0).size 1 else 1
    let slots ← (List.range rows).mapM (fun r => do
      let raw ← vreadNat use (e.aux + 16 * r) 16
      return (currentHalf raw (u + 1)).2.2)
    let item := fun (l : List Desc) =>
      if emb then slots.zipIdx.flatMap (fun (p : Nat × Nat) => (get l p.1).rowExtents p.2)
      else (get l (slots.headD 0)).extents
    return [(3, [(e.aux, 16 * rows)]), (4, item b.w), (5, item b.m)] ++ (if b.opt = 0 then [(6, item b.v)] else [])
  | 2 =>
    let d ← readDesc use e.obj
    return [(0, d.extents)]
  | _ =>
    let d ← readDesc use e.obj
    let h ← readArea use { d with prec := e.aux } none
    let area := match h with
      | none => []
      | some h =>
        [(1, [(h.addr, 64 + h.tiles * (16 + 4 * h.cap))])] ++
          (if h.widen = 0 then [] else [(2, [(h.widen, h.tiles * (if h.act then 65536 else 131072))])])
    return [(7, [(e.obj, 64)]), (0, d.extents)] ++ area

/-- The tag of an item of an entry; the capture's tag. -/
def itemTag (entry item : Nat) : Nat := 8 * entry + item
/-- The tag of the capture (R355). -/
def capTag : Nat := 2 ^ 32

/-- The manifest's entries. -/
def readManifest (c va n : Nat) : Act (List MEnt × Nat) := do
  let bs ← vread (coordUse c) va (32 * n)
  return ((chunksOf 32 bs).map (fun b => mentOf (leNat b)), crc32c bs)

/-- Every operand of an entry lies in its stack (R241, R353): of a block both slots, its records and the copy that it names. -/
def entryPlaced (c : Nat) (e : MEnt) : Act Unit := do
  let use := rootUse c e.stack 0 true
  let placed := fun (xs : List (Nat × Nat)) => do
    let _ ← stackRuns use false xs
  if e.kind = 1 then
    let b ← readBlock c e.obj (some e.stack)
    let rows := if bit b.mode 1 then (b.w.headD Desc.none).size 1 else 1
    placed ((e.obj, 128) :: (e.aux, 16 * rows) :: (b.w ++ b.m ++ b.v).flatMap (·.extents))
    if e.copy ≠ 0 then
      let d ← readDesc use e.copy
      placed ((e.copy, 64) :: (← dstExtents use d))
  else
    placed ((e.obj, 64) :: ((← entryItems c 0 e).flatMap (·.2)))

/-- Every range of the image of update `u` but its capture, in the order of R356 within each stack. -/
def imageRanges (c u : Nat) (es : List MEnt) : Act (List SRange) := do
  let mut out : List SRange := []
  for k in [2, 3, 1] do
    for (e, i) in es.zipIdx do
      if e.kind = k then
        let items ← entryItems c u e
        for (t, xs) in items do
          let rs ← stackRuns (rootUse c e.stack 0 true) false xs
          out := out ++ [⟨e.stack, itemTag i t, rs⟩]
  return out

/-- The ranges of an image in the order of a part: stack by stack, each in the order of R356 (R365, log entry 258). -/
def partOrder (rs : List SRange) : List SRange := (List.range 32).flatMap (fun s => rs.filter (fun r => r.stack = s))

/-- The bytes of ranges. -/
def rangeBytes (rs : List SRange) : Nat := ((rs.flatMap (·.runs)).map (·.2)).sum

/-- The status record (R360), 64 bytes. -/
def Secure.status (x : Secure) : List Nat :=
  [b2n x.isOpen + 2 * b2n x.rolling, 0, 0, 0] ++ leBytes 4 x.lastLocal ++ leBytes 4 x.lastNet ++ leBytes 4 x.image ++
    leBytes 4 x.skipped ++ leBytes 4 x.drainUs ++ leBytes 8 x.lastBytes ++ List.replicate 32 0

/-- Write the status record of a context. -/
def State.writeStatus (s : State) (c : Nat) : State :=
  match (s.dev.upd c).sec with
  | none => s
  | some x => (s.runAct (vwrite (coordUse c) x.f.status x.status)).2

/-- Change the securing of a context. -/
def Dev.updSec (d : Dev) (c : Nat) (f : Secure → Secure) : Dev := d.updUpd c (fun u => { u with sec := u.sec.map f })

/-! SOPEN and SCLOSE. -/

/-- The low bits and ranges of a snapshot command's fields that must be 0 (R404, R414). -/
def snapBad (f : SnapF) : Nat := f.reserved + f.manifest % 64 + f.table % 64 + f.status % 64

/-- Securing as an SOPEN opens it: no image, an empty status; the commit sequence goes on (R349, R350, R366). -/
def Secure.opened (o : Origin) (f : SnapF) (old : Option Secure) : Secure :=
  { o := o, f := f, isOpen := true, closing := [], rolling := false, image := 0, started := 0, targets := [], manifest := 0,
    plan := [], ranges := [], data := [], step := 0, epoch := 0, rank := 0, lastLocal := 0, lastNet := 0, skipped := 0,
    drainUs := 0, lastBytes := 0, commitSeq := (old.map (·.commitSeq)).getD 0, heldStep := none, slotNo := 0, capSlot := 0,
    due := none, sent := none }

/-- SOPEN's checks (R349, R350, R353, R378, R431) and its effect. -/
def sopen (o : Origin) (f : SnapF) : Act Bool := do
  plainHeader o (snapBad f)
  let c := o.ctx.val
  let d ← Act.dev
  Act.refuseIf (d.fn 0x5800 ≠ 2) 0x0A06
  let old := (d.upd c).sec
  Act.refuseIf ((old.map (·.isOpen)).getD false) 0x0A03
  let storeOpen := match d.handle? f.handle with
    | some x => x.kind = 1 && x.ctx = c
    | none => false
  Act.refuseIf ((f.opt = 1 && [0, 1, 2, 3].any (fun p => !(d.snap.contains p))) || (f.netInterval ≠ 0 && !storeOpen)) 0x0A02
  Act.refuseIf (!(d.ownsObj c f.obj)) 0x0203
  let (es, _) ← readManifest c f.manifest f.entries
  Act.refuseIf (es.isEmpty || es.any (fun e => !e.ok) || (es.map (·.obj)).dedup.length ≠ es.length) 0x0A01
  let rs ← (do es.forM (entryPlaced c); imageRanges c (d.ctxReg c 0x09) es : Act (List SRange)).recode 0x0505 0x0A01
  Act.refuseIf (f.opt = 1 && [0, 1, 2, 3].any (fun p => f.localLen * 4096 < rangeBytes (rs.filter (fun r => r.stack / 8 = p))))
    0x0A01
  let x := Secure.opened o f old
  Act.upd (fun d => d.updUpd c (fun u => { u with sec := some x }))
  vwrite (coordUse c) f.status x.status
  return true

/-- SOPEN (R349). -/
def execSopen (o : Origin) (f : SnapF) (s : State) : Host.Outcome State Fault Refusal :=
  .next (s.issueCmd o 0x78 15 (cmdOf o 0x78 f.reserved (snapFields 0x78 f)) (sopen o f))

/-- Close securing: the open bit is cleared and every SCLOSE that waited completes (R371). -/
def State.closeSecure (s : State) (c : Nat) : State :=
  let s := s.onDev (fun d => match (d.upd c).sec with
    | some x => x.closing.foldl (fun d o => d.markDone c o.stream.val o.seq) d
    | none => d)
  (s.onDev (fun d => d.updSec c (fun x => { x with isOpen := false, closing := [] }))).writeStatus c

/-- After a change of an image: securing closes where an SCLOSE waited for its end, else the status record is written. -/
def State.afterImage (s : State) (c : Nat) : State :=
  let ends := match (s.dev.upd c).sec with
    | some x => x.image = 0 && !x.closing.isEmpty
    | none => false
  if ends then s.closeSecure c else s.writeStatus c

/-- SCLOSE: an image in progress completes first (R371). -/
def sclose (o : Origin) (reserved : Nat) : Act Bool := do
  plainHeader o reserved
  let c := o.ctx.val
  let d ← Act.dev
  match (d.upd c).sec with
  | none => return true
  | some x =>
    if x.image ≠ 0 then
      Act.upd (fun d => d.updSec c (fun x => { x with closing := x.closing ++ [o] }))
      return false
    Act.upd (fun d => d.updSec c (fun x => { x with isOpen := false, closing := [] }))
    if x.isOpen then vwrite (coordUse c) x.f.status ({ x with isOpen := false } : Secure).status
    return true

/-- SCLOSE (R371). -/
def execSclose (o : Origin) (reserved : Nat) (s : State) : Host.Outcome State Fault Refusal :=
  .next (s.issueCmd o 0x79 15 (cmdOf o 0x79 reserved []) (sclose o reserved))

/-! The start of an image (R354, R355, R361, R363). -/

/-- The captured items (R351, R355): state record, precision table, seed, step counter, update index. -/
def captureItems (c rec_ u : Nat) : Act (List Nat) := do
  let d ← Act.dev
  let base := bits (d.ctxReg c 0x0A) 51 0
  let n := if base = 0 then 0 else bits (d.ctxReg c 0x0B) 12 0
  let table ← vread (coordUse c) base (576 * n)
  return leBytes 1024 rec_ ++ table ++ leBytes 8 (d.seed c) ++ leBytes 8 (d.ctxReg c 0x08) ++ leBytes 4 u

/-- A target is done with an image, or fails; without another the image is over. -/
def Secure.dropTarget (x : Secure) (kind : Nat) : Secure :=
  let ts := x.targets.filter (fun t => t.kind ≠ kind)
  let x := if kind = 1 then { x with sent := none } else x
  if ts.isEmpty then { x with targets := [], image := 0, ranges := [], data := [] } else { x with targets := ts }

/-- A local image that does not complete gives its slot up: the next one takes the same again, so that the previous complete
image is not overwritten (R365, R367, R370). -/
def Secure.failTarget (x : Secure) (kind : Nat) : Secure :=
  let x := if kind = 0 && x.targets.any (fun t => t.kind = 0) then { x with slotNo := 1 - x.slotNo } else x
  x.dropTarget kind

/-- The image of a context ends without completion on every target (R370, R546). -/
def Secure.dropImage (x : Secure) : Secure := (x.failTarget 0).failTarget 1

/-- The rank of this package in the epoch of a context's job handle, 0 without one (R366). -/
def Dev.rankIn (d : Dev) (c epoch : Nat) : Nat :=
  match d.net.handles.find? (fun p => p.2.ctx = c && p.2.kind = 0 && p.2.epoch = epoch) with
  | some p => p.2.rank
  | none => 0

/-- The first block of an image slot on the local target (R365). -/
def Secure.slotBase (x : Secure) (slot : Nat) : Nat := x.f.localBase + slot * (x.f.localLen / 2)

/-- The 4 MiB of slab 63 of stack 0 that the capture of a context takes: the least not taken by another's (R355, log entry
257). -/
def Dev.capSlot (d : Dev) (c : Nat) : Nat :=
  let taken := d.upds.filterMap (fun p => match p.2.sec with
    | some x => if p.1 ≠ c && (x.image ≠ 0 || x.due.isSome) then some x.capSlot else none
    | none => none)
  ((List.range 256).find? (fun k => !(taken.contains k))).getD 0

/-- The stack offset of a capture. -/
def capOffset (slot : Nat) : Nat := 63 * 2 ^ 30 + slot * 2 ^ 22

/-- At the applied fence of update `u`, before its signal: where the previous image is still in progress the context is
rolling and the update is skipped; else the captured items go to slab 63 of stack 0, and the image is due (R354, R355, R361,
R363). `rec_` is the state record just written. -/
def State.imageCapture (s : State) (c rec_ u : Nat) : State :=
  match (s.dev.upd c).sec with
  | none => s
  | some x =>
    if !x.isOpen then s
    else if x.image ≠ 0 then
      let left := (List.range 32).filter (fun t => x.ranges.any (fun r => r.stack = t))
      let s := s.onDev (fun d =>
        let d := d.updSec c (fun x => { x with rolling := true, skipped := (x.skipped + 1) % 2 ^ 32 })
        if x.rolling then d else (d.incReg 0x5800 0x06).raiseCtx 0x8A02 c ([c, x.image] ++ left))
      s.writeStatus c
    else if s.dev.fn 0x5800 ≠ 2 || !x.closing.isEmpty then s
    else if x.f.opt ≠ 1 && !(x.f.netInterval ≠ 0 && u % x.f.netInterval = 0) then s
    else
      let slot := s.dev.capSlot c
      let r := s.runAct (do
        let cap ← captureItems c rec_ u
        let _ ← Mm.act (hbmPut 0 (capOffset slot) cap (coordUse c).input (some c))
        return cap.length)
      match r.1 with
      | .error f => r.2.onDev (fun d => (d.incReg 0x5800 0x05).raiseCtx 0x8A04 c [0, f.code])
      | .ok n => r.2.onDev (fun d => d.updSec c (fun x => { x with
          capSlot := slot, due := some (u, rec_), plan := [⟨0, capTag, [(capOffset slot, n)]⟩] }))

/-- Has every range of the stacks of a part been streamed? A local part `p` holds stacks 8p to 8p + 7. -/
def Secure.partStreamed (x : Secure) (kind p : Nat) : Bool := x.ranges.all (fun g => kind = 0 && g.stack / 8 ≠ p)

/-- The ranges of a part, in its order. -/
def Secure.partPlan (x : Secure) (kind p : Nat) : List SRange := x.plan.filter (fun g => kind = 1 || g.stack / 8 = p)

/-- The ranges of a part as streamed, in its order. -/
def Secure.partData (x : Secure) (kind p : Nat) : List SData :=
  (x.partPlan kind p).filterMap (fun g => x.data.find? (fun y => y.stack = g.stack && y.tag = g.tag))

/-- The byte address of a target at which a part begins: its header's block (R365). -/
def Secure.partAt (x : Secure) (kind : Nat) : Nat := if kind = 0 then 4096 * x.slotBase x.slotNo else 0

/-- The byte address of a range in its part (R365). -/
def Secure.rangeAt (x : Secure) (kind p : Nat) (g : SRange) : Nat :=
  x.partAt kind + 4096 + rangeBytes ((x.partPlan kind p).takeWhile (fun y => y ≠ g))

/-- The bytes of a header before its CRC (R366). -/
def ImgPart.header (p : ImgPart) : List Nat :=
  leBytes 4 0x53454544 ++ leBytes 2 1 ++ [if p.kind = 0 then p.port else 0, p.parts] ++ leBytes 2 p.ctx ++ [0, 0] ++ leBytes 4 p.u ++
    leBytes 8 p.step ++ leBytes 4 p.epoch ++ leBytes 4 p.rank ++ leBytes 8 p.bytes ++ leBytes 4 p.manifest ++
    leBytes 4 p.commit ++ List.replicate 4044 0

/-- Does the CRC of a part's header verify (R373)? -/
def ImgPart.headerOk (p : ImgPart) : Bool := p.hcrc == crc32c p.header

/-- The part of a target as its header commits it. -/
def Secure.part (x : Secure) (c kind p dest : Nat) : ImgPart :=
  let mine := x.partData kind p
  let bytes := mine.flatMap (·.bytes)
  let g : ImgPart :=
    { kind := kind, port := dest, base := if kind = 0 then x.slotBase x.slotNo else 0, ctx := c, u := x.image, step := x.step,
      epoch := x.epoch, rank := x.rank, parts := if kind = 0 then 4 else 1, manifest := x.manifest, commit := x.commitSeq,
      bytes := bytes.length, hcrc := 0, data := mine, crcs := (chunksOf 65536 bytes).map crc32c }
  { g with hcrc := crc32c g.header }

/-- The header of a part goes to its target: with forced unit access, or to persistent memory with a flag line read back; over
the network as data (R367, R368). -/
def Dev.headerOut (d : Dev) (x : Secure) (handle : Nat) (g : ImgPart) : Dev :=
  let bytes := g.header ++ leBytes 4 g.hcrc
  let at_ := 4096 * g.base
  if g.kind = 1 then d.imageOut 1 handle 0 at_ bytes
  else if d.pmem.contains g.port then (d.imageOut 0 g.port 0 at_ bytes).imageOut 0 g.port 3 (x.partAt 0) []
  else d.imageOut 0 g.port 2 at_ bytes

/-- Behind the data of a part that is streamed whole: its segment table, then a Flush (of persistent memory, the flag line
read back), or over the network its header (R365, R367, R368). -/
def Dev.partTail (d : Dev) (c kind p : Nat) : Dev :=
  match (d.upd c).sec with
  | none => d
  | some x =>
    if !(x.partStreamed kind p) then d else
    let dest := if kind = 0 then p else x.f.handle
    let g := x.part c kind p (if kind = 0 then p else (match d.handle? x.f.handle with
      | some h => h.store
      | none => 0))
    let d := d.imageOut kind dest 0 (x.partAt kind + 4096 + g.bytes) (g.crcs.flatMap (leBytes 4))
    if kind = 0 then d.imageOut 0 p (if d.pmem.contains p then 3 else 1) (x.partAt 0) []
    else
      let d := d.updSec c (fun x => { x with sent := some g, commitSeq := (x.commitSeq + 1) % 2 ^ 32 })
      d.headerOut x dest g

/-- Where a part lies on its medium: first byte, length (header, data, segment table). -/
def ImgPart.span (p : ImgPart) : Nat × Nat := (4096 * p.base, 4096 + p.bytes + 4 * p.crcs.length)

/-- The image that is due at a fence starts once the fence has signalled (R354): its ranges are settled, its local slot taken;
a part without data goes out at once. -/
def State.imageStart (s : State) (c : Nat) : State :=
  match (s.dev.upd c).sec with
  | none => s
  | some x =>
    match x.due with
    | none => s
    | some (u, rec_) =>
      let s := s.onDev (fun d => d.updSec c (fun x => { x with due := none }))
      if !x.isOpen || s.dev.fn 0x5800 ≠ 2 then s else
      let r := s.runAct (do
        let (es, crc) ← readManifest c x.f.manifest x.f.entries
        return (← imageRanges c u es, crc))
      match r.1 with
      | .error f => r.2.onDev (fun d => (d.incReg 0x5800 0x05).raiseCtx 0x8A04 c [0, f.code])
      | .ok (rs, crc) =>
        let targets : List ImgTarget := (if x.f.opt = 1 then [⟨0, [0, 1, 2, 3]⟩] else []) ++
          (if x.f.netInterval ≠ 0 && u % x.f.netInterval = 0 then [⟨1, [0]⟩] else [])
        let slot := if x.f.opt = 1 then 1 - x.slotNo else x.slotNo
        let epoch := bytesAt rec_ 40 4
        let plan := partOrder (x.plan ++ rs)
        let s := r.2.onDev (fun d => d.updSec c (fun x => { x with
          image := u, started := d.now, plan := plan, ranges := plan, data := [], slotNo := slot, targets := targets,
          manifest := crc, step := d.ctxReg c 0x08, epoch := epoch, rank := d.rankIn c epoch, sent := none }))
        let from_ := 4096 * x.slotBase slot
        let upto := from_ + 4096 * (x.f.localLen / 2)
        let s := if x.f.opt = 1 then { s with persist := { s.persist with
          media := s.persist.media.filter (fun p => !(p.kind = 0 && p.span.1 < upto && from_ < p.span.1 + p.span.2)) } } else s
        let s := s.onDev (fun d => targets.foldl (fun d t => t.partsLeft.foldl (fun d p => d.partTail c t.kind p) d) d)
        s.writeStatus c

/-! The drain (R356, R357, R370). -/

/-- The image fails on every target for a poisoned line of a stack. -/
def Dev.imagePoisoned (d : Dev) (c s off : Nat) : Dev :=
  ((d.updSec c Secure.dropImage).incReg 0x5800 0x05).raiseCtx 0x8A04 c [s, off]

/-- The next range of a stack's share of a context's image is streamed to the targets (device-issued STREAM_OUT). -/
def streamShare (st c : Nat) (s : State) : State :=
  match (s.dev.upd c).sec with
  | none => s
  | some x =>
    match x.ranges.find? (fun g => g.stack = st) with
    | none => s
    | some g =>
      if x.image = 0 || !(s.dev.rootRuns st) then s else
      let r := s.runMm (do
        let mut out : List Nat := []
        let mut bad : Option Nat := none
        for (off, n) in g.runs do
          let (bs, b) ← hbmGetAt st off n 0 (some c)
          out := out ++ bs
          bad := bad.orElse (fun _ => b)
        return (out, bad))
      match r.1 with
      | (_, some off) => (r.2.onDev (fun d => d.imagePoisoned c st off)).afterImage c
      | (bytes, none) =>
        r.2.onDev (fun d =>
          let d := d.updSec c (fun x => { x with ranges := x.ranges.erase g, data := x.data ++ [⟨st, g.tag, g.runs, bytes⟩] })
          let d := d.addReg (0x3800 + st) 0x0C bytes.length
          x.targets.foldl (fun d t =>
            let p := if t.kind = 0 then st / 8 else 0
            (d.imageOut t.kind (if t.kind = 0 then p else x.f.handle) 0 (x.rangeAt t.kind p g) bytes).partTail c t.kind p) d)

/-- STREAM_OUT: a job of a context (R300); a record with Count 0 stands for the device-issued work of R356. -/
def execStreamOut (st : Fin 32) (j : JobIn) (s : State) : Host.Outcome State Fault Refusal :=
  .next (if j.r.ty = 6 && j.r.count = 0 then streamShare st.val j.ctx.val s
    else rootJob 6 st.val j noWrites (streamOutRun st.val) s.forwarded)

/-- SECURING_HOLD_RELEASE: jobs of a stack whose ranges have been streamed go on; the BCLK cycles that they waited are
counted (R358). -/
def execSecuringHoldRelease (st : Fin 32) (cycles : Nat) (s : State) : Host.Outcome State Fault Refusal :=
  .next (if (s.dev.stk st.val).queue.any (·.jobHold) || (s.dev.stk st.val).arms.any (·.hold) then
    s.onDev (fun d => (d.addReg 0x5800 0x08 cycles).updStk st.val (fun k => { k with
      queue := k.queue.map (fun r => { r with jobHold := false }), arms := k.arms.map (fun a => { a with hold := false }) }))
  else s)

/-! Commit (R359, R364 to R368). -/

/-- A part's header is committed. -/
def State.commitPart (s : State) (c kind p : Nat) (g : ImgPart) : State :=
  let others := s.persist.media.filter (fun q => !(q.kind = kind && q.port = g.port && q.base = g.base &&
    (kind = 0 || (q.ctx = c && q.u = g.u))))
  let s := { s with persist := { s.persist with media := others ++ [g] } }
  s.onDev (fun d => d.updSec c (fun x => { x with
    targets := x.targets.map (fun (t : ImgTarget) => if t.kind = kind then { t with partsLeft := t.partsLeft.erase p } else t) }))

/-- A target fails (R367). -/
def State.failTarget (s : State) (c kind port status : Nat) : State :=
  (s.onDev (fun d => ((d.updSec c (fun x => x.failTarget kind)).incReg 0x5800 0x05).raiseCtx 0x8A04 c [port, status])).afterImage c

/-- SNAPSHOT_FLUSH_COMPLETE: a local part's data and segment table are flushed; its header is written with forced unit
access, or the target's error fails the image there (R367). -/
def snapshotFlush (c port status : Nat) (s : State) : State :=
  match (s.dev.upd c).sec with
  | none => s
  | some x =>
    let due := x.targets.any (fun t => t.kind = 0 && t.partsLeft.contains port)
    if x.image = 0 || !due || !(x.partStreamed 0 port) then s
    else if status ≠ 0 || !(s.dev.snap.contains port) then s.failTarget c 0 port status
    else
      let g := x.part c 0 port port
      (s.onDev (fun d => (d.updSec c (fun x => { x with commitSeq := (x.commitSeq + 1) % 2 ^ 32 })).headerOut x port g)).commitPart
        c 0 port g

/-- SNAPSHOT_FLUSH_COMPLETE (R367). -/
def execSnapshotFlushComplete (c : Fin 1024) (port : Fin 4) (status : Nat) (s : State) : Host.Outcome State Fault Refusal :=
  .next (snapshotFlush c.val port.val status s)

/-- NETWORK_HEADER_ACK: the store acknowledges the header of the network part, which commits it (R368). -/
def networkHeaderAck (c : Nat) (ok : Bool) (s : State) : State :=
  match (s.dev.upd c).sec with
  | none => s
  | some x =>
    let due := x.targets.any (fun t => t.kind = 1 && t.partsLeft.contains 0)
    if x.image = 0 || !due || !(x.partStreamed 1 0) then s
    else if !ok then s.failTarget c 1 x.f.handle 1
    else match x.sent with
      | some g => s.commitPart c 1 0 g
      | none => s

/-- NETWORK_HEADER_ACK (R368). -/
def execNetworkHeaderAck (c : Fin 1024) (ok : Bool) (s : State) : Host.Outcome State Fault Refusal :=
  .next (networkHeaderAck c.val ok s)

/-- IMAGE_COMPLETE: on a target whose parts are all committed, the status record is written and the object signalled; the
last target ends the image, and rolling mode where no fence has passed since the image's own (R359, R364). -/
def imageComplete (c target : Nat) (s : State) : State :=
  match (s.dev.upd c).sec with
  | none => s
  | some x =>
    match x.targets.find? (fun t => t.kind = target) with
    | none => s
    | some t =>
      if x.image = 0 || !t.partsLeft.isEmpty then s else
      let bytes := ((x.data.map (fun g => g.bytes.length)).sum)
      let last := x.targets.all (fun t => t.kind = target)
      let leave := last && x.rolling && s.dev.ctxReg c 0x08 = x.step
      let s := s.onDev (fun d =>
        let d := d.updSec c (fun x =>
          let x := if target = 0 then { x with lastLocal := x.image } else { x with lastNet := x.image }
          let x := { x with drainUs := (d.now - x.started) / 1000 % 2 ^ 32, lastBytes := bytes }
          { x.dropTarget target with rolling := x.rolling && !leave })
        let d := (d.incReg 0x5800 0x04).addReg 0x5800 0x07 bytes
        let d := if leave then d.raiseCtx 0x8A03 c [c, x.image] else d
        d.signal 15 x.f.obj false 1)
      s.afterImage c

/-- IMAGE_COMPLETE (R359). -/
def execImageComplete (c : Fin 1024) (target : Fin 2) (s : State) : Host.Outcome State Fault Refusal :=
  .next (imageComplete c.val target.val s)

/-- Does any context hold an image in progress? -/
def Dev.imaging (d : Dev) : Bool := d.upds.any (fun p => match p.2.sec with
  | some x => x.image ≠ 0
  | none => false)

/-- The securing function (R378, R675). -/
def secureRule : FnRule :=
  { check := fun _ => 0, atOnce := true, refuse := fun _ => 0, start := id, stop := id }

/-- SECURING_ENABLE_WRITE (R378). -/
def execSecuringEnableWrite (via : Via) (v : Nat) (s : State) : Host.Outcome State Fault Refusal :=
  .next (s.dictWrite via 0x5800 0x01 v (fun s => s.fnWrite secureRule 0x5800 v))

/-! Restore (R372 to R376). -/

/-- The state-record replicas that a table names, each stack-pinned in the stack of its position (R319, R323). -/
def readSrt (c va : Nat) : Act (List Nat) := do
  let bs ← vread (coordUse c) va 256
  let es := (chunksOf 8 bs).map leNat
  Act.refuseIf (es.any (fun e => bits e 63 52 ≠ 0)) 0x0607
  for (e, s) in es.zipIdx do
    let _ ← translate (coordUse c) e true
    let x ← leafOf (coordUse c) e
    let at_ := if bit x.leaf 60 then none else dpaPhys (bits x.leaf 42 16 * 65536)
    Act.refuseIf ((match at_ with
      | some (view, _, t, _) => view ≠ 0 || t ≠ s
      | none => true)) 0x0607
  return es

/-- Write the record into every replica (R317). -/
def writeReplicas (c : Nat) (vas : List Nat) (rec_ : Nat) : Act Unit := do
  for va in vas do
    vwrite (coordUse c) va (leBytes 1024 rec_)

/-- The complete images of a source: update index and parts. The header of each verifies and names the context and the parts of
the source; the parts carry one update index and one manifest CRC (R373). -/
def State.images (s : State) (c kind : Nat) (f : SnapF) : List (Nat × List ImgPart) :=
  let mine := s.persist.media.filter (fun p => p.kind = kind && p.ctx = c && p.parts = (if kind = 0 then 4 else 1) && p.headerOk)
  if kind = 0 then
    [f.localBase, f.localBase + f.localLen / 2].filterMap (fun b =>
      let ps := [0, 1, 2, 3].filterMap (fun q => mine.find? (fun p => p.base = b && p.port = q))
      match ps with
      | p0 :: _ => if ps.length = 4 && ps.all (fun p => p.u = p0.u && p.manifest = p0.manifest) then some (p0.u, ps) else none
      | [] => none)
  else match s.dev.handle? f.handle with
    | some h => (mine.filter (fun p => p.port = h.store)).map (fun p => (p.u, [p]))
    | none => []

/-- Write an item's bytes over its ranges, in order. -/
def writeItem (u : Using) : List (Nat × Nat) → List Nat → Act Unit
  | [], _ => return ()
  | (va, n) :: xs, bs => do
    vwrite u va (bs.take n)
    writeItem u xs (bs.drop n)

/-- Put the items of an image back whose item numbers are listed: into the ranges that the manifest gives them now. -/
def restoreItems (c u : Nat) (es : List MEnt) (data : List SData) (which : List Nat) : Act Unit := do
  for (e, i) in es.zipIdx do
    let items ← if data.any (fun g => g.tag / 8 = i && which.contains (g.tag % 8)) then entryItems c u e else pure []
    for (t, xs) in items do
      match data.find? (fun g => g.tag = itemTag i t && which.contains t) with
      | some g => writeItem (rootUse c e.stack 0 true) xs g.bytes
      | none => pure ()

/-- Put the descriptors and precision areas of the copy regions of an image back: with them stand the places of the rest. -/
def restoreAreas (c : Nat) (es : List MEnt) (data : List SData) : Act Unit := do
  for (e, i) in es.zipIdx do
    let use := rootUse c e.stack 0 true
    let put := fun (item va : Nat) => match data.find? (fun g => g.tag = itemTag i item) with
      | some g => vwrite use va g.bytes
      | none => (pure () : Act Unit)
    if e.kind = 3 then
      put 7 e.obj
      put 1 e.aux

/-- Zero the version-record halves with a tag above `u` (step 4 of R375). -/
def zeroHalves (c u : Nat) (e : MEnt) : Act Unit := do
  let use := rootUse c e.stack 0 true
  let b ← readBlock c e.obj (some e.stack)
  let rows := if bit b.mode 1 then (b.w.headD Desc.none).size 1 else 1
  for r in List.range (2 * rows) do
    let h ← vreadNat use (e.aux + 8 * r) 8
    if u < bits h 63 32 then vwrite use (e.aux + 8 * r) (List.replicate 8 0)

/-- Convert the masters that stand in the current slots after update `u` into a copy, as a COPY job does (R297, R375 step
5, R624 step 2). `rows` limits a block of rows to those named. -/
def copyCurrent (c u stack obj copy aux : Nat) (rows : Option (List Nat)) : Act Unit := do
  let use := rootUse c stack 1 true
  let b ← readBlock c obj (some stack)
  let x ← readDesc use copy
  let h ← readArea use x none
  let d ← Act.dev
  let r : RJob := { j := { ctx := ⟨c % 1024, Nat.mod_lt _ (by decide)⟩, stamp := d.ctxReg c 0x08, r := jobRecOf 0 },
                    policy := (d.ctx c).policy, started := true, released := true, jobHold := false, written := 0 }
  let get := fun (i : Nat) => b.w.getD i Desc.none
  let emb := bit b.mode 1
  let groups := if emb then (rows.getD (List.range ((get 0).size 1))).map (fun q => (16 * q, (List.range b.rowW).map (q * b.rowW + ·)))
    else [(0, List.range (get 0).total)]
  for (off, pos) in groups do
    let raw ← vreadNat use (aux + off) 16
    let w := get (currentHalf raw (u + 1)).2.2
    let (f, ws) ← masterValues use w (pos.map (coordsOf w.sizes))
    copyValues stack r x h f ((pos.map (coordsOf x.sizes)).zip ws)

/-- The first segment of a part whose CRC32C does not verify (R365, R375 step 1). -/
def ImgPart.badSegment (p : ImgPart) : Option Nat :=
  let crcs := (chunksOf 65536 (p.data.flatMap (·.bytes))).map crc32c
  ((crcs.zip p.crcs).zipIdx.find? (fun q => q.1.1 ≠ q.1.2)).map (·.2)

/-- Put an image back in the order of R375. -/
def restoreImage (c : Nat) (f : SnapF) (es : List MEnt) (u : Nat) (ps : List ImgPart) : Act Unit := do
  let data := ps.flatMap (·.data)
  let cap := ((data.find? (fun g => g.tag = capTag)).map (·.bytes)).getD []
  let n := cap.length - 1044
  let rec_ := leNat (cap.take 1024)
  let tail := cap.drop (1024 + n)
  let step := leNat ((tail.drop 8).take 8)
  let vas ← readSrt c f.table
  let rec_ := setBytesAt (setBytesAt (setBytesAt rec_ 0 4 u) 4 4 u) 8 1 (clearMask (bytesAt rec_ 8 1) 2)
  writeReplicas c vas rec_
  let d ← Act.dev
  let base := bits (d.ctxReg c 0x0A) 51 0
  if base ≠ 0 then vwrite (coordUse c) base ((cap.drop 1024).take n)
  Act.upd (fun d =>
    let d := ((d.setReg (0x4000 + c) 0x07 (leNat (tail.take 8))).setReg (0x4000 + c) 0x08 step).setReg (0x4000 + c) 0x09 u
    (d.updCtx c (fun x => { x with stampBase := step, fences := 0 })).updUpd c (fun x =>
      { x with rootFailed := false, normDone := false }))
  restoreAreas c es data
  restoreItems c u es data [0, 2]
  restoreItems c u es data [3]
  restoreItems c u es data [4, 5, 6]
  for e in es do
    if e.kind = 1 then zeroHalves c u e
  for e in es do
    if e.kind = 1 && e.copy ≠ 0 && !(es.any (fun x => x.kind = 3 && x.obj = e.copy)) then
      copyCurrent c u e.stack e.obj e.copy e.aux none
  Act.upd (fun d => d.incReg 0x5800 0x09)

/-- SRESTORE's checks (R372 to R374, R378) and its effect (R375). `all` are the complete images of its source. -/
def srestore (o : Origin) (f : SnapF) (all : List (Nat × List ImgPart)) : Act Bool := do
  plainHeader o (snapBad f)
  let c := o.ctx.val
  let d ← Act.dev
  Act.refuseIf (d.fn 0x5800 ≠ 2) 0x0A06
  let others := (d.streamsOf c).any (fun p =>
    !p.2.q.isEmpty || p.2.waiting || p.2.run.any (fun e => !(p.1 = o.stream.val && e.seq = o.seq)))
  Act.refuseIf (others || (((d.upd c).sec.map (·.isOpen)).getD false)) 0x0A05
  let newest := (all.map (·.1)).foldl max 0
  match all.find? (fun p => p.1 = (if f.obj = 0 then newest else f.obj)) with
  | none => Act.refuse 0x0A04
  | some (u, ps) =>
    let (es, crc) ← readManifest c f.manifest f.entries
    Act.refuseIf ((ps.map (·.manifest)).headD 0 ≠ crc) 0x0A07
    match ps.findSome? (fun (q : ImgPart) => q.badSegment.map (fun g => (if q.kind = 0 then q.port else 0, g))) with
    | some (part, g) => do
      Act.upd (fun d => d.raiseCtx 0x8A06 c [c, part, g])
      Act.fail2 0x0A07
    | none => do
      restoreImage c f es u ps
      return true

/-- SRESTORE (R375). -/
def execSrestore (o : Origin) (f : SnapF) (s : State) : Host.Outcome State Fault Refusal :=
  .next (s.issueCmd o 0x7A 15 (cmdOf o 0x7A f.reserved (snapFields 0x7A f)) (srestore o f (s.images o.ctx.val f.opt f)))

end Sys2Proof.Machine
end

