-- ==== Sys2Proof/Machine/SiteBase.lean ====
section
/-! DEFINITION. The phase of a host site, the acceptance of an attach, the end of a reclamation (R533 to R546). -/
namespace Sys2Proof.Machine
open Sys2Proof

/-- Event 0x8801: a site's phase has changed (R535). -/
def Dev.phaseEvent (d : Dev) (h old : Nat) : Dev :=
  let s := d.site h
  d.raiseSite 0x8801 h [h, old, s.phase, s.modules, s.rate]

/-- Move a site to a phase; a change raises event 0x8801 (R535). -/
def Dev.setPhase (d : Dev) (h new : Nat) : Dev :=
  let old := (d.site h).phase
  if old = new then d else (d.updSite h (fun s => { s with phase := new })).phaseEvent h old

/-- The device accepts an attach (R543): the generation advances, the ring starts anew with its header, the site becomes
ATTACHED, an entry 0x8804 for what it lost stands first, then the events of the attach. `resumed` are the contexts that it
resumes. -/
def Dev.acceptAttach (d : Dev) (h ringBase ringCtl key : Nat) (resumed : Option (List Nat)) : Dev :=
  let old := (d.site h).phase
  let d := d.setReg (0x4800 + h) 0x05 ((d.siteReg h 0x05 + 1) % 2 ^ 32)
  let d := d.incReg (0x4800 + h) 0x09
  let d := d.updSite h (fun s => { s with
    consumer := 0, producer := 0, overflow := false, lost := 0, lostFlag := 0, staged := none, firstUnraised := none,
    vec0Hold := false, ringBase := ringBase, ringCtl := ringCtl, key := key, reasonCode := 0, held := [], reclaimed := 0,
    attachWait := none })
  let d := d.ringHeader h
  let d := d.updSite h (fun s => { s with phase := 4 })
  let n := (d.site h).lostDetached
  let d := if n = 0 then d else (d.updSite h (fun s => { s with lostDetached := 0 })).putEntry h (lostEntry d h n) 1
  let cs := resumed.getD []
  let d := cs.foldl (fun d c => d.setReg (0x4000 + c) 0x22 0) d
  (d.phaseEvent h old).raiseSite 0x8802 h [h, d.siteReg h 0x05, b2n resumed.isSome, cs.length]

/-- The last held context of a site has been reclaimed (R546): event 0x8805; an attach that waited is accepted, or the
site's phase follows its link. -/
def Dev.siteReclaimed (d : Dev) (h : Nat) : Dev :=
  let s := d.site h
  let d := d.raiseSite 0x8805 h [h, s.reclaimed, s.cause]
  match s.attachWait with
  | some (rb, rc, key) => d.acceptAttach h rb rc key none
  | none => (d.updSite h (fun s => { s with reclaimed := 0 })).setPhase h s.link

/-- A context has been reclaimed: it is no longer held by its site, and with the last one the reclamation ends. -/
def Dev.unheld (d : Dev) (h c : Nat) : Dev :=
  if !((d.site h).held.contains c) then d else
  let d := d.updSite h (fun s => { s with held := s.held.erase c, reclaimed := s.reclaimed + 1 })
  if (d.site h).held.isEmpty then (d.siteReclaimed h).replyWaiting (4 + h) 0 else d

end Sys2Proof.Machine
end

