-- ==== Sys2Proof/Machine/Contexts.lean ====
section
/-! DEFINITION. Contexts: owner, enable, stop and reclamation; sync-object blocks; beds, split groups, grants, evaluation
attachments and windows (R380 to R385, R422 to R434, R441 to R470, R546, R712). -/
namespace Sys2Proof.Machine
open Sys2Proof

/-! What a context latches (R57, R151, R445, R452, R471). -/

/-- The policy entries as they stand (R57, R151). -/
def Dev.policyNow (d : Dev) : Policy :=
  let r := fun (s : Nat) => d.reg 0x5000 s
  let on := fun (s : Nat) => decide (r s % 2 = 1)
  { gradRnd := r 1 % 8, momRnd := r 2 % 8, gradSat := on 3, fexp := r 0x10, cand := r 0x11, clamp := on 0x12,
    rate := r 0x13, check := on 0x14, thr4 := r 0x15, thr6 := r 0x16, thr8 := r 0x17, thr52 := r 0x18, window := r 0x19,
    share := r 0x1A, failLim := r 0x1B, feedback := on 0x1D, jobWide := on 0x1E }

/-- A context takes the policy entries over, at its enable and at each update fence (R57). -/
def Dev.latchPolicy (d : Dev) (c : Nat) : Dev := d.updCtx c (fun x => { x with policy := d.policyNow })

/-- The bed that a context names, if one is assigned (0x4000+c:06). -/
def Dev.bedOf (d : Dev) (c : Nat) : Option Nat :=
  let v := d.ctxReg c 0x06
  if bit v 7 then some (v % 64) else none

/-- The definition of a bed: engine mask, host mask (R441, R472). -/
def Dev.bedDef (d : Dev) (b : Nat) : Nat × Nat :=
  let v := d.reg 0x3400 (0x40 + b)
  (bytesAt v 0 8, bits (bytesAt v 8 1) 3 0)

/-- Does a context hold an OPEN set on an engine of a mask (R445)? -/
def Dev.holdsOpen (d : Dev) (c mask : Nat) : Bool :=
  d.engs.any (fun p => bit mask p.1 && p.2.sets.any (fun b => b.st = 1 && b.acc.ctx = c))

/-- The definition of its bed takes effect for a context, or is deferred for an OPEN set on a leaving engine (R445). -/
def Dev.bedApply (d : Dev) (c : Nat) : Dev :=
  match d.bedOf c with
  | none => d.updCtx c (fun x => { x with bedPending := false, bedDeferred := false })
  | some b =>
    let (mask, hosts) := d.bedDef b
    if d.holdsOpen c (clearMask (d.ctx c).bedMask mask) then
      (d.updCtx c (fun x => { x with bedPending := true, bedDeferred := true })).raiseCtx 0x8205 c [c, b]
    else d.updCtx c (fun x => { x with bedMask := mask, bedHosts := hosts, bedPending := false, bedDeferred := false })

/-- A written bed takes effect for a context whose streams are all IDLE, unless it is deferred to a UFENCE (R445). -/
def Dev.bedAtRest (d : Dev) (c : Nat) : Dev :=
  if (d.ctx c).bedPending && !(d.ctx c).bedDeferred && d.ctxIdle c then d.bedApply c else d

/-! The pipeline schedule table (R452 to R456). -/

/-- Read a context's schedule table: gated streams, lookahead, entries; `none` where R454 finds it malformed. -/
def readSched (c : Nat) : Act (Option (Nat × Nat × List Nat)) := do
  let d ← Act.dev
  let va := bits (d.ctxReg c 0x0C) 51 0
  let h ← vread (coordUse c) va 64
  let raw := leNat h
  let n := bits raw 12 0
  let gated := bits raw 19 16
  let look := bits raw 25 24
  if raw &&& (fieldMask 0 15 13 + fieldMask 2 7 4 + fieldMask 3 7 2) ≠ 0 || raw >>> 32 ≠ 0 || n = 0 || 4096 < n then
    return none
  let es := (chunksOf 8 (← vread (coordUse c) (va + 64) (8 * n))).map leNat
  let bad := fun (e : Nat) => bits e 47 32 ≠ 0 || bits e 17 2 ≠ 0 || bits e 63 48 = 0 || !(bit gated (e % 4)) ||
    d.streamCount c ≤ e % 4
  if es.any bad || (bitList 4 gated).any (fun i => !(es.any (fun e => e % 4 = i))) then return none
  return some (gated, look, es)

/-- Take a schedule table over, every entry unfinished (R456). -/
def loadSched (c : Nat) : Act Unit := do
  let d ← Act.dev
  if bits (d.ctxReg c 0x0C) 51 0 = 0 then
    Act.upd (fun d => d.updCtx c (fun x => { x with schedTab := [], gated := 0, lookahead := 0, schedDone := [] }))
  else
    let t ← readSched c
    let (g, l, es) := t.getD (0, 0, [])
    Act.upd (fun d => d.updCtx c (fun x => { x with
      schedTab := es, gated := g, lookahead := l, schedDone := [], schedCnt := [0, 0, 0, 0] }))

/-! Replay points (R621). -/

/-- What a replay point captures; `rec_` is the state record with the address of its table,
where the context has one. -/
def capturePoint (c : Nat) (rec_ : Option (Nat × Nat)) (logAt : Nat) : Act Point := do
  let d ← Act.dev
  let base := bits (d.ctxReg c 0x0A) 51 0
  let n := if base = 0 then 0 else bits (d.ctxReg c 0x0B) 12 0
  let heads ← (List.range n).mapM (fun l => do
    let h ← vreadNat (coordUse c) (base + 576 * l) 64
    return (l, h))
  let r := (d.ctx c).rep
  return { counters := d.sync.filter (fun p => d.objOwner p.1 = some c), record := rec_, heads := heads,
           step := d.ctxReg c 0x08, upd := d.ctxReg c 0x09, logAt := logAt,
           undoAt := (List.range 32).map (fun s => (s, Tbl.look 0 s r.undoTail + (Tbl.look [] s r.undo).length)) }

/-- Keep a replay point: the two latest stand, what precedes the older of them is freed, the not-replayable mark counts
down (R621 to R623). -/
def Replay.keepPoint (r : Replay) (p : Point) : Replay :=
  let pts := (p :: r.points).take 2
  let old := pts.getLastD p
  let undo := r.undo.map (fun (q : Nat × List (List Nat)) =>
    (q.1, q.2.drop (Tbl.look 0 q.1 old.undoAt - Tbl.look 0 q.1 r.undoTail)))
  let left := r.clearIn - 1
  { r with points := pts, logTail := max r.logTail old.logAt, undo := undo,
           undoTail := (List.range 32).map (fun s => (s, max (Tbl.look 0 s r.undoTail) (Tbl.look 0 s old.undoAt))),
           marked := r.marked && left ≠ 0, clearIn := left }

/-- A replaying context reaches its next replay point: its replay is over and the next suspect's turn may begin (R626). -/
def Dev.replayOver (d : Dev) (c : Nat) : Dev :=
  if !(d.ctx c).rep.replaying then d else
  let d := d.updCtx c (fun x => { x with rep := { x.rep with replaying := false, rolled := false, suspectOf := none } })
  let d := if d.ctxReg c 0x28 = 2 then d.setReg (0x4000 + c) 0x28 0 else d
  { d with integ := { d.integ with turn := d.integ.turn.filter (fun p => p.2 ≠ c) } }

/-- A replay point of a context whose replay is enabled. -/
def State.replayPoint (s : State) (c : Nat) (rec_ : Option (Nat × Nat)) (logAt : Nat) : State :=
  if !(s.dev.replayOn c) then s else
  let s := s.onDev (fun d => d.replayOver c)
  let r := s.runAct (capturePoint c rec_ logAt)
  match r.1 with
  | .ok p => r.2.onDev (fun d => d.updCtx c (fun x => { x with rep := x.rep.keepPoint p }))
  | .error _ => r.2

/-- Does a context that has completed no applied UFENCE hold nothing: no command and no bottom-bank set (R621)? -/
def Dev.restful (d : Dev) (c : Nat) : Bool :=
  !(d.ctx c).rep.fenced && d.ctxIdle c &&
    !(d.engs.any (fun p => p.2.sets.any (fun b => b.st ≠ 0 && b.acc.ctx = c) || p.2.saves.any (fun a => a.2.ctx = c)))

/-- The moments of rest are replay points too (R621). -/
def State.restPoint (s : State) (c : Nat) : State :=
  if s.dev.replayOn c && s.dev.ctxState c = 2 && s.dev.restful c then
    s.replayPoint c none (s.dev.ctx c).rep.logHead
  else s

/-! Owner and enable (R381, R383, R444, R454, R651, R712). -/

/-- A write of the owner entry (R381). -/
def ownerWrite (via : Via) (c v : Nat) (s : State) : WR :=
  let d := s.dev
  let none_ := bit v 2
  let ok := d.ctxState c = 0 && (match viaHost via with
    | some h => if none_ then d.owner c == some h else (d.owner c).isNone && v % 4 == h
    | none => none_ || d.populated (v % 4))
  if ok then (0, s.onDev (fun d => d.setReg (0x4000 + c) 0x03 v)) else (0x0202, s)

/-- CONTEXT_OWNER_WRITE (R381). -/
def execContextOwnerWrite (via : Via) (c : Fin 1024) (v : Nat) (s : State) : Host.Outcome State Fault Refusal :=
  .next (s.dictWrite via (0x4000 + c.val) 0x03 v (ownerWrite via c.val v))

/-- Is a watch table sound: no reserved bit, no tensor id twice (R651)? -/
def watchSound (es : List Nat) : Bool :=
  let mask := fieldMask 0 31 24 + fieldMask 4 7 3 + fieldMask 5 7 4 + fieldMask 11 7 0 + fieldMask 21 23 0
  es.all (fun e => e &&& mask = 0) && (es.map (fun e => bits e 23 0)).Nodup

/-- The die whose secure bank a sealed context would be given: the lowest in its bed that is not assigned (R712). -/
def Dev.freeBank (d : Dev) (c : Nat) : Option Nat :=
  let mask := (d.bedOf c).elim 0 (fun b => (d.bedDef b).1)
  (List.range 4).find? (fun die => bit mask (16 * die) && !(bit (d.engReg (16 * die) 0x22) 15))

/-- The consistency check of a context's enable (R383, R444, R454, R651, R712). -/
def ctxCheck (c : Nat) (s : State) : Nat :=
  let d := s.dev
  let watch := bits (d.ctxReg c 0x2C) 51 0
  let watchOk := watch = 0 || (match (s.runAct (vread (coordUse c) watch (32 * d.ctxReg c 0x2D))).1 with
    | .ok bs => watchSound ((chunksOf 32 bs).map leNat)
    | .error _ => false)
  let owner := d.owner c
  if owner.isNone || !(bit (d.ctxReg c 0x04) 63) || (d.bedOf c).isNone ||
      (bits (d.ctxReg c 0x0A) 51 0 ≠ 0 && d.ctxReg c 0x0B = 0) ||
      !(d.blocks.any (fun p => bit p.2 31 && bits p.2 9 0 = c)) ||
      (d.ctxReg c 0x25 ≠ 0 && d.ctxReg c 0x26 = 0) || !watchOk then 0x0204
  else if !(bit ((d.bedOf c).elim 0 (fun b => (d.bedDef b).2)) (owner.getD 0)) then 0x020D
  else
    let sched := if bits (d.ctxReg c 0x0C) 51 0 = 0 then true else match (s.runAct (readSched c)).1 with
      | .ok t => t.isSome
      | .error _ => false
    if !sched then 0x020F
    else if d.ctxReg c 0x0D % 2 = 1 then
      (if s.persist.life ≠ 2 then 0x0B03 else if (d.freeBank c).isNone then 0x0B02 else 0)
    else 0

/-- A context enters STARTING and ON: streams IDLE, stamps from its step counter (R50), policy, bed and schedule taken
over, a secure bank assigned to a sealed one (R384, R712); its replay starts anew. -/
def ctxStart (c : Nat) (s : State) : State :=
  let s := s.onDev (fun d =>
    let d := d.updCtx c (fun x => { x with
      streams := x.streams.map (fun t => { t with
        q := [], run := [], stopped := false, cause := 0, reason := 0, stopSeq := 0, stopOp := 0, stopCmd := none,
        dropNum := 0, dropCause := 0, waiting := false, waitMet := false, lastChange := d.now }),
      stampBase := d.ctxReg c 0x08, fences := 0, hints := [], bedMask := 0, win := 0, onceEv := [], bedNs := [],
      overrunSeqs := [0, 0, 0, 0], overrunOver := true, rep := Replay.reset })
    let d := (d.latchPolicy c).bedApply c
    let d := d.updUpd c (fun u => { u with norm := none, normDone := false, rootFailed := false, fence := none })
    if d.ctxReg c 0x0D % 2 = 1 then
      match d.freeBank c with
      | some die => d.setReg (0x3000 + 16 * die) 0x22 (2 ^ 15 + c)
      | none => d
    else d)
  (s.runAct (loadSched c)).2.restPoint c

/-- The function of a context (R675): it may always be disabled; what R384 asks ends its STOPPING. -/
def ctxRule (c : Nat) : FnRule :=
  { check := ctxCheck c, atOnce := true, refuse := fun _ => 0, start := ctxStart c, stop := id }

/-- A write of the enable entry of a context. -/
def ctxEnable (c v : Nat) (s : State) : WR := s.fnWrite (ctxRule c) (0x4000 + c) v

/-- CONTEXT_ENABLE_WRITE (R383). -/
def execContextEnableWrite (via : Via) (c : Fin 1024) (v : Nat) (s : State) : Host.Outcome State Fault Refusal :=
  .next (s.dictWrite via (0x4000 + c.val) 0x01 v (ctxEnable c.val v))

/-! Blocks (R424, R425). -/

/-- A root-engine job that waits on an object fails, and the later queued jobs of its context are discarded (R425, R285). -/
def Dev.failWaitingJob (d : Dev) (st : Nat) (r : RJob) : Dev :=
  let q := (d.stk st).queue
  let k := (q.takeWhile (fun x => x ≠ r)).length
  let later := (q.drop (k + 1)).filter (fun x => x.j.ctx = r.j.ctx && !x.started)
  let d := d.updStk st (fun t => { t with
    queue := q.take k ++ (q.drop (k + 1)).filter (fun x => !(x.j.ctx = r.j.ctx && !x.started)) })
  let d := d.updUpd r.j.ctx.val (fun u => { u with rootFailed := true })
  (d.addReg (0x3800 + st) 0x04 (1 + later.length)).raiseCtx 0x8606 r.j.ctx.val [st, r.j.ctx.val, r.j.r.waitObj]

/-- Release, unsatisfied, every wait registered on the objects of a block (R425). -/
def Dev.releaseBlock (d : Dev) (b : Nat) : Dev :=
  let d := d.ctxs.foldl (fun d p =>
    (List.range 4).foldl (fun d i =>
      let s := d.stream p.1 i
      if s.waiting && !s.waitMet && s.waitObj / 64 = b then
        match s.run.find? (fun e => e.op = 0x02 && e.status = 0) with
        | none => d
        | some e =>
          (d.updStream p.1 i (fun t => { t with
            run := t.run.filter (fun x => x.seq ≠ e.seq), waiting := false, waitMet := false })).failCommand
              p.1 i 2 0x0211 e.seq 0x02 e.cmd
      else d) d) d
  (List.range 32).foldl (fun d st =>
    (List.range (d.stk st).queue.length).foldl (fun d _ =>
      match (d.stk st).queue.find? (fun r => r.j.r.waitEn && !r.released && !r.started && r.j.r.waitObj / 64 = b) with
      | some r => d.failWaitingJob st r
      | none => d) d) d

/-- Zero the counters of a block. -/
def Dev.zeroBlock (d : Dev) (b : Nat) : Dev := { d with sync := d.sync.filter (fun p => p.1 / 64 ≠ b) }

/-- Free a block: waits first, then the counters, then the entry (R425). -/
def Dev.freeBlock (d : Dev) (b : Nat) : Dev :=
  let d := (d.releaseBlock b).zeroBlock b
  { d with blocks := Tbl.del b d.blocks }

/-- A write of block assign (R424, R425). -/
def blockWrite (via : Via) (v : Nat) (s : State) : WR :=
  let d := s.dev
  let b := bits v 31 24
  let c := bits v 9 0
  let e := d.block b
  let held := bit e 31
  let holder := bits e 9 0
  let foreign := match viaHost via with
    | some h => d.owner c != some h
    | none => false
  if foreign || (held && d.ctxState holder ≠ 0) then (0x0209, s)
  else if bit v 23 then
    if held && (viaHost via).isSome then (0x0209, s) else
    let new := 2 ^ 31 + bits v 22 22 * 2 ^ 30 + bits v 21 21 * 2 ^ 29 + bits v 19 16 * 2 ^ 24 + c
    (0, s.onDev (fun d =>
      let d := (if held then d.releaseBlock b else d).zeroBlock b
      { d with blocks := Tbl.put b new d.blocks }))
  else if !held || holder ≠ c then (0x0209, s)
  else (0, s.onDev (fun d => d.freeBlock b))

/-- The word of a block-assign write (R423). -/
def blockWord (block assign : Nat) (remote notify : Bool) (hosts c : Nat) : Nat :=
  block <<< 24 + assign <<< 23 + b2n remote <<< 22 + b2n notify <<< 21 + (hosts % 32) <<< 16 + c

/-- BLOCK_ASSIGN (R424). -/
def execBlockAssign (via : Via) (block : Fin 256) (remote notify : Bool) (hosts : Nat) (c : Fin 1024) (s : State) :
    Host.Outcome State Fault Refusal :=
  let v := blockWord block.val 1 remote notify hosts c.val
  .next (s.dictWrite via 0x4C00 0x02 v (blockWrite via v))

/-- BLOCK_FREE (R425). -/
def execBlockFree (via : Via) (block : Fin 256) (c : Fin 1024) (s : State) : Host.Outcome State Fault Refusal :=
  let v := blockWord block.val 0 false false 0 c.val
  .next (s.dictWrite via 0x4C00 0x02 v (blockWrite via v))

/-! The end of a stop, and reclamation (R384, R546, R712). -/

/-- Return the RW and RWD entries of a context to their defaults, but for its work counter (R546 step 6). -/
def Dev.ctxDefaults (d : Dev) (c : Nat) : Dev :=
  let drop := fun (k : Nat) => k / 256 = 0x4000 + c && k % 256 ≠ 0x2B && (match rowOf (0x4000 + c) (k % 256) with
    | some r => r.acc = .rw || r.acc = .rwd
    | none => false)
  { d with regs := d.regs.filter (fun p => !(drop p.1)) }

/-- A context gives its secure bank up, which is wiped (R212, R712). -/
def Dev.releaseBank (d : Dev) (c : Nat) : Dev :=
  (List.range 4).foldl (fun d die =>
    if d.engReg (16 * die) 0x22 = 2 ^ 15 + c then d.wipeStart die 3 else d) d

/-- Reclamation after the stop (R546 steps 2 to 6): handles closed, an image abandoned and securing closed, saved sets and
secure bank given up, blocks freed, entries at their defaults; the site no longer holds the context. -/
def Dev.finishReclaim (d : Dev) (c : Nat) : Dev :=
  let h := d.owner c
  let d := (d.handlesOf c).foldl (fun d x => d.closeHandle x) d
  let d := d.updSec c (fun x => { x.dropImage with isOpen := false, closing := [] })
  let d := (d.dropSaves c).releaseBank c
  let d := (d.blocks.filter (fun p => bit p.2 31 && bits p.2 9 0 = c)).foldl (fun d p => d.freeBlock p.1) d
  let d := (d.ctxDefaults c).updCtx c (fun x => { x with reclaimed := false, bedMask := 0, bedHosts := 0, bedPending := false, bedDeferred := false })
  let d := { d with
    latch := Tbl.del (0x4000 + c) d.latch
    tele := { d.tele with reclaimed := d.tele.reclaimed ++ [c] } }
  match h with
  | some h => (d.setReg (0x4000 + c) 0x22 0).unheld h c
  | none => d

/-- Are the issued commands of a context gone, but for registered waits (R384 step 3)? -/
def Dev.ctxDrained (d : Dev) (c : Nat) : Bool :=
  (d.ctx c).streams.all (fun t => t.run.all (fun e => e.op = 0x02 && e.status = 0))

/-- Save the OPEN sets of a context, as far as save areas are free (R384 step 4). -/
def Dev.saveOpen (d : Dev) (c : Nat) : Dev :=
  (List.range 64).foldl (fun d e =>
    (List.range 2).foldl (fun d i =>
      let b := (d.eng e).sets.getD i ⟨0, Accum.empty⟩
      if b.st = 1 && b.acc.ctx = c then d.saveSet e i else d) d) d

/-- The end of a context's stop: commands that never issued are discarded, of a stream only the sequence fields stay, its bank is released, a deferred bed applies, and
recovery states 4 and 5 are cleared (R384, R445, R636, R712). -/
def Dev.ctxOff (d : Dev) (c : Nat) : Dev :=
  let d := d.updCtx c (fun x => { x with
    streams := x.streams.map (fun t => { Stream.reset with expected := t.expected, lastChange := d.now }),
    hints := [], win := 0, schedTab := [], gated := 0 })
  let d := d.releaseBank c
  let d := if (d.ctx c).bedPending then d.bedApply c else d
  if 4 ≤ d.ctxReg c 0x28 then d.setReg (0x4000 + c) 0x28 0 else d

/-- CONTEXT_STOP_COMPLETE: once its issued commands are gone and its OPEN sets saved, a STOPPING context reaches OFF (R384);
a context that is being reclaimed goes on to that (R546). -/
def contextStop (c : Nat) (s : State) : State :=
  if s.dev.ctxState c ≠ 3 || !(s.dev.ctxDrained c) then s else
  let s := s.onDev (fun d => d.saveOpen c)
  if s.dev.holdsOpen c (2 ^ 64 - 1) then s else
  let s := s.onDev (fun d => d.ctxOff c)
  if (s.dev.ctx c).reclaimed then (s.setFn (0x4000 + c) 0).onDev (fun d => d.finishReclaim c)
  else s.fnStopped (ctxRule c) (0x4000 + c)

/-- Reclaim a context: an OFF one at once, an ON one by a stop first; a STARTING or STOPPING one completes its transition
(R546, R547). -/
def State.reclaim (s : State) (c : Nat) : State :=
  let held := (List.range 4).any (fun h => (s.dev.site h).held.contains c)
  match s.dev.ctxState c with
  | 0 => s.onDev (fun d => if held then d.finishReclaim c else d.ctxDefaults c)
  | 2 =>
    let s := (s.onDev (fun d => (d.setReg (0x4000 + c) 0x01 0).updCtx c (fun x => { x with reclaimed := true }))).setFn
      (0x4000 + c) 3
    contextStop c s
  | 3 => if held then contextStop c (s.onDev (fun d => d.updCtx c (fun x => { x with reclaimed := true }))) else s
  | _ => s

/-! The sync-object unit (R426 to R434). -/

/-- SYNC_OP_GRANT (R426). -/
def execSyncOpGrant (s : State) : Host.Outcome State Fault Refusal := .next (s.onDev Dev.grantSync)

/-- SWAIT_TIMEOUT: the timeout of a registered wait expires; a condition that holds at the check completes it (R429). -/
def swaitTimeout (c i : Nat) (d : Dev) : Dev :=
  let t := d.stream c i
  if !t.waiting || t.waitMet || t.waitLeft = 0 || d.ctxReg c 0x22 % 2 = 1 then d else
  match t.run.find? (fun e => e.op = 0x02 && e.status = 0) with
  | none => d
  | some e =>
    let v := d.counter t.waitObj
    if t.waitVal ≤ v then d.releaseWaiters t.waitObj else
    let (k, d) := d.draw
    let d := d.updStream c i (fun t => { t with run := t.run.filter (fun x => x.seq ≠ e.seq), waiting := false })
    let d := (d.incReg (0x4000 + c) 0x15).stopStream c i 3 (Config.reasonOpen k % 65536) e.seq 0x02 e.cmd
    d.raiseCtx 0x8203 c [c, i, t.waitObj, t.waitVal, v]

/-- SWAIT_TIMEOUT (R429). -/
def execSwaitTimeout (c : Fin 1024) (i : Fin 4) (s : State) : Host.Outcome State Fault Refusal :=
  .next (s.onDev (swaitTimeout c.val i.val))

/-- A host reads an object of its sync window (R432); without an active link no access reaches it (R536, R538). -/
def Dev.syncRead (d : Dev) (h y : Nat) : Dev :=
  if (d.site h).link ≠ 3 then d else
  let ok := match d.objOwner y with
    | some c => d.owner c == some h || bit (d.block (y / 64)) (24 + h)
    | none => false
  if ok then d.out (.hostData h (leBytes 8 (d.counter y)) false)
  else
    let d := match d.objOwner y with
      | some c => d.incReg (0x4000 + c) 0x2E
      | none => d
    d.out (.hostData h (leBytes 8 0) false)

/-- A host writes an object of its sync window (R432). -/
def Dev.syncWrite (d : Dev) (h y v : Nat) : Dev :=
  if (d.site h).link ≠ 3 then d else
  match d.objOwner y with
  | some c => if d.owner c == some h then d.signal (1 + h) y false (v % two64) else d
  | none => d

/-- SYNC_WINDOW_READ (R432). -/
def execSyncWindowRead (h : Fin 4) (y : Fin 16384) (s : State) : Host.Outcome State Fault Refusal :=
  .next (s.hostSide h.val (.syncWindowRead h y) (fun s => s.onDev (fun d => d.syncRead h.val y.val)))

/-- SYNC_WINDOW_WRITE (R432). -/
def execSyncWindowWrite (h : Fin 4) (y : Fin 16384) (v : Nat) (s : State) : Host.Outcome State Fault Refusal :=
  .next (s.hostSide h.val (.syncWindowWrite h y v) (fun s => s.onDev (fun d => d.syncWrite h.val y.val v)))

/-- Does a package accept a remote signal (R430)? -/
def Dev.remoteOk (d : Dev) (handle epoch job y : Nat) : Bool :=
  match d.handle? handle with
  | none => false
  | some x => x.kind = 0 && x.job = job && x.epoch = epoch && bit (d.block (y / 64)) 30 && d.objOwner y == some x.ctx

/-- A remote signal is applied at input 14, or dropped, counted and reported (R430): answers whether it was accepted. -/
def Dev.remoteSignal (d : Dev) (handle epoch job sender y v : Nat) : Bool × Dev :=
  if y < 16384 && d.remoteOk handle epoch job y then (true, d.signal 14 y false (v % two64))
  else
    let c := (d.handle? handle).map (·.ctx)
    let ev := fun (d : Dev) => match c with
      | some c => d.raiseCtx 0x8204 c [handle, epoch, sender, y]
      | none => d.raiseDev 0x8204 [handle, epoch, sender, y]
    (false, ev (d.incReg 0x4C00 0x04))

/-- REMOTE_SIGNAL_RECEIVE: the answer goes back to the sender (R430). -/
def execRemoteSignalReceive (handle epoch job sender y v : Nat) (s : State) : Host.Outcome State Fault Refusal :=
  .next (s.onDev (fun d =>
    let (ok, d) := d.remoteSignal handle epoch job sender y v
    d.control handle sender 9 [epoch, y, b2n ok]))

/-! Beds, grants and split groups (R441 to R450). -/

/-- A write of a bed (R443, R445). -/
def bedWrite (via : Via) (b v : Nat) (s : State) : WR :=
  let d := s.dev
  let mask := bytesAt v 0 8
  let hosts := bits (bytesAt v 8 1) 3 0
  let old := (d.bedDef b).2
  let names := fun (c : Nat) => d.bedOf c = some b
  let all := (List.range 1024).filter names
  let byHost := match viaHost via with
    | some h => !(bit old h) || hosts ≠ old
    | none => false
  let ungranted := (bitList 64 mask).any (fun e => clearMask hosts (d.engReg e 0x24 % 16) ≠ 0)
  if (mask = 0 && all.any (fun c => d.ctxState c = 2)) || ungranted || byHost then (0x020D, s) else
  (0, s.onDev (fun d =>
    let d := d.setReg 0x3400 (0x40 + b) v
    -- the averages of the split groups that list the bed start again (R449)
    let d := { d with splits := d.splits.filter (fun p =>
      let g := d.reg 0x3400 (0x80 + p.1)
      !((List.range (bits g 39 38 + 1)).any (fun i => bits g (15 + 6 * i) (10 + 6 * i) = b))) }
    all.foldl (fun d c =>
      if d.ctxState c = 0 || d.ctxIdle c then d.bedApply c else d.updCtx c (fun x => { x with bedPending := true, bedDeferred := false })) d))

/-- BED_WRITE (R443). -/
def execBedWrite (via : Via) (b : Fin 64) (v : Nat) (s : State) : Host.Outcome State Fault Refusal :=
  .next (s.dictWrite via 0x3400 (0x40 + b.val) v (bedWrite via b.val v))

/-- The beds that a split group lists, in its order (R472). -/
def groupBeds (v : Nat) : List Nat := (List.range (bits v 39 38 + 1)).map (fun i => bits v (15 + 6 * i) (10 + 6 * i))

/-- A write of a split group (R448). -/
def splitWrite (g v : Nat) (s : State) : WR :=
  let beds := groupBeds v
  let masks := beds.map (fun b => (s.dev.bedDef b).1)
  let shared := (List.range 64).any (fun e => 1 < (masks.filter (fun m => bit m e)).length)
  if shared || !beds.Nodup then (0x0210, s)
  else (0, s.onDev (fun d => { d.setReg 0x3400 (0x80 + g) v with splits := Tbl.del g d.splits }))

/-- SPLIT_GROUP_WRITE (R448). -/
def execSplitGroupWrite (via : Via) (g : Fin 8) (v : Nat) (s : State) : Host.Outcome State Fault Refusal :=
  .next (s.dictWrite via 0x3400 (0x80 + g.val) v (splitWrite g.val v))

/-- ENGINE_GRANT_WRITE (R447). -/
def execEngineGrantWrite (via : Via) (e : Fin 64) (v : Nat) (s : State) : Host.Outcome State Fault Refusal :=
  .next (s.dictWrite via (0x3000 + e.val) 0x24 v (fun s =>
    (0, s.onDev (fun d => d.setReg (0x3000 + e.val) 0x24 v))))

/-- The first position of the largest value. -/
def firstMax (l : List Nat) : Nat := (List.range l.length).foldl (fun b j => if l.getD b 0 < l.getD j 0 then j else b) 0
/-- The last position of the largest value. -/
def lastMax (l : List Nat) : Nat := (List.range l.length).foldl (fun b j => if l.getD b 0 ≤ l.getD j 0 then j else b) 0

/-- Engines that are still to be given go to the beds of the largest remainders (R450). -/
def growSplit (e : Nat) : Nat → List Nat × List Nat → List Nat
  | 0, p => p.1
  | k + 1, p => if e ≤ p.1.sum then p.1 else
    growSplit e k (setAt p.1 (firstMax p.2) (p.1.getD (firstMax p.2) 0 + 1), setAt p.2 (firstMax p.2) 0)

/-- Engines given too many are taken from the largest counts (R450). -/
def shrinkSplit (e : Nat) : Nat → List Nat → List Nat
  | 0, n => n
  | k + 1, n => if n.sum ≤ e then n else shrinkSplit e k (setAt n (lastMax n) (n.getD (lastMax n) 0 - 1))

/-- The greatest time per engine of any bed. -/
def mostTime (w m : List Nat) : Nat := ((w.zip m).map (fun (p : Nat × Nat) => p.1 / p.2)).foldl max 0

/-- suggest of R450: the counts for the charges `w`, the present sizes, E engines; and whether to post them. Without charges, or
where the time would grow, nothing is posted (DESIGN CHOICE, log entry 276). -/
def suggest (w cur : List Nat) (e thr : Nat) : List Nat × Bool :=
  if w.sum = 0 then (cur, false) else
  let n := shrinkSplit e 64 (growSplit e 64 (w.map (fun x => max 1 (e * x / w.sum)), w.map (fun x => e * x % w.sum)))
  let t0 := mostTime w cur
  let t1 := mostTime w n
  (n, decide (t1 ≤ t0) && decide (t0 * thr ≤ (t0 - t1) * 256))

/-- The masks that give the beds consecutive runs of engines (R450). -/
def runMasks : List Nat → List Nat → List Nat
  | _, [] => []
  | es, n :: ns => (es.take n).foldl (fun m e => m + 2 ^ e) 0 :: runMasks (es.drop n) ns

/-- The end of a measured step of a context: its groups take the step's charges, and a group that covers M steps may post a
suggestion (R449, R450). -/
def Dev.splitStep (d : Dev) (c : Nat) : Dev :=
  let ns := (d.ctx c).bedNs
  let d := (List.range 8).foldl (fun d g =>
    let v := d.reg 0x3400 (0x80 + g)
    if !(bit v 63) || bits v 9 0 ≠ c then d else
    let beds := groupBeds v
    let m := bits v 55 48
    let hist := (beds.map (fun b => Tbl.look 0 b ns) :: Tbl.look [] g d.splits).take m
    let d := { d with splits := Tbl.put g hist d.splits }
    if hist.length < m then d else
    let avg := (List.range beds.length).map (fun i => ((hist.map (fun h => h.getD i 0)).sum) / m)
    let masks := beds.map (fun b => (d.bedDef b).1)
    let engs := (List.range 64).filter (fun e => masks.any (fun k => bit k e))
    let (n, post) := suggest avg (masks.map (popCount 64)) engs.length (bits v 47 40)
    if !post then d else
    let sug := (avg.zipIdx.foldl (fun r (p : Nat × Nat) => setBytesAt r (4 * p.2) 4 (p.1 / 1000)) 0)
    let sug := n.zipIdx.foldl (fun r (p : Nat × Nat) => setBytesAt r (16 + p.2) 1 p.1) sug
    let sug := setBytesAt sug 24 8 (d.ctxReg c 0x08)
    let sug := (runMasks engs n).zipIdx.foldl (fun r (p : Nat × Nat) => setBytesAt r (32 + 8 * p.2) 8 p.1) sug
    (d.setReg 0x3400 (0x88 + g) sug).raiseDev 0x8206 (g :: n)) d
  d.updCtx c (fun x => { x with bedNs := [] })

/-! Evaluation windows (R465 to R470). -/

/-- The evaluation contexts attached to a training context. -/
def Dev.attached (d : Dev) (c : Nat) : List Nat :=
  (List.range 1024).filter (fun x => let v := d.ctxReg x 0x1C; bit v 15 && v % 1024 = c)

/-- A write of an evaluation attachment (R465). -/
def attachEval (c v : Nat) (s : State) : WR :=
  let d := s.dev
  let t := v % 1024
  let shares := match d.owner t with
    | none => false
    | some h => d.blocks.any (fun p => bit p.2 31 && bit p.2 (24 + h) && d.waitsObj c (64 * p.1))
  if bit v 15 && (bit (d.ctxReg t 0x1C) 15 || t = c || !shares) then (0x0210, s)
  else (0, s.onDev (fun d => d.setReg (0x4000 + c) 0x1C v))

/-- EVALUATION_ATTACH_WRITE (R465). -/
def execEvaluationAttachWrite (via : Via) (c : Fin 1024) (v : Nat) (s : State) : Host.Outcome State Fault Refusal :=
  .next (s.dictWrite via (0x4000 + c.val) 0x1C v (attachEval c.val v))

/-- A window closes: the hold ends; work outstanding is counted and reported; window-only contexts may finish what they
had accepted (R467, R469, R470). -/
def Dev.closeWindow (d : Dev) (c : Nat) : Dev :=
  let es := d.attached c
  let d := d.updCtx c (fun x => { x with win := 0, winClosed := d.now })
  let d := es.foldl (fun d e => d.updCtx e (fun x => { x with
    overrunSeqs := x.streams.map (·.expected), overrunOver := false })) d
  if es.any (fun e => !(d.ctxIdle e)) then (d.incReg (0x4000 + c) 0x20).raiseCtx 0x8207 c [c, d.ctxReg c 0x08] else d

/-- A due window opens, as its fence signals (R467). -/
def Dev.openWindow (d : Dev) (c : Nat) : Dev :=
  (d.updCtx c (fun x => { x with win := 2, winOpened := d.now })).incReg (0x4000 + c) 0x1F

/-- WINDOW_CLOSE (R467). -/
def execWindowClose (c : Fin 1024) (s : State) : Host.Outcome State Fault Refusal :=
  .next (s.onDev (fun d => if (d.ctx c.val).win = 2 then d.closeWindow c.val else d))

/-- WINDOW_EARLY_CLOSE: early close is set and every stream of every attached context is IDLE (R467). -/
def execWindowEarlyClose (c : Fin 1024) (s : State) : Host.Outcome State Fault Refusal :=
  .next (s.onDev (fun d =>
    if (d.ctx c.val).win = 2 && (d.ctx c.val).winEarly && (d.attached c.val).all d.ctxIdle then d.closeWindow c.val else d))

/-- OVERRUN_LIMIT_EXPIRY: the overrun limit of a training context passes after a close (R469). -/
def execOverrunLimitExpiry (c : Fin 1024) (s : State) : Host.Outcome State Fault Refusal :=
  .next (s.onDev (fun d =>
    if (d.ctx c.val).win ≠ 2 && (d.ctx c.val).overrun ≠ 0 then
      (d.attached c.val).foldl (fun d e => d.updCtx e (fun x => { x with overrunOver := true })) d
    else d))

/-- May the head of a stream of an evaluation context issue (R469)? A replayed command counts as accepted before the
close, without the limit (R626). -/
def Dev.windowAllows (d : Dev) (c i : Nat) (q : QCmd) : Bool :=
  let v := d.ctxReg c 0x1C
  if !(bit v 15 && bit v 14) || q.replay then true else
  let t := d.ctx (v % 1024)
  if t.win = 2 then true
  else if (d.ctx c).overrunOver then false
  else
    let now := (d.stream c i).expected
    let then_ := (d.ctx c).overrunSeqs.getD i 0
    (now + 65536 - then_) % 65536 < (now + 65536 - bits q.raw 47 32) % 65536

/-! The engines' and root engines' functions (R103, R306, R675). -/

/-- An engine's function. -/
def engRule (e : Nat) : FnRule :=
  { check := fun s => if s.dev.service (partOfEng e) = 2 then 0x030F else if s.dev.service (partOfEng e) = 1 then 0x0110 else 0
    atOnce := true
    refuse := fun s => if (s.dev.eng e).jobs.isEmpty then 0 else 0x0112
    start := id
    stop := id }

/-- ENGINE_ENABLE_WRITE (R103). -/
def execEngineEnableWrite (via : Via) (e : Fin 64) (v : Nat) (s : State) : Host.Outcome State Fault Refusal :=
  .next (s.dictWrite via (0x3000 + e.val) 0x01 v (fun s =>
    s.fnWrite (engRule e.val) (0x3000 + e.val) v))

/-- A root engine's function. -/
def rootRule (st : Nat) : FnRule :=
  { check := fun s => if !(bit (s.dev.reg 0x6000 0x09) st) then 0x0111 else if s.dev.service (partOfStk st) = 2 then 0x030F else 0
    atOnce := true
    -- a queued job or an armed STAGE job; a job that runs lets it stop (R306)
    refuse := fun s =>
      if (s.dev.stk st).queue.all (fun r => r.started) && (s.dev.stk st).arms.isEmpty then 0 else 0x0112
    start := id
    stop := id }

/-- ROOT_ENGINE_ENABLE_WRITE (R306). -/
def execRootEngineEnableWrite (via : Via) (st : Fin 32) (v : Nat) (s : State) : Host.Outcome State Fault Refusal :=
  .next (s.dictWrite via (0x3800 + st.val) 0x01 v (fun s =>
    s.fnWrite (rootRule st.val) (0x3800 + st.val) v))

end Sys2Proof.Machine
end

