-- ==== Sys2Proof/Machine/Network.lean ====
section
/-! DEFINITION. The network interfaces: staging of gradient chunks, handles and epochs, the transport's packets and timers,
ports, frames, time (R286 to R293, R296, R477 to R528, R627). -/
namespace Sys2Proof.Machine
open Sys2Proof

/-! Reassembly buffers and windows (R494, R520 to R522). -/

/-- The destination of a message's data: 0 for kind-0 data, 1 + s for stack s (R520); data of a collective that has not
issued here count as kind 0. -/
def Handle.destOf (x : Handle) (seq chunk : Nat) : Nat :=
  match x.colls.find? (fun c => c.seq = seq) with
  | none => 0
  | some c => if c.f.delKind ≠ 1 then 0 else
    match c.chunks.find? (fun k => k.g = chunk) with
    | some k => 1 + k.stack
    | none => 0

/-- What stands in the reassembly buffer of a die: destination and bytes of each message and of each complete chunk. -/
def Dev.bufUse (d : Dev) (die : Nat) : List (Nat × Nat) :=
  d.net.handles.flatMap (fun p => (p.2.rx.filter (fun m => m.die = die)).map (fun m =>
    (p.2.destOf m.seq m.chunk, ((m.parts.map (fun q => q.2.length)).sum)))) ++
  (d.net.ready.filter (fun r => r.die = die)).map (fun r => (1 + r.stack, r.bytes))

/-- Bytes in the buffer of a die. -/
def Dev.occupied (d : Dev) (die : Nat) : Nat := ((d.bufUse die).map (·.2)).sum

/-- Bytes of a buffer: 12 MiB (R520). -/
def bufBytes : Nat := 12 * 1024 * 1024

/-- Bytes free in a die's buffer for a destination: 3 MiB for one stack's chunks (R520). -/
def Dev.bufFree (d : Dev) (die dest : Nat) : Nat :=
  let total := bufBytes - d.occupied die
  let mine := (((d.bufUse die).filter (fun p => p.1 = dest)).map (·.2)).sum
  if dest = 0 then total else min total (3 * 1024 * 1024 - mine)

/-- The window of a flow (R522): the bytes free for its destination over the flows that sent to it in the last 64 µs. -/
def Dev.windowFor (d : Dev) (f : Flow) : Nat :=
  let recent := fun (g : Flow) => match g.lastIn with
    | some t => d.now < t + 64000 && g.dest = f.dest
    | none => false
  let n := ((d.net.handles.map (fun p => (p.2.flows.filter (fun q => recent q.2)).length)).sum)
  d.bufFree (f.dest / 64) (f.dest % 64) / max 1 n

/-- PFC pauses and releases as the occupancy of a die's buffer passes 75% and falls below 50%, and the high-water mark
(R494, R524). A frame of kind 0 carries the priority and 1 for a pause, 0 for a release. -/
def Dev.bufferLevel (d : Dev) : Dev :=
  (List.range 4).foldl (fun d die =>
    let n := d.occupied die
    let d := if d.reg 0x1100 0x0C < n then d.setReg 0x1100 0x0C n else d
    let c := d.reg 0x1100 0x03
    if !(bit c 0) then d else
    let send := fun (d : Dev) (p : Nat) => d.upSubs.foldl (fun d sub => d.sendFrame sub 0 [bits c 3 1, p] 64) d
    if bufBytes * 3 < n * 4 && !(d.net.pfcSent.contains die) then
      (send d 1).updNet (fun x => { x with pfcSent := x.pfcSent ++ [die] })
    else if n * 2 < bufBytes && d.net.pfcSent.contains die then
      (send d 0).updNet (fun x => { x with pfcSent := x.pfcSent.erase die })
    else d) d

/-! Staging (R286 to R293, R296, R521, R523). -/

/-- The complete chunk that the network interface holds for a place of staging. -/
def Dev.readyChunk (d : Dev) (st c tensor q : Nat) : Option ReadyChunk :=
  d.net.ready.find? (fun r => r.stack = st && r.ctx = c && r.tensor = tensor && r.q = q)

/-- Change that chunk. -/
def Dev.updReady (d : Dev) (st c tensor q : Nat) (f : ReadyChunk → ReadyChunk) : Dev :=
  d.updNet (fun n => { n with ready := n.ready.map (fun r =>
    if r.stack = st && r.ctx = c && r.tensor = tensor && r.q = q then f r else r) })

/-- The network interface lets go of that chunk. -/
def Dev.dropReady (d : Dev) (st c tensor q : Nat) : Dev :=
  (d.updNet (fun n => { n with ready := n.ready.filter (fun r =>
    !(r.stack = st && r.ctx = c && r.tensor = tensor && r.q = q)) })).bufferLevel

/-- A delivery to a staging unit (R288, R289, R291); without a free buffer there is no credit and nothing is delivered, and a
chunk that the network interface holds is not delivered again while a buffer has it (R521). A held chunk crosses from its
die to the stack's (R14, R18). -/
def Dev.deliver (d : Dev) (st c tensor q : Nat) (elems : List Nat) (bad : Bool) : Dev :=
  let free := d.stkReg st 0x08
  let held := d.readyChunk st c tensor q
  if free = 0 || (held.isSome && (d.stk st).chunks.any (fun k => k.ctx = c && k.tensor = tensor && k.q = q)) then d else
  let d := match held with
    | some r => d.crossOut r.die (st / 8) (2 * r.elems.length)
    | none => d
  match (d.stk st).arms.find? (fun a => a.j.ctx.val = c && a.j.r.tensor = tensor) with
  | none =>
    (d.incReg (0x3800 + st) 0x07).updReady st c tensor q (fun r => { r with since := some (r.since.getD d.now) })
  | some a =>
    if a.j.r.count ≤ q then
      ((d.incReg (0x3800 + st) 0x07).raiseCtx 0x8601 c [c, tensor, q]).dropReady st c tensor q
    else if (Tbl.look? q a.parts).isSome then (d.incReg (0x3800 + st) 0x07).dropReady st c tensor q
    else
      let d := d.updStk st (fun k => { k with chunks := k.chunks ++ [⟨c, tensor, q, elems, bad⟩] })
      let d := if held.isSome then d.updReady st c tensor q (fun r => { r with since := none }) else d
      let d := d.setReg (0x3800 + st) 0x08 (free - 1)
      d.setReg (0x3800 + st) 0x09 (min (d.stkReg st 0x09) (free - 1))

/-- CHUNK_DELIVERY: of the chunk that the network interface holds for the place, otherwise of the one that the command carries
(R18, R288). -/
def execChunkDelivery (st : Fin 32) (ctx : Fin 1024) (tensor q : Nat) (elems : List Nat) (bad : Bool) (s : State) :
    Host.Outcome State Fault Refusal :=
  .next (s.onDev (fun d =>
    let els := match d.readyChunk st.val ctx.val tensor q with
      | some r => r.elems
      | none => elems
    d.deliver st.val ctx.val tensor q (els.take 16384) bad))

/-- A chunk buffer becomes free (R289). -/
def Dev.freeBuffer (d : Dev) (st : Nat) (k : Chunk) : Dev :=
  (d.updStk st (fun t => { t with chunks := t.chunks.erase k })).setReg (0x3800 + st) 0x08 (min 256 (d.stkReg st 0x08 + 1))

/-- The writes of a chunk and of its partial, and of the shard partial with the last one (R289, R290, R293). Answers the
partials stored. -/
def stageChunk (st : Nat) (a : Arm) (k : Chunk) : Act (Tbl Nat) := do
  let u := rootUse k.ctx st 2 true
  vwrite (u.of a.desc) (a.desc.base + 32768 * k.q) (k.elems.flatMap (leBytes 2))
  let p ← Act.num none (do
    let xs ← k.elems.mapM (toFp32 0x1)
    reduceLine add32 0x80000000 (← xs.mapM (fun x => mul32 x x)))
  vwrite u (a.j.r.aux + 4 * k.q) (leBytes 4 p)
  let parts := Tbl.put k.q p a.parts
  if parts.length = a.j.r.count then
    let shard ← Act.num none (reduceLine add32 0x80000000 (parts.map (·.2)))
    vwrite u (a.j.r.aux + 4 * a.j.r.count) (leBytes 4 shard)
  return parts

/-- A chunk of a CALLRED has been staged: its run is marked, and the collectives of its context go on (R519). -/
def State.chunkStaged (s : State) (st c tensor q : Nat) : State :=
  let s := s.onDev (fun d =>
    let d := d.dropReady st c tensor q
    (d.handlesOf c).foldl (fun d h => d.updHandle h (fun x => { x with colls := x.colls.map (fun k =>
      if k.f.delKind = 1 && k.f.tensor = tensor then { k with chunks := k.chunks.map (fun g =>
        if g.stack = st && g.q = q && g.passed then { g with staged := true } else g) }
      else k) })) d)
  (s.dev.handlesOf c).foldl State.moveHandle s

/-- A chunk with an uncorrectable word, whose hand-off to memory therefore fails (R607), frees its buffer; the network interface, which still holds it, offers it again at once
(R20, R292, R523). -/
def Dev.chunkLost (d : Dev) (st : Nat) (k : Chunk) : Dev :=
  let d := (d.freeBuffer st k).incReg 0x5400 0x08
  match d.readyChunk st k.ctx k.tensor k.q with
  | some r => d.deliver st k.ctx k.tensor k.q r.elems false
  | none => d

/-- Injected errors of the lines that the reading of a chunk buffer takes (R272, R728 kind 6): is a word uncorrectable? -/
def Dev.bufferErrors (d : Dev) (st : Nat) (k : Chunk) : Bool × Dev :=
  (List.range (ceilDiv (2 * k.elems.length) 2048)).foldl (fun (acc : Bool × Dev) _ =>
    let r := acc.2.perturb 6 (64 + st)
    (acc.1 || r.1.any (fun m => 2 ≤ m), r.2)) (false, d)

/-- Does a chunk fall in a range of an image that has not been streamed (R358)? -/
def chunkHeld (st : Nat) (a : Arm) (k : Chunk) (s : State) : Bool :=
  match (s.runAct (stackRuns (rootUse k.ctx st 2 true) true
      [(a.desc.base + 32768 * k.q, 2 * k.elems.length), (a.j.r.aux + 4 * k.q, 4)])).1 with
  | .ok rs => s.dev.unstreamed k.ctx st rs
  | .error _ => false

/-- CHUNK_STAGED: a buffered chunk is written, once no image waits for its range (R358); one with an uncorrectable word frees
its buffer and stays with the network interface (R272, R289 to R293). -/
def chunkStaged (st c tensor q : Nat) (s : State) : State :=
  match (s.dev.stk st).chunks.find? (fun k => k.ctx = c && k.tensor = tensor && k.q = q) with
  | none => s
  | some k =>
    let hit := s.dev.bufferErrors st k
    let s := { s with dev := hit.2 }
    match (s.dev.stk st).arms.find? (fun a => a.j.ctx.val = c && a.j.r.tensor = tensor) with
    | none => s.onDev (fun d => d.freeBuffer st k)
    | some a =>
      if k.bad || hit.1 then s.onDev (fun d => d.chunkLost st k)
      else if (Tbl.look? q a.parts).isSome then s.onDev (fun d => (d.incReg (0x3800 + st) 0x07).freeBuffer st k)
      else
        let put := fun (d : Dev) (as : List Arm → List Arm) => d.updStk st (fun t => { t with arms := as t.arms })
        if chunkHeld st a k s then
          s.onDev (fun d => (put d (fun as => as.map (fun x => if x = a then { a with hold := true } else x))).holdEvent c)
        else
        let r := s.runAct (stageChunk st a k)
        match r.1 with
        | .error _ => r.2.onDev (fun d =>
            let d := (put d (fun as => as.filter (fun x => x ≠ a))).freeBuffer st k
            (d.incReg (0x3800 + st) 0x04).updUpd c (fun u => { u with rootFailed := true }))
        | .ok parts =>
          let s := r.2.onDev (fun d =>
            let d := (d.freeBuffer st k).incReg (0x3800 + st) 0x06
            if parts.length = a.j.r.count then
              let d := (put d (fun as => as.filter (fun x => x ≠ a))).incReg (0x3800 + st) 0x03
              if a.j.r.sigEn then d.signal 13 a.j.r.sigObj false 1 else d
            else put d (fun as => as.map (fun x => if x = a then { a with parts := parts, hold := false } else x)))
          s.chunkStaged st c tensor q

/-- CHUNK_STAGED (R289). -/
def execChunkStaged (st : Fin 32) (ctx : Fin 1024) (tensor q : Nat) (s : State) : Host.Outcome State Fault Refusal :=
  .next (chunkStaged st.val ctx.val tensor q s)

/-- CHUNK_REOFFER_TIMER: a chunk that was returned is offered again (R523). -/
def execChunkReofferTimer (st : Fin 32) (ctx : Fin 1024) (tensor q : Nat) (s : State) : Host.Outcome State Fault Refusal :=
  .next (s.onDev (fun d =>
    match d.readyChunk st.val ctx.val tensor q with
    | some r => if r.since.isSome then d.deliver st.val ctx.val tensor q r.elems false else d
    | none => d))

/-- CHUNK_WAIT_EVENT: a chunk has been returned for 1 ms (R523). -/
def execChunkWaitEvent (st : Fin 32) (ctx : Fin 1024) (tensor q : Nat) (s : State) : Host.Outcome State Fault Refusal :=
  .next (s.onDev (fun d =>
    match d.readyChunk st.val ctx.val tensor q with
    | some r =>
      if r.since.isSome && !r.reported then
        (d.updReady st.val ctx.val tensor q (fun r => { r with reported := true })).raiseCtx 0x8706 ctx.val [st.val, tensor, q]
      else d
    | none => d))

/-- Put an emission into the chunks of the CALLRED that names its emit handle and still lacks them (R518). -/
def Coll.takeEmis (k : Coll) (st : Nat) (e : Emis) : Coll :=
  { k with chunks := k.chunks.map (fun g =>
      if g.stack = st && g.own.isNone && (g.q = e.q || g.q = e.q + 1) then
        let els := (e.els.drop (16384 * (g.q - e.q))).take 16384
        if els.isEmpty then g else { g with own := some els, n := els.length, origin := e.j.r.origin }
      else g) }

/-- Does a collective take an emission of a job (R518)? -/
def Coll.awaits (k : Coll) (st : Nat) (e : Emis) : Bool :=
  k.f.srcKind = 1 && k.f.emit = e.j.r.dst && k.o.ctx = e.j.ctx &&
    k.chunks.any (fun g => g.stack = st && g.q = e.q && g.own.isNone)

/-- EMISSION_ACCEPTED: the oldest waiting emission of a stack is accepted once a CALLRED that names its emit handle has
issued; with its last emission its job is over (R296, R518). -/
def emissionAccepted (st waited : Nat) (s : State) : State :=
  match (s.dev.stk st).emits with
  | [] => s
  | e :: rest =>
    match s.dev.net.handles.find? (fun p => p.2.colls.any (fun k => k.awaits st e)) with
    | none => s
    | some (h, x) =>
      match x.colls.find? (fun k => k.awaits st e) with
      | none => s
      | some k =>
        let s := s.onDev (fun d =>
          let d := d.updStk st (fun t => { t with emits := rest })
          let d := d.addReg (0x3800 + st) 0x0A waited
          let d := d.updHandle h (fun x => { x with colls := x.colls.map (fun c => if c.seq = k.seq then c.takeEmis st e else c) })
          if rest.any (fun y => y.j = e.j) then d else
          match (d.stk st).queue.find? (fun r => r.j = e.j && r.started) with
          | some r => d.jobRetired st r
          | none => d)
        s.moveColl h k.seq

/-- EMISSION_ACCEPTED (R296). -/
def execEmissionAccepted (st : Fin 32) (waited : Nat) (s : State) : Host.Outcome State Fault Refusal :=
  .next (emissionAccepted st.val waited s)

/-! CHANDLE (R498 to R503, R518). -/

/-- The fields that an action leaves out are 0, and the others are in their ranges (R498, R501). -/
def handleBad (action : Nat) (f : HandleF) : Bool :=
  let opens := action = 1 || action = 2
  f.reserved ≠ 0 || f.wire = 3 || f.table % 64 ≠ 0 ||
  (if action = 1 then !([2, 4, 8, 16, 32, 64].contains f.group) else f.group ≠ 0) ||
  (action ≠ 1 && f.job ≠ 0) || (action ≠ 5 && f.emit ≠ 0) ||
  (if opens then f.timeout = 0 || 600000 < f.timeout else f.timeout ≠ 0)

/-- A membership table (R499): epoch, member count, local rank, base addresses; refused where R501 finds it malformed. -/
def readMembers (c va job : Nat) : Act (Nat × Nat × Nat × List Nat) := do
  let h ← vreadNat (netUse c) va 64
  let epoch := bytesAt h 0 4
  let n := bytesAt h 4 2
  let rank := bytesAt h 6 2
  Act.refuseIf (epoch = 0 || n = 0 || 1024 < n || n ≤ rank || bytesAt h 8 8 ≠ job || bytesAt h 16 48 ≠ 0) 0x0701
  let es ← vread (netUse c) (va + 64) (32 * n)
  let es := (chunksOf 32 es).map leNat
  Act.refuseIf (es.any (fun e => bytesAt e 16 16 ≠ 0)) 0x0701
  return (epoch, n, rank, es.map (fun e => bytesAt e 0 16))

/-- A handle with nothing on it. -/
def Handle.fresh (kind c : Nat) (f : HandleF) : Handle :=
  { kind := kind, ctx := c, wire := f.wire, group := f.group, job := f.job, timeout := f.timeout, epoch := 0, n := 1, rank := 0,
    members := [], store := 0, seq := 0, colls := [], rx := [], binds := [], flows := [], eventAt := none, sub := 0, psn := 0,
    unacked := [], bad := false }

/-- Open a handle. -/
def Dev.openHandle (d : Dev) (h : Nat) (x : Handle) : Dev :=
  let d := d.updNet (fun n => { n with handles := Tbl.put h x n.handles })
  d.setReg 0x1100 0x0B d.net.handles.length

/-- The open handle that an action names: of this context, and a job handle where the action asks for one (R501, R502). -/
def ownHandle (c h : Nat) (job : Bool) : Act Handle := do
  let d ← Act.dev
  match d.handle? h with
  | some x => if x.ctx = c && (!job || x.kind = 0) then return x else Act.refuse 0x0702
  | none => Act.refuse 0x0702

/-- A new epoch (R503). -/
def newEpoch (c : Nat) (f : HandleF) : Act Unit := do
  let x ← ownHandle c f.handle true
  let (epoch, n, rank, members) ← readMembers c f.table x.job
  Act.refuseIf (epoch ≤ x.epoch) 0x0708
  Act.upd (fun d =>
    let (failed, d) := d.failHandle f.handle 0x0703 x.rank
    let d := d.updHandle f.handle (fun x => { x with
      rx := [], flows := [], seq := 0, epoch := epoch, n := n, rank := rank, members := members })
    let d := d.updCtx c (fun k => { k with rep := { k.rep with awaitEpochs := k.rep.awaitEpochs.erase f.handle } })
    -- with the last epoch that it waits for, a rolled-back context awaits its turn (R625, R628)
    let r := (d.ctx c).rep
    let d := if r.rolled && r.awaitEpochs.isEmpty && d.ctxReg c 0x28 = 3 then d.setReg (0x4000 + c) 0x28 1 else d
    d.raiseCtx 0x8702 c [f.handle, x.epoch, epoch, failed])

/-- A CHANDLE command by its action (R498). -/
def chandle (action : Nat) (o : Origin) (f : HandleF) : Act Bool := do
  -- reserved bits of the header by R402, those of the command by R501
  plainHeader o (f.reserved % two64)
  let c := o.ctx.val
  Act.refuseIf (handleBad action f) 0x0701
  let d ← Act.dev
  if action = 1 || action = 2 then
    Act.refuseIf ((d.handle? f.handle).isSome || 256 ≤ d.net.handles.length) 0x0702
    if action = 1 then
      let (epoch, n, rank, members) ← readMembers c f.table f.job
      Act.upd (fun d => d.openHandle f.handle
        { Handle.fresh 0 c f with epoch := epoch, n := n, rank := rank, members := members })
    else
      let r ← vreadNat (netUse c) f.table 32
      Act.refuseIf (bits (bytesAt r 16 4) 31 24 ≠ 0) 0x0701
      -- the coordinator that opens it stands on die 0 (R436, R493)
      let sub := (d.activeSubs.filter (fun x => x < 24)).headD 0
      Act.upd (fun d => d.openHandle f.handle { Handle.fresh 1 c f with store := r, sub := sub })
  else if action = 3 then
    let _ ← ownHandle c f.handle false
    Act.upd (fun d => d.closeHandle f.handle)
  else if action = 4 then newEpoch c f
  else
    let _ ← ownHandle c f.handle true
    let t ← vread (netUse c) f.table 128
    Act.upd (fun d => d.updHandle f.handle (fun x => { x with binds := Tbl.put f.emit ((chunksOf 4 t).map leNat) x.binds }))
  return true

/-- A CHANDLE command that is delivered to the network interface. -/
def runHandle (action : Nat) (o : Origin) (f : HandleF) (s : State) : State :=
  s.issueCmd o 0x56 14 (cmdOf o 0x56 f.reserved (handleFields action f)) (chandle action o f)

/-- CHANDLE_OPEN_JOB (R498). -/
def execChandleOpenJob (o : Origin) (f : HandleF) (s : State) : Host.Outcome State Fault Refusal := .next (runHandle 1 o f s)
/-- CHANDLE_OPEN_STORAGE (R498). -/
def execChandleOpenStorage (o : Origin) (f : HandleF) (s : State) : Host.Outcome State Fault Refusal := .next (runHandle 2 o f s)
/-- CHANDLE_CLOSE (R502). -/
def execChandleClose (o : Origin) (f : HandleF) (s : State) : Host.Outcome State Fault Refusal := .next (runHandle 3 o f s)
/-- CHANDLE_NEW_EPOCH (R503). -/
def execChandleNewEpoch (o : Origin) (f : HandleF) (s : State) : Host.Outcome State Fault Refusal := .next (runHandle 4 o f s)
/-- CHANDLE_BIND_EMIT (R518). -/
def execChandleBindEmit (o : Origin) (f : HandleF) (s : State) : Host.Outcome State Fault Refusal := .next (runHandle 5 o f s)

/-! The transport (R485 to R493). -/

/-- Change a flow. -/
def Dev.updFlow (d : Dev) (h rank : Nat) (f : Flow → Flow) : Dev :=
  d.updHandle h (fun x => { x with flows := Tbl.upd Flow.reset rank f x.flows })
/-- A flow. -/
def Dev.flow (d : Dev) (h rank : Nat) : Flow :=
  match d.handle? h with
  | some x => Tbl.look Flow.reset rank x.flows
  | none => Flow.reset

/-- A selective acknowledgement of a flow (R488, R489): the lowest PSN not received, a bit for each of the 64 PSNs from
there on that has been, the window. -/
def Dev.sendAck (d : Dev) (h rank win : Nat) : Dev :=
  let f := d.flow h rank
  let sack := (List.range 64).foldl (fun r i => if f.got.contains ((f.cum + i) % 2 ^ 24) then r + 2 ^ i else r) 0
  (d.updFlow h rank (fun f => { f with since := 0, oldest := none })).control h rank 1 [f.cum, sack, win]

/-- A flow has received a PSN: the lowest one missing moves past those received in a run. -/
def Flow.advance (f : Flow) : Nat → Flow
  | 0 => f
  | n + 1 => if f.got.contains f.cum then Flow.advance { f with cum := (f.cum + 1) % 2 ^ 24, got := f.got.erase f.cum } n else f

/-- Has a flow received a PSN already? -/
def Flow.has (f : Flow) (psn : Nat) : Bool :=
  f.got.contains psn || (0 < (f.cum + 2 ^ 24 - psn) % 2 ^ 24 && (f.cum + 2 ^ 24 - psn) % 2 ^ 24 < 2 ^ 23)

/-- A packet's data are placed at their offset (R488). -/
def Handle.place (x : Handle) (p : PacketF) (die : Nat) : Handle :=
  let same := fun (m : RxMsg) => decide (m.seq = p.seq) && decide (m.phase = p.phase) && decide (m.chunk = p.chunk) &&
    decide (m.rank = p.rank)
  if x.rx.any same then
    { x with rx := x.rx.map (fun m => if same m then { m with parts := Tbl.put p.off p.payload m.parts } else m) }
  else { x with rx := x.rx ++ [⟨p.seq, p.phase, p.chunk, p.rank, p.digest, [(p.off, p.payload)], die⟩] }

/-- A CE-marked packet is answered with a notification on its path, at most once per interval (R492). -/
def Dev.congested (d : Dev) (h rank sub : Nat) : Dev :=
  let d := d.incReg (0x2C00 + sub / 4) 0x0D
  let due := match Tbl.look? sub (d.flow h rank).cnpAt with
    | some t => decide (t + 1000 * d.reg 0x1100 0x07 ≤ d.now)
    | none => true
  if !due then d else
  ((d.updFlow h rank (fun f => { f with cnpAt := Tbl.put sub d.now f.cnpAt })).incReg (0x2C00 + sub / 4) 0x0E).packetOut
    h rank sub 8 .congestion [sub]

/-- Injected drops on a sub-port (R728, kind 5): does this packet fall? -/
def Dev.injectedDrop (d : Dev) (sub : Nat) : Bool × Dev :=
  let (fired, d) := d.perturb 5 sub
  let n := Tbl.look 0 (sub % 4) (d.port (sub / 4)).drops + fired.sum
  if n = 0 then (false, d)
  else (true, d.updPort (sub / 4) (fun p => { p with drops := Tbl.put (sub % 4) (n - 1) p.drops }))

/-- The open job handle that the low 24 bits of a packet's DestQP name (R485). -/
def Dev.jobQp (d : Dev) (qp job : Nat) : Option (Nat × Handle) :=
  d.net.handles.find? (fun p => p.1 % 2 ^ 24 = qp % 2 ^ 24 && p.2.kind = 0 && p.2.job % 2 ^ 32 = job % 2 ^ 32)

/-- The comparison of epochs (R504): a packet of another epoch is answered, counted and dropped. -/
def Dev.wrongEpoch (d : Dev) (h rank epoch own : Nat) : Dev :=
  (d.incReg 0x1100 0x0A).control h rank (if epoch < own then 3 else 4) [own]

/-- A data packet on an open handle, past its CRC (R488, R492, R504, R507, R508, R520). -/
def acceptPacket (sub h : Nat) (x : Handle) (p : PacketF) (d : Dev) : Dev :=
  let d := if p.ce then d.congested h p.rank sub else d
  if p.epoch ≠ x.epoch then d.wrongEpoch h p.rank p.epoch x.epoch else
  let ahead := (p.seq + 2 ^ 32 - x.seq) % 2 ^ 32
  if 0 < ahead && ahead < 2 ^ 31 then d.sendAck h p.rank 0 else
  let die := sub / 24
  let f := d.flow h p.rank
  let dest := die * 64 + x.destOf p.seq p.chunk
  let f := { f with lastIn := some d.now, dest := dest, since := f.since + 1, oldest := some (f.oldest.getD d.now) }
  let new := !(f.has p.psn)
  let f := if new then ({ f with got := f.got ++ [p.psn] }).advance (f.got.length + 1) else f
  let d := d.updFlow h p.rank (fun _ => f)
  let coll := x.colls.find? (fun c => c.seq = p.seq)
  let wanted := ahead = 0 || coll.isSome
  let mismatch : Bool := match coll with
    | some c => decide (c.digest ≠ p.digest)
    | none => false
  let d : Dev := if mismatch then (d.failColl h p.seq 0x0704 p.rank).control h p.rank 5 [p.seq]
    else if (new : Bool) && wanted then (d.updHandle h (fun x => x.place p die)).bufferLevel else d
  let f : Flow := d.flow h p.rank
  if 8 ≤ f.since then d.sendAck h p.rank (d.windowFor f) else d

/-- The codewords of the line code that a frame's way over a sub-port that is up adds to the port's counts (R525): free values (log
entry 279). -/
def Dev.fec (d : Dev) (n k : Nat) : Dev :=
  if !((d.port n).up.contains k) then d else
  let (f, d) := d.draw
  (d.addReg (0x2C00 + n) 0x0F (Config.fecCount f 0)).addReg (0x2C00 + n) 0x10 (Config.fecCount f 1)

/-- TRANSPORT_PACKET_RECEIVE: a packet whose payload fails its CRC32C counts as a failed hand-off and is released to
nothing; its sender sends it again (R606, R607). -/
def packetReceive (sub : Nat) (p : PacketF) (s : State) : State :=
  let (drop, d) := s.dev.injectedDrop sub
  let s := { s with dev := d }
  if drop then s else
  match d.jobQp p.handle p.job with
  | none => s
  | some (h, x) =>
    if x.n ≤ p.rank || p.rank = x.rank then s
    else if !p.crcOk then s.onDev (fun d => d.incReg 0x5400 0x08)
    else (s.onDev (acceptPacket sub h x p)).moveHandle h

/-- TRANSPORT_PACKET_RECEIVE (R488). -/
def execTransportPacketReceive (n : Fin 24) (k : Fin 4) (p : PacketF) (s : State) : Host.Outcome State Fault Refusal :=
  .next (packetReceive (4 * n.val + k.val) p (s.onDev (fun d => d.fec n.val k.val)))

/-- ACK_TIMER: 4 µs after the oldest packet not yet acknowledged (R488). -/
def execAckTimer (handle rank : Nat) (s : State) : Host.Outcome State Fault Refusal :=
  .next (s.onDev (fun d =>
    let f := d.flow handle rank
    if f.oldest.isSome then d.sendAck handle rank (d.windowFor f) else d))

/-- Is a sent packet acknowledged by a lowest missing PSN and its bits? -/
def acked (cum sack psn : Nat) : Bool :=
  let back := (cum + 2 ^ 24 - psn) % 2 ^ 24
  let ahead := (psn + 2 ^ 24 - cum) % 2 ^ 24
  (0 < back && back < 2 ^ 23) || (ahead < 64 && bit sack ahead)

/-- The packets still unacknowledged, in order of sending, each with the acknowledged ones that were sent after it. -/
def countLater (cum sack : Nat) : List Pkt → List Pkt
  | [] => []
  | p :: ps =>
    let rest := countLater cum sack ps
    if acked cum sack p.psn then rest
    else { p with later := p.later + (ps.filter (fun q => acked cum sack q.psn)).length } :: rest

/-- ACK_RECEIVE: acknowledged packets leave their flow, the window is taken over, a packet with three later ones
acknowledged is sent again (R489, R490). -/
def ackReceive (h rank cum sack window : Nat) (d : Dev) : Dev :=
  if (d.handle? h).isNone then d else
  let f := d.flow h rank
  let hi := (f.sent.filter (fun p => acked cum sack p.psn)).foldl (fun (m : Option Nat) p =>
    match m with
    | some k => if 0 < (p.psn + 2 ^ 24 - k) % 2 ^ 24 && (p.psn + 2 ^ 24 - k) % 2 ^ 24 < 2 ^ 23 then some p.psn else some k
    | none => some p.psn) f.hi
  let left := countLater cum sack f.sent
  let d := d.updFlow h rank (fun f => { f with sent := left, hi := hi, win := some window })
  let d := (left.filter (fun p => 3 ≤ p.later)).foldl (fun d p => d.resend h rank p.psn) d
  d.pump h rank

/-- ACK_RECEIVE (R489). -/
def execAckReceive (handle rank cum sack window : Nat) (s : State) : Host.Outcome State Fault Refusal :=
  .next (s.onDev (ackReceive handle rank cum sack window))

/-- WINDOW_PROBE_TIMER: a probe every 8 µs while the window is 0 (R489). -/
def execWindowProbeTimer (handle rank : Nat) (s : State) : Host.Outcome State Fault Refusal :=
  .next (s.onDev (fun d => if (d.flow handle rank).win = some 0 then d.control handle rank 2 [] else d))

/-- Go back to a PSN on a storage handle: it and every later packet are sent again (R493). -/
def Dev.goBack (d : Dev) (h psn : Nat) : Dev :=
  match d.handle? h with
  | none => d
  | some x => (x.unacked.dropWhile (fun p => p.1 ≠ psn)).foldl (fun d p =>
      ((d.incReg 0x1100 0x09).incReg (0x2C00 + x.sub / 4) 0x0B).out (.packet h 0 10 (d.storeRoute x) [p.1, x.sub, p.2] [])) d

/-- RETRANSMISSION_TIMEOUT: a packet is sent again; the sixteenth resend that times out fails the collectives of its handle
(R490, R491). -/
def retransmit (h rank psn : Nat) (d : Dev) : Dev :=
  match d.handle? h with
  | none => d
  | some x =>
    if x.kind = 1 then d.goBack h psn else
    match (d.flow h rank).sent.find? (fun p => p.psn = psn) with
    | none => d
    | some p =>
      if p.resends < 16 then d.resend h rank psn
      else (d.updFlow h rank (fun f => { f with sent := f.sent.filter (fun q => q.psn ≠ psn) })).failHandle h 0x0707 rank |>.2

/-- RETRANSMISSION_TIMEOUT (R490). -/
def execRetransmissionTimeout (handle rank psn : Nat) (s : State) : Host.Outcome State Fault Refusal :=
  .next (s.onDev (retransmit handle rank psn))

/-- Change a path of a flow. -/
def Dev.updPath (d : Dev) (h rank sub : Nat) (f : Path → Path) : Dev :=
  if (d.handle? h).isNone then d else
  d.updFlow h rank (fun x => { x with paths := Tbl.put sub (f (d.path x sub)) x.paths })

/-- CNP_RECEIVE (R492). -/
def execCnpReceive (handle rank sub : Nat) (s : State) : Host.Outcome State Fault Refusal :=
  .next (s.onDev (fun d =>
    let low := d.lineRate (sub / 4) / 256
    d.updPath handle rank sub (fun p => { p with rate := max low (p.rate - p.rate / 8), cnp := true })))

/-- RATE_INCREASE_TIMER (R492). -/
def execRateIncreaseTimer (handle rank sub : Nat) (s : State) : Host.Outcome State Fault Refusal :=
  .next (s.onDev (fun d =>
    let line := d.lineRate (sub / 4)
    d.updPath handle rank sub (fun p => { p with
      rate := if p.cnp then p.rate else min line (p.rate + line / d.reg 0x1100 0x06), cnp := false })))

/-- EPOCH_RESPONSE_RECEIVE: a peer answers with its own epoch (R504); one behind makes the packet count as lost. -/
def execEpochResponseReceive (handle rank epoch : Nat) (s : State) : Host.Outcome State Fault Refusal :=
  .next (s.onDev (fun d =>
    match d.handle? handle with
    | none => d
    | some x =>
      if x.kind = 0 && x.epoch < epoch then
        ((d.failHandle handle 0x0703 rank).2).raiseCtx 0x8703 x.ctx [handle, rank, epoch]
      else d))

/-- DIGEST_MISMATCH_RESPONSE (R507). -/
def execDigestMismatchResponse (handle rank seq : Nat) (s : State) : Host.Outcome State Fault Refusal :=
  .next (s.onDev (fun d => d.failColl handle seq 0x0704 rank))

/-- STORAGE_ACK_RECEIVE: status 0 acknowledges every packet up to a PSN, 1 asks for it again (a sequence error), any other
is the store's error, which fails the network target of an image (R367, R493). -/
def storageAck (h seq status : Nat) (s : State) : State :=
  match s.dev.handle? h with
  | none => s
  | some x =>
    if x.kind ≠ 1 then s else
    match status with
    | 0 => s.onDev (fun d => d.updHandle h (fun x => { x with unacked := x.unacked.filter (fun p => 0 < (p.1 + 2 ^ 24 - seq) % 2 ^ 24 &&
        (p.1 + 2 ^ 24 - seq) % 2 ^ 24 < 2 ^ 23) }))
    | 1 => s.onDev (fun d => d.goBack h seq)
    | _ =>
      let s := s.onDev (fun d => d.updHandle h (fun x => { x with bad := true, unacked := [] }))
      let due := match (s.dev.upd x.ctx).sec with
        | some k => k.image ≠ 0 && k.f.handle = h && k.targets.any (fun t => t.kind = 1)
        | none => false
      if due then s.failTarget x.ctx 1 h status else s

/-- STORAGE_ACK_RECEIVE (R493). -/
def execStorageAckReceive (handle seq status : Nat) (s : State) : Host.Outcome State Fault Refusal :=
  .next (storageAck handle seq status s)

/-- COLLECTIVE_TIMEOUT (R509). -/
def execCollectiveTimeout (handle seq : Nat) (s : State) : Host.Outcome State Fault Refusal :=
  .next (s.onDev (fun d =>
    match d.handle? handle with
    | none => d
    | some x => d.failColl handle seq 0x0705 x.rank))

/-- FAULT_NOTICE_RECEIVE: of the handle's epoch it fails every collective; of another it is dropped as R504 says (R627). -/
def execFaultNoticeReceive (handle epoch rank kind : Nat) (s : State) : Host.Outcome State Fault Refusal :=
  .next (s.onDev (fun d =>
    match d.handle? handle with
    | none => d
    | some x =>
      if x.kind ≠ 0 then d
      else if epoch ≠ x.epoch then d.wrongEpoch handle rank epoch x.epoch
      else (((d.incReg 0x5400 0x0D).failHandle handle 0x070A rank).2).raiseCtx 0x8102 x.ctx [handle, rank, kind]))

/-! Ports (R477 to R484, R494, R497, R527, R675). -/

/-- The packets that left from sub-ports are sent again on other paths (R479, R527, R675). -/
def Dev.resendFrom (d : Dev) (subs : List Nat) : Dev :=
  d.net.handles.foldl (fun d p => p.2.flows.foldl (fun d f =>
    (f.2.sent.filter (fun k => subs.contains k.sub)).foldl (fun d k => d.resend p.1 f.1 k.psn) d) d) d

/-- Every flow sends what its window and its paths allow. -/
def Dev.pumpAll (d : Dev) : Dev :=
  d.net.handles.foldl (fun d p => p.2.flows.foldl (fun d f => d.pump p.1 f.1) d) d

/-- The gateways of a sub-port are asked for their link address (R481, R482): frames of kind 4 with the family. -/
def Dev.askGateway (d : Dev) (n k : Nat) : Dev :=
  let g := d.portReg n 0x07
  let d := if bytesAt g 0 4 = 0 then d else d.sendFrame (4 * n + k) 4 [0, bytesAt g 0 4] 64
  if bytesAt g 16 16 = 0 then d else d.sendFrame (4 * n + k) 4 [1, bytesAt g 16 16] 86

/-- A sub-port's link changes state: event 0x8701 (R527). -/
def Dev.linkChange (d : Dev) (n k : Nat) (up : Bool) (lanes : Nat) : Dev :=
  if (d.port n).up.contains k = up then d else
  let d := d.updPort n (fun p => { p with
    up := if up then sortBy id (k :: p.up) else p.up.erase k, lanes := lanes,
    paused := p.paused.erase k })
  let d := if up then d else d.incReg (0x2C00 + n) 0x11
  let d := d.raise 0x8701 4 n none none [n, k, b2n up, lanes]
  if up then (d.askGateway n k).pumpAll else d.resendFrom [4 * n + k]

/-- A port's function (R675): it may always be disabled; its unacknowledged packets then leave on other paths. The
resources of a port are the partitions of its die. -/
def portRule (n : Nat) : FnRule :=
  { check := fun s => if [2 * (n / 6), 2 * (n / 6) + 1].any (fun p => s.dev.service p = 1) then 0x0110 else 0
    atOnce := false
    refuse := fun _ => 0
    start := id
    stop := fun s => s.onDev (fun d => d.resendFrom ((List.range 4).map (4 * n + ·))) }

/-- PORT_ENABLE_WRITE (R675). -/
def execPortEnableWrite (via : Via) (n : Fin 24) (v : Nat) (s : State) : Host.Outcome State Fault Refusal :=
  .next (s.dictWrite via (0x2C00 + n.val) 0x01 v (fun s =>
    s.fnWrite (portRule n.val) (0x2C00 + n.val) v))

/-- STARTING of a port ends. -/
def State.portStarted (s : State) (n : Nat) : State :=
  (s.fnStarted (portRule n) (0x2C00 + n)).onDev Dev.pumpAll

/-- PORT_STARTING_TIMEOUT (R675). -/
def execPortStartingTimeout (n : Fin 24) (s : State) : Host.Outcome State Fault Refusal :=
  .next (if s.dev.fn (0x2C00 + n.val) = 1 then s.portStarted n.val else s)

/-- STOPPING of a port ends: its links are down (R675). -/
def State.portStopped (s : State) (n : Nat) : State :=
  (s.onDev (fun d => (List.range 4).foldl (fun d k => d.linkChange n k false 0) d)).fnStopped (portRule n) (0x2C00 + n)

/-- LINK_STATE_CHANGE: of a sub-port that the port's mode has, while the port is not OFF; the last one of a STARTING port
to come up ends that state (R527, R675). -/
def linkState (n k : Nat) (up : Bool) (lanes : Nat) (s : State) : State :=
  if s.dev.fn (0x2C00 + n) = 0 || s.dev.subPorts n ≤ k then s else
  let s := s.onDev (fun d => d.linkChange n k up lanes)
  if s.dev.fn (0x2C00 + n) = 1 && (List.range (s.dev.subPorts n)).all (fun i => (s.dev.port n).up.contains i) then s.portStarted n
  else s

/-- LINK_STATE_CHANGE (R527). -/
def execLinkStateChange (n : Fin 24) (k : Fin 4) (up : Bool) (lanes : Nat) (s : State) : Host.Outcome State Fault Refusal :=
  .next (linkState n.val k.val up lanes s)

/-- A port retrains after a change of its lanes: its paths are suspended and its packets sent again (R479). -/
def Dev.retrainPort (d : Dev) (n : Nat) : Dev :=
  (d.updPort n (fun p => { p with retraining := true })).resendFrom ((List.range 4).map (4 * n + ·))

/-- LANE_RETRAIN_COMPLETE (R479). -/
def execLaneRetrainComplete (n : Fin 24) (lanes : Nat) (s : State) : Host.Outcome State Fault Refusal :=
  .next (s.onDev (fun d =>
    if (d.port n.val).retraining then (d.updPort n.val (fun p => { p with retraining := false, lanes := lanes })).pumpAll else d))

/-- The own address of a sub-port (R482). -/
def Dev.ownAddr (d : Dev) (n k : Nat) (v6 : Bool) : Nat :=
  if v6 then bytesAt (d.portReg n 0x06) (16 * k) 16 else bytesAt (d.portReg n 0x05) (4 * k) 4

/-- The MAC address of a sub-port (R525). -/
def Dev.macOf (d : Dev) (n k : Nat) : Nat := d.portReg n 0x08 + k

/-- What the body of a good frame does (R480, R481, R482, R484, R497); false where the frame is dropped. -/
def Dev.frameBody (d : Dev) (n k : Nat) (b : FrameBody) : Bool × Dev :=
  match b with
  | .pause => (true, d)
  | .lldp chassis port =>
    let old := d.portReg n 0x09
    let v := setBytesAt (setBytesAt (setBytesAt old (64 * k) 19 chassis) (64 * k + 19) 44 port) (64 * k + 63) 1 0
    (true, (d.setReg (0x2C00 + n) 0x09 v).updPort n (fun p => { p with lldpAt := Tbl.put k d.now p.lldpAt }))
  | .addrRequest v6 target asker =>
    if target ≠ 0 && target = d.ownAddr n k v6 then
      (true, d.sendFrame (4 * n + k) 2 [b2n v6, target, d.macOf n k, asker] 64)
    else (false, d)
  | .addrReply v6 addr mac =>
    let g := d.portReg n 0x07
    if addr ≠ 0 && addr = (if v6 then bytesAt g 16 16 else bytesAt g 0 4) then
      (true, (d.setReg (0x2C00 + n) 0x07 (setBytesAt g (32 + 6 * k) 6 mac)).pumpAll)
    else (false, d)
  | .icmp v6 dest src echo payload =>
    if echo && dest ≠ 0 && dest = d.ownAddr n k v6 && d.gateway n k then
      (true, d.sendFrame (4 * n + k) 3 ([b2n v6, dest, src] ++ payload) (payload.length + 46))
    else (false, d)
  | .transport ok => (ok, d)
  | .badIp => (false, d)
  | .other => (false, d)

/-- FRAME_RECEIVE: length, FCS and tags first; a frame of the management VLAN goes to the management controller, whose
requests are commands of their own (R480, R481, R484). -/
def frameReceive (n k : Nat) (f : FrameF) (d : Dev) : Dev :=
  if !((d.port n).up.contains k) || d.fn (0x2C00 + n) ≠ 2 then d else
  let d := d.incReg (0x2C00 + n) 0x0A
  let drop := fun (d : Dev) => d.incReg (0x2C00 + n) 0x0C
  if f.len < 64 || 9216 < f.len || !f.fcsOk || 1 < f.tags.length then drop d
  else if f.tags.contains (d.reg 0x1100 0x01 % 4096) then d
  else
    let (ok, d) := d.frameBody n k f.body
    if ok then d else drop d

/-- FRAME_RECEIVE (R480). -/
def execFrameReceive (n : Fin 24) (k : Fin 4) (f : FrameF) (s : State) : Host.Outcome State Fault Refusal :=
  .next (s.onDev (fun d => frameReceive n.val k.val f (d.fec n.val k.val)))

/-- PFC_FRAME_RECEIVE: a pause of the collective priority holds it on this sub-port until its release (R494). -/
def execPfcFrameReceive (n : Fin 24) (k : Fin 4) (classes quanta : Nat) (s : State) : Host.Outcome State Fault Refusal :=
  .next (s.onDev (fun d =>
    let c := d.reg 0x1100 0x03
    if !(bit c 0) || !(bit classes (bits c 3 1)) then d
    else if quanta ≠ 0 then
      d.updPort n.val (fun p => { p with paused := if p.paused.contains k.val then p.paused else k.val :: p.paused })
    else (d.updPort n.val (fun p => { p with paused := p.paused.erase k.val })).pumpAll))

/-- LLDP_SEND_TIMER: serial number, port, sub-port, time to live (R497). -/
def execLldpSendTimer (n : Fin 24) (k : Fin 4) (s : State) : Host.Outcome State Fault Refusal :=
  .next (s.onDev (fun d =>
    if d.fn (0x2C00 + n.val) = 2 && (d.port n.val).up.contains k.val then
      d.sendFrame (4 * n.val + k.val) 1 [d.reg 0x1000 0x06, n.val, k.val, 120] 128
    else d))

/-! Time (R495, R496, R725). -/

/-- An offset from the time source is taken: beyond 100 µs the timebase steps, otherwise the servo adjusts the frequency by
at most ±200 ppm to a value that the spec does not give, as it does not give when the time is locked (log entry 41). -/
def Dev.disciplined (d : Dev) (offset : Int) (source : Nat) : Dev :=
  let d := d.updNet (fun n => { n with timeSeen := some d.now })
  let d := d.setReg 0x1100 0x05 (ofSigned 32 offset)
  if 100000 < offset.natAbs then
    let d := { d with now := ((d.now : Int) - offset).toNat % two64 }
    let d := d.updNet (fun n => { n with timeSeen := some d.now })
    ((d.incReg 0x2400 0x04).setReg 0x2400 0x02 1).raiseDev 0x8705 [ofSigned 32 offset, source]
  else
    let (k, d) := d.draw
    let adj : Int := (Config.servo k % 400001 : Nat) - 200000
    (d.setReg 0x2400 0x03 (ofSigned 32 adj)).setReg 0x2400 0x02 (1 + Config.pick k % 2)

/-- PTP_MESSAGE_RECEIVE: on the sub-port of the time source, while PTP is enabled and the PPS input is not selected (R495,
R496). -/
def execPtpMessageReceive (n : Fin 24) (k : Fin 4) (offset : Int) (s : State) : Host.Outcome State Fault Refusal :=
  .next (s.onDev (fun d =>
    let c := d.reg 0x1100 0x04
    if bit c 12 && !(bit c 13) && c % 256 = 4 * n.val + k.val && (d.port n.val).up.contains k.val then d.disciplined offset 0
    else d))

/-- PPS_INPUT_EDGE: while the time source is the PPS input (R496). -/
def execPpsInputEdge (offset : Int) (s : State) : Host.Outcome State Fault Refusal :=
  .next (s.onDev (fun d => if bit (d.reg 0x1100 0x04) 13 then d.disciplined offset 1 else d))

/-- PPS_OUTPUT_SECOND: PPS is driven at each whole second unless it is the input (R496). -/
def execPpsOutputSecond (s : State) : Host.Outcome State Fault Refusal :=
  .next (s.onDev (fun d => if bit (d.reg 0x1100 0x04) 13 then d else d.out (.pin 1 1)))

/-- TIME_HOLDOVER: the source has been missing for 2 s (R725); a lock that is lost raises event 0x8705 (R528). -/
def execTimeHoldover (s : State) : Host.Outcome State Fault Refusal :=
  .next (s.onDev (fun d =>
    let c := d.reg 0x1100 0x04
    let m := d.reg 0x2400 0x02
    if (!(bit c 12) && !(bit c 13)) || m = 3 then d else
    let d := d.setReg 0x2400 0x02 3
    if m = 2 then d.raiseDev 0x8705 [d.reg 0x1100 0x05, b2n (bit c 13)] else d))

end Sys2Proof.Machine
end

