-- ==== Sys2Proof/Machine/Power.lean ====
section
/-! DEFINITION. The power governor: operating points, margins, caps, the tick, droop and heat (R562 to R594, R605). -/
namespace Sys2Proof.Machine
open Sys2Proof

/-! Set-points and margins (R563 to R565, R590, R742, R743). -/

/-- The operating point of a partition. -/
def Dev.opOf (d : Dev) (p : Nat) : Nat := d.partReg p 0x10 % 16

/-- The table voltage of a partition's operating point in 0.1 mV (R563). -/
def Dev.tableVolt (d : Dev) (p k : Nat) : Nat := 4500 + 25 * d.mfg.volt p k

/-- A set-point is written over AVSBus: the table voltage of the point the rail is meant for, less the margin (R564, R565). -/
def Dev.setpoint (d : Dev) (p : Nat) : Dev :=
  let q := d.powP p
  let k := if 2 ≤ q.phase then q.target else d.opOf p
  let v := d.tableVolt p k - 25 * d.partReg p 0x12
  (d.updPowP p (fun q => { q with avs := some v })).out (.board 0 [8 * (p / 2) + p % 2, v])

/-- The adaptive margin of a partition changes, and its set-point with it (R564). -/
def Dev.setMargin (d : Dev) (p m : Nat) : Dev :=
  if m = d.partReg p 0x12 then d else (d.setReg (0x3400 + p) 0x12 m).setpoint p

/-- The margins follow a write of their enable or limit (R564). -/
def Dev.marginPolicy (d : Dev) : Dev :=
  (List.range 8).foldl (fun d p =>
    d.setMargin p (if d.reg 0x2000 0x11 = 0 then 0 else min (d.partReg p 0x12) (d.reg 0x2000 0x12))) d

/-- MARGIN_RAISE_TIMER: a millisecond without a warning has ended (R564, R590). -/
def execMarginRaiseTimer (p : Fin 8) (s : State) : Host.Outcome State Fault Refusal :=
  .next (s.onDev (fun d =>
    let q := d.powP p.val
    let soon := q.warned.any (fun t => d.now < t + 100000000)
    if d.reg 0x2000 0x11 = 0 || q.held || soon || d.reg 0x2000 0x12 ≤ d.partReg p.val 0x12 then d
    else d.setMargin p.val (d.partReg p.val 0x12 + 1)))

/-- CANARY_WARNING: the margin falls by four steps at once (R564). -/
def execCanaryWarning (p : Fin 8) (s : State) : Host.Outcome State Fault Refusal :=
  .next (s.onDev (fun d =>
    let d := (d.incReg (0x3400 + p.val) 0x18).updPowP p.val (fun q => { q with warned := some d.now })
    d.setMargin p.val (d.partReg p.val 0x12 - 4)))

/-- DROOP_TRIP: an episode begins; the seventeenth of a millisecond withdraws the margin (R589, R590). -/
def droopTrip (p : Nat) (d : Dev) : Dev :=
  let q := d.powP p
  if q.tripped then d else
  let ms := d.now / 1000000
  let n := if q.episodes.1 = ms then q.episodes.2 + 1 else 1
  let d := (d.incReg (0x3400 + p) 0x16).updPowP p (fun q => { q with tripped := true, episodes := (ms, n) })
  if 16 < n && !q.held then
    ((d.updPowP p (fun q => { q with held := true })).setMargin p 0).raise 0x890A 6 p none none [p]
  else d

/-- DROOP_TRIP (R589). -/
def execDroopTrip (p : Fin 8) (s : State) : Host.Outcome State Fault Refusal := .next (s.onDev (droopTrip p.val))

/-- DROOP_CLEAR: the stretch ends; its cycles are counted (R589). -/
def execDroopClear (p : Fin 8) (cycles : Nat) (s : State) : Host.Outcome State Fault Refusal :=
  .next (s.onDev (fun d =>
    if (d.powP p.val).tripped then
      (d.updPowP p.val (fun q => { q with tripped := false })).addReg (0x3400 + p.val) 0x17 cycles
    else d))

/-- MARGIN_HOLD_EXPIRY: the second of R590 is over. -/
def execMarginHoldExpiry (p : Fin 8) (s : State) : Host.Outcome State Fault Refusal :=
  .next (s.onDev (fun d => d.updPowP p.val (fun q => { q with held := false })))

/-! Changes of operating point (R565). -/

/-- A change of operating point starts: down by slewing PCLK, up by writing the set-point (R565). -/
def Dev.changeOp (d : Dev) (p k : Nat) : Dev :=
  if k < d.opOf p then d.updPowP p (fun q => { q with target := k, phase := 1, fits := none })
  else if d.opOf p < k then (d.updPowP p (fun q => { q with target := k, phase := 3, fits := none })).setpoint p
  else d

/-- PCLK_SLEW_DOWN_COMPLETE: the partition runs at the lower point and its set-point is written (R565). -/
def execPclkSlewDownComplete (p : Fin 8) (s : State) : Host.Outcome State Fault Refusal :=
  .next (s.onDev (fun d =>
    let q := d.powP p.val
    if q.phase = 1 then
      ((d.setReg (0x3400 + p.val) 0x10 q.target).updPowP p.val (fun q => { q with phase := 2 })).setpoint p.val
    else d))

/-- AVS_WRITE_COMPLETE: the rail has its set-point; a change downward is over, one upward waits for the rail (R565, R743). -/
def execAvsWriteComplete (p : Fin 8) (s : State) : Host.Outcome State Fault Refusal :=
  .next (s.onDev (fun d =>
    match (d.powP p.val).avs with
    | none => d
    | some v =>
      (d.setReg (0x3400 + p.val) 0x11 v).updPowP p.val (fun q => { q with
        avs := none, phase := if q.phase = 2 then 0 else if q.phase = 3 then 4 else q.phase })))

/-- OP_UP_PCLK_SLEW: the rail has risen and PCLK runs at the new point (R565). -/
def execOpUpPclkSlew (p : Fin 8) (s : State) : Host.Outcome State Fault Refusal :=
  .next (s.onDev (fun d =>
    let q := d.powP p.val
    if q.phase = 4 then
      (d.setReg (0x3400 + p.val) 0x10 q.target).updPowP p.val (fun q => { q with phase := 0 })
    else d))

/-! Caps (R574, R575, R604, R747). -/

/-- BOARD_CAP_WRITE (R574): the governor takes it from its next tick on. -/
def execBoardCapWrite (via : Via) (v : Nat) (s : State) : Host.Outcome State Fault Refusal :=
  .next (s.dictWrite via 0x2100 0x01 v (fun s => (0, s.onDev (fun d => d.setReg 0x2100 0x01 v))))

/-- OPERATOR_CAP_WRITE (R574). -/
def execOperatorCapWrite (via : Via) (v : Nat) (s : State) : Host.Outcome State Fault Refusal :=
  .next (s.dictWrite via 0x2100 0x02 v (fun s => (0, s.onDev (fun d => d.setReg 0x2100 0x02 v))))

/-- PWR_CAP_ALERT_EDGE: every edge raises 0x8904, and assertions are counted; before step 10 the land is not treated as
asserted (R605, R747). -/
def alertEdge (asserted : Bool) (d : Dev) : Dev :=
  if d.reg 0x6000 0x02 ≠ 10 || d.pow.alert = asserted then d else
  let d := { d with pow := { d.pow with alert := asserted } }
  let d := if asserted then d.incReg 0x2100 0x10 else d
  d.raiseDev 0x8904 [b2n asserted, d.reg 0x2100 0x03]

/-- PWR_CAP_ALERT_EDGE (R574). -/
def execPwrCapAlertEdge (asserted : Bool) (s : State) : Host.Outcome State Fault Refusal := .next (s.onDev (alertEdge asserted))

/-- The requested cap in W and its source: 1 board, 2 operator, 3 alert; on equal caps the lowest number (R574, R600). -/
def Dev.requested (d : Dev) : Nat × Nat :=
  let all := [(d.reg 0x2100 0x01, 1), (d.reg 0x2100 0x02, 2)] ++ (if d.pow.alert then [(d.reg 0x2100 0x03, 3)] else [])
  all.foldl (fun b x => if x.1 < b.1 then x else b) (all.headD (3600, 1))

/-! Levels (R582, R583). -/

/-- The levels of a decision: compute duty in 1/256, memory slots in 1/16, the ports shed in it, the last one first. -/
structure Levels where
  comp : Nat
  mlev : Nat
  shed : List Nat
  deriving DecidableEq, Repr

/-- How often a port has shed a lane step, with the steps of this decision. -/
def Dev.shedOf (d : Dev) (lv : Levels) (n : Nat) : Nat := (d.port n).shed + (lv.shed.filter (· = n)).length

/-- The port to shed next: the one with the fewest bytes, the highest number on ties; mode 0 twice, mode 1 once, mode 2
never (R583). -/
def Dev.nextShed (d : Dev) (lv : Levels) : Option Nat :=
  let may := (List.range 24).filter (fun n => d.fn (0x2C00 + n) = 2 && d.shedOf lv n < 2 - min 2 (d.portMode n))
  may.foldl (fun (b : Option Nat) n => match b with
    | none => some n
    | some m => if (d.port m).bytes < (d.port n).bytes then some m else some n) none

/-- One step down of a domain (0 compute, 1 memory, 2 links); none at its minimum (R582). -/
def Dev.lower (d : Dev) (dom : Nat) (lv : Levels) : Option Levels :=
  match dom with
  | 0 => if 16 < lv.comp then some { lv with comp := lv.comp - 1 } else none
  | 1 => if 1 < lv.mlev then some { lv with mlev := lv.mlev - 1 } else none
  | _ => (d.nextShed lv).map (fun n => { lv with shed := n :: lv.shed })

/-- The order of the domains (0x2100:07). -/
def domainOrder (v : Nat) : List Nat :=
  ([[0, 1, 2], [0, 2, 1], [1, 0, 2], [1, 2, 0], [2, 0, 1], [2, 1, 0]] : List (List Nat)).getD v [0, 1, 2]

/-- The dynamic power that each partition's work would draw at given levels: its demand in proportion to the duty; under
other memory or lane levels than the present ones the demand is a free value; a partition on its hard limit takes 16/256
(R582, R588, R592). -/
def Dev.want (d : Dev) (k : Nat) (dem : List Nat) (lv : Levels) : List Nat :=
  (List.range 8).map (fun p =>
    let x := dem.getD p 0
    let base := if lv.mlev = d.pow.mlev && lv.shed.isEmpty then x
      else Config.cutDemand ([k, p, x, lv.mlev] ++ (List.range 24).map (d.shedOf lv))
    let duty := if (d.powP p).hard then 16 else lv.comp
    d32 (m32 base (f32 duty)) (f32 256))

/-- gov of R588. -/
def gov (want fac stat : List Nat) : Nat :=
  (List.range 8).foldl (fun g p => a32 g (m32 (fac.getD p 0) (a32 (stat.getD p 0) (want.getD p 0)))) 0

/-- Cut one domain while the governing power is above the cap (R588). -/
def Dev.cutDomain (d : Dev) (k dom cap : Nat) (dem fac stat : List Nat) : Nat → Levels → Levels
  | 0, lv => lv
  | fuel + 1, lv =>
    if lt32 cap (gov (d.want k dem lv) fac stat) then
      match d.lower dom lv with
      | some l => d.cutDomain k dom cap dem fac stat fuel l
      | none => lv
    else lv

/-- The governor sheds one lane step of a port (R583). -/
def Dev.shedPort (d : Dev) (n : Nat) : Dev :=
  let d := d.updPort n (fun x => { x with shed := x.shed + 1 })
  let d := { d with pow := { d.pow with shed := n :: d.pow.shed } }
  (d.raise 0x890B 4 n none none [n, 4 >>> (d.port n).shed]).retrainPort n

/-- LANE_RESTORE: the port that shed last takes a lane step back (R585). -/
def execLaneRestore (n : Fin 24) (s : State) : Host.Outcome State Fault Refusal :=
  .next (s.onDev (fun d =>
    if d.pow.shed.head? = some n.val && !d.pow.floor then
      let d := d.updPort n.val (fun x => { x with shed := x.shed - 1 })
      let d := { d with pow := { d.pow with shed := d.pow.shed.drop 1 } }
      (d.raise 0x890B 4 n.val none none [n.val, 4 >>> (d.port n.val).shed]).retrainPort n.val
    else d))

/-! The floor (R584). -/

/-- The floor is entered: event 0x8902 with the requested cap and G (R584). -/
def Dev.enterFloor (d : Dev) (creq g : Nat) : Dev :=
  (((d.incReg 0x2100 0x11).raiseDev 0x8902 [creq, g])).holdFloor

/-- FLOOR_LEAVE: after 10 ms below 0.95 of the cap the floor is left, unless a device-wide fault holds it (R584, R632). -/
def execFloorLeave (s : State) : Host.Outcome State Fault Refusal :=
  .next (s.onDev (fun d =>
    if !d.pow.floor || bit (d.reg 0x5400 0x05) 0 then d else
    let d := { d with pow := { d.pow with floor := false, comp := 256, mlev := 16 } }
    let d := d.setField 0x2100 0x04 15 15 0
    d.raiseDev 0x8903 [bits (d.reg 0x2100 0x04) 11 0]))

/-! Ballast (R581). -/

/-- Is a hinted phase of a context in force on a partition? -/
def Dev.hinted (d : Dev) (c p : Nat) : Bool :=
  (d.ctx c).hints.any (fun h => h.start ≤ d.now && d.now < h.stop && bit h.parts p)

/-- When a descent begins, the falls that it is charged to: by context, those inside a hinted phase to the device. -/
def Dev.fallsOf (d : Dev) (p : Nat) (before now : Tbl Nat) : Tbl Nat :=
  before.foldl (fun t x =>
    let fall := x.2 - Tbl.look 0 x.1 now
    if fall = 0 then t
    else Tbl.upd 0 (if x.1 < 1024 && d.hinted x.1 p then 1024 else x.1) (· + fall) t) []

/-- Ballast of a tick is charged: the descent's in proportion to the falls, the duty's rounding to the device (R581). -/
def Dev.chargeBallast (d : Dev) (p descent total : Nat) : Dev :=
  let pj := fun (w : Nat) => floor32 (m32 w (f32 250000))
  let falls := (d.powP p).falls
  let sum := (falls.map (·.2)).sum
  let shares := if sum = 0 then [] else falls.map (fun x => (x.1, pj descent * x.2 / sum))
  let rest := pj total - (shares.map (·.2)).sum
  let all := (shares ++ [(1024, rest)]).filter (fun (x : Nat × Nat) => x.2 ≠ 0)
  d.updPowP p (fun q => { q with
    charges := all.foldl (fun t x => Tbl.upd 0 x.1 (· + x.2) t) q.charges
    ballast := all.foldl (fun t x => Tbl.upd 0 x.1 (· + x.2) t) q.ballast })

/-! The tick (R588). -/

/-- The estimated power of a partition in this tick, W. -/
def Dev.estimate (d : Dev) (p : Nat) : Nat :=
  watts (((d.powP p).dyn.map (·.2)).sum + energy (d.coeffs p) (d.staticTerms p)) 1

/-- The active cap is shown; a change raises event 0x8901 (R574). -/
def Dev.showCap (d : Dev) (src cap : Nat) : Dev :=
  let old := d.reg 0x2100 0x04
  let new := (src % 8) <<< 12 + floor32 cap % 4096
  if old % 2 ^ 15 = new then d
  else (d.setReg 0x2100 0x04 (bits old 15 15 <<< 15 + new)).raiseDev 0x8901 [src, floor32 cap]

/-- Activity, duty and ballast of a partition after the package's activity moves from `prev` toward `tgt` as far as `nxt`. -/
def Dev.moveAct (d : Dev) (p dem want prev tgt nxt : Nat) (before : Tbl Nat) : Dev :=
  let q := d.powP p
  let act := if canon fp32 tgt = canon fp32 prev then q.act
    else a32 q.act (d32 (m32 (s32 want q.act) (s32 nxt prev)) (s32 tgt prev))
  let takeIn := min32 act dem
  let duty := if lt32 0 dem then max 16 (floor32 (d32 (m32 (f32 256) takeIn) dem)) else 16
  let duty := if d.pow.floor then 0 else duty
  let issued := d32 (m32 dem (f32 duty)) (f32 256)
  let ballast := max32 0 (s32 act issued)
  let descent := max32 0 (s32 act dem)
  let falling := lt32 0 descent
  let falls := if !falling then [] else if q.falls.isEmpty then d.fallsOf p before q.dyn else q.falls
  let d := d.updPowP p (fun q => { q with act := act, falls := falls })
  (d.setReg (0x3400 + p) 0x13 duty).chargeBallast p descent ballast

/-- GOVERNOR_TICK: the activity of the tick is charged, then caps, cuts, the slope limit, duty and ballast (R570, R571, R576,
R579 to R585, R588). -/
def governorTick (acts : List ActF) (d : Dev) : Dev :=
  let (k, d) := d.draw
  let before := (List.range 8).map (fun p => (d.powP p).dyn)
  let d := (List.range 8).foldl (fun d p => d.updPowP p (fun q => { q with dyn := [] })) d
  let d := acts.foldl Dev.chargeAct d.chargeLedger
  let d := (List.range 8).foldl Dev.chargeStatic d
  let fac := (List.range 8).map d.factor
  let d := d.setReg 0x2100 0x14 ((List.range 8).foldl (fun g p => a32 g (m32 (fac.getD p 0) (d.estimate p))) 0)
  let (req, src) := d.requested
  let creq := f32 req
  let gfl := (List.range 8).foldl (fun g p => a32 g (m32 (fac.getD p 0) (Config.floorPower k p))) 0
  let cap := max32 creq gfl
  let d := d.showCap src cap
  let dem := (List.range 8).map (fun p => (acts.filter (fun a => a.part.val = p)).foldl (fun x a => a32 x a.demand) 0)
  let stat := (List.range 8).map (fun p => watts (energy (d.coeffs p) (d.staticTerms p)) 1)
  let top : Levels := ⟨256, d.pow.mlev, []⟩
  let up : Levels := { top with mlev := d.pow.mlev + 1 }
  let start := if d.pow.mlev < 16 && !(lt32 cap (gov (d.want k dem up) fac stat)) then up else top
  let lv := if d.pow.floor then start
    else (domainOrder (d.reg 0x2100 0x07)).foldl (fun lv dom => d.cutDomain k dom cap dem fac stat 300 lv) start
  let want := d.want k dem lv
  let g := gov want fac stat
  let was := d.pow.floor
  let d := if was then d
    else
      let d := lv.shed.reverse.foldl Dev.shedPort { d with pow := { d.pow with mlev := lv.mlev, comp := lv.comp } }
      if lt32 creq g then d.enterFloor creq g else d
  let want := if d.pow.floor then List.replicate 8 0 else want
  let pdyn := f32 (d.reg 0x2100 0x0A)
  let upStep := d32 pdyn (f32 (d.reg 0x2100 0x05))
  let hot := (List.range 8).any (fun p => (d.powP p).hard)
  let down := if d.pow.alert || hot then d32 pdyn (f32 (d.reg 0x2100 0x06)) else upStep
  let prev := (List.range 8).foldl (fun x p => a32 x (d.powP p).act) 0
  let tgt := want.foldl a32 0
  let nxt := min32 (max32 tgt (s32 prev down)) (a32 prev upStep)
  let d := (List.range 8).foldl (fun d p =>
    d.moveAct p (dem.getD p 0) (want.getD p 0) prev tgt nxt (before.getD p [])) d
  if d.pow.floor then
    let n := d.pow.floorTicks + 1
    let d := { d with pow := { d.pow with floorTicks := n } }
    if n % 4 = 0 then d.incReg 0x2100 0x12 else d
  else d

/-- GOVERNOR_TICK (R588). -/
def execGovernorTick (act : List ActF) (s : State) : Host.Outcome State Fault Refusal := .next (s.onDev (governorTick act))

/-! Choosing operating points (R586, R587). -/

/-- The lead that a change up to point k needs before a phase ends (R565, R587), in ns. -/
def Dev.leadTo (d : Dev) (p k : Nat) : Nat :=
  let dv := d.tableVolt p k - d.tableVolt p (d.opOf p)
  1000 + dv * 100 / max 1 (d.reg 0x2000 0x13) + 1000 + 2000

/-- The hint classes in force on a partition whose every context with work has a phase of that class or lighter, and at
whose point the demand fits (R587). -/
def Dev.hintClasses (d : Dev) (k p : Nat) (early : Nat) : List Nat :=
  let live := fun (c : Nat) => (d.ctx c).hints.filter (fun h => h.start ≤ d.now && d.now + early < h.stop && bit h.parts p)
  let named := d.ctxs.flatMap (fun x => live x.1)
  let busy := d.suspects p
  (List.range 4).filter (fun cls =>
    named.any (fun h => h.cls % 4 = cls) && busy.all (fun c => (live c).any (fun h => h.cls % 4 ≤ cls)) &&
      Config.opFits k p (bytesAt (d.reg 0x2100 0x0B) cls 1))

/-- The ceiling of a partition and its cause: 0 none, 1 operator, 2 thermal, 3 hint, 4 floor (R586, R602). -/
def Dev.ceilingOf (d : Dev) (p : Nat) (hint : Option Nat) : Nat × Nat :=
  if d.pow.floor then (0, 4) else
  let c := if d.reg 0x2000 0x14 < 11 then (d.reg 0x2000 0x14, 1) else (11, 0)
  let c := if (d.powP p).ceiling < c.1 then ((d.powP p).ceiling, 2) else c
  match hint with
  | some h => if h < c.1 then (h, 3) else c
  | none => c

/-- The choice of a partition's operating point (R586, R587). While a change runs, none is made. -/
def Dev.chooseOp (d : Dev) (k p : Nat) : Dev :=
  let q := d.powP p
  let early := match q.before with
    | some b => d.leadTo p b
    | none => 0
  let inPhase := d.hintClasses k p 0
  let classes := d.hintClasses k p early
  let hint := (classes.map (fun c => bytesAt (d.reg 0x2100 0x0B) c 1)).min?
  let d := d.updPowP p (fun q => { q with
    before := if inPhase.isEmpty then none else match q.before with
      | some b => some b
      | none => some (d.opOf p) })
  let (ceil, cause) := d.ceilingOf p hint
  let d := d.setReg (0x3400 + p) 0x14 (cause <<< 4 + ceil)
  if q.phase ≠ 0 || d.service p = 2 then d else
  let best := ((List.range (ceil + 1)).filter (fun o => Config.opFits k p o)).foldl max 0
  let cur := d.opOf p
  let back := !inPhase.isEmpty && classes.isEmpty && q.before.any (fun b => cur < b && b ≤ best)
  if back then d.changeOp p (q.before.getD cur)
  else if best < cur then d.changeOp p best
  else if best = cur then d.updPowP p (fun q => { q with fits := none })
  else match q.fits with
    | none => d.updPowP p (fun q => { q with fits := some (best, d.now) })
    | some (b, t) =>
      let b := min b best
      if t + 100000 ≤ d.now then d.changeOp p b else d.updPowP p (fun q => { q with fits := some (b, t) })

/-- OPERATING_POINT_CHOICE (R586). -/
def execOperatingPointChoice (s : State) : Host.Outcome State Fault Refusal :=
  .next (s.onDev (fun d =>
    let (k, d) := d.draw
    (List.range 8).foldl (fun d p => d.chooseOp k p) d))

/-! Heat (R591 to R593). Temperatures are in sixteenths of a degree. -/

/-- The hottest reading of a partition is shown (R602). -/
def Dev.showHot (d : Dev) (p : Nat) (t : Int) : Dev := d.setReg (0x3400 + p) 0x15 (ofSigned 16 t)

/-- THERMAL_CEILING_TIMER: above the soft limit the ceiling falls by a point, below it less 3 °C it rises (R591). -/
def execThermalCeilingTimer (p : Fin 8) (t : Int) (s : State) : Host.Outcome State Fault Refusal :=
  .next (s.onDev (fun d =>
    let d := d.showHot p.val t
    let soft : Int := (16 * d.reg 0x2100 0x0C : Nat)
    d.updPowP p.val (fun q => { q with ceiling :=
      if soft < t then q.ceiling - 1 else if t < soft - 48 then min 11 (q.ceiling + 1) else q.ceiling })))

/-- HARD_THERMAL_ENTRY: above 95 °C the partition is held at duty 16/256 (R592). -/
def execHardThermalEntry (p : Fin 8) (t : Int) (s : State) : Host.Outcome State Fault Refusal :=
  .next (s.onDev (fun d =>
    let d := d.showHot p.val t
    if 1520 < t && !(d.powP p.val).hard then
      (d.updPowP p.val (fun q => { q with hard := true })).raise 0x8909 6 p.val none none [p.val, 95, ofSigned 16 t]
    else d))

/-- HARD_THERMAL_RELEASE: below 93 °C it is released, under the slope limit (R592). -/
def execHardThermalRelease (p : Fin 8) (t : Int) (s : State) : Host.Outcome State Fault Refusal :=
  .next (s.onDev (fun d =>
    let d := d.showHot p.val t
    if t < 1488 then d.updPowP p.val (fun q => { q with hard := false }) else d))

/-- STACK_THERMAL_LIMIT: above 95 °C the stack grants in at most 4 of 16 cycles (R593). -/
def execStackThermalLimit (st : Fin 32) (t : Int) (s : State) : Host.Outcome State Fault Refusal :=
  .next (s.onDev (fun d =>
    if 1520 < t && !(d.stk st.val).hot then
      (d.updStk st.val (fun x => { x with hot := true })).raise 0x8909 5 st.val none none [st.val, 95, ofSigned 16 t]
    else d))

/-- STACK_THERMAL_RELEASE: below 90 °C the limit ends (R593). -/
def execStackThermalRelease (st : Fin 32) (t : Int) (s : State) : Host.Outcome State Fault Refusal :=
  .next (s.onDev (fun d => if t < 1440 then d.updStk st.val (fun x => { x with hot := false }) else d))

/-- THERMTRIP: a junction reads 105 °C; THERMTRIP# is asserted and every clock but GCLK stops (R594, R691). -/
def execThermtrip (s : State) : Host.Outcome State Fault Refusal :=
  .next (s.onDev (fun d =>
    if d.boot.reset || d.boot.thermtrip then d
    else ({ d with boot := { d.boot with thermtrip := true } }).out (.pin 3 1)))

end Sys2Proof.Machine
end

