-- ==== Sys2Proof/Machine/Dma.lean ====
section
/-! DEFINITION. The DMA moves (R408 to R410, R457). -/
namespace Sys2Proof.Machine
open Sys2Proof

/-- The use of a DMA's accesses. -/
def dmaUse (c e : Nat) : Using :=
  { who := .dma e, ctx := c, part := partOfEng e, port := 1, input := 3, b30 := 0x030C, own := false, place := none,
    onlySpad := false }

/-- The checks of a move and the reading of its descriptors (R409, R421). -/
def moveIssue (op : Nat) (o : Origin) (f : MoveF) : Act (Nat × MoveCmd) := do
  let e ← slotHeader o (f.reserved + b2n (op = 0x40 && f.index ≠ 0))
  let u := schedUse o.ctx.val (partOfEng e)
  let s ← readDesc u f.src
  let d ← readDesc u f.dst
  let _ ← readArea u s none
  let _ ← readArea u d none
  let ix ← if op = 0x40 then pure none else do
    let i ← readDesc u f.index
    let _ ← readArea u i none
    pure (some i)
  let bad := match ix with
    | none => decide (s.sizes ≠ d.sizes)
    | some i =>
      let rows := if op = 0x41 then d.size 1 else s.size 1
      decide (i.fmt ≠ 0xA) || decide (i.total ≠ rows) || [0, 2, 3].any (fun k => s.size k ≠ d.size k)
  Act.refuseIf (s.fmt ≠ d.fmt || bad) 0x020C
  return (e, { op := op, o := o, src := s, dst := d, list := ix, idx := [], planned := false, next := 0 })

/-- Elements of a unit of 2,048 bytes of destination data, in whole packing groups (R410). -/
def unitEls (fmt : Nat) : Nat := if fmt = 0xE then 320 else if fmt = 0x5 then 2728 else 16384 / elemBits fmt

/-- Read the index list (R409); a bad entry is refused. -/
def movePlan (e : Nat) (x : MoveCmd) : Act MoveCmd := do
  match x.planned, x.list with
  | true, _ => return x
  | false, none => return { x with planned := true }
  | false, some i => do
    let codes ← readCoords (dmaUse x.o.ctx.val e) i ((List.range i.total).map (coordsOf i.sizes))
    let rows := if x.op = 0x41 then x.src.size 1 else x.dst.size 1
    Act.refuseIf (codes.any (fun c => toSigned 32 c < 0 || (rows : Int) ≤ toSigned 32 c)) 0x020B
    return { x with planned := true, idx := codes }

/-- Destination and source coordinates of a move, in list order (R409). A row is all positions of its index along dimension 1 (DESIGN
CHOICE, log entry 277). -/
def MoveCmd.pairs (x : MoveCmd) : List (List Nat × List Nat) :=
  match x.list with
  | none => (List.range x.dst.total).map (fun i => (coordsOf x.dst.sizes i, coordsOf x.dst.sizes i))
  | some _ =>
    x.idx.zipIdx.flatMap (fun (v, i) =>
      (List.range (x.dst.size 0 * x.dst.size 2 * x.dst.size 3)).map (fun n =>
        let c := coordsOf [x.dst.size 0, 1, x.dst.size 2, x.dst.size 3] n
        let a := setAt c 1 i
        let b := setAt c 1 v
        if x.op = 0x41 then (a, b) else (b, a)))

/-- The pairs of each unit in ascending destination position; of two that name one place the later in the list stays
(R409, R410; DESIGN CHOICE, log entry 277). -/
def MoveCmd.units (x : MoveCmd) : List (List (List Nat × List Nat)) :=
  let last := x.pairs.foldl (fun (t : Tbl (List Nat × List Nat)) p => Tbl.put (x.dst.pos p.1) p t) []
  let n := unitEls x.dst.fmt
  (((last.map (fun p => p.1 / n)).dedup).map (fun u => (last.filter (fun p => p.1 / n = u)).map (·.2)))

/-- Run one unit: read completely, then written (R410); bits are copied, block scales with them. -/
def moveUnit (e : Nat) (x : MoveCmd) (prs : List (List Nat × List Nat)) : Act Unit := do
  let u := dmaUse x.o.ctx.val e
  let vs ← readCoords u x.src (prs.map (·.2))
  let heads := prs.filter (fun p => p.1.getD 0 0 % 32 = 0)
  let sc ← if isBlock x.src.fmt then readScales u x.src (heads.map (fun p => x.src.pos p.2)) else pure []
  writeCoords u x.dst (prs.map (·.1)) vs
  if isBlock x.dst.fmt then
    writePos (u.of x.dst) 0xB x.dst.scalePtr (heads.map (fun p => x.dst.pos p.1 / 32)) sc (fun _ => 1)

/-- A whole move. -/
def moveRun (e : Nat) (x : MoveCmd) : Act Unit := do
  let x ← movePlan e x
  for prs in x.units do
    moveUnit e x prs

/-- A move at its engine: it runs whole where the engine runs and none waits before it (R395), and otherwise waits in the
engine's queue. -/
def moveWhole (op : Nat) (o : Origin) (f : MoveF) : Act Bool := do
  let (e, x) ← moveIssue op o f
  let d ← Act.dev
  if d.engRuns e && (d.eng e).dq.isEmpty then
    moveRun e x
    return true
  Act.upd (fun d => d.updEng e (fun k => { k with dq := k.dq ++ [x] }))
  return false

/-- A move that only joins its engine's queue (R439). -/
def moveQueue (op : Nat) (o : Origin) (f : MoveF) : Act Bool := do
  let (e, x) ← moveIssue op o f
  Act.upd (fun d => (d.becomesReady e o.ctx.val).updEng e (fun k => { k with dq := k.dq ++ [x] }))
  return false

/-- The effect of a move command that is delivered. -/
def runMove (op : Nat) (o : Origin) (f : MoveF) (s : State) : State :=
  s.issueCmd o op (s.dev.slotInput o) (cmdOf o op f.reserved (moveFields f)) (moveWhole op o f)

/-- MCOPY (R409). -/
def execMcopy (o : Origin) (f : MoveF) (s : State) : Host.Outcome State Fault Refusal := .next (runMove 0x40 o f s)
/-- MGATHER (R409). -/
def execMgather (o : Origin) (f : MoveF) (s : State) : Host.Outcome State Fault Refusal := .next (runMove 0x41 o f s)
/-- MSCATTER (R409). -/
def execMscatter (o : Origin) (f : MoveF) (s : State) : Host.Outcome State Fault Refusal := .next (runMove 0x42 o f s)

/-- Is it the same move? -/
def MoveCmd.same (a b : MoveCmd) : Bool := a.o.ctx == b.o.ctx && a.o.stream == b.o.stream && a.o.seq == b.o.seq

/-- The end of a unit: time used is charged, a context is chosen (R458) and its next unit runs. -/
def moveBoundary (e ns : Nat) (s : State) : State :=
  let k := s.dev.eng e
  let s := s.onDev (fun d => match k.scD.cur with
    | some c => (d.chargeTime e c ns).updEng e (fun k => { k with scD := { k.scD with ran := k.scD.ran + ns } })
    | none => d)
  if !(s.dev.engRuns e) then s else
  let k := s.dev.eng e
  match s.dev.choose e k.scD (k.dq.map (fun x => x.o.ctx.val)) with
  | none => s.onDev (fun d => d.updEng e (fun k => { k with scD := ⟨none, 0⟩ }))
  | some c =>
    let (sc, d) := s.dev.grantUnit e c k.scD
    let s := s.onDev (fun _ => d.updEng e (fun k => { k with scD := sc }))
    match k.dq.find? (fun x => x.o.ctx.val = c) with
    | none => s
    | some x =>
      let r := s.runAct (do
        let x ← movePlan e x
        match x.units[x.next]? with
        | some prs => moveUnit e x prs
        | none => pure ()
        return x)
      let drop := fun (d : Dev) => d.updEng e (fun k => { k with dq := k.dq.filter (fun y => !(y.same x)) })
      match r.1 with
      | .error f => r.2.onDev (fun d => (drop d).markFailed c x.o.stream.val x.o.seq f)
      | .ok y => r.2.onDev (fun d =>
          if y.next + 1 < y.units.length then
            d.updEng e (fun k => { k with dq := k.dq.map (fun z => if z.same x then { y with next := y.next + 1 } else z) })
          else (drop d).markDone c x.o.stream.val x.o.seq)

/-- MOVE_UNIT_BOUNDARY (R457). -/
def execMoveUnitBoundary (e : Fin 64) (ns : Nat) (s : State) : Host.Outcome State Fault Refusal :=
  .next (moveBoundary e.val ns s)

end Sys2Proof.Machine
end

