-- ==== Sys2Proof/Machine/Fence.lean ====
section
/-! DEFINITION. The global norm and the update fence (R136, R319 to R330, R344 to R346, R466, R467, R652, R653). -/
namespace Sys2Proof.Machine
open Sys2Proof

/-! The norm command (R321 to R323). -/

/-- The blocks of a norm list (R320, R323): of each its stack, pre-scale exponent and the address of its shard partial. -/
def readNormList (c list n : Nat) : Act (List (Nat × Int × Nat)) := do
  let bs ← vread (coordUse c) list (8 * n)
  let es := (chunksOf 8 bs).map leNat
  Act.refuseIf (es.any (fun e => bits e 63 52 ≠ 0)) 0x0607
  es.mapM (fun e => do
    let b ← (((readBlock c e none).recode 0x0602 0x0607).recode 0x0402 0x0607).recode 0x0605 0x0607
    return (b.stack, b.k, b.shard))

/-- Is every schedule record of a state record in its ranges (R330)? -/
def schedsOk (rec_ : Nat) : Bool := (List.range 8).all (fun i => schedOk (bytesAt rec_ (128 + 96 * i) 96))

/-- The partials of the 32 stacks (step 2 of R321); a member that does not contribute enters −0 (step 3). -/
def normRow (c list n : Nat) (contributor : Bool) : Act (List Nat) := do
  if !contributor then return List.replicate 32 0x80000000
  let bl ← readNormList c list n
  let vs ← bl.mapM (fun (b : Nat × Int × Nat) => do
    let p ← vreadNat (rootUse c b.1 1 true) b.2.2 4
    let v ← Act.num none (mul32 p (pow2 (-2 * b.2.1)))
    return (b.1, v))
  Act.num none ((List.range 32).mapM (fun s =>
    reduceLine add32 0x80000000 ((vs.filter (fun v => v.1 = s)).map (·.2))))

/-- The layers that the step marks (step 2 of R136), as a bitmap: `s` is the step value. -/
def normMarks (c s : Nat) : Act Nat := do
  let d ← Act.dev
  let p := (d.ctx c).policy
  let base := bits (d.ctxReg c 0x0A) 51 0
  let n := if base = 0 then 0 else bits (d.ctxReg c 0x0B) 12 0
  let tags := ((List.range p.window).filter (fun i => i ≤ s)).map (fun i => (s - i) % 2 ^ 32)
  (List.range n).foldlM (fun (m : Nat) layer => do
    let ring ← vread (coordUse c) (base + 576 * layer + 64) 512
    let es := ((chunksOf 16 ring).map leNat).filter (fun e => tags.contains (bytesAt e 0 4))
    let sum := fun (off w : Nat) => ((es.map (fun e => bytesAt e off w))).sum
    let marked := p.share * sum 4 4 < sum 8 4 * 65536 || p.failLim ≤ sum 14 2
    return if marked then m + 2 ^ layer else m) 0

/-- Does a queued job wait for the signal of the context's norm? -/
def Dev.awaitsNorm (d : Dev) (c : Nat) (r : RJob) : Bool :=
  match (d.upd c).norm with
  | some n => !r.released && n.o.sigEn && r.j.r.waitEn && r.j.r.waitObj = n.o.sigObj
  | none => false

/-- Has an encoding or a check of the context with a step value still to complete (step 1 of R136)? Array and vector
commands encode, and COPY and CONVERT jobs but for those that wait for the norm itself (DESIGN CHOICE, log entry 256). -/
def Dev.encodingsLeft (d : Dev) (c s : Nat) : Bool :=
  (d.ctx c).streams.any (fun t => t.run.any (fun e => e.stamp = s && 0x10 ≤ e.op && e.op < 0x40)) ||
  (List.range 32).any (fun st => (d.stk st).queue.any (fun r =>
    r.j.ctx.val = c && r.j.stamp = s && (r.j.r.ty = 4 || r.j.r.ty = 5) && !(d.awaitsNorm c r)))

/-- Fields of a collective that a norm runs as. -/
def normColl (handle : Nat) : CollF :=
  { src := 0, emit := 0, dst := 0, positions := 0, handle := handle, root := 0, scheme := 2, combine := 0, srcKind := 0,
    delKind := 0, rounding := 0, sat := 0, tensor := 0, k := 0, reserved := 0 }

/-- The norm enters its collective (steps 2 and 3 of R321): its row and marks go up the tree toward rank 0. -/
def normEnter (c : Nat) (r : NormRun) : Act Unit := do
  let row ← normRow c r.list r.entries r.contributor
  let marks ← normMarks c r.o.stamp
  let x ← jobHandle c r.handle
  let bytes := row.flatMap (leBytes 4) ++ leBytes 512 marks
  Act.upd (fun d =>
    let run : Coll := { o := r.o, op := 0x61, f := normColl r.handle, seq := x.seq, digest := Config.opDigest [0x61] % 2 ^ 32,
                        scheme := 2, at_ := d.now, src := none, dst := none, pos := none, chunks := [] }
    let d := d.updHandle r.handle (fun x => { x with seq := (x.seq + 1) % 2 ^ 32, colls := x.colls ++ [run] })
    let d := d.updUpd c (fun u => { u with norm := some { r with row := row, marks := marks } })
    match (roleOf 2 x.n x.group 0 x.rank).dest with
    | some p => d.sendMsg r.handle p x.seq 0 0 run.digest bytes
    | none => d)

/-- Has the norm of a context entered its collective? -/
def Dev.normIn (d : Dev) (r : NormRun) : Bool :=
  match d.handle? r.handle with
  | some x => x.colls.any (fun k => k.op = 0x61 && k.o = r.o)
  | none => false

/-- A norm that is held goes on once the encodings of its step are over and its handle has room (R136, R321, R505). -/
def State.tryNorm (s : State) (c : Nat) : State :=
  match (s.dev.upd c).norm with
  | none => s
  | some r =>
    let room := match s.dev.handle? r.handle with
      | some x => decide (x.colls.length < 16)
      | none => true
    if s.dev.normIn r || s.dev.encodingsLeft c r.o.stamp || !room then s else
    let e := s.runAct (normEnter c r)
    match e.1 with
    | .ok _ => e.2
    | .error f => e.2.onDev (fun d =>
        (d.markFailed c r.o.stream.val r.o.seq { f with cause := 2 }).updUpd c (fun u => { u with norm := none }))

/-- UNORM at its issue: its checks (R323, R330, R412). -/
def unorm (o : Origin) (list table handle control reserved : Nat) : Act Bool := do
  let n := control % 2 ^ 17
  plainHeader o (reserved + list % 64 + table % 64 + control / 2 ^ 18)
  Act.refuseIf (n = 0 || 65536 < n) 0x0201
  let c := o.ctx.val
  let d ← Act.dev
  Act.refuseIf (d.upd c).normDone 0x0606
  let _ ← jobHandle c handle
  let vas ← readSrt c table
  let _ ← readNormList c list n
  let rec_ ← vreadNat (coordUse c) (vas.headD 0) 1024
  Act.refuseIf (!(schedsOk rec_)) 0x0608
  let run : NormRun := { o := o, list := list, table := table, handle := handle, entries := n,
                         contributor := bit control 17, row := [], marks := 0 }
  Act.upd (fun d => d.updUpd c (fun u => { u with norm := some run }))
  return false

/-- UNORM: a second norm of the context waits at the head of its stream while one is under way. -/
def runNorm (o : Origin) (list table handle control reserved : Nat) (s : State) : State :=
  let c := o.ctx.val
  let cmd := cmdOf o 0x61 reserved (unormFields list table handle control)
  if (s.dev.upd c).norm.isSome then
    s.onDev (fun d => d.updStream c o.stream.val (fun t => { t with q := cmd.toList ++ t.q }))
  else (s.issueCmd o 0x61 15 cmd (unorm o list table handle control reserved)).tryNorm c

/-- UNORM (R321). -/
def execUnorm (o : Origin) (list table handle control reserved : Nat) (s : State) : Host.Outcome State Fault Refusal :=
  .next (runNorm o list table handle control reserved s)

/-- Raise the lift of the marked layers below their maximum (step 4 of R136). -/
def widenLayers (c s marks : Nat) : Act Unit := do
  let d ← Act.dev
  let base := bits (d.ctxReg c 0x0A) 51 0
  let n := if base = 0 then 0 else bits (d.ctxReg c 0x0B) 12 0
  for layer in (bitList 4096 marks).filter (· < n) do
    let va := base + 576 * layer
    let h ← vreadNat (coordUse c) va 64
    let lift := bits h 1 0
    if lift < bits h 9 8 then
      let h := setBytesAt h 0 1 (lift + 1)
      let h := setBytesAt h 2 2 (min 65535 (bytesAt h 2 2 + 1))
      vwrite (coordUse c) va (leBytes 64 (setBytesAt h 4 8 s) ++ List.replicate 512 0)
      Act.upd (fun d => (d.incReg 0x5000 0x2A).raiseCtx 0x8403 c [c, layer, lift + 1])

/-- Steps 4 to 6 of R321 with the rows of the whole job. -/
def normFinish (c : Nat) (r : NormRun) (t : List Nat) (marks epoch : Nat) : Act Unit := do
  let vas ← readSrt c r.table
  let old ← vreadNat (coordUse c) (vas.headD 0) 1024
  let new ← Act.num none (normRecord old t epoch)
  widenLayers c r.o.stamp marks
  writeReplicas c vas new
  Act.upd (fun d =>
    let d := (List.range 32).foldl (fun d s => d.addReg (0x3800 + s) 0x15 8) d
    let d := if bit (bytesAt new 8 1) 0 then d.raiseCtx 0x8603 c [c, bytesAt new 4 4, bytesAt new 9 1] else d
    d.updUpd c (fun u => { u with normDone := true }))

/-- NORM_COLLECTIVE_COMPLETE: `rows` are the rows of the other members in rank order, `marks` their bitmaps (R321, R324). -/
def normComplete (c : Nat) (ok : Bool) (rows marks : List Nat) (s : State) : State :=
  match (s.dev.upd c).norm with
  | none => s
  | some r =>
    match s.dev.handle? r.handle with
    | none => s
    | some x =>
      match x.colls.find? (fun k => k.op = 0x61 && k.o = r.o) with
      | none => s
      | some k =>
        if !ok then s.onDev (fun d => d.failColl r.handle k.seq 0x0705 x.rank)
        else if rows.length ≠ 32 * (x.n - 1) then s
        else
          let t := rows.take (32 * x.rank) ++ r.row ++ rows.drop (32 * x.rank)
          let all := if (s.dev.ctx c).policy.jobWide then marks.foldl (· ||| ·) r.marks else r.marks
          let s := s.onDev (fun d => (d.updHandle r.handle (fun x => { x with
            colls := x.colls.filter (fun q => q.seq ≠ k.seq), rx := x.rx.filter (fun m => m.seq ≠ k.seq) })).updUpd c
              (fun u => { u with norm := none }))
          let e := s.runAct (normFinish c r t (all % 2 ^ 4096) x.epoch)
          match e.1 with
          | .ok _ => e.2.onDev (fun d => d.markDone c r.o.stream.val r.o.seq)
          | .error f => e.2.onDev (fun d => d.markFailed c r.o.stream.val r.o.seq { f with cause := 2 })

/-- NORM_COLLECTIVE_COMPLETE (R321). -/
def execNormCollectiveComplete (c : Fin 1024) (ok : Bool) (rows : List Nat) (marks : List Nat) (s : State) :
    Host.Outcome State Fault Refusal := .next (normComplete c.val ok rows marks s)

/-! The update fence (R344, R345). -/

/-- A run of a watched tensor after an observed step, the event that it gives, the net lift: `hit` says that the step counts
for this run, `up` that the run raises the lift (R652, R653). -/
def watchRun (e run thr : Nat) (net : Int) (hit watched up : Bool) : Nat × Int × Bool :=
  if !hit then (0, net, false) else
  let run := min (run + 1) (2 ^ 32 - 1)
  let k : Int := (bits (bytesAt e 5 1) 3 0 : Nat)
  let limit : Int := (bytesAt e 10 1 : Nat)
  if !watched || thr = 0 || run % thr ≠ 0 then (run, net, false)
  else if !(bit (bytesAt e 4 1) 2) then (run, net, true)
  else
    let new := max (-limit) (min limit (if up then net + k else net - k))
    if new = net then (run, net, true) else (0, new, true)

/-- Evaluate one watch entry whose tensor was observed: answers its 32 bytes (R652, R653). -/
def watchEntry (c stamp e : Nat) (zero sat : Bool) : Act Nat := do
  let d ← Act.dev
  let t := bytesAt e 0 4
  let ctl := bytesAt e 4 1
  let or_ := fun (v dflt : Nat) => if v = 0 then dflt else v
  let net := toSigned 8 (bytesAt e 20 1)
  let (dr, net1, ev1) := watchRun e (bytesAt e 12 4) (or_ (bytesAt e 6 2) (d.reg 0x5C00 0x10)) net zero (bit ctl 0) true
  let (sr, net2, ev2) := watchRun e (bytesAt e 16 4) (or_ (bytesAt e 8 2) (d.reg 0x5C00 0x11)) net1 sat (bit ctl 1) false
  Act.upd (fun d =>
    let d := if ev1 then d.raiseCtx 0x8406 c [c, t, bytesAt e 12 4 + 1, ofSigned 8 net1] else d
    let d := if ev2 then d.raiseCtx 0x8407 c [c, t, bytesAt e 16 4 + 1, ofSigned 8 net2] else d
    if net2 = net then d else d.updUpd c (fun u => { u with lift := Tbl.put t net2 u.lift }))
  return setBytesAt (setBytesAt (setBytesAt (setBytesAt e 12 4 dr) 16 4 sr) 20 1 (ofSigned 8 net2)) 24 8 stamp

/-- The watches of a context at its fence, while telemetry is ON (R652, R657). -/
def watches (c stamp : Nat) : Act Unit := do
  let d ← Act.dev
  let va := bits (d.ctxReg c 0x2C) 51 0
  if va = 0 || d.fn 0x5C00 ≠ 2 then return ()
  for i in List.range (d.ctxReg c 0x2D) do
    let e ← vreadNat (coordUse c) (va + 32 * i) 32
    match Tbl.look? (bytesAt e 0 4) (d.upd c).obs with
    | none => pure ()
    | some (zero, sat) => do
      let new ← watchEntry c stamp e zero sat
      vwrite (coordUse c) (va + 32 * i) (leBytes 32 new)

/-- Steps 3 to 5 of R344: answers the record written. -/
def fenceCommit (o : Origin) (table : Nat) : Act Nat := do
  let c := o.ctx.val
  watches c o.stamp
  let vas ← readSrt c table
  let r ← vreadNat (coordUse c) (vas.headD 0) 1024
  let skipped := bit (bytesAt r 8 1) 0
  let r := if skipped then r else
    (List.range 8).foldl (fun r i => setBytesAt r (128 + 96 * i + 48) 8 (bytesAt r (128 + 96 * i + 80) 8))
      (setBytesAt r 0 4 (bytesAt r 4 4))
  let r := setBytesAt r 8 1 (clearMask (bytesAt r 8 1) 2)
  writeReplicas c vas r
  Act.upd (fun d =>
    let d := d.setReg (0x4000 + c) 0x08 ((o.stamp + 1) % two64)
    let d := if skipped then d else d.setReg (0x4000 + c) 0x09 (bytesAt r 0 4)
    (d.latchPolicy c).updUpd c (fun u => { u with normDone := false, rootFailed := false, fence := none, obs := [] }))
  return r

/-- Root-engine work of a context that a fence waits for: jobs and armed STAGE jobs up to its stamp. -/
def Dev.rootLeft (d : Dev) (c stamp : Nat) : Bool :=
  (List.range 32).any (fun s =>
    (d.stk s).queue.any (fun r => r.j.ctx.val = c && r.j.stamp ≤ stamp) ||
    (d.stk s).arms.any (fun a => a.j.ctx.val = c && a.j.stamp ≤ stamp)) ||
  d.fwd.any (fun f => f.o.ctx.val = c && f.o.stamp ≤ stamp)

/-- A fence that waits goes on once every root-engine job before it has retired (R344): it fails with them, or commits; then
the image of an applied step is captured, the step's split is judged, a replay point is kept. -/
def State.tryFence (s : State) (c : Nat) : State :=
  match (s.dev.upd c).fence with
  | none => s
  | some (o, table) =>
    if s.dev.rootLeft c o.stamp then s
    else if (s.dev.upd c).rootFailed then
      s.onDev (fun d =>
        let (k, d) := d.draw
        (d.markFailed c o.stream.val o.seq ⟨2, Config.reasonOpen k % 65536, false, none⟩).updUpd c (fun u => { u with fence := none }))
    else
      let pos := (((s.dev.stream c o.stream.val).run.find? (fun e => e.seq = o.seq)).map (·.logPos)).getD 0
      let e := s.runAct (fenceCommit o table)
      match e.1 with
      | .error f => e.2.onDev (fun d =>
          (d.markFailed c o.stream.val o.seq { f with cause := 2 }).updUpd c (fun u => { u with fence := none }))
      | .ok r =>
        let applied := !(bit (bytesAt r 8 1) 0)
        let s := if applied then e.2.imageCapture c r (bytesAt r 0 4) else e.2
        let s := s.onDev (fun d => d.splitStep c)
        let s := if applied then
            (s.onDev (fun d => d.updCtx c (fun x => { x with rep := { x.rep with fenced := true } }))).replayPoint c (some (table, r)) (pos + 1)
          else s
        s.onDev (fun d => d.markDone c o.stream.val o.seq)

/-- A fence has signalled: the image that is due starts, and a due window opens (R354, R467). -/
def State.fenceSignalled (s : State) (c : Nat) : State :=
  (s.imageStart c).onDev (fun d => if (d.ctx c).win = 1 then d.openWindow c else d)

/-- The window entries take effect, and a window falls due at the fence whose step is a multiple of the period (R466,
R471). -/
def Dev.fenceWindow (d : Dev) (c stamp : Nat) : Dev :=
  let period := d.ctxReg c 0x19
  d.updCtx c (fun x => { x with
    winPeriod := period, winLen := d.ctxReg c 0x1A, winEarly := d.ctxReg c 0x1B % 2 = 1, overrun := d.ctxReg c 0x1D,
    win := if period ≠ 0 && (stamp + 1) % period = 0 && stamp + 1 ≠ 0 then 1 else x.win, winStamp := stamp })

/-- UFENCE at its issue (R345, R445, R466). -/
def ufence (o : Origin) (table reserved : Nat) : Act Bool := do
  plainHeader o (reserved + table % 64)
  let c := o.ctx.val
  let d ← Act.dev
  Act.refuseIf (!(d.upd c).normDone) 0x0606
  let _ ← readSrt c table
  Act.upd (fun d =>
    let d := d.updUpd c (fun u => { u with fence := some (o, table) })
    let d := if (d.ctx c).bedPending then d.bedApply c else d
    d.fenceWindow c o.stamp)
  return false

end Sys2Proof.Machine
end

