-- ==== Sys2Proof/Machine/Issue.lean ====
section
/-! DEFINITION. The commands that need no engine, submission, issue, completion and the restart of streams (R386 to R399,
R401, R407, R415, R416, R430, R437 to R440). -/
namespace Sys2Proof.Machine
open Sys2Proof

/-! Commands that a stream, the sync-object unit or the governor executes. -/

/-- NOP (R401). -/
def execNop (o : Origin) (reserved : Nat) (s : State) : Host.Outcome State Fault Refusal :=
  .next (s.issueCmd o 0x01 15 (cmdOf o 0x01 reserved []) (do
    plainHeader o reserved
    return true))

/-- SWAIT: a condition that holds completes it; otherwise the wait is registered and holds the stream (R394, R426, R431). -/
def swait (o : Origin) (obj timeout value reserved : Nat) : Act Bool := do
  plainHeader o (reserved + obj / 16384)
  let d ← Act.dev
  Act.refuseIf (!(d.waitsObj o.ctx.val obj)) 0x0203
  if value % two64 ≤ d.counter obj then return true
  Act.upd (fun d => d.updStream o.ctx.val o.stream.val (fun t => { t with
    waiting := true, waitMet := false, waitObj := obj, waitVal := value % two64, waitLeft := timeout }))
  return false

/-- SWAIT (R394). -/
def execSwait (o : Origin) (obj timeout value reserved : Nat) (s : State) : Host.Outcome State Fault Refusal :=
  .next (s.issueCmd o 0x02 15 (cmdOf o 0x02 reserved (swaitFields obj timeout value)) (swait o obj timeout value reserved))

/-- SSIGNAL: its operation is queued at input 15 (R407, R427, R431, R758). -/
def ssignal (isSet : Bool) (o : Origin) (obj value reserved : Nat) : Act Bool := do
  plainHeader o (reserved + obj / 16384)
  let d ← Act.dev
  Act.refuseIf (!(d.ownsObj o.ctx.val obj)) 0x0203
  Act.upd (fun d => d.signal 15 obj isSet (value % two64))
  return true

/-- SSIGNAL_ADD (R407). -/
def execSsignalAdd (o : Origin) (obj value reserved : Nat) (s : State) : Host.Outcome State Fault Refusal :=
  .next (s.issueCmd o 0x03 15 (cmdOf o 0x03 reserved (ssignalFields obj 0 value)) (ssignal false o obj value reserved))

/-- SSIGNAL_SET (R427). -/
def execSsignalSet (o : Origin) (obj value reserved : Nat) (s : State) : Host.Outcome State Fault Refusal :=
  .next (s.issueCmd o 0x03 15 (cmdOf o 0x03 reserved (ssignalFields obj 1 value)) (ssignal true o obj value reserved))

/-- SREMOTE: the addition goes to the member that holds the rank; a signal to this package itself is applied here (R430). -/
def sremote (o : Origin) (obj rank handle value reserved : Nat) : Act Bool := do
  plainHeader o (reserved + obj / 16384 + rank / 1024)
  let d ← Act.dev
  match d.handle? handle with
  | none => Act.fail2 0x0207
  | some x =>
    -- only the commands of its context may name a handle (R502)
    Act.refuseIf (x.ctx ≠ o.ctx.val) 0x0702
    if x.kind ≠ 0 || x.n ≤ rank then Act.fail2 0x0207
    else if rank = x.rank then
      let (ok, d) := d.remoteSignal handle x.epoch x.job rank obj value
      Act.upd (fun _ => d)
      if ok then return true else Act.fail2 0x0207
    else
      Act.upd (fun d => d.control handle rank 6 [obj, value % two64])
      return false

/-- SREMOTE (R430). -/
def execSremote (o : Origin) (obj rank handle value reserved : Nat) (s : State) : Host.Outcome State Fault Refusal :=
  .next (s.issueCmd o 0x04 14 (cmdOf o 0x04 reserved (sremoteFields obj rank handle value))
    (sremote o obj rank handle value reserved))

/-- SFENCE: without a host address it is done; a host write that the owner's site can take is sent, and completes it once it is
acknowledged; a detached site drops it (R396, R407, R544). -/
def sfence (o : Origin) (addr value reserved : Nat) : Act Bool := do
  plainHeader o (reserved + addr % 8)
  let d ← Act.dev
  match d.owner o.ctx.val with
  | some h =>
    if addr = 0 || (d.site h).phase ≠ 4 then return true
    Act.upd (fun d => d.out (.hostWrite h addr (value % two64)))
    return false
  | none => return true

/-- Put a command back at the head of its stream, where it waits. -/
def State.holdHead (s : State) (o : Origin) (cmd : Option QCmd) : State :=
  s.onDev (fun d => d.updStream o.ctx.val o.stream.val (fun t => { t with q := cmd.toList ++ t.q }))

/-- Has a stream commands that have issued and not completed? -/
def Dev.streamBusy (d : Dev) (o : Origin) : Bool := !((d.stream o.ctx.val o.stream.val).run.isEmpty)

/-- SFENCE (R396): while earlier commands of its stream run, it is held at the head (R394). -/
def execSfence (o : Origin) (addr value reserved : Nat) (s : State) : Host.Outcome State Fault Refusal :=
  let cmd := cmdOf o 0x05 reserved (sfenceFields addr value)
  if s.dev.streamBusy o then .next (s.holdHead o cmd)
  else .next (s.issueCmd o 0x05 15 cmd (sfence o addr value reserved))

/-- UFENCE (R344): while earlier commands of its stream run, it is held at the head (R394). -/
def execUfence (o : Origin) (table reserved : Nat) (s : State) : Host.Outcome State Fault Refusal :=
  let cmd := cmdOf o 0x62 reserved [addrField 8 table]
  if s.dev.streamBusy o then .next (s.holdHead o cmd)
  else .next ((s.issueCmd o 0x62 15 cmd (ufence o table reserved)).tryFence o.ctx.val)

/-- HPHASE: the hint joins the pending ones of its context; a ninth takes the place of the earliest (R415, R416). -/
def hphase (o : Origin) (lead duration cls parts reserved : Nat) : Act Bool := do
  plainHeader o (reserved + cls / 4 + parts / 256)
  Act.refuseIf (1000000 < lead || duration = 0 || 10000000 < duration || parts = 0) 0x0201
  let c := o.ctx.val
  Act.upd (fun d =>
    let start := d.now + 1000 * lead
    let h : Hint := { start := start, stop := start + 1000 * duration, cls := cls, parts := parts }
    let old := (d.ctx c).hints.filter (fun h => d.now < h.stop)
    let first := old.foldl (fun (b : Option Hint) h => match b with
      | none => some h
      | some g => if h.start < g.start then some h else some g) none
    if old.length < 8 then d.updCtx c (fun x => { x with hints := old ++ [h] })
    else (d.updCtx c (fun x => { x with hints := (match first with
      | some g => old.erase g
      | none => old) ++ [h] })).incReg (0x4000 + c) 0x17)
  return true

/-- HPHASE (R416). -/
def execHphase (o : Origin) (lead duration cls parts reserved : Nat) (s : State) : Host.Outcome State Fault Refusal :=
  .next (s.issueCmd o 0x70 15 (cmdOf o 0x70 reserved (hphaseFields lead duration cls parts))
    (hphase o lead duration cls parts reserved))

/-- HCANCEL: every pending hint of the context is withdrawn (R416). -/
def hcancel (o : Origin) (reserved : Nat) : Act Bool := do
  plainHeader o reserved
  Act.upd (fun d => d.updCtx o.ctx.val (fun x => { x with hints := [] }))
  return true

/-- HCANCEL (R416). -/
def execHcancel (o : Origin) (reserved : Nat) (s : State) : Host.Outcome State Fault Refusal :=
  .next (s.issueCmd o 0x71 15 (cmdOf o 0x71 reserved []) (hcancel o reserved))

/-! Submission (R386 to R389). -/

/-- COMMAND_SUBMIT: a CXL.io write of a host to a stream window of its intake region (R386 to R388). -/
def execCommandSubmit (h : Fin 4) (offset size : Nat) (aligned : Bool) (data : Nat) (s : State) :
    Host.Outcome State Fault Refusal :=
  .next (s.hostSide h.val (.commandSubmit h offset size aligned data) (fun s => s.windowWrite h.val offset size aligned data))

/-- DROP_EVENT_TIMER: the millisecond after an event 0x8201 ends; drops since then are reported and open another (R389). -/
def execDropEventTimer (c : Fin 1024) (i : Fin 4) (s : State) : Host.Outcome State Fault Refusal :=
  .next (s.onDev (fun d =>
    let t := d.stream c.val i.val
    if !t.dropTimer then d
    else if 0 < t.dropNum then d.dropEvent c.val i.val
    else d.updStream c.val i.val (fun t => { t with dropTimer := false })))

/-! Issue (R393 to R395, R402, R437 to R439). -/

/-- The reserved bits of a command without fields. -/
def bareMask : Nat := headerMask + fieldMask 8 447 0
/-- The reserved bits of SWAIT, SSIGNAL, SREMOTE and SFENCE (R407). -/
def syncMask (op : Nat) : Nat :=
  headerMask + fieldMask 24 319 0 +
    (if op = 0x02 then fieldMask 8 31 14
     else if op = 0x03 then fieldMask 8 15 14 + fieldMask 10 47 1
     else if op = 0x04 then fieldMask 8 15 14 + fieldMask 10 15 10
     else 0)
/-- The reserved bits of an address field (R404). -/
def addrMask (off : Nat) : Nat := fieldMask off 63 52 + fieldMask off 5 0
/-- The reserved bits of RJOBS, UNORM and UFENCE (R412). -/
def rootMask (op : Nat) : Nat :=
  headerMask + addrMask 8 +
    (if op = 0x60 then fieldMask 16 31 16 + fieldMask 20 351 0
     else if op = 0x61 then addrMask 16 + fieldMask 28 31 18 + fieldMask 32 255 0
     else fieldMask 16 383 0)
/-- The reserved bits of HPHASE (R415). -/
def hintMask : Nat := headerMask + fieldMask 16 7 2 + fieldMask 18 367 0

/-- The engine command of a head: queue length and the context's own entries there (R439). -/
def Dev.queueAt (d : Dev) (c op slot : Nat) : Option (Nat × Nat) :=
  match d.slotEngine c slot with
  | none => none
  | some e =>
    let k := d.eng e
    let own := fun (l : List Origin) => (l.length, (l.filter (fun o => o.ctx.val = c)).length)
    if op = 0x10 then some (own (k.jobs.map (·.o)))
    else if 0x20 ≤ op && op ≤ 0x33 then some (own (k.vq.map (·.o)))
    else some (own (k.dq.map (·.o)))

/-- The partitions whose units a command enters (R438). -/
def State.partsOf (s : State) (c raw : Nat) : List Nat :=
  let op := opcodeOf raw
  if 0x10 ≤ op && op ≤ 0x42 then ((s.dev.slotEngine c (bits raw 13 8)).map partOfEng).toList
  else if op = 0x60 then
    let n := bytesAt raw 16 2
    match (s.runAct (vread (schedUse c 0) (addrAt raw 8) (64 * n))).1 with
    | .ok bs => (((chunksOf 64 bs).map (fun b => partOfStk (jobRecOf (leNat b)).stack))).dedup
    | .error _ => []
  else []

/-- Is the turn on a partition another suspect's (R626)? -/
def Dev.turnElse (d : Dev) (c p : Nat) : Bool :=
  match Tbl.look? p d.integ.turn with
  | none => false
  | some t => t ≠ c && d.ctxReg c 0x28 % 8 ≠ 0

/-- May the head of a stream issue now (R393, R394, R439, R455, R466, R469, R505, R545, R584, R616, R626)? -/
def State.mayIssue (s : State) (c i : Nat) : Bool :=
  let d := s.dev
  let x := d.ctx c
  let t := d.stream c i
  match t.q with
  | [] => false
  | q :: _ =>
    let op := opcodeOf q.raw
    let alone := bit q.raw 48 || op = 0x05 || op = 0x62
    let engine := op = 0x10 || (0x20 ≤ op && op ≤ 0x33) || (0x40 ≤ op && op ≤ 0x42)
    let room := if engine then (match d.queueAt c op (bits q.raw 13 8) with
      | some (n, mine) => queueRoom n mine
      | none => true) else true
    let coll := if 0x50 ≤ op && op ≤ 0x55 then (match d.handle? (bytesAt q.raw 32 4) with
      | some y => decide (y.colls.length < 16)
      | none => true) else true
    let norm := op ≠ 0x61 || (d.upd c).norm.isNone
    let ps := s.partsOf c q.raw
    !(d.pow.floor && (engine || op = 0x60)) && d.ctxState c = 2 && d.ctxReg c 0x22 % 2 = 0 && !t.stopped && !t.waiting && (!alone || t.run.isEmpty) && room && coll &&
      norm && x.schedAllows i && x.win = 0 && d.windowAllows c i q && ps.all (fun p => d.service p ≠ 1 && !(d.turnElse c p))

/-- The streams in round-robin order, starting after the one that issued last (R437). -/
def Dev.issueOrder (d : Dev) : List (Nat × Nat) :=
  let all := d.ctxs.flatMap (fun p => (List.range 4).map (fun i => 4 * p.1 + i))
  ((all.filter (fun k => d.lastIssue < k)) ++ (all.filter (fun k => k ≤ d.lastIssue))).map (fun k => (k / 4, k % 4))

/-- A command that is refused whatever its fields are. -/
def refuseOp (code : Nat) : Act Bool := Act.refuse code

/-- The commands of the stream, the sync-object unit and the governor, from their bits. -/
def State.issuePlain (s : State) (o : Origin) (q : QCmd) : State :=
  let raw := q.raw
  let op := opcodeOf raw
  let run := fun (m : Act Bool) => s.issueCmd o op 15 (some q) m
  let obj := bits (bytesAt raw 8 2) 13 0
  let v := bytesAt raw 16 8
  let r := reservedOf raw (syncMask op)
  match op with
  | 0x01 => run (do
      plainHeader o (reservedOf raw bareMask)
      return true)
  | 0x02 => run (swait o obj (bytesAt raw 12 4) v r)
  | 0x03 => run (ssignal (bit (bytesAt raw 10 1) 0) o obj v r)
  | 0x04 => s.issueCmd o op 14 (some q) (sremote o obj (bits (bytesAt raw 10 2) 9 0) (bytesAt raw 12 4) v r)
  | 0x05 => run (sfence o (bytesAt raw 8 8) v r)
  | 0x70 => run (hphase o (bytesAt raw 8 4) (bytesAt raw 12 4) (bits (bytesAt raw 16 1) 1 0) (bytesAt raw 17 1)
      (reservedOf raw hintMask))
  | 0x71 => run (hcancel o (reservedOf raw bareMask))
  | _ => run (refuseOp (if 0x20 ≤ op && op < 0x40 then 0x0301 else 0x0201))

/-- The commands of root engines, of securing and of the network interface, from their bits. -/
def State.issueUnit (s : State) (o : Origin) (q : QCmd) : State :=
  let raw := q.raw
  let op := opcodeOf raw
  let c := o.ctx.val
  match op with
  | 0x60 => s.issueCmd o op (s.rjobsInput c (addrAt raw 8)) (some q)
      (rjobs o (addrAt raw 8) (bytesAt raw 16 2) (reservedOf raw (rootMask op)))
  | 0x61 => (s.issueCmd o op 15 (some q) (unorm o (addrAt raw 8) (addrAt raw 16) (bytesAt raw 24 4)
      (bits (bytesAt raw 28 4) 17 0) (reservedOf raw (rootMask op)))).tryNorm c
  | 0x62 => (s.issueCmd o op 15 (some q) (ufence o (addrAt raw 8) (reservedOf raw (rootMask op)))).tryFence c
  | 0x78 => s.issueCmd o op 15 (some q) (sopen o (snapOf raw))
  | 0x79 => s.issueCmd o op 15 (some q) (sclose o (reservedOf raw bareMask))
  | 0x7A => s.issueCmd o op 15 (some q) (srestore o (snapOf raw) (s.images c (snapOf raw).opt (snapOf raw)))
  | 0x56 =>
    let a := bits (bytesAt raw 8 1) 2 0
    s.issueCmd o op 14 (some q) (if a = 0 || 5 < a then refuseOp 0x0701 else chandle a o (handleOf raw))
  | _ => s.issueColl o op (collOf raw) (some q)

/-- Issue a command to its unit (R438). -/
def State.issueTo (s : State) (o : Origin) (q : QCmd) : State :=
  let op := opcodeOf q.raw
  if op = 0x10 then s.issueCmd o op (s.dev.slotInput o) (some q) (mtileQueue o (mtileOf q.raw))
  else if 0x20 ≤ op && op ≤ 0x33 then s.issueCmd o op (s.dev.slotInput o) (some q) (vecQueue op o (vecOf q.raw))
  else if 0x40 ≤ op && op ≤ 0x42 then s.issueCmd o op (s.dev.slotInput o) (some q) (moveQueue op o (moveOf q.raw))
  else if (0x50 ≤ op && op ≤ 0x56) || (0x60 ≤ op && op ≤ 0x62) || (0x78 ≤ op && op ≤ 0x7A) then s.issueUnit o q
  else s.issuePlain o q

/-- A schedule table whose last entry is finished is read again (R456). -/
def State.reloadSched (s : State) (c : Nat) : State :=
  let x := s.dev.ctx c
  if x.schedTab ≠ [] && (x.firstEntry none).isNone then (s.runAct (loadSched c)).2 else s

/-- A command has issued (R437, R455, R456). -/
def State.issued (s : State) (c i : Nat) : State := (s.onDev (fun d => d.countIssue c i)).reloadSched c

/-- Issue the head of a stream; an SWAIT that holds it has not issued yet (R394). -/
def State.issueHead (s : State) (c i : Nat) : State :=
  match (s.dev.stream c i).q with
  | [] => s
  | q :: rest =>
    let s := s.onDev (fun d => d.updStream c i (fun t => { t with q := rest, lastChange := d.now }))
    let o := originOf ⟨c % 1024, Nat.mod_lt _ (by decide)⟩ ⟨i % 4, Nat.mod_lt _ (by decide)⟩ q.stamp q.raw
    let s := s.issueTo o q
    if (s.dev.stream c i).stopped || (s.dev.stream c i).waiting then s else s.issued c i

/-- COMMAND_ISSUE: the first stream in order whose head may issue issues it (R437). -/
def commandIssue (s : State) : State :=
  let s := s.dev.ctxs.foldl (fun s p => s.reloadSched p.1) s
  match s.dev.issueOrder.find? (fun p => s.mayIssue p.1 p.2) with
  | some (c, i) => s.issueHead c i
  | none => s

/-- COMMAND_ISSUE (R437). -/
def execCommandIssue (s : State) : Host.Outcome State Fault Refusal := .next (commandIssue s)

/-! Completion (R396 to R398). -/

/-- The outcome of an issued command: that of its work; of an SREMOTE the target's answer; of an SFENCE the acknowledgement of
its host write. -/
def Dev.settle (d : Dev) (c i : Nat) (e : Issued) (accepted : Bool) : Dev :=
  match e.status with
  | 0 =>
    if e.op = 0x05 || (e.op = 0x04 && accepted) then d.completeCmd c i e
    else if e.op = 0x04 then d.failIssued c i { e with fail := ⟨2, 0x0207, false, none⟩ }
    else d
  | 1 => d.completeCmd c i e
  | _ => d.failIssued c i e

/-- COMMAND_COMPLETE: `accepted` is the answer to an SREMOTE. An RJOBS, a norm or a fence of the context goes on where this is
what it waited for; what is due at a fence starts once it has
signalled (R354, R467), and a written bed takes effect at rest (R445). -/
def commandComplete (c i seq : Nat) (accepted : Bool) (s : State) : State :=
  let s := (s.forwarded.tryNorm c).tryFence c
  let s := match (s.dev.stream c i).run.find? (fun e => e.seq = seq) with
    | some e =>
      let t := s.onDev (fun d => d.settle c i e accepted)
      if e.op = 0x62 && e.status = 1 then t.fenceSignalled c else t
    | none => s
  ((s.tryNorm c).onDev (fun d => d.bedAtRest c)).restPoint c

/-- COMMAND_COMPLETE (R396). -/
def execCommandComplete (c : Fin 1024) (i : Fin 4) (seq : Nat) (accepted : Bool) (s : State) :
    Host.Outcome State Fault Refusal := .next (commandComplete c.val i.val seq accepted s)

/-! Restarting (R399). -/

/-- Stream control. Action 2 on a stream that a failed norm or fence stopped abandons the step of a context without replay: its
root-engine jobs that have not started are discarded (R346). A window that fell due at a fence that failed does not open, and
its hold ends (R467). -/
def streamCtl (v : Nat) (c : Nat) (s : State) : WR :=
  let i := bits v 3 2
  let t := s.dev.stream c i
  let abandons := v % 4 = 2 && t.cause = 2 && (t.stopOp = 0x61 || t.stopOp = 0x62) && !(s.dev.replayOn c)
  let r := s.dev.streamControl c i (v % 4)
  if r.1 ≠ 0 then (r.1, s) else
  (0, s.onDev (fun _ =>
    let d := if abandons then (List.range 32).foldl (fun d st => d.discardJobs st c) r.2 else r.2
    if (d.ctx c).win = 1 && (d.upd c).fence.isNone then d.updCtx c (fun x => { x with win := 0 }) else d))

/-- A write of stream control. -/
def streamWrite (via : Via) (c i action : Nat) (s : State) : State :=
  let v := 4 * i + action
  s.dictWrite via (0x4000 + c) 0x0E v (streamCtl v c)

/-- STREAM_CONTROL_RESUME_AFTER (R399). -/
def execStreamControlResumeAfter (via : Via) (c : Fin 1024) (i : Fin 4) (s : State) : Host.Outcome State Fault Refusal :=
  .next (streamWrite via c.val i.val 1 s)

/-- STREAM_CONTROL_DISCARD (R399). -/
def execStreamControlDiscard (via : Via) (c : Fin 1024) (i : Fin 4) (s : State) : Host.Outcome State Fault Refusal :=
  .next (streamWrite via c.val i.val 2 s)

/-- STREAM_CONTROL_RETRY (R399). -/
def execStreamControlRetry (via : Via) (c : Fin 1024) (i : Fin 4) (s : State) : Host.Outcome State Fault Refusal :=
  .next (streamWrite via c.val i.val 3 s)

end Sys2Proof.Machine
end

