-- ==== Sys2Proof/Machine/Integrity.lean ====
section
/-! DEFINITION. Flit replays, hangs, partition resets, rollback and replay, the device-wide fault (R606 to R632). -/
namespace Sys2Proof.Machine
open Sys2Proof

/-- FLIT_CRC_FAILURE (R15, R609): a flit failed and `fails` of its replays failed too; the eighth loses the hop. `kind` is 0
for the on-die fabric, 1 for a die-to-die link, 2 for the link to the base die of stack `unit`. -/
def flitFailure (kind unit fails : Nat) (s : State) : State :=
  let s := s.onDev (fun d => d.addReg 0x5400 0x06 (min 8 (fails + 1)))
  if fails < 8 then s else
  let s := s.onDev (fun d => d.incReg 0x5400 0x07)
  if kind = 0 then s.deviceFault 2
  else if kind = 1 then s.deviceFault 3
  else
    let p := partOfStk (unit % 32)
    s.partitionOut p 1 (s.dev.suspects p)

/-- FLIT_CRC_FAILURE (R609). -/
def execFlitCrcFailure (kind : Fin 3) (unit fails : Nat) (s : State) : Host.Outcome State Fault Refusal :=
  .next (flitFailure kind.val unit fails s)

/-! Hangs (R613 to R616). Kinds of units are those of 0x3400+p:25: 1 array, 2 vector engine, 3 DMA of an engine, 4 job pipeline,
5 staging unit, 6 stream mover of a stack; 7 stands for an uncorrectable error in the control state of an engine's units. -/

/-- The partition of a unit. -/
def hangPart (kind unit : Nat) : Nat := if 4 ≤ kind && kind ≤ 6 then partOfStk (unit % 32) else partOfEng (unit % 64)

/-- The unit as 0x3400+p:25 shows it (R634). -/
def hangCause (kind unit : Nat) : Nat := kind * 256 + (if 4 ≤ kind && kind ≤ 6 then unit % 4 else unit % 8)

/-- The context of a unit's oldest work that has not retired, started or ready: a job that waits on a sync object, for securing
or behind an emission that is refused is none (R613, R614). -/
def Dev.hangCtx (d : Dev) (kind unit : Nat) : Option Nat :=
  let k := d.eng (unit % 64)
  let t := d.stk (unit % 32)
  let ready := fun (lo hi : Nat) (r : RJob) =>
    decide (lo ≤ r.j.r.ty) && decide (r.j.r.ty ≤ hi) && (r.started || r.released) && !r.jobHold
  match kind with
  | 1 => k.jobs.head?.map (fun j => j.o.ctx.val)
  | 2 => k.vq.head?.map (fun v => v.o.ctx.val)
  | 3 => k.dq.head?.map (fun m => m.o.ctx.val)
  | 4 => if t.emits.isEmpty then (t.queue.find? (ready 2 5)).map (fun r => r.j.ctx.val) else none
  | 5 => t.arms.head?.map (fun a => a.j.ctx.val)
  | 6 => ((t.queue.find? (ready 6 7)).map (fun r => r.j.ctx.val)).orElse (fun _ =>
      (d.upds.find? (fun p => match p.2.sec with
        | some x => x.image ≠ 0 && x.ranges.any (fun g => g.stack = unit % 32)
        | none => false)).map (·.1))
  | _ => none

/-- The suspect that replays on a partition as it hangs again is the culprit (R626). -/
def Dev.culprit (d : Dev) (p : Nat) : Dev :=
  match Tbl.look? p d.integ.turn with
  | none => d
  | some c =>
    if !(d.ctx c).rep.replaying then d else
    let d := d.updCtx c (fun x => { x with rep := { x.rep with replaying := false, rolled := false, suspectOf := none } })
    let d := d.setReg (0x4000 + c) 0x28 4
    let d := d.stopCtx c 0x0313
    let d := (d.raiseCtx 0x8306 c [c, p]).incReg 0x5400 0x0B
    { d with integ := { d.integ with turn := Tbl.del p d.integ.turn } }

/-- HANG_TIMEOUT: the watchdog of a unit with work, in a partition in service and not on the floor, reaches the hang timeout;
the partition's reset starts. An error of control state starts it without event 0x8302 (R612). -/
def hangTimeout (kind unit : Nat) (d : Dev) : Dev :=
  let p := hangPart kind unit
  if kind = 0 || 7 < kind || d.service p ≠ 0 then d
  else if kind = 7 then (d.culprit p).resetStart p (hangCause kind unit)
  else match d.hangCtx kind unit with
    | none => d
    | some c =>
      if d.pow.floor then d else
      ((d.raise 0x8302 6 p (some c) none [p, hangCause kind unit, c]).culprit p).resetStart p (hangCause kind unit)

/-- HANG_TIMEOUT (R613). -/
def execHangTimeout (kind : Nat) (unit : Nat) (s : State) : Host.Outcome State Fault Refusal :=
  .next (s.onDev (hangTimeout kind unit))

/-- PARTITION_RESET_DRAINED: old requests are over; the self-test clears bank sets, save areas and translation caches and
wipes the die's secure bank when p is even (R616). -/
def resetDrained (p : Nat) (d : Dev) : Dev :=
  match Tbl.look? p d.integ.resets with
  | none => d
  | some r =>
    if r.phase ≠ 1 then d else
    let d := { d with integ := { d.integ with resets := Tbl.put p { r with phase := 2 } d.integ.resets },
                      xcP := Tbl.del p d.xcP }
    let d := (partEngs p).foldl (fun d e => d.updEng e (fun k => { k with
      sets := [⟨0, Accum.empty⟩, ⟨0, Accum.empty⟩], saves := [], opening := [], lastW := [], xc := [], vwins := [], staging := [],
      row := [],
      scA := ⟨none, 0⟩, scV := ⟨none, 0⟩, scD := ⟨none, 0⟩ })) d
    if p % 2 = 0 then d.wipeStart (p / 2) 4 else d

/-- PARTITION_RESET_DRAINED (R616). -/
def execPartitionResetDrained (p : Fin 8) (s : State) : Host.Outcome State Fault Refusal :=
  .next (s.onDev (resetDrained p.val))

/-- A suspect after the reset: its streams stop, its recovery state follows R625; a context identified as the culprit stays
so. -/
def Dev.suspectAfter (d : Dev) (p c : Nat) : Dev :=
  if d.ctxReg c 0x28 = 4 then d else
  let d := d.stopCtx c 0x0310
  let rep := (d.ctx c).rep
  if d.reg 0x5400 0x0F % 2 = 0 || !(d.replayOn c) || rep.marked then d.setReg (0x4000 + c) 0x28 5
  else
    let hs := (d.net.handles.filter (fun q => q.2.ctx = c && q.2.kind = 0 && 1 < q.2.n)).map (·.1)
    let d := d.updCtx c (fun x => { x with rep := { x.rep with
      suspectOf := some p, rolled := false, replaying := false, awaitEpochs := hs } })
    let d := d.setReg (0x4000 + c) 0x28 (if hs.isEmpty then 1 else 3)
    { d with integ := { d.integ with
        turn := d.integ.turn.filter (fun q => q.2 ≠ c),
        await := Tbl.upd [] p (fun l => if l.contains c then l else l ++ [c]) d.integ.await } }

/-- PARTITION_RESET_COMPLETE: the partition returns to service, or goes out of it when the self-test fails or the reset count
reaches the limit; the suspects await their replay (R616, R625, R630). -/
def resetComplete (p : Nat) (ok : Bool) (s : State) : State :=
  match Tbl.look? p s.dev.integ.resets with
  | none => s
  | some r =>
    if r.phase ≠ 2 then s
    else if !ok then s.partitionOut p 2 r.suspects
    else if s.dev.reg 0x5400 0x02 ≤ s.dev.resetsInWindow p then s.partitionOut p 3 r.suspects
    else s.onDev (fun d =>
      let d := { d with integ := { d.integ with resets := Tbl.del p d.integ.resets } }
      let d := d.setReg (0x3400 + p) 0x26 0
      let d := d.raise 0x8303 6 p none none ([p, d.partReg p 0x22] ++ r.suspects)
      r.suspects.foldl (fun d c => d.suspectAfter p c) d)

/-- PARTITION_RESET_COMPLETE (R616). -/
def execPartitionResetComplete (p : Fin 8) (ok : Bool) (s : State) : Host.Outcome State Fault Refusal :=
  .next (resetComplete p.val ok s)

/-! Rolling back (R624). -/

/-- Undo one record of kind 1 or 2 on a stack: a residual block or a version-record half is put back. -/
def undoOne (c s : Nat) (r : List Nat) : Act Unit := do
  let u := rootUse c s 1 true
  match r with
  | 1 :: va :: sc :: scale :: els => do
    vwrite u va els
    vwrite u sc [scale]
  | [2, va, half] => vwrite u (va + 8 * half) (List.replicate 8 0)
  | _ => return ()

/-- Make a copy again from the masters that stood at update `v` (step 2 of R624). -/
def redoCopy (c s v : Nat) (r : List Nat) : Act Unit := do
  match r with
  | [3, block, copy, aux] => copyCurrent c v s block copy aux none
  | [3, block, copy, aux, list, n] => do
    let u := rootUse c s 1 true
    let rl ← readDesc u list
    let rows ← readCoords u rl ((List.range n).map (coordsOf rl.sizes))
    copyCurrent c v s block copy aux (some rows)
  | _ => return ()

/-- Put the captures of a point back: counters, state record in every replica, heads of the precision records without the
entries of later steps, step counter and update index (step 3 of R624). -/
def restoreCaptures (c : Nat) (v : Point) : Act Unit := do
  Act.upd (fun d =>
    let others := d.sync.filter (fun p => d.objOwner p.1 ≠ some c)
    let d := { d with sync := v.counters.foldl (fun t (p : Nat × Nat) => Tbl.put p.1 p.2 t) others }
    (d.setReg (0x4000 + c) 0x08 v.step).setReg (0x4000 + c) 0x09 v.upd)
  match v.record with
  | none => pure ()
  | some (table, r) => do
    let vas ← readSrt c table
    let r := setBytesAt r 4 4 (bytesAt r 0 4)
    writeReplicas c vas (setBytesAt r 8 1 (clearMask (bytesAt r 8 1) 2))
  let d ← Act.dev
  let base := bits (d.ctxReg c 0x0A) 51 0
  for (l, h) in v.heads do
    let va := base + 576 * l
    let ring ← vread (coordUse c) (va + 64) 512
    let es := (chunksOf 16 ring).flatMap (fun e =>
      if v.step % 2 ^ 32 ≤ leNat (e.take 4) then List.replicate 16 0 else e)
    vwrite (coordUse c) va (leBytes 64 h ++ es)

/-- The undo records of a context on a stack written after a point, newest first. -/
def Replay.after (r : Replay) (v : Point) (s : Nat) : List (List Nat) :=
  ((Tbl.look [] s r.undo).drop (Tbl.look 0 s v.undoAt - Tbl.look 0 s r.undoTail)).reverse

/-- What a rollback leaves of a context's replay: the point, the records up to it, the log. -/
def Replay.backTo (r : Replay) (v : Point) : Replay :=
  { r with
    undo := r.undo.map (fun (q : Nat × List (List Nat)) =>
      (q.1, q.2.take (Tbl.look 0 q.1 v.undoAt - Tbl.look 0 q.1 r.undoTail))),
    points := r.points.dropWhile (fun p => p ≠ v), rolled := true }

/-- Roll a context back to a replay point (R624). -/
def rollback (c : Nat) (v : Point) : Act Unit := do
  let d ← Act.dev
  let r := (d.ctx c).rep
  for s in List.range 32 do
    for x in r.after v s do
      undoOne c s x
  restoreCaptures c v
  for s in List.range 32 do
    for x in r.after v s do
      redoCopy c s v.upd x
  Act.upd (fun d =>
    let d := (List.range 4).foldl (fun d i => d.discard c i) d
    let d := (List.range 32).foldl (fun d s => d.discardJobs s c) d
    let d := d.updUpd c (fun u => { u with norm := none, normDone := false, rootFailed := false, fence := none, obs := [] })
    d.updCtx c (fun x => { x with rep := x.rep.backTo v, stampBase := v.step, fences := 0,
                                  win := if x.win = 1 then 0 else x.win }))

/-! Replay (R626). -/

/-- Opcodes that a replay skips, because their effects stand. -/
def replaySkips (op : Nat) : Bool := [0x56, 0x78, 0x79, 0x70, 0x71].contains op

/-- Give the logged commands their stamps again: the restored step counter and the order of the log (R392). -/
def restamp (step : Nat) : List (Nat × Nat) → List (Nat × QCmd)
  | [] => []
  | (pos, e) :: t =>
    let raw := setBits e 15 14 0
    (bits e 15 14, ⟨raw, step % two64, true, pos⟩) :: restamp (if opcodeOf raw = 0x62 then step + 1 else step) t

/-- Put the logged commands after a point into the context's streams, in the order of the log (R620, R626). Those accepted since
the rollback stand in the log too: each is queued once, with its stamp of the log, and none of them is skipped. -/
def replayLog (c : Nat) (v : Point) : Act Unit := do
  let d ← Act.dev
  let r := (d.ctx c).rep
  let cap := max 1 (d.ctxReg c 0x26)
  let es ← ((List.range (r.logHead - v.logAt)).map (v.logAt + ·)).mapM (fun k => do
    let e ← vreadNat (coordUse c) (d.ctxReg c 0x25 + 64 * (k % cap)) 64
    return (k, e))
  let cmds := restamp v.step es
  let fences := (cmds.filter (fun q => opcodeOf q.2.raw = 0x62)).length
  let newer := fun (i : Nat) (q : QCmd) => (d.stream c i).q.any (fun y => y.logPos = q.logPos)
  let keep := (cmds.filter (fun q => newer q.1 q.2 || !(replaySkips (opcodeOf q.2.raw)))).map (fun q =>
    (q.1, { q.2 with replay := !(newer q.1 q.2) }))
  Act.upd (fun d =>
    let d := (List.range 4).foldl (fun d i =>
      (d.updStream c i (fun t => { t with
        q := (keep.filter (fun q => q.1 = i)).map (·.2) ++ t.q.filter (fun y => !(cmds.any (fun q => q.2.logPos = y.logPos))) })).unstop
          c i) d
    let d := d.updCtx c (fun x => { x with fences := fences, rep := { x.rep with replaying := true } })
    (d.setReg (0x4000 + c) 0x28 2).incReg (0x4000 + c) 0x2A)

/-- A context that cannot be put back stays stopped and is marked not replayable. -/
def Dev.noReplay (d : Dev) (c : Nat) : Dev :=
  (d.setReg (0x4000 + c) 0x28 5).updCtx c (fun x => { x with rep := { x.rep with rolled := false, suspectOf := none } })

/-- Is a context ready to replay: in state 1, and in no reset still under way (R619, R626)? -/
def Dev.replayReady (d : Dev) (c : Nat) : Bool :=
  d.ctxReg c 0x28 = 1 && !(d.integ.resets.any (fun q => q.2.suspects.contains c)) && d.ctxState c == 2

/-- REPLAY_START: the ready suspect of lowest number takes its turn on the partition (R626). -/
def replayStart (p : Nat) (s : State) : State :=
  if s.dev.service p ≠ 0 || (Tbl.look? p s.dev.integ.turn).isSome then s else
  match (List.range 1024).find? (fun c => (Tbl.look [] p s.dev.integ.await).contains c && s.dev.replayReady c) with
  | none => s
  | some c =>
    let s := s.onDev (fun d => { d with integ := { d.integ with
      await := d.integ.await.map (fun q => (q.1, q.2.filter (· ≠ c))), turn := Tbl.put p c d.integ.turn } })
    let rep := (s.dev.ctx c).rep
    match rep.points.head? with
    | none => s.onDev (fun d => { d.noReplay c with integ := { d.integ with turn := Tbl.del p d.integ.turn } })
    | some v =>
      let r := s.runAct (do
        if !rep.rolled then rollback c v
        replayLog c v)
      match r.1 with
      | .ok _ => r.2.onDev (fun d => if rep.suspectOf.isSome then d.incReg 0x5400 0x0A else d)
      | .error _ => r.2.onDev (fun d => { d.noReplay c with integ := { d.integ with turn := Tbl.del p d.integ.turn } })

/-- REPLAY_START (R626). -/
def execReplayStart (p : Fin 8) (s : State) : Host.Outcome State Fault Refusal := .next (replayStart p.val s)

/-- A write of rollback control (R628): the point of update index v, the current one or one less. A suspect is rolled back to
it; another context is stopped and rolled back, and awaits its turn on the first partition of its bed. -/
def rollbackControl (c v : Nat) (s : State) : WR :=
  let d := s.dev
  let rep := (d.ctx c).rep
  let u := d.ctxReg c 0x09
  let rec_ := d.ctxReg c 0x28
  match rep.points.find? (fun p => p.upd = v) with
  | none => (0x0312, s)
  | some pt =>
    if (v ≠ u && v + 1 ≠ u) || !(d.replayOn c) || rep.marked || rec_ = 4 || rec_ = 5 || d.ctxState c ≠ 2 then (0x0312, s) else
    let hs := (d.net.handles.filter (fun q => q.2.ctx = c && q.2.kind = 0 && 1 < q.2.n)).map (·.1)
    let suspect := rep.suspectOf.isSome
    let s := if suspect then s else s.onDev (fun d =>
      let (k, d) := d.draw
      let d := d.stopCtx c (Config.reasonOpen k % 65536)
      let p := match bitList 64 (d.ctx c).bedMask with
        | e :: _ => partOfEng e
        | [] => 0
      let d := d.updCtx c (fun x => { x with rep := { x.rep with awaitEpochs := hs } })
      { d with integ := { d.integ with await := Tbl.upd [] p (fun l => if l.contains c then l else l ++ [c]) d.integ.await } })
    let r := s.runAct (rollback c pt)
    match r.1 with
    | .error _ => (0, r.2.onDev (fun d => d.noReplay c))
    | .ok _ => (0, r.2.onDev (fun d =>
        d.setReg (0x4000 + c) 0x28 (if (d.ctx c).rep.awaitEpochs.isEmpty then 1 else 3)))

/-- ROLLBACK_CONTROL_WRITE (R628). -/
def execRollbackControlWrite (via : Via) (c : Fin 1024) (v : Nat) (s : State) : Host.Outcome State Fault Refusal :=
  .next (s.dictWrite via (0x4000 + c.val) 0x29 v (rollbackControl c.val v))

/-- DEVICE_WIDE_FAULT (R632): causes 2 fabric, 3 die-to-die link and 4 control state come from outside; cause 1 stands once two
partitions are out of service. -/
def deviceWide (cause : Nat) (s : State) : State :=
  if cause = 0 || 4 < cause || (cause = 1 && popCount 8 (s.dev.reg 0x5400 0x04) < 2) then s else s.deviceFault cause

/-- DEVICE_WIDE_FAULT (R632). -/
def execDeviceWideFault (cause : Nat) (s : State) : Host.Outcome State Fault Refusal := .next (deviceWide cause s)

end Sys2Proof.Machine
end

