-- ==== Sys2Proof/Machine/Sites.lean ====
section
/-! DEFINITION. Host sites: presence, training and loss of the link, attach, detach, grace period, rings and interrupts (R529 to
R561). -/
namespace Sys2Proof.Machine
open Sys2Proof

/-! The link (R529 to R537). -/

/-- May a site use its link: populated, enabled, and the part out of reset (R533, R534, R560)? -/
def Dev.siteUp (d : Dev) (h : Nat) : Bool :=
  d.populated h && d.siteReg h 0x01 % 2 = 1 && !d.boot.reset && !d.boot.thermtrip && !d.boot.halted

/-- A change of the link of a site; outside HOLDING its phase follows (R535). -/
def Dev.setLink (d : Dev) (h link modules rate repaired : Nat) : Dev :=
  let d := d.updSite h (fun s => { s with link := link, modules := modules, rate := rate, repaired := repaired })
  if (d.site h).phase = 5 then d else d.setPhase h link

/-- PRESENCE_QUERY_TIMER: a query goes to a DOWN site (R534). -/
def execPresenceQueryTimer (h : Fin 4) (s : State) : Host.Outcome State Fault Refusal :=
  .next (s.onDev (fun d => if d.siteUp h.val && (d.site h.val).link = 1 then d.out (.sideband h.val 0) else d))

/-- PRESENCE_RESPONSE: the partner answers and training begins (R530, R535). -/
def execPresenceResponse (h : Fin 4) (s : State) : Host.Outcome State Fault Refusal :=
  .next (s.onDev (fun d =>
    if d.siteUp h.val && (d.site h.val).link = 1 then (d.setLink h.val 2 0 0 0).out (.sideband h.val 1) else d))

/-- Into the active state; a site whose link was active keeps its phase. -/
def Dev.activeLink (d : Dev) (h modules rate repaired : Nat) : Dev :=
  if (d.site h).link = 3 then
    d.updSite h (fun s => { s with modules := modules, rate := rate, repaired := repaired })
  else d.setLink h 3 modules rate repaired

/-- LINK_TRAINED: the active state is reached with a module count and a rate (R529, R530), or with 0 modules the training has
failed at the lowest width and rate. A retraining that ends so leaves the phase as it was (R532). -/
def linkTrained (h modules rate repaired : Nat) (d : Dev) : Dev :=
  let x := d.site h
  let below := modules < 4 || rate < 32
  if modules = 0 then (if x.link = 2 then d.setLink h 1 0 0 0 else d)
  else if !([1, 2, 4].contains modules) || !([16, 32].contains rate) then d
  else if x.link = 2 || (x.link = 3 && x.heldLink) then
    let d := d.updSite h (fun s => { s with heldLink := false })
    let d := d.activeLink h modules rate repaired
    if below then d.raiseSite 0x8806 h [h, modules, rate] else d
  else d

/-- An active link retrains; its traffic is held. The replays before are not counted again (R532; DESIGN CHOICE, log entry
275). -/
def Dev.retrainSite (d : Dev) (h : Nat) : Dev :=
  if (d.site h).link = 3 && !(d.site h).heldLink then
    ((d.updSite h (fun x => { x with heldLink := true, replays := [] })).incReg (0x4800 + h) 0x0F).out (.sideband h 2)
  else d

/-- LINK_RETRAIN_REQUEST (R532). -/
def execLinkRetrainRequest (h : Fin 4) (s : State) : Host.Outcome State Fault Refusal :=
  .next (s.onDev (fun d => d.retrainSite h.val))

/-- A flit is replayed (R531); more than 64 in a millisecond retrain the link (R532). -/
def Dev.flitReplay (d : Dev) (h : Nat) : Dev :=
  if (d.site h).link ≠ 3 then d else
  let ts := (d.site h).replays.filter (fun t => d.now < t + 1000000) ++ [d.now]
  let d := (d.updSite h (fun x => { x with replays := ts })).incReg (0x4800 + h) 0x10
  if 64 < ts.length then d.retrainSite h else d

/-- UCIE_FLIT_REPLAY (R531). -/
def execUcieFlitReplay (h : Fin 4) (s : State) : Host.Outcome State Fault Refusal :=
  .next (s.onDev (fun d => d.flitReplay h.val))

/-- The HDM decoder is committed (R537). -/
def Dev.hdmCommit (d : Dev) (h : Nat) : Dev :=
  if (d.site h).link = 3 then d.updSite h (fun x => { x with hdm := true }) else d

/-- HDM_DECODER_COMMIT (R537). -/
def execHdmDecoderCommit (h : Fin 4) (s : State) : Host.Outcome State Fault Refusal :=
  .next (s.hostSide h.val (.hdmDecoderCommit h) (fun s => s.onDev (fun d => d.hdmCommit h.val)))

/-! Reclamation and detach (R544 to R547). -/

/-- The contexts that a site owns. -/
def Dev.owned (d : Dev) (h : Nat) : List Nat := (List.range 1024).filter (fun c => d.owner c = some h)

/-- Reclaim what a site holds and its OFF contexts (R546, R547), for a cause: 0 grace period, 1 another key, 2 reclaim now. -/
def State.reclaimSite (s : State) (h cause : Nat) : State :=
  let d := s.dev
  let held := (d.site h).held
  let off := (d.owned h).filter (fun c => d.ctxState c = 0 && !(held.contains c))
  let s := s.onDev (fun d =>
    let d := d.updSite h (fun x => { x with cause := cause, reclaimed := off.length })
    off.foldl (fun d c => d.ctxDefaults c) d)
  held.foldl (fun s c => s.reclaim c) s

/-- Is a reclamation of a site under way? -/
def Dev.reclaiming (d : Dev) (h : Nat) : Bool := (d.site h).held.any (fun c => (d.ctx c).reclaimed)

/-- The owed host writes of a site's contexts are dropped: their SFENCE commands complete without them (R544 step 2). -/
def Dev.dropOwed (d : Dev) (h : Nat) : Dev :=
  (d.owned h).foldl (fun d c => d.updCtx c (fun x => { x with
    streams := x.streams.map (fun t => { t with
      run := t.run.map (fun e => if e.op = 0x05 && e.status = 0 then { e with status := 1 } else e) }) })) d

/-- A detach (R544) with its cause: 0 hold, 1 release, 2 link lost. -/
def State.detach (s : State) (h cause : Nat) : State :=
  let d := s.dev
  let x := d.site h
  let on := if cause = 1 then [] else (d.owned h).filter (fun c => d.ctxState c = 2)
  let new := if !on.isEmpty then 5 else if cause = 1 then 3 else x.link
  let s := s.onDev (fun d =>
    -- an entry still staged is lost with the ring
    let n := (x.staged.map (·.2)).getD 0
    let d := d.updSite h (fun x => { x with staged := none, lostDetached := x.lostDetached + n })
    let d := (d.addReg (0x4800 + h) 0x0E n).incReg (0x4800 + h) 0x0A
    let d := (d.setPhase h new).dropOwed h
    let d := d.updSite h (fun x => { x with held := on, reclaimed := 0, attachWait := none })
    on.foldl (fun d c => (d.setReg (0x4000 + c) 0x22 1).updCtx c (fun y => { y with hints := [] })) d)
  let s := if cause = 1 then (s.dev.owned h).foldl (fun s c => s.reclaim c) s else s
  let s := s.onDev (fun d => d.raiseSite 0x8803 h [h, cause, on.length])
  if !on.isEmpty && s.dev.siteReg h 0x06 = 0 then s.reclaimSite h 0 else s

/-- A detach through attach control; in another phase it records 0x0801 (R540, R544). -/
def detachWrite (h cause : Nat) (s : State) : State :=
  let x := s.dev.site h
  if x.link ≠ 3 then s
  else if x.phase ≠ 4 then s.onDev (fun d => d.updSite h (fun x => { x with reasonCode := 0x0801 }))
  else (s.onDev (fun d => d.updSite h (fun x => { x with reasonCode := 0 }))).detach h cause

/-- DETACH_AND_HOLD (R544). -/
def execDetachAndHold (h : Fin 4) (s : State) : Host.Outcome State Fault Refusal :=
  .next (s.hostSide h.val (.detachAndHold h) (detachWrite h.val 0))
/-- DETACH_AND_RELEASE (R544). -/
def execDetachAndRelease (h : Fin 4) (s : State) : Host.Outcome State Fault Refusal :=
  .next (s.hostSide h.val (.detachAndRelease h) (detachWrite h.val 1))

/-- The site's function returns to its state after a conventional reset, but for the attach generation (R537). -/
def Site.functionReset (x : Site) : Site :=
  { x with
    ringBase := 0, ringCtl := 0, consumer := 0, window := 100, moderation := 8, threshold := 1, reasonCode := 0,
    msix := List.replicate 3 (0, 0, true), pendingBits := 0, mbState := 0, mbReply := none, hdm := false, heldLink := false,
    heldIn := [], replays := [], vec0Hold := false, firstUnraised := none, attachWait := none }

/-- LINK_LOSS (R535 to R537): an active link is lost; an attachment ends with cause 2. Cause 3, a long retraining, needs one under
way. -/
def linkLoss (h cause : Nat) (s : State) : State :=
  let x := s.dev.site h
  if x.link ≠ 3 || (cause = 3 && !x.heldLink) then s else
  let s := s.onDev (fun d => d.updSite h (fun x => { x with link := 1, modules := 0, rate := 0, repaired := 0 }))
  let s := if x.phase = 4 then s.detach h 2 else if x.phase = 5 then s else s.onDev (fun d => d.setPhase h 1)
  s.onDev (fun d => d.updSite h Site.functionReset)

/-- LINK_LOSS (R536). -/
def execLinkLoss (h : Fin 4) (cause : Nat) (s : State) : Host.Outcome State Fault Refusal := .next (linkLoss h.val cause s)

/-- GRACE_PERIOD_EXPIRY (R546). -/
def execGracePeriodExpiry (h : Fin 4) (s : State) : Host.Outcome State Fault Refusal :=
  .next (if (s.dev.site h.val).phase = 5 && !(s.dev.reclaiming h.val) then s.reclaimSite h.val 0 else s)

/-! Attach (R540 to R543) and the site registers. -/

/-- The consumer index is written: room frees (R555). -/
def Dev.consume (d : Dev) (h v : Nat) : Dev :=
  let d := d.updSite h (fun s => { s with consumer := v % 2 ^ 32 })
  let d := if (d.site h).unconsumed = 0 then d.updSite h (fun s => { s with firstUnraised := none }) else d
  d.ringRoom h

/-- Summary clear (R556): the named bits of word w; reserved bits make the write one that changes nothing (R540). -/
def Dev.clearSummary (d : Dev) (h v : Nat) : Dev :=
  if v / 2 ^ 37 ≠ 0 then d else
  d.updSite h (fun s => { s with
    summary := clearMask s.summary ((v % 2 ^ 32) <<< (32 * bits v 36 32)), summaryDirty := true })

/-- A write to a vector's MSI-X entry; one that unmasks a pending vector sends it (R540, R557). -/
def Dev.msixWrite (d : Dev) (h k part v : Nat) : Dev :=
  let e := (d.site h).msix.getD k (0, 0, true)
  let e := if part = 0 then (v, e.2.1, e.2.2) else if part = 8 then (e.1, v, e.2.2) else (e.1, e.2.1, v % 2 = 1)
  let d := d.updSite h (fun s => { s with msix := setAt s.msix k e })
  if !e.2.2 && bit (d.site h).pendingBits k then
    (d.updSite h (fun s => { s with pendingBits := clearMask s.pendingBits (1 <<< k) })).out (.msix h k)
  else d

/-- A write to a site register by its offset in BAR0 (R540). A bad write to attach control is recorded; another bad write is
ignored. -/
def Dev.bar0 (d : Dev) (h off v : Nat) : Dev :=
  let set := fun (f : Site → Site) => d.updSite h f
  if off = 0x08 then
    set (fun s => { s with
      reasonCode := if v / 4 ≠ 0 then 0x0106 else if v = 0 then 0x0105 else s.reasonCode })
  else if off = 0x18 then (if (d.site h).phase ≠ 4 && v % 4096 = 0 then set (fun s => { s with ringBase := v % two64 }) else d)
  else if off = 0x20 then (if (d.site h).phase ≠ 4 && v % 256 = 0 then set (fun s => { s with ringCtl := v % two64 }) else d)
  else if off = 0x28 then d.consume h v
  else if off = 0x30 then d.clearSummary h v
  else if off = 0x38 then (if v ≤ 1000 then set (fun s => { s with window := v }) else d)
  else if off = 0x3A then (if v ≤ 1000 then set (fun s => { s with moderation := v }) else d)
  else if off = 0x3C then (if 1 ≤ v && v ≤ 4096 then set (fun s => { s with threshold := v }) else d)
  else if 0x1000 ≤ off && off < 0x1030 then d.msixWrite h ((off - 0x1000) / 16) (off % 16) v
  else d

/-- An attach (R541 to R543): the register writes before it, the ring, the key, then attach control. -/
def attach (h ringBase ringCtl key : Nat) (regs : List (Nat × Nat)) (s : State) : State :=
  if (s.dev.site h).link ≠ 3 then s else
  let s := s.onDev (fun d => ((regs.foldl (fun d r => d.bar0 h r.1 r.2) d).bar0 h 0x18 ringBase).bar0 h 0x20 ringCtl)
  let x := s.dev.site h
  let reason := fun (s : State) (r : Nat) => s.onDev (fun d => d.updSite h (fun x => { x with reasonCode := r }))
  if (x.phase ≠ 3 && x.phase ≠ 5) || s.dev.siteReg h 0x01 % 2 = 0 then reason s 0x0801
  else if x.ringBase = 0 || x.ringCtl = 0 || (x.ringBase < x.ringCtl + 256 && x.ringCtl < x.ringBase + 131072) then
    reason s 0x0802
  else if x.phase = 3 then s.onDev (fun d => d.acceptAttach h x.ringBase x.ringCtl (key % two64) none)
  else if x.key = key % two64 && !(s.dev.reclaiming h) then
    s.onDev (fun d => d.acceptAttach h x.ringBase x.ringCtl (key % two64) (some x.held))
  else
    let s := s.onDev (fun d => d.updSite h (fun y => { y with attachWait := some (x.ringBase, x.ringCtl, key % two64) }))
    if s.dev.reclaiming h then s else s.reclaimSite h 1

/-- ATTACH (R543). -/
def execAttach (h : Fin 4) (ringBase ringCtl key : Nat) (regs : List (Nat × Nat)) (s : State) :
    Host.Outcome State Fault Refusal :=
  .next (s.hostSide h.val (.attach h ringBase ringCtl key regs) (attach h.val ringBase ringCtl key regs))

/-- A host writes a site register over its active link. -/
def siteWrite (h : Nat) (f : Dev → Dev) (s : State) : State := s.onDev (fun d => if (d.site h).link = 3 then f d else d)

/-- CONSUMER_INDEX_WRITE (R555). -/
def execConsumerIndexWrite (h : Fin 4) (v : Nat) (s : State) : Host.Outcome State Fault Refusal :=
  .next (s.hostSide h.val (.consumerIndexWrite h v) (siteWrite h.val (fun d => d.consume h.val v)))

/-- SUMMARY_CLEAR (R556). -/
def execSummaryClear (h : Fin 4) (v : Nat) (s : State) : Host.Outcome State Fault Refusal :=
  .next (s.hostSide h.val (.summaryClear h v) (siteWrite h.val (fun d => d.clearSummary h.val v)))

/-- SUMMARY_REWRITE_TIMER: a changed summary is rewritten in the header of an attached site (R556). -/
def execSummaryRewriteTimer (h : Fin 4) (s : State) : Host.Outcome State Fault Refusal :=
  .next (s.onDev (fun d =>
    if (d.site h.val).phase = 4 && (d.site h.val).summaryDirty then
      (d.updSite h.val (fun x => { x with summaryDirty := false })).ringHeader h.val
    else d))

/-- COALESCING_WINDOW_EXPIRY: the staged event of a site, or of the event log (target 4), is written (R554, R655). -/
def execCoalescingWindowExpiry (target : Fin 5) (s : State) : Host.Outcome State Fault Refusal :=
  .next (s.onDev (fun d => if target.val = 4 then d.flushLog else d.flushSite target.val))

/-- INTERRUPT_MODERATION_TIMER: the interval ends; an unconsumed entry that has not raised vector 0 raises it now (R557). -/
def execInterruptModerationTimer (h : Fin 4) (s : State) : Host.Outcome State Fault Refusal :=
  .next (s.onDev (fun d =>
    let d := d.updSite h.val (fun x => { x with vec0Hold := false })
    let x := d.site h.val
    if x.phase = 4 && x.firstUnraised.isSome && 0 < x.unconsumed then
      (d.updSite h.val (fun x => { x with firstUnraised := none, vec0Hold := x.moderation ≠ 0 })).msix h.val 0
    else d))

/-! The enable of a site (R560, R675). -/

/-- A site's function: refused a disable while a host is attached or held; STOPPING powers the link down. -/
def siteRule (h : Nat) : FnRule :=
  { check := fun _ => 0
    atOnce := true
    refuse := fun s => if (s.dev.site h).phase = 4 || (s.dev.site h).phase = 5 then 0x0803 else 0
    start := id
    stop := fun s => s.onDev (fun d => ((d.setLink h 1 0 0 0).updSite h Site.functionReset).out (.sideband h 3)) }

/-- SITE_ENABLE_WRITE (R560). -/
def execSiteEnableWrite (via : Via) (h : Fin 4) (v : Nat) (s : State) : Host.Outcome State Fault Refusal :=
  .next (s.gated via (0x4800 + h.val) 0x01 v (fun s =>
    s.dictWrite via (0x4800 + h.val) 0x01 v (fun s =>
      s.fnWrite (siteRule h.val) (0x4800 + h.val) v)))

end Sys2Proof.Machine
end

