-- ==== Sys2Proof/Machine/View.lean ====
section
/-! DEFINITION. What a reader of the object dictionary sees: entries that show the state of a unit, entries read live, and
harvested entries (R638, R661, R682, R716, R725). -/
namespace Sys2Proof.Machine
open Sys2Proof

/-! Settings slots (R679). -/

/-- Is an image of a settings slot valid: marker, generation equal to the slot number plus 1, CRC (R679, R680)? -/
def slotValid (slot v : Nat) : Bool :=
  bytesAt v 0 4 = 0x53455453 && bytesAt v 4 1 = slot + 1 && bytesAt v 4092 4 = crc32c (leBytes 4092 v)

/-- The burned slots, as (slot, image). -/
def Persist.burned (p : Persist) : List (Nat × Nat) :=
  p.slots.zipIdx.filterMap (fun q => q.1.map (fun v => (q.2, v)))

/-! Values that are computed. -/

/-- An entry that the strings of the part give (R4, R666). -/
def strings (m : Mfg) (sub : Nat) : Nat :=
  match sub with
  | 0x01 => leNat ([86, 78, 45, 53, 48, 54, 52, 45, 72] ++ [if m.pop = 1 then 49 else if m.pop = 5 then 50 else 52])
  | 0x0A => leNat [65, 118, 118, 97, 114, 101, 110, 32, 77, 105, 99, 114, 111, 115, 121, 115, 116, 101, 109, 115]
  | _ => leNat [86, 97, 108, 100, 101, 110, 32, 70, 108, 105, 110, 97, 110]

/-- The frequency of a domain in kHz; 0 for SCLK and JCLK (R716, R725). -/
def Dev.freq (d : Dev) (k : Nat) : Nat :=
  if k < 8 then d.reg 0x2000 (d.partReg k 0x10 % 16 + 1) / 65536 * 1000
  else match k with
    | 8 => 1600000
    | 9 => 1250000
    | 10 => d.reg 0x2400 0x31 * 1000
    | 11 => 1562500
    | 13 => 2000000
    | 14 => 1000000
    | 15 => 500000
    | 16 => 1000000
    | _ => 0

/-- The link status of a port (R525). -/
def Dev.linkStatus (d : Dev) (n : Nat) : Nat :=
  let p := d.port n
  ((p.up.map (fun k => 2 ^ k)).sum) <<< 8 + p.lanes % 8

/-- The LLDP neighbours of a port, each with its age in seconds (R497, R525). -/
def Dev.neighbours (d : Dev) (n : Nat) : Nat :=
  (List.range 4).foldl (fun v k =>
    match Tbl.look? k (d.port n).lldpAt with
    | some t => setBytesAt v (64 * k + 63) 1 (min 255 ((d.now - t) / 1000000000))
    | none => v) (d.portReg n 0x09)

/-- The owners of an engine's OPEN sets, 0x3000+e:0C (R102). -/
def Dev.setOwners (d : Dev) (e : Nat) : Nat :=
  let x := d.eng e
  let o := fun (i : Nat) => match x.sets.getD i ⟨0, Accum.empty⟩ with
    | ⟨1, a⟩ => a.ctx
    | _ => 0
  o 1 <<< 16 + o 0

/-- The schedule position of a context, 0x4000+c:1E (R471). -/
def Dev.schedPos (d : Dev) (c : Nat) : Nat :=
  let x := d.ctx c
  match x.firstEntry none with
  | some k =>
    let e := x.schedTab.getD k 0
    k <<< 19 + bits e 20 18 <<< 16 + bits e 21 21 <<< 15 + bits e 31 22
  | none => 0

/-- The link status of a host site (R558). -/
def Site.linkStatus (x : Site) : Nat :=
  (x.rate % 256) <<< 16 + (x.modules % 16) <<< 12 + (x.repaired % 16) <<< 8 + x.link % 8

/-- The block table (R422). -/
def Dev.blockTable (d : Dev) : Nat := leNat (((List.range 256).map (fun b => leBytes 4 (d.block b))).flatten)

/-- An entry of a ring or of the log as its 32 bytes (R553): the payload is the free value of log entry 7. -/
def Ev.bytes (ev : Ev) (count phase : Nat) : List Nat :=
  leBytes 2 ev.code ++ leBytes 2 count ++ leBytes 2 (ev.kind <<< 13 + ev.id % 1024) ++ leBytes 1 (phase <<< 7) ++ [0] ++
    leBytes 8 ev.time ++ leBytes 16 (Config.payload ev.code ev.fields)

/-- The 32 entries of the log from the read position on; one that is not yet written, or no longer kept, reads as zero
(R656). -/
def Dev.logWindow (d : Dev) : Nat :=
  let n := d.reg 0x5C00 0x20
  let first := n - d.tele.log.length
  leNat (((List.range 32).map (fun j =>
    let i := d.tele.readPos + j
    if i < first || n ≤ i then List.replicate 32 0
    else match d.tele.log[i - first]? with
      | some (ev, c) => ev.bytes c (if i / 65536 % 2 = 0 then 1 else 0)
      | none => List.replicate 32 0)).flatten)

/-! Harvested entries (R638). -/

/-- Is a row harvested: RO and of type U64 or F32, outside 0x1000, 0x1800 and 0x5C00? -/
def EntryRow.harvested (r : EntryRow) (idx : Nat) : Bool :=
  r.acc == .ro && (r.ty == .u64 || r.ty == .f32) && !([0x1000, 0x1800, 0x5C00].contains idx)

/-- Is an entry harvested? -/
def Dev.isHarvested (d : Dev) (idx sub : Nat) : Bool :=
  match d.row idx sub with
  | some r => r.harvested idx
  | none => false

/-- Every index of the dictionary, ascending (R665). -/
def allIndices : List Nat :=
  [0x1000, 0x1100, 0x1800, 0x2000, 0x2100, 0x2200, 0x2400, 0x2800] ++ (List.range 24).map (0x2C00 + ·) ++
    (List.range 64).map (0x3000 + ·) ++ (List.range 8).map (0x3400 + ·) ++ (List.range 32).map (0x3800 + ·) ++
    (List.range 1024).map (0x4000 + ·) ++ (List.range 4).map (0x4800 + ·) ++
    [0x4C00, 0x5000, 0x5400, 0x5800, 0x5C00, 0x6000, 0x7000]

/-- The harvested sub-indices of an index, with their types. -/
def Dev.harvestedSubs (d : Dev) (idx : Nat) : List (Nat × Ty) :=
  (d.subs idx).filterMap (fun s => match d.row idx s with
    | some r => if r.harvested idx then some (s, r.ty) else none
    | none => none)

/-- How many entries are harvested: one context stands for all. -/
def Dev.harvestCount (d : Dev) : Nat :=
  ((allIndices.filter (fun i => (ctxIdx i).isNone)).map (fun i => (d.harvestedSubs i).length)).sum +
    1024 * (d.harvestedSubs 0x4000).length

/-- The bytes of a dump (R645). -/
def Dev.dumpSize (d : Dev) : Nat := 64 + 16 * d.harvestCount + 32768 + 4

/-- The value of a harvested entry at the latest harvest; before the first one, the entry's default (log entry 42). -/
def Dev.harvestValue (d : Dev) (idx sub : Nat) : Nat :=
  (Tbl.look? (ekey idx sub) d.tele.current.vals).getD (dfltOf d.mfg idx sub)

/-! The view of an entry. -/

/-- Entries of a family that show the state of a unit; `none` for every other entry. -/
def State.unitView (s : State) (idx sub : Nat) : Option Nat :=
  let d := s.dev
  if 0x2C00 ≤ idx && idx < 0x2C18 then
    (if sub = 0x04 then some (d.linkStatus (idx - 0x2C00)) else if sub = 0x09 then some (d.neighbours (idx - 0x2C00)) else none)
  else if 0x3000 ≤ idx && idx < 0x3040 then
    (if sub = 0x0B then some (d.setStates (idx - 0x3000)) else if sub = 0x0C then some (d.setOwners (idx - 0x3000)) else none)
  else match ctxIdx idx, siteIdx idx with
    | some c, _ =>
      if 0x10 ≤ sub && sub ≤ 0x13 then some ((d.stream c (sub - 0x10)).line)
      else if sub = 0x1E then some (d.schedPos c) else none
    | _, some h =>
      let x := d.site h
      if !(d.populated h) then some 0
      else if sub = 0x03 then some x.phase else if sub = 0x04 then some x.linkStatus
      else if sub = 0x08 then some x.held.length else none
    | none, none => none

/-- Entries of the device that show its state. -/
def State.deviceView (s : State) (via : Via) (idx sub : Nat) : Option Nat :=
  let d := s.dev
  let p := s.persist
  if idx = 0x1000 then (if sub = 0x01 || sub = 0x0A || sub = 0x0B then some (strings d.mfg sub) else none)
  else if idx = 0x1800 then
    match sub with
    | 0x01 => some ((p.burned.map (fun q => 2 ^ q.1)).sum)
    | 0x02 => some d.boot.settingsGen
    | 0x03 => some (4 - (p.burned.filter (fun q => 0 < q.1)).length)
    | 0x04 => some (((p.burned.filter (fun q => slotValid q.1 q.2)).map (fun q => 2 ^ q.1)).sum)
    | 0x12 => some (d.boot.settings.getD 0)
    | _ => none
  else if idx = 0x2400 then
    (if sub = 0x01 then some d.now else if 0x10 ≤ sub && sub ≤ 0x21 then some (d.freq (sub - 0x10)) else none)
  else if idx = 0x4C00 then (if sub = 0x01 then some d.blockTable else if sub = 0x03 then some d.waits else none)
  else if idx = 0x5400 then (if sub = 0x11 then some (b2n p.tray) else none)
  else if idx = 0x5C00 then (if sub = 0x08 then some d.dumpSize else if sub = 0x22 then some d.logWindow else none)
  else if idx = 0x6000 then
    match sub with
    | 0x01 => some p.life
    | 0x05 => some (p.svnMc <<< 8 + p.svnFw)
    | 0x06 => some (p.revoked <<< 4 + ((d.mfg.keys.zipIdx.filter (fun q => q.1.isSome)).map (fun q => 2 ^ q.2)).sum)
    | 0x13 => some (d.boot.challenge.getD 0)
    | 0x31 => some (((d.boot.evidence.find? (fun q => q.1 = via)).map (·.2)).getD 0)
    | 0x32 => some d.mfg.cert
    | _ => none
  else none

/-- The value of an entry as it stands. -/
def State.live (s : State) (via : Via) (idx sub : Nat) : Nat :=
  if sub = 0 then (s.dev.subs idx).length
  else match s.unitView idx sub with
    | some v => v
    | none => (s.deviceView via idx sub).getD (s.dev.reg idx sub)

/-- The value that a reader is given (R638). -/
def State.view (s : State) (via : Via) (idx sub : Nat) : Nat :=
  if s.dev.isHarvested idx sub then s.dev.harvestValue idx sub else s.live via idx sub

end Sys2Proof.Machine
end

