-- ==== Sys2Proof/Machine/Telemetry.lean ====
section
/-! DEFINITION. Harvests, their dump and energy report, and the writes of telemetry entries (R639 to R657). -/
namespace Sys2Proof.Machine
open Sys2Proof

/-- Change the telemetry. -/
def Dev.onTele (d : Dev) (f : Tele → Tele) : Dev := { d with tele := f d.tele }

/-- The slab that holds a DPA, as the number of its first byte's address bits above the slab's size; the size of a slab
is 1, 4 or 32 GiB by view (R233, R239). -/
def slabOf (dpa : Nat) : Nat :=
  match bits dpa 42 41 with
  | 0 => dpa >>> 30
  | 1 => dpa >>> 32
  | _ => dpa >>> 35

/-- May the dump be written at an address (R645)? It lies within one slab, in the view of the slab's mode, whose owner mask
is not zero. -/
def Dev.dumpOk (d : Dev) (dpa : Nat) : Bool :=
  dpa = 0 ||
  (match dpaPhys dpa with
    | none => false
    | some (view, i, s, _) =>
      bits (d.slab s i) 7 6 = view + 1 && d.slab s i % 16 ≠ 0 && dpa + d.dumpSize ≤ 2 ^ 43 &&
      slabOf (dpa + d.dumpSize - 1) = slabOf dpa)

/-- The device writes bytes at a DPA, page by page of 4 KiB, at the input of compute-die traffic (R219, R239). -/
def writeDpa (dpa : Nat) (bs : List Nat) : Mm Unit := do
  let first := 4096 - dpa % 4096
  let parts := (0, bs.take first) :: (chunksOf 4096 (bs.drop first)).zipIdx.map (fun q => (first + 4096 * q.2, q.1))
  for (off, b) in parts do
    if !b.isEmpty then
      match dpaPhys (dpa + off) with
      | some (_, _, s, o) => let _ ← hbmPut s o b 3 none
      | none => pure ()

/-! Harvests (R639 to R644). -/

/-- The partition that a unit's index belongs to: engines, stacks and partitions (R9, R644). -/
def partOfIdx (idx : Nat) : Option Nat :=
  if 0x3000 ≤ idx && idx < 0x3040 then some (partOfEng (idx - 0x3000))
  else if 0x3800 ≤ idx && idx < 0x3820 then some (partOfStk (idx - 0x3800))
  else if 0x3400 ≤ idx && idx < 0x3408 then some (idx - 0x3400)
  else none

/-- A harvest begins at time t: every unit copies its harvested entries, and its contexts' work counters, into its spare
shadow; a unit of a partition that is resetting copies nothing and keeps the values of the previous harvest (R639, R644,
R650). -/
def Dev.harvestStart (d : Dev) (t : Nat) : Dev :=
  let resetting := fun (key : Nat) => match partOfIdx (key / 256) with
    | some p => d.service p == 1
    | none => false
  let taken := fun (key : Nat) => d.isHarvested (key / 256) (key % 256) ||
    ((ctxIdx (key / 256)).isSome && key % 256 = 0x2B)
  let old := d.tele.current.vals.filter (fun q => resetting q.1)
  let new := d.regs.filter (fun q => taken q.1 && !(resetting q.1))
  let vals := old.foldl (fun v q => Tbl.put q.1 q.2 v) new
  let stale := (((List.range 8).filter (fun p => d.service p = 1)).map (fun p => 2 ^ p)).sum
  d.onTele (fun x => { x with
    harvesting := true, spare := ⟨vals, t, x.lastWindow, stale, x.reclaimed⟩, reclaimed := [] })

/-- The harvest and its dump are over: a harvest that waited begins, stamped with the time at which it does; event 0x8103
goes out at most once a second (R643). -/
def Dev.harvestOver (d : Dev) : Dev :=
  let t := d.tele.deferred
  let d := d.onTele (fun x => { x with deferred := 0 })
  if t = 0 || d.fn 0x5C00 ≠ 2 then d else
  let soon := d.tele.deferEv.any (fun e => d.now < e + 1000000000)
  let d := if soon then d
    else (d.raiseDev 0x8103 [t - 1, d.now]).onTele (fun x => { x with deferEv := some d.now })
  d.harvestStart d.now

/-- HARVEST_TICK: the timebase has reached the scheduled tick; the next one follows by the period (R642). A tick that finds
the last harvest or its dump unfinished is deferred (R643); while telemetry is not ON no harvest takes place (R657). -/
def harvestTick (d : Dev) : Dev :=
  let t := d.tele.tickAt
  if t = 0 then d else
  let d := { d with now := max d.now t }
  let p := d.reg 0x5C00 0x03 * 1000
  let d := if p = 0 then d.onTele (fun x => { x with tickAt := 0 })
    else (d.onTele (fun x => { x with tickAt := t + p })).setReg 0x5C00 0x04 ((t + p) % two64)
  if d.fn 0x5C00 ≠ 2 then d
  else if d.tele.harvesting || d.tele.dumping.isSome then
    (d.incReg 0x5C00 0x0A).onTele (fun x => { x with deferred := if x.deferred = 0 then t + 1 else x.deferred })
  else d.harvestStart t

/-- HARVEST_TICK (R639). -/
def execHarvestTick (s : State) : Host.Outcome State Fault Refusal := .next (s.onDev harvestTick)

/-- HARVEST_COMPLETE: spare and current shadows are exchanged at once, the sequence advances, and a dump begins with its
header sequence at 0 (R640, R645, R646). -/
def harvestComplete (s : State) : State :=
  if !s.dev.tele.harvesting then s else
  let s := s.onDev (fun d =>
    let d := d.onTele (fun x => { x with harvesting := false, current := x.spare, spare := x.current })
    let d := d.setReg 0x5C00 0x05 ((d.reg 0x5C00 0x05 + 1) % 2 ^ 32)
    ((d.setReg 0x5C00 0x06 d.tele.current.begun).incReg 0x5C00 0x09))
  let dpa := s.dev.reg 0x5C00 0x07
  if dpa = 0 then s.onDev Dev.harvestOver
  else ((s.runMm (writeDpa dpa [0, 0, 0, 0])).2).onDev (fun d => d.onTele (fun x => { x with dumping := some dpa }))

/-- HARVEST_COMPLETE (R640). -/
def execHarvestComplete (s : State) : Host.Outcome State Fault Refusal := .next (harvestComplete s)

/-! The dump and the energy report (R645 to R649). -/

/-- The records of a dump, by index and sub-index (R645, R646). -/
def Dev.dumpRecords (d : Dev) : List Nat :=
  (allIndices.map (fun idx => ((d.harvestedSubs idx).map (fun q =>
    leBytes 2 idx ++ leBytes 1 q.1 ++ [if q.2 = .u64 then 1 else 2] ++ leBytes 4 0 ++
      leBytes 8 (d.harvestValue idx q.1))).flatten)).flatten

/-- The energy record of a context: differences between this harvest and the previous one (R648). -/
def Dev.energyRecord (d : Dev) (c : Nat) : List Nat :=
  let diff := fun (sub : Nat) =>
    let k := ekey (0x4000 + c) sub
    (Tbl.look 0 k d.tele.current.vals + two64 - Tbl.look 0 k d.tele.spare.vals) % two64
  leBytes 2 c ++ leBytes 1 (d.ctxReg c 0x03 % 8) ++
    [b2n (d.tele.current.reclaimed.contains c) * 2 + d.ctxReg c 0x22 % 2] ++ leBytes 4 0 ++
    leBytes 8 (diff 0x23) ++ leBytes 8 (diff 0x24) ++ leBytes 8 (diff 0x2B)

/-- The bytes of a dump (R645). -/
def Dev.dumpBytes (d : Dev) : List Nat :=
  let x := d.tele.current
  let seq := leBytes 4 (d.reg 0x5C00 0x05)
  let recs := d.dumpRecords
  seq ++ leBytes 4 (recs.length / 16) ++ leBytes 8 x.begun ++ leBytes 8 x.window ++ leBytes 1 x.stale ++
    List.replicate 39 0 ++ recs ++ ((List.range 1024).map d.energyRecord).flatten ++ seq

/-- DUMP_COMPLETE: records, energy report, trailer and at last the header sequence stand in the region (R646). -/
def dumpComplete (s : State) : State :=
  match s.dev.tele.dumping with
  | none => s
  | some dpa =>
    ((s.runMm (writeDpa dpa s.dev.dumpBytes)).2).onDev (fun d => (d.onTele (fun x => { x with dumping := none })).harvestOver)

/-- DUMP_COMPLETE (R646). -/
def execDumpComplete (s : State) : Host.Outcome State Fault Refusal := .next (dumpComplete s)

/-! Writes (R642, R656, R657, R675). -/

/-- A write of the next tick: at least 10 µs ahead (R642). -/
def nextTick (v : Nat) (s : State) : WR :=
  if v < s.dev.now + 10000 then (0x0105, s)
  else (0, s.onDev (fun d => (d.setReg 0x5C00 0x04 v).onTele (fun x => { x with tickAt := v })))

/-- NEXT_TICK_WRITE (R642). -/
def execNextTickWrite (via : Via) (v : Nat) (s : State) : Host.Outcome State Fault Refusal :=
  .next (s.dictWrite via 0x5C00 0x04 v (nextTick v))

/-- A write of the dump address (R645). -/
def dumpAddress (v : Nat) (s : State) : WR :=
  if s.dev.dumpOk v then (0, s.onDev (fun d => d.setReg 0x5C00 0x07 v)) else (0x0105, s)

/-- A write of the log's read position (R656). -/
def logPosition (v : Nat) (s : State) : WR := (0, s.onDev (fun d => d.onTele (fun x => { x with readPos := v })))

/-- LOG_READ_POSITION_WRITE (R656). -/
def execLogReadPositionWrite (via : Via) (v : Nat) (s : State) : Host.Outcome State Fault Refusal :=
  .next (s.dictWrite via 0x5C00 0x21 v (logPosition v))

/-- The telemetry function: its dump address is checked at enable, and a harvest under way ends its STOPPING (R675). -/
def teleRule : FnRule :=
  { check := fun s => if s.dev.dumpOk (s.dev.reg 0x5C00 0x07) then 0 else 0x0105
    atOnce := true
    refuse := fun _ => 0
    start := id
    stop := fun s => s.onDev (fun d => d.onTele (fun x => { x with deferred := 0 })) }

/-- TELEMETRY_ENABLE_WRITE (R657, R675). -/
def execTelemetryEnableWrite (via : Via) (v : Nat) (s : State) : Host.Outcome State Fault Refusal :=
  .next (s.dictWrite via 0x5C00 0x01 v (fun s => s.fnWrite teleRule 0x5C00 v))

end Sys2Proof.Machine
end

