-- ==== Sys2Proof/Machine/Boot.lean ====
section
/-! DEFINITION. Signed images, the settings image, the start-up sequence, resets, identity and attestation, the life cycle, and
tamper (R679 to R715). -/
namespace Sys2Proof.Machine
open Sys2Proof

/-- Change the start-up state. -/
def Dev.onBoot (d : Dev) (f : Boot → Boot) : Dev := { d with boot := f d.boot }

/-! Signed images (R692, R695, R696). -/

/-- The digest burned in a key slot that is provisioned and not revoked. -/
def State.slotDigest (s : State) (slot : Nat) : Option Nat :=
  if bit s.persist.revoked slot then none else (s.dev.mfg.keys.getD slot none)

/-- Is the key of a slot the one given (R693, R696 check 2)? -/
def State.keyOk (s : State) (slot : Nat) (key : List Nat) : Bool :=
  match s.slotDigest slot with
  | some d => slot < 4 && leNat (Crypto.sha384 key) = d
  | none => false

/-- The longest body of an image type (R695). -/
def maxBody (t : Nat) : Nat := match t with
  | 1 => 4193792
  | 2 => 1048064
  | _ => 128

/-- The body of an image, as its header gives the length. -/
def Image.bytes (i : Image) : List Nat := leBytes (bytesAt i.header 16 4) i.body

/-- The reserved bytes of an image header (R695). -/
def headerReserved (h : Nat) : Bool :=
  bits (bytesAt h 5 1) 7 2 = 0 && bytesAt h 6 2 = 0 && bytesAt h 13 3 = 0 && bytesAt h 20 12 = 0 && bytesAt h 177 79 = 0 &&
    bytesAt h 352 160 = 0

/-- Check 1 of R696. -/
def imageForm (i : Image) (t : Nat) : Bool :=
  let h := i.header
  let n := bytesAt h 16 4
  bytesAt h 0 4 = 0x4752444E && bytesAt h 4 1 = t && headerReserved h && bytesAt h 12 1 ≤ 64 && n % 64 = 0 &&
    (if t = 3 then n = 128 else n ≤ maxBody t)

/-- Checks 1 to 4 of R696. -/
def State.imageSigned (s : State) (i : Image) (t : Nat) : Bool :=
  let h := i.header
  let key := leBytes 97 (bytesAt h 80 97)
  imageForm i t && s.keyOk (bytesAt h 5 1) key &&
    Crypto.verify key (leBytes 256 h) (leBytes 96 (bytesAt h 256 96)) &&
    leNat (Crypto.sha384 i.bytes) = bytesAt h 32 48

/-- The checks of R696: 0 accepted, else the code of the first that fails. -/
def State.imageCode (s : State) (i : Image) (t : Nat) : Nat :=
  if !(s.imageSigned i t) then 0x0B06
  else if t ≠ 3 && bytesAt i.header 12 1 < (if t = 1 then s.persist.svnFw else s.persist.svnMc) then 0x0B0A
  else 0

/-- The newest valid bank-select record (R701). -/
def Persist.select (p : Persist) : Select :=
  (p.selects.filterMap id).foldl (fun b x => if b.seq < x.seq then x else b) ⟨0, 0, 0⟩

/-- The bank of a type: firmware A and B, then microcode A and B (R694). -/
def Persist.bank (p : Persist) (t b : Nat) : Image := p.banks.getD (2 * (t - 1) + b) ⟨0, 0⟩

/-- The bank that a type starts from (R697): bank, the refusal code of the preferred one where it fell back, and the code
when both are refused (that of the bank tried last). -/
def State.pickBank (s : State) (t : Nat) : Option (Nat × Nat) × Nat :=
  let x := s.persist.select
  let b := (if t = 1 then x.firmware else x.microcode) % 2
  let c := s.imageCode (s.persist.bank t b) t
  let c2 := s.imageCode (s.persist.bank t (1 - b)) t
  if c = 0 then (some (b, 0), 0) else if c2 = 0 then (some (1 - b, c), 0) else (none, c2)

/-! The test record (R693). -/

/-- The range of the voltage codes of an operating point (R562, R563). -/
def voltRange (k : Nat) : Nat × Nat :=
  ([(0, 14), (0, 22), (0, 30), (10, 40), (20, 50), (32, 62), (46, 76), (58, 88), (70, 100), (82, 112), (96, 126),
    (112, 132)] : List (Nat × Nat)).getD k (0, 0)

/-- Do the voltage codes of every partition lie in their ranges and rise strictly? -/
def Mfg.voltsOk (m : Mfg) : Bool :=
  (List.range 8).all (fun p => (List.range 12).all (fun k =>
    let c := m.volt p k
    (voltRange k).1 ≤ c && c ≤ (voltRange k).2 && (k = 0 || m.volt p (k - 1) < c)))

/-- Are the test-time coefficients finite and positive? -/
def Mfg.coeffsOk (m : Mfg) : Bool :=
  (List.range 96).all (fun i =>
    let c := bytesAt m.record (128 + 4 * i) 4
    isFinite32 c && lt32 0 c)

/-- Is the test record accepted (R693)? -/
def State.recordOk (s : State) : Bool :=
  let r := s.dev.mfg.record
  let key := leBytes 97 (bytesAt r 528 97)
  bytesAt r 0 4 = 0x54455354 && bytesAt r 1020 4 = crc32c (leBytes 1020 r) && s.keyOk (bytesAt r 512 1) key &&
    Crypto.verify key (leBytes 544 r) (leBytes 96 (bytesAt r 640 96)) && s.dev.mfg.voltsOk && s.dev.mfg.coeffsOk

/-! The settings image (R679 to R681). -/

/-- Record i of a settings image. -/
def settingsRecord (img i : Nat) : Nat := bytesAt img (16 + 16 * i) 16

/-- Does a record pass: an RW or RWD entry of a scope other than context, its type, a reserved field of 0, a value in range
(R679, R680)? -/
def Dev.recordOk (d : Dev) (rec_ : Nat) : Bool :=
  let idx := bytesAt rec_ 0 2
  let sub := bytesAt rec_ 2 1
  let v := bytesAt rec_ 8 8
  match d.row idx sub with
  | none => false
  | some r => (r.acc = .rw || r.acc = .rwd) && r.scope ≠ .context && r.size ≤ 8 && r.ty ≠ .vstr && r.ty ≠ .domain &&
    bytesAt rec_ 3 1 = r.ty.code && bytesAt rec_ 4 4 = 0 && v < 2 ^ (8 * r.size) && valueCode r idx sub v = 0

/-- A record sets the enable of a function (R679)? -/
def isEnable (idx sub : Nat) : Bool := sub = 0x01 && isFunction idx

/-- A record takes effect: an entry takes its value; an enable entry is kept for the end of start-up. -/
def Dev.applyRecord (d : Dev) (rec_ : Nat) : Dev := d.setReg (bytesAt rec_ 0 2) (bytesAt rec_ 2 1) (bytesAt rec_ 8 8)

/-- The valid slot with the highest generation is applied; slots burned and not valid are reported, and the number of
records skipped (R680). -/
def State.applySettings (s : State) : State :=
  let burned := s.persist.burned
  let valid := burned.filter (fun q => slotValid q.1 q.2)
  let s := s.onDev (fun d => (burned.filter (fun q => !(slotValid q.1 q.2))).foldl (fun d q => d.raiseDev 0x8107 [q.1]) d)
  match valid.getLast? with
  | none => s
  | some (slot, img) =>
    s.onDev (fun d =>
      let d := d.onBoot (fun b => { b with settingsGen := slot + 1, settings := some img })
      let recs := (List.range (min 254 (bytesAt img 8 2))).map (settingsRecord img)
      let (d, n) := recs.foldl (fun (st : Dev × Nat) r =>
        if st.1.recordOk r then (st.1.applyRecord r, st.2) else (st.1, st.2 + 1)) (d, 0)
      let d := d.setReg 0x1800 0x06 n
      if n = 0 then d else d.raiseDev 0x8106 [n])

/-- The next slot to burn, if one is left. -/
def Persist.nextSlot (p : Persist) : Option Nat := (List.range 5).find? (fun i => (p.burned.all (fun q => q.1 < i)))

/-- The form of a staged image: marker, generation, reserved fields, CRC (R681). -/
def settingsForm (img gen : Nat) : Bool :=
  let n := bytesAt img 8 2
  bytesAt img 0 4 = 0x53455453 && bytesAt img 4 1 = gen && bytesAt img 5 3 = 0 && n ≤ 254 && bytesAt img 10 6 = 0 &&
    bytesAt img (16 + 16 * n) (4076 - 16 * n) = 0 && bytesAt img 4092 4 = crc32c (leBytes 4092 img)

/-- A commit of the staged image (R681); none: its reply follows the burn. -/
def settingsCommit (w : Waiting) (gen : Nat) (s : State) : Option Nat × State :=
  let img := s.dev.reg 0x1800 0x10
  match s.persist.nextSlot with
  | none => (some 0x010C, s)
  | some slot =>
    if gen ≠ slot + 1 then (some 0x010C, s)
    else if 3 ≤ s.persist.life then (some 0x010D, s)
    else if !(settingsForm img gen) then (some 0x010B, s)
    else match (List.range (bytesAt img 8 2)).find? (fun i => !(s.dev.recordOk (settingsRecord img i))) with
      | some i => (some 0x010B, s.onDev (fun d => d.setReg 0x1800 0x05 i))
      | none =>
        (none, s.onDev (fun d =>
          let d := d.onBoot (fun b => { b with burnSettings := some (slot, img) })
          d.park { w with kind := 1 }))

/-- A burn of a settings slot ends and is read back: event 0x8105, then the reply; a slot that does not verify is consumed
all the same (R681). -/
def settingsBurned (ok : Bool) (s : State) : State :=
  match s.dev.boot.burnSettings with
  | none => s
  | some (slot, img) =>
    let s := { s with persist := { s.persist with slots := setAt s.persist.slots slot (some (if ok then img else 0)) } }
    s.onDev (fun d =>
      let d := (d.onBoot (fun b => { b with burnSettings := none })).raiseDev 0x8105 [slot, b2n ok]
      d.replyWaiting 1 0)

/-! Resets (R686, R689, R690). -/

/-- What a start keeps beside the OTP store, the flash and the tray flag: what was made at manufacture, the record of what
left the part, the model's own counter, the test access port. -/
def State.coldStart (s : State) (boot : Boot) : State :=
  { s with
    mem := Store.reset
    dev := { Dev.reset with
      mfg := s.dev.mfg, fresh := s.dev.fresh, tx := s.dev.tx, tap := s.dev.tap, boot := boot } }

/-- OTP burns that a reset cuts short: the settings slot is consumed and not valid (R681); the life-cycle state is the old or
the new one (R708). -/
def State.cutBurns (s : State) : State :=
  let s := match s.dev.boot.burnSettings with
    | some (slot, _) => { s with persist := { s.persist with slots := setAt s.persist.slots slot (some 0) } }
    | none => s
  match s.dev.boot.burnLife with
  | some t =>
    let (k, d) := s.dev.draw
    let s := { s with dev := d }
    if Config.pick k % 2 = 1 then
      { s with persist := { s.persist with life := max s.persist.life t, lifeOld := some s.persist.life } }
    else s
  | none => s

/-- RESET# is asserted: all work is abandoned (R686). -/
def resetAssert (s : State) : State := s.cutBurns.coldStart Boot.cold

/-- RESET_ASSERT (R686). -/
def execResetAssert (s : State) : Host.Outcome State Fault Refusal := .next (resetAssert s)

/-- The start-up begins with step 1 done. -/
def State.startUp (s : State) (straps trips : Nat) : State :=
  (s.coldStart { Boot.cold with reset := false, running := true, straps := straps, trips := trips }).onDev (fun d =>
    d.setReg 0x6000 0x02 1)

/-- RESET_RELEASE: the straps are sampled and step 2 begins (R685, R746); EXTEST, CLAMP and HIGHZ end (R731). -/
def execResetRelease (straps : Nat) (s : State) : Host.Outcome State Fault Refusal :=
  .next (if s.dev.boot.reset then
      (s.startUp (straps % 16) 0).onDev (fun d => { d with tap := { d.tap with
        ir := if 3 ≤ d.tap.ir && d.tap.ir ≤ 5 then 0xFF else d.tap.ir, mode := 0 } })
    else s)

/-- A device reset is under way: notices of kind 2 go out (R690). -/
def Dev.resetSoon (d : Dev) : Dev :=
  let on := (List.range 1024).filter (fun c => d.ctxState c ≠ 0)
  (d.noticeAll 2 on).onBoot (fun b => { b with resetWait := true })

/-- What follows the reply to an accepted write: a write of 1 to the device-reset entry resets the device, its reply first
(R690). -/
def Dev.afterReply (d : Dev) (idx sub v : Nat) : Dev := if idx = 0x6000 && sub = 0x12 && v = 1 then d.resetSoon else d

/-- A write of the device-reset entry that does not wait. -/
def deviceResetWrite (via : Via) (v : Nat) (s : State) : State :=
  let t := s.dictWrite via 0x6000 0x12 v (fun s => (0, s))
  if !(s.dev.deaf via) && s.dev.avail && s.dev.writeCode via 0x6000 0x12 v = 0 then t.onDev (fun d => d.afterReply 0x6000 0x12 v)
  else t

/-- DEVICE_RESET_WRITE (R690). -/
def execDeviceResetWrite (via : Via) (v : Nat) (s : State) : Host.Outcome State Fault Refusal :=
  .next (s.gated via 0x6000 0x12 v (deviceResetWrite via v))

/-- DEVICE_RESET_DELAY_EXPIRY: once no OTP burn and no wipe is under way, the device restarts (R690, R708). -/
def execDeviceResetDelayExpiry (s : State) : Host.Outcome State Fault Refusal :=
  let b := s.dev.boot
  .next (if b.resetWait && b.burnSettings.isNone && b.burnLife.isNone && s.dev.wiping.isEmpty then s.startUp b.straps 0 else s)

/-! Identity and attestation (R702 to R705). -/

/-- The body digest of the running image of a type; zero without one. -/
def Dev.bodyDigest (d : Dev) (t : Nat) : List Nat :=
  match d.boot.headers.getD (t - 1) none with
  | some h => leBytes 48 (bytesAt h 32 48)
  | none => List.replicate 48 0

/-- The private scalar of the identity key. -/
def State.identityKey (s : State) : Nat :=
  Crypto.scalar (leBytes 48 s.persist.secret) [0x46, 0x4C, 0x49, 0x4E, 0x41, 0x4E, 0x2D, 0x49, 0x44] []

/-- The private scalar of the attestation key. -/
def State.attestKey (s : State) : Nat :=
  Crypto.scalar (leBytes 48 s.persist.secret) [0x46, 0x4C, 0x49, 0x4E, 0x41, 0x4E, 0x2D, 0x41, 0x54]
    (s.dev.bodyDigest 1 ++ s.dev.bodyDigest 2 ++ [s.persist.life])

/-- The keys stand in the secure bank of die 0; public key and endorsement are presented (R703). -/
def State.deriveKeys (s : State) : State :=
  let head := Crypto.publicKey s.attestKey ++ List.replicate 7 0 ++ s.dev.bodyDigest 1 ++ s.dev.bodyDigest 2
  let pub := Crypto.publicKey s.identityKey
  let sig := Crypto.sign s.identityKey head
  s.onDev (fun d =>
    ((d.onBoot (fun b => { b with keys := true })).setReg 0x6000 0x33 (leNat pub)).setReg 0x6000 0x34 (leNat (head ++ sig)))

/-- The requester byte of evidence (R705). -/
def viaByte : Via → Nat
  | .i3c _ => 0
  | .mailbox h => 64 + h.val
  | .vlan _ => 128

/-- Evidence for a nonce, 512 bytes (R705). -/
def State.evidence (s : State) (via : Via) (nonce : Nat) : List Nat :=
  let d := s.dev
  let version := fun (t : Nat) => leBytes 4 (bytesAt ((d.boot.headers.getD (t - 1) none).getD 0) 8 4)
  let settings := match d.boot.settings with
    | some v => Crypto.sha384 (leBytes 4096 v)
    | none => List.replicate 48 0
  let body := leBytes 4 0x41545354 ++ leBytes 2 1 ++ [s.persist.life, viaByte via] ++ leBytes 48 nonce ++
    leBytes 16 d.mfg.serial ++ leBytes 8 d.now ++ version 1 ++ version 2 ++ leBytes 1 d.boot.settingsGen ++
    leBytes 1 s.persist.svnFw ++ leBytes 1 s.persist.svnMc ++ [0] ++
    ((List.range 4).map (fun i => leBytes 2 (d.engReg (16 * i) 0x22))).flatten ++ leBytes 4 (d.reg 0x6000 0x07) ++
    d.bodyDigest 1 ++ d.bodyDigest 2 ++ settings ++ Crypto.sha384 (leBytes 1024 d.mfg.record) ++ List.replicate 88 0
  body ++ Crypto.sign s.attestKey body ++ List.replicate 32 0

/-- The evidence of a requester is placed in its view (R704). -/
def State.attestNow (s : State) (via : Via) (nonce : Nat) : State :=
  let e := leNat (s.evidence via nonce)
  s.onDev (fun d => (d.setReg 0x6000 0x30 nonce).onBoot (fun b => { b with
    evidence := b.evidence.filter (fun q => q.1 ≠ via) ++ [(via, e)] }))

/-- A nonce is committed (R704); none: the keys are being derived again, and the request waits (R703). -/
def attest (w : Waiting) (nonce : Nat) (s : State) : Option Nat × State :=
  if s.persist.life = 0 || 3 ≤ s.persist.life then (some 0x0B09, s)
  else if s.dev.boot.keys then (some 0, s.attestNow w.via nonce)
  else (none, s.onDev (fun d =>
    d.park { w with kind := 3, req := { w.req with payload := leBytes 48 nonce } }))

/-- KEY_REDERIVATION: the keys stand again, and requests that waited for them are answered (R703). -/
def keyRederivation (s : State) : State :=
  if s.dev.boot.keys || (Tbl.look? 0 s.dev.wiping).isSome || s.dev.reg 0x6000 0x02 < 5 then s else
  let s := s.deriveKeys
  let mine := s.dev.dict.waiting.filter (fun w => w.kind = 3)
  let s := mine.foldl (fun s w => s.attestNow w.via (leNat w.req.payload)) s
  s.onDev (fun d => d.replyWaiting 3 0)

/-! Perturbation (R726, R727, R735). -/

/-- Does the life-cycle state, or the token of R709, permit perturbation? -/
def State.perturbOk (s : State) : Bool :=
  s.persist.life = 0 || s.persist.life = 3 || (s.persist.life = 2 && s.dev.reg 0x6000 0x14 = 1)

/-- The perturbation unit's function (R726): opportunities are counted from its entry into ON (R729). -/
def perturbRule : FnRule :=
  { check := fun s => if s.perturbOk then 0 else 0x0B0E
    atOnce := true
    refuse := fun _ => 0
    start := fun s => s.onDev (fun d => ({ d with pert := List.replicate 16 0 }).raiseDev 0x8B08 [2, s.persist.life])
    stop := fun s => s.onDev (fun d => d.raiseDev 0x8B08 [3, s.persist.life]) }

/-- PERTURBATION_ENABLE_WRITE (R726). -/
def execPerturbationEnableWrite (via : Via) (v : Nat) (s : State) : Host.Outcome State Fault Refusal :=
  .next (s.dictWrite via 0x7000 0x01 v (fun s => s.fnWrite perturbRule 0x7000 v))

/-- The permission is gone or the state has changed: the unit stops at once, and a latched re-arm is refused (R727). -/
def State.perturbStop (s : State) : State :=
  if s.dev.fn 0x7000 = 0 then s else
  let l := Tbl.look 0 0x7000 s.dev.latch
  let s := if s.dev.fn 0x7000 = 3 then s else perturbRule.stop (s.setFn 0x7000 3)
  (s.setFn 0x7000 0).onDev (fun d =>
    let d := { d.setReg 0x7000 0x01 0 with latch := Tbl.del 0x7000 d.latch }
    if l = 2 then d.raiseDev 0x8104 [0x7000, 0x0B0E] else d)

/-! Life cycle and tokens (R706 to R709). -/

/-- Is a transition permitted (R707)? -/
def State.lifeOk (s : State) (target : Nat) : Bool :=
  match s.persist.life, target with
  | 0, 1 => s.dev.boot.armed = 1 && s.dev.mfg.cert ≠ 0
  | 1, 2 => true
  | 2, 3 => s.dev.boot.armed = 2
  | 4, _ => false
  | _, 4 => true
  | _, _ => false

/-- A life-cycle transition is written (R707, R708); none: its reply follows the burn. -/
def lifeTransition (w : Waiting) (v : Nat) (s : State) : Option Nat × State :=
  if s.dev.boot.burnSettings.isSome || s.dev.boot.burnLife.isSome then (some 0x0B07, s)
  else if bits v 15 8 ≠ 0xA5 || !(s.lifeOk (v % 8)) then (some 0x0B04, s)
  else (none, s.onDev (fun d =>
    let d := d.onBoot (fun b => { b with burnLife := some (v % 8) })
    d.park { w with kind := 2 }))

/-- Every secure bank is wiped (R212). -/
def Dev.wipeAll (d : Dev) (cause : Nat) : Dev := (List.range 4).foldl (fun d die => d.wipeStart die cause) d

/-- LIFE_CYCLE_BURN_COMPLETE: the state is burned (fuses only burn), at SCRAPPED the secret is all ones, the secure banks are wiped and the
device resets itself (R708). -/
def lifeBurned (s : State) : State :=
  match s.dev.boot.burnLife with
  | none => s
  | some t =>
    let s := { s with persist := { s.persist with
      life := max s.persist.life t, lifeOld := some s.persist.life, secret := if t = 4 then 2 ^ 384 - 1 else s.persist.secret } }
    let s := s.perturbStop
    s.onDev (fun d =>
      let d := (d.onBoot (fun b => { b with burnLife := none })).wipeAll 2
      (d.replyWaiting 2 0).resetSoon)

/-- A new challenge is drawn (R709). -/
def Dev.newChallenge (d : Dev) : Dev :=
  let (k, d) := d.draw
  d.onBoot (fun b => { b with challenge := some (Config.entropy k % 2 ^ 384) })

/-- Is the action of a token allowed now: provision, return, perturbation, revoke (R709)? -/
def State.tokenAction (s : State) (action target slot : Nat) : Bool :=
  match action with
  | 1 => s.persist.life = 0
  | 2 => s.persist.life = 2
  | 3 => s.persist.life = 2
  | 4 => s.persist.life ≠ 4 && target < 4 && target ≠ slot &&
      (List.range 4).any (fun i => i ≠ target && (s.slotDigest i).isSome)
  | _ => false

/-- A token is committed (R709): it works at most once, since every commit draws a new challenge. -/
def tokenCommit (token : Nat) (s : State) : WR :=
  let i : Image := ⟨bytesAt token 0 512, bytesAt token 512 128⟩
  let b := i.body
  let action := bytesAt b 0 1
  let target := bytesAt b 1 1
  let ok := s.imageSigned i 3 && bytesAt b 2 14 = 0 && bytesAt b 80 48 = 0 && bytesAt b 16 16 = s.dev.mfg.serial &&
    s.dev.boot.challenge = some (bytesAt b 32 48) && s.tokenAction action target (bytesAt i.header 5 1)
  let s := s.onDev Dev.newChallenge
  if !ok then (0x0B05, s) else
  let s := s.onDev (fun d => d.setReg 0x6000 0x11 token)
  match action with
  | 3 => (0, s.onDev (fun d => d.setReg 0x6000 0x14 1))
  | 4 => (0, { s with persist := { s.persist with revoked := s.persist.revoked ||| 1 <<< target } })
  | a => (0, s.onDev (fun d => d.onBoot (fun b => { b with armed := a })))

/-- AUTHORISATION_TOKEN (R709): the whole token, committed. -/
def execAuthorisationToken (via : Via) (token : Nat) (s : State) : Host.Outcome State Fault Refusal :=
  .next (s.gated via 0x6000 0x11 token (fun s =>
    s.dictWrite via 0x6000 0x11 token (tokenCommit token)))

/-! Updating an image (R700, R701). -/

/-- A refused action or finish is recorded (R714). -/
def updateRefused (code : Nat) (s : State) : WR := (code, s.onDev (fun d => d.setReg 0x6000 0x23 code))

/-- Begin: the bank that does not run is erased. -/
def updateBegin (t : Nat) (s : State) : WR :=
  if t ≠ 1 && t ≠ 2 then (0x0105, s)
  else if s.dev.boot.update.isSome || s.dev.boot.burnSettings.isSome || s.dev.boot.burnLife.isSome then updateRefused 0x0B07 s
  else
    let b := 1 - s.dev.boot.banks.getD (t - 1) 0
    let s := { s with persist := { s.persist with banks := setAt s.persist.banks (2 * (t - 1) + b) ⟨0, 0⟩ } }
    (0, s.onDev (fun d => (d.onBoot (fun x => { x with update := some (t, 0) })).setReg 0x6000 0x22 (1 <<< 30)))

/-- Append: the first n bytes of the update window join the bank. -/
def updateAppend (n : Nat) (s : State) : WR :=
  match s.dev.boot.update with
  | none => updateRefused 0x0B07 s
  | some (t, at_) =>
    if n = 0 || 65536 < n || maxBody t + 512 < at_ + n then (0x0105, s) else
    let k := 2 * (t - 1) + (1 - s.dev.boot.banks.getD (t - 1) 0)
    let i := s.persist.banks.getD k ⟨0, 0⟩
    let whole := setBytesAt (i.header + i.body <<< 4096) at_ n (bytesAt (s.dev.reg 0x6000 0x20) 0 n)
    let s := { s with persist := { s.persist with banks := setAt s.persist.banks k ⟨whole % 2 ^ 4096, whole >>> 4096⟩ } }
    (0, s.onDev (fun d =>
      (d.onBoot (fun x => { x with update := some (t, at_ + n) })).setReg 0x6000 0x22 (1 <<< 30 + at_ + n)))

/-- Finish: the bank is checked, and an accepted one is recorded as preferred, in the copy that is not the newest. -/
def updateFinish (s : State) : WR :=
  match s.dev.boot.update with
  | none => updateRefused 0x0B07 s
  | some (t, n) =>
    let b := 1 - s.dev.boot.banks.getD (t - 1) 0
    let i := s.persist.bank t b
    let c := s.imageCode i t
    let s := s.onDev (fun d => d.onBoot (fun x => { x with update := none }))
    if c ≠ 0 then updateRefused c (s.onDev (fun d => d.setReg 0x6000 0x22 (3 <<< 30 + n)))
    else
      let x := s.persist.select
      let new : Select := { seq := x.seq + 1, firmware := if t = 1 then b else x.firmware, microcode := if t = 2 then b else x.microcode }
      let copy := if s.persist.selects.getD 0 none = some x then 1 else 0
      let s := { s with persist := { s.persist with selects := setAt s.persist.selects copy (some new) } }
      (0, s.onDev (fun d => (d.setReg 0x6000 0x22 (2 <<< 30 + n)).raiseDev 0x8B04 [t, bytesAt i.header 8 4, 0]))

/-- A write of update control (R700, R714). -/
def updateControl (v : Nat) (s : State) : WR :=
  match bits v 31 30 with
  | 1 => updateBegin (bits v 27 24) s
  | 2 => updateAppend (bits v 16 0) s
  | 3 => updateFinish s
  | _ => (0x0105, s)

/-- A write of update control with a given action. -/
def updateAct (via : Via) (action v : Nat) (s : State) : State :=
  let w := action <<< 30 + v % 2 ^ 30
  s.gated via 0x6000 0x21 w (fun s => s.dictWrite via 0x6000 0x21 w (updateControl w))

/-- UPDATE_BEGIN (R700); `v` holds bits [29:0] of the write. -/
def execUpdateBegin (via : Via) (v : Nat) (s : State) : Host.Outcome State Fault Refusal := .next (updateAct via 1 v s)
/-- UPDATE_APPEND (R700). -/
def execUpdateAppend (via : Via) (v : Nat) (s : State) : Host.Outcome State Fault Refusal := .next (updateAct via 2 v s)
/-- UPDATE_FINISH (R700). -/
def execUpdateFinish (via : Via) (v : Nat) (s : State) : Host.Outcome State Fault Refusal := .next (updateAct via 3 v s)

/-! Tamper (R710, R711). -/

/-- The device halts at a step, every partition at OP0 with its PCLK stopped (R687). -/
def Dev.halt (d : Dev) (code : Nat) : Dev :=
  (((List.range 8).foldl (fun d p => d.setReg (0x3400 + p) 0x10 0) d).onBoot (fun b => { b with halted := true, running := false, restart := false })).setReg 0x6000 0x03 code

/-- A tamper detector trips (cause 1 voltage, 2 clock, 3 temperature): after step 10 the banks are wiped and tokens
invalid; before it the device restarts, and a third trip in one start halts it (R711). The reading is a free value. -/
def tamper (die cause : Nat) (s : State) : State :=
  let b := s.dev.boot
  if b.reset || b.thermtrip || b.halted || s.dev.reg 0x6000 0x02 < 2 then s
  else if s.dev.reg 0x6000 0x02 < 10 then
    s.onDev (fun d =>
      let d := d.onBoot (fun b => { b with trips := b.trips + 1, restart := true })
      if 3 ≤ d.boot.trips then d.halt 0x0B0C else d)
  else
    let s := s.onDev (fun d =>
      let d := d.wipeAll 1
      let d := (d.onBoot (fun b => { b with challenge := none, armed := 0 })).setReg 0x6000 0x14 0
      let (k, d) := d.draw
      ((d.incReg 0x6000 0x07).setReg 0x6000 0x08 ((cause % 16) <<< 28 + die <<< 26)).raiseDev 0x8B02 [cause, die, Config.pick k])
    if s.perturbOk then s else s.perturbStop

/-- TAMPER_TRIP (R711). -/
def execTamperTrip (d : Fin 4) (cause : Nat) (s : State) : Host.Outcome State Fault Refusal := .next (tamper d.val cause s)

/-- TAMPER_RESTART_TIMER: 10 ms after a trip before step 10 the device restarts at step 2; its trips stay counted (R711). -/
def execTamperRestartTimer (s : State) : Host.Outcome State Fault Refusal :=
  let b := s.dev.boot
  .next (if b.restart && !b.halted then s.startUp b.straps b.trips else s)

/-! The start-up sequence (R685). -/

/-- Step 2: the timebase starts at 0 and a challenge is drawn, or the device halts. -/
def stepClocks (r : StepF) (s : State) : State :=
  if !r.ok then s.onDev (fun d => d.halt 0x0B0C)
  else s.onDev (fun d => ({ d with now := 0 }).newChallenge)

/-- Step 3: the test record is checked and the settings image applied. -/
def stepOtp (s : State) : State :=
  if s.recordOk then s.applySettings else s.onDev (fun d => d.halt 0x0B0D)

/-- The set-point that a rail is given at step 4, in 0.1 mV (R742). -/
def Dev.startVolt (d : Dev) (r : Nat) : Nat := if r % 8 < 2 then d.tableVolt (2 * (r / 8) + r % 8) 0 else d.railSet r

/-- Step 4: every partition at OP0 and its table voltage; a core rail that does not answer takes its partition out (R742,
R744). -/
def stepRails (r : StepF) (s : State) : State :=
  let s := s.onDev (fun d =>
    let d := (List.range 32).foldl (fun d k => d.out (.board 0 [k, d.startVolt k])) d
    (List.range 8).foldl (fun d p =>
      (d.setReg (0x3400 + p) 0x10 0).setReg (0x3400 + p) 0x11 (d.tableVolt p 0)) d)
  (r.rails.filter (fun k => k.val % 8 < 2)).foldl (fun s k => s.partitionOut (2 * (k.val / 8) + k.val % 8) 4 []) s

/-- The banks entry (R714). -/
def Boot.banksEntry (b : Boot) : Nat :=
  b.banks.getD 0 0 + b.banks.getD 1 0 * 2 + b2n (b.fell.getD 0 0 ≠ 0) * 4 + b2n (b.fell.getD 1 0 ≠ 0) * 8

/-- The image of a type that runs is recorded. -/
def State.runBank (s : State) (t bank fell : Nat) : State :=
  let h := (s.persist.bank t bank).header
  s.onDev (fun d =>
    let d := d.onBoot (fun b => { b with
      banks := setAt b.banks (t - 1) bank, fell := setAt b.fell (t - 1) fell, headers := setAt b.headers (t - 1) (some h) })
    d.setReg 0x6000 0x04 d.boot.banksEntry)

/-- Step 5: the firmware is verified and started and the keys are derived; the microcode's digest, which the attestation
key takes in, is that of the bank that step 7 will load (log entry 48). A SCRAPPED device stops here. -/
def stepSecure (s : State) : State :=
  match s.pickBank 1 with
  | (none, c) => s.onDev (fun d => d.halt c)
  | (some (b, c), _) =>
    let s := s.runBank 1 b c
    let s := match (s.pickBank 2).1 with
      | some (b, c) => s.runBank 2 b c
      | none => s
    let s := s.onDev (fun d => d.setReg 0x1000 0x08 (bytesAt ((d.boot.headers.getD 0 none).getD 0) 8 4))
    let s := s.deriveKeys
    if s.persist.life = 4 then s.onDev (fun d => d.onBoot (fun b => { b with running := false })) else s

/-- Step 6: lanes that failed are marked, failed stacks take their partitions out, every line is zero (R238, R258). -/
def stepHbm (r : StepF) (s : State) : State :=
  let s := { s with mem := { s.mem with hbm := [], hbmErr := [] } }
  let s := r.lanes.foldl (fun s l =>
    if l.1 < 32 && l.2 < 64 * 36 then s.markLane l.1 (l.2 / 36) (l.2 % 36) 4 else s) s
  r.failed.foldl (fun s k => s.partitionOut (partOfStk k.val) 4 []) s

/-- A function that cannot start stays OFF with its enable at 0. -/
def Dev.keepOff (d : Dev) (idx : Nat) : Dev := (d.setReg idx 0x01 0).setField idx 0x02 1 0 0

/-- Step 7: the microcode is loaded into the root engines of partitions in service; the others stay OFF (R699). -/
def stepMicrocode (s : State) : State :=
  let have_ := (s.dev.boot.headers.getD 1 none).isSome
  s.onDev (fun d =>
    let serve := fun (st : Nat) => have_ && d.service (partOfStk st) ≠ 2
    let v := bytesAt ((d.boot.headers.getD 1 none).getD 0) 8 4
    let d := d.setReg 0x6000 0x09 (((List.range 32).filter serve).map (fun st => 2 ^ st)).sum
    let d := (List.range 32).foldl (fun d st =>
      if serve st then d.setReg (0x3800 + st) 0x0D v else d.keepOff (0x3800 + st)) d
    (List.range 64).foldl (fun d e => if d.service (partOfEng e) = 2 then d.keepOff (0x3000 + e) else d) d)

/-- Step 8: the Ethernet ports begin to train; the snapshot ports have enumerated their devices. -/
def stepLinks (r : StepF) (s : State) : State :=
  s.onDev (fun d =>
    let d := (List.range 24).foldl (fun d n => d.setField (0x2C00 + n) 0x02 1 0 (if d.portReg n 0x01 = 1 then 1 else 0)) d
    let d := (List.range 4).foldl (fun d n => d.out (.pin (4 + n) 0)) d
    { d with snap := r.snap.map (·.val), pmem := r.pmem.map (·.val) })

/-- Step 9: presence queries to every populated site (R534). -/
def stepDiscovery (s : State) : State :=
  s.onDev (fun d => (List.range 4).foldl (fun d h => if d.siteUp h then d.out (.sideband h 0) else d) d)

/-- The functions whose enable the settings image clears are stopped at the end of start-up, and those it sets are started
(R679, R685). -/
def State.applyEnable (s : State) (idx : Nat) (r : FnRule) : State :=
  let on := s.dev.reg idx 0x01 = 1
  if on && s.dev.fn idx = 0 then
    (if r.check s = 0 then r.start (s.setFn idx (if r.atOnce then 2 else 1)) else s.onDev (fun d => d.keepOff idx))
  else if !on && s.dev.fn idx ≠ 0 then s.setFn idx 0
  else s

/-- The minimum SVN of a type rises to the SVN that runs (R698). -/
def State.raiseSvn (s : State) (t : Nat) : State :=
  match s.dev.boot.headers.getD (t - 1) none with
  | none => s
  | some h =>
    let v := bytesAt h 12 1
    let old := if t = 1 then s.persist.svnFw else s.persist.svnMc
    if v ≤ old then s else
    ({ s with persist := if t = 1 then { s.persist with svnFw := v } else { s.persist with svnMc := v } }).onDev
      (fun d => d.raiseDev 0x8B07 [t, v])

/-- The first tick: the first whole 100 ms after start-up, or the one that the settings image names (R657, R685). -/
def Dev.firstTick (d : Dev) : Dev :=
  let v := d.reg 0x5C00 0x04
  let t := if d.now + 10000 ≤ v then v else (d.now / 100000000 + 1) * 100000000
  (d.setReg 0x5C00 0x04 t).onTele (fun x => { x with tickAt := t })

/-- Step 10: the dictionary becomes available; enables, minimum SVNs, the first tick, what start-up owes as events, and
PWR_CAP_ALERT# (R685, R697, R698, R708, R747). -/
def stepAvailable (r : StepF) (s : State) : State :=
  let s := (List.range 64).foldl (fun s e => s.applyEnable (0x3000 + e) (engRule e)) s
  let s := (List.range 32).foldl (fun s k => s.applyEnable (0x3800 + k) (rootRule k)) s
  let s := (List.range 24).foldl (fun s n => s.applyEnable (0x2C00 + n) (portRule n)) s
  let s := (List.range 4).foldl (fun s h => if s.dev.populated h then s.applyEnable (0x4800 + h) (siteRule h) else s) s
  let s := (s.applyEnable 0x5800 secureRule).applyEnable 0x5C00 teleRule
  let s := s.applyEnable 0x7000 perturbRule
  let s := (s.raiseSvn 1).raiseSvn 2
  let s := s.onDev (fun d =>
    let d := (d.setReg 0x6000 0x02 10).firstTick
    let d := (d.boot.fell.zipIdx.filter (fun (q : Nat × Nat) => q.1 ≠ 0)).foldl (fun d (q : Nat × Nat) =>
      d.raiseDev 0x8B03 [q.2 + 1, q.1]) d
    let d := match s.persist.lifeOld with
      | some old => d.raiseDev 0x8B05 [old, s.persist.life]
      | none => d
    let d := d.onBoot (fun b => { b with running := false })
    if r.alert then alertEdge true d else d)
  { s with persist := { s.persist with lifeOld := none } }

/-- STARTUP_STEP_COMPLETE: the step under way ends; the device halts, or the next one begins (R685, R687). -/
def startupStep (r : StepF) (s : State) : State :=
  let b := s.dev.boot
  if !b.running || b.halted || b.thermtrip || b.restart then s else
  let n := s.dev.reg 0x6000 0x02 + 1
  let t := match n with
    | 2 => stepClocks r s
    | 3 => stepOtp s
    | 4 => stepRails r s
    | 5 => stepSecure s
    | 6 => stepHbm r s
    | 7 => stepMicrocode s
    | 8 => stepLinks r s
    | 9 => stepDiscovery s
    | _ => stepAvailable r s
  if t.dev.boot.halted then t else t.onDev (fun d => d.setReg 0x6000 0x02 n)

/-- STARTUP_STEP_COMPLETE (R685). -/
def execStartupStepComplete (r : StepF) (s : State) : Host.Outcome State Fault Refusal := .next (startupStep r s)

/-! PLLs (R716, R717). -/

/-- PLL_LOCK_LOSS: the domain's units stall; the loss is counted and event 0x8108 raised; of the FCLK and GCLK PLLs it trips
the clock detector (R710, R717). `pll` is 16 × domain + instance. -/
def pllLoss (pll : Nat) (s : State) : State :=
  let b := s.dev.boot
  if b.reset || b.thermtrip || s.dev.reg 0x6000 0x02 < 2 || s.dev.unlocked.contains pll || 18 ≤ pll / 16 then s else
  let s := s.onDev (fun d =>
    (({ d with unlocked := pll :: d.unlocked }).incReg 0x2400 0x30).raiseDev 0x8108 [pll / 16, pll % 16])
  if pll / 16 = 8 then tamper (pll % 4) 2 s else if pll / 16 = 15 then tamper 0 2 s else s

/-- PLL_LOCK_LOSS (R717). -/
def execPllLockLoss (pll : Nat) (s : State) : Host.Outcome State Fault Refusal := .next (pllLoss pll s)

/-- A PLL has lock again: the units resume (R717). -/
def Dev.pllRelock (d : Dev) (pll : Nat) : Dev := ({ d with unlocked := d.unlocked.erase pll }).pumpAll

/-- A PLL that does not relock in time: a device-wide fault, whose cause is a free value, since the causes of 0x5400:05 name
none for it (R612, R633, R717, log entry 49). -/
def pllTimeout (pll : Nat) (s : State) : State :=
  if s.dev.unlocked.contains pll then
    let (k, d) := s.dev.draw
    ({ s with dev := d }).deviceFault (Config.pick k % 16)
  else s

/-- PLL_RELOCK_TIMEOUT: a relock that takes longer than 100 µs is a device-wide fault (R717). -/
def execPllRelockTimeout (pll : Nat) (s : State) : Host.Outcome State Fault Refusal := .next (pllTimeout pll s)

end Sys2Proof.Machine
end

