-- ==== Sys2Proof/Machine/Dict.lean ====
section
/-! DEFINITION. The messages of the object dictionary: READ, WRITE, READ_BLOCK, LIST and DESCRIBE, their transports, and the
writes whose reply is delayed (R664 to R682, R703, R704, R708, R760). -/
namespace Sys2Proof.Machine
open Sys2Proof

/-! The checks of R672. -/

/-- Step 1 of R672: is a request malformed (R667, R669)? -/
def malformed (op : Nat) (r : Req) : Bool :=
  r.version ≠ 1 || !([1, 2, 3, 4, 5].contains op) || (op ≠ 3 && r.count ≠ 0) || 1 < r.flags || 1024 < r.length ||
  (if op = 2 then r.length = 0 || r.length ≠ r.payload.length
   else r.ty ≠ 0 || r.flags ≠ 0 || r.payload ≠ [] || (op ≠ 1 && r.length ≠ 0))

/-- Step 8 of R672: 0, or the code of an offset, commit flag or length that does not fit the entry. -/
def spanCode (row : EntryRow) (op : Nat) (r : Req) : Nat :=
  if row.ty = .domain then
    (if row.size < r.offset + r.length || (op = 1 && r.length = 0) then 0x010E else 0)
  else if r.offset ≠ 0 || r.flags ≠ 0 || (op = 1 && r.length ≠ 0) then 0x010A else 0

/-- A value as its message carries it: a VSTR without the zeros behind it (R661). -/
def EntryRow.bytes (row : EntryRow) (v : Nat) : List Nat :=
  match row.ty with
  | .vstr => (leBytes row.size v).reverse.dropWhile (· = 0) |>.reverse
  | _ => leBytes row.size v

/-! Requests other than WRITE. -/

/-- What an accepted request returns: count, type and payload; or the code of its refusal. -/
abbrev Ans := Except Nat (Nat × Nat × List Nat)

/-- READ of an entry (R669). -/
def State.readEntry (s : State) (via : Via) (row : EntryRow) (r : Req) : Ans :=
  if row.acc = .wo then .error 0x0103 else
  let v := s.view via r.index r.sub
  .ok (0, row.ty.code,
    if row.ty = .domain then leBytes r.length (bytesAt v r.offset r.length) else row.bytes v)

/-- A record of READ_BLOCK, unless its entry is a DOMAIN or is not read (R669). -/
def State.blockRecord (s : State) (via : Via) (idx sub : Nat) : Option (List Nat) :=
  match s.dev.row idx sub with
  | none => none
  | some row =>
    if row.ty = .domain || row.acc = .wo then none else
    let v := row.bytes (s.view via idx sub)
    some ([sub, row.ty.code] ++ leBytes 2 v.length ++ v)

/-- The records that fit in 1,024 bytes: none follows the first that does not (R670). -/
def fitRecords : Nat → List (List Nat) → List (List Nat)
  | _, [] => []
  | n, r :: rs => if n + r.length ≤ 1024 then r :: fitRecords (n + r.length) rs else []

/-- READ_BLOCK (R670). -/
def State.readBlock (s : State) (via : Via) (r : Req) : Ans :=
  let subs := (0 :: s.dev.subs r.index).filter (fun k => r.sub ≤ k && k ≤ r.count)
  let recs := fitRecords 0 (subs.filterMap (s.blockRecord via r.index))
  .ok (recs.length, 0, recs.flatten)

/-- LIST (R669). -/
def State.listSubs (s : State) (r : Req) : Ans := .ok (0, 0, 0 :: s.dev.subs r.index)

/-- May a host write an entry through its mailbox at some time (R676)? -/
def mailboxMay (idx sub : Nat) : Bool :=
  (ctxIdx idx).isSome || ((siteIdx idx).isSome && !([0x01, 0x07, 0x40].contains sub)) || (idx = 0x4C00 && sub = 0x02) ||
  (idx = 0x3400 && 0x40 ≤ sub && sub ≤ 0x7F) || (0x3000 ≤ idx && idx < 0x3040 && sub = 0x01) ||
  (0x3800 ≤ idx && idx < 0x3820 && sub = 0x01) || (idx = 0x2800 && sub = 0x02) || (idx = 0x6000 && sub = 0x30)

/-- The code of an access class in DESCRIBE (R669). -/
def Acc.code : Acc → Nat
  | .const => 0 | .ro => 1 | .rw => 2 | .wo => 3 | .rwd => 4

/-- The code of a scope (R553, R669). -/
def Scope.code : Scope → Nat
  | .device => 0 | .host => 1 | .context => 2 | .engine => 3 | .port => 4 | .stack => 5 | .partition => 6

/-- A bound in 8 bytes, a signed one with its sign. -/
def EntryRow.wide (row : EntryRow) (v : Nat) : Nat :=
  if (row.ty = .i16 || row.ty = .i32) && bit v (8 * row.size - 1) then v + 2 ^ 64 - 2 ^ (8 * row.size) else v

/-- DESCRIBE (R669, R760). -/
def State.describe (s : State) (row : EntryRow) (r : Req) : Ans :=
  let writable := row.acc = .rw || row.acc = .wo || row.acc = .rwd
  let ways := if writable then 1 + 2 * b2n (mailboxMay r.index r.sub) + 4 * b2n (!row.i3cOnly) else 0
  let text := row.ty = .vstr || row.ty = .domain
  let dflt := if text then 0 else if r.sub = 0 then (s.dev.subs r.index).length
    else row.wide (dfltOf s.dev.mfg r.index r.sub)
  .ok (0, 0, [row.ty.code, row.acc.code, row.scope.code, ways] ++ leBytes 4 row.size ++ leBytes 8 dflt ++
    leBytes 8 (if text then 0 else row.wide row.min) ++ leBytes 8 (if text then 0 else row.wide row.max) ++
    List.replicate 8 0)

/-- Steps 2 to 8 of R672 on a request other than WRITE, and what it returns. -/
def State.ask (s : State) (via : Via) (op : Nat) (r : Req) : Ans :=
  if !(idxPresent r.index) then .error 0x0101 else
  match s.dev.row r.index r.sub with
  | none => .error 0x0102
  | some row =>
    if !(s.dev.visible via r.index r.sub) then .error 0x0109
    else if op = 1 && row.acc = .wo then .error 0x0103
    else
      let c := spanCode row op r
      if c ≠ 0 then .error c else
      match op with
      | 1 => s.readEntry via row r
      | 3 => s.readBlock via r
      | 4 => s.listSubs r
      | _ => s.describe row r

/-! WRITE: the effect of each entry. -/

/-- The rule of the function at an index (R675). -/
def ruleOf (idx : Nat) : Option FnRule :=
  if 0x2C00 ≤ idx && idx < 0x2C18 then some (portRule (idx - 0x2C00))
  else if 0x3000 ≤ idx && idx < 0x3040 then some (engRule (idx - 0x3000))
  else if 0x3800 ≤ idx && idx < 0x3820 then some (rootRule (idx - 0x3800))
  else match ctxIdx idx, siteIdx idx with
    | some c, _ => some (ctxRule c)
    | none, some h => some (siteRule h)
    | none, none =>
      match idx with
      | 0x5800 => some secureRule
      | 0x5C00 => some teleRule
      | 0x7000 => some perturbRule
      | _ => none

/-- Accept a write that only stores its value. -/
def State.store (s : State) (idx sub v : Nat) : WR := (0, s.onDev (fun d => d.setReg idx sub v))

/-- Entries of a context (R381, R399, R463, R465, R628). -/
def ctxWrite (via : Via) (c sub v : Nat) (s : State) : WR :=
  match sub with
  | 0x03 => ownerWrite via c v s
  | 0x04 | 0x06 => (0, s.onDev (fun d => (d.setReg (0x4000 + c) sub v).dropSaves c))
  | 0x0E => streamCtl v c s
  | 0x1C => attachEval c v s
  | 0x29 => rollbackControl c v s
  | _ => s.store (0x4000 + c) sub v

/-- Entries of a port: the resolved addresses of a gateway stay (R525). -/
def portWrite (n sub v : Nat) (s : State) : WR :=
  if sub = 0x07 then s.store (0x2C00 + n) sub (setBytesAt v 32 24 (bytesAt (s.dev.portReg n sub) 32 24))
  else s.store (0x2C00 + n) sub v

/-- Entries of a stack: a write of the fewest buffers free takes the buffers that are free now (R305). -/
def stkWrite (st sub v : Nat) (s : State) : WR :=
  s.store (0x3800 + st) sub (if sub = 0x09 then s.dev.stkReg st 0x08 else v)

/-- Entries of index 0x3400 that carry rules: beds and split groups (R443, R448). -/
def bedsWrite (via : Via) (sub v : Nat) (s : State) : WR :=
  if 0x40 ≤ sub && sub ≤ 0x7F then bedWrite via (sub - 0x40) v s
  else if 0x80 ≤ sub && sub ≤ 0x87 then splitWrite (sub - 0x80) v s
  else s.store 0x3400 sub v

/-- Entries of the device (R236, R251, R424, R564, R632, R642, R645, R656, R690, R700, R709). -/
def deviceWrite (via : Via) (idx sub v : Nat) (s : State) : WR :=
  match idx, sub with
  | 0x2000, 0x11 | 0x2000, 0x12 => (0, s.onDev (fun d => (d.setReg idx sub v).marginPolicy))
  | 0x2800, 0x01 => slabTableWrite v s
  | 0x2800, 0x02 => invalidate via v s
  | 0x4C00, 0x02 => blockWrite via v s
  | 0x5400, 0x11 => (0, { s with persist := { s.persist with tray := v % 2 = 1 } })
  | 0x5C00, 0x04 => nextTick v s
  | 0x5C00, 0x07 => dumpAddress v s
  | 0x5C00, 0x21 => logPosition v s
  | 0x6000, 0x11 => tokenCommit v s
  | 0x6000, 0x12 => (0, s)
  | 0x6000, 0x21 => updateControl v s
  | _, _ => s.store idx sub v

/-- Step 12 of R672 and the effect of an accepted write, by its entry. -/
def writeEffect (via : Via) (idx sub v : Nat) (s : State) : WR :=
  match if sub = 0x01 then ruleOf idx else none with
  | some rule => s.fnWrite rule idx v
  | none =>
    if 0x2C00 ≤ idx && idx < 0x2C18 then portWrite (idx - 0x2C00) sub v s
    else if 0x3000 ≤ idx && idx < 0x3040 && sub = 0x25 then bankGrantWrite (idx - 0x3000) v s
    else if idx = 0x3400 then bedsWrite via sub v s
    else if 0x3800 ≤ idx && idx < 0x3820 then stkWrite (idx - 0x3800) sub v s
    else match ctxIdx idx, siteIdx idx with
      | some c, _ => ctxWrite via c sub v s
      | _, _ => deviceWrite via idx sub v s

/-- A write of reclaim now; none: its reply follows the last held context (R546, R673). -/
def reclaimNow (w : Waiting) (h v : Nat) (s : State) : Option Nat × State :=
  if v % 2 = 0 || (s.dev.site h).phase ≠ 5 then (some 0, s) else
  let s := if s.dev.reclaiming h then s else s.reclaimSite h 2
  if (s.dev.site h).held.isEmpty then (some 0, s) else (none, s.onDev (fun d => d.park { w with kind := 4 + h }))

/-- The effect of an accepted write; none: its reply is delayed (R546, R673, R681, R703, R708). -/
def applyWrite (w : Waiting) (v : Nat) (s : State) : Option Nat × State :=
  match w.req.index, w.req.sub with
  | 0x1800, 0x11 => settingsCommit w v s
  | 0x6000, 0x10 => lifeTransition w v s
  | 0x6000, 0x30 => attest w v s
  | idx, 0x07 =>
    match siteIdx idx with
    | some h => reclaimNow w h v s
    | none => let r := writeEffect w.via idx 0x07 v s; (some r.1, r.2)
  | idx, sub => let r := writeEffect w.via idx sub v s; (some r.1, r.2)

/-! DOMAIN staging (R671). -/

/-- Must a DOMAIN be written whole (R236, R682, R714)? -/
def wholeOnly (idx sub : Nat) : Bool :=
  (idx = 0x2800 && sub = 0x01) || (idx = 0x1800 && sub = 0x10) || (idx = 0x6000 && (sub = 0x11 || sub = 0x30))

/-- A requester's staging buffer of an entry: the one it holds, else a copy of the current value with nothing staged. -/
def State.stagingOf (s : State) (via : Via) (idx sub : Nat) : Staging :=
  (s.dev.dict.staging.find? (fun b => b.via = via && b.key = ekey idx sub)).getD
    { via := via, key := ekey idx sub, value := s.live via idx sub, mask := 0 }

/-- Discard a requester's staging buffer of an entry. -/
def Dev.unstage (d : Dev) (via : Via) (key : Nat) : Dev :=
  { d with dict := { d.dict with staging := d.dict.staging.filter (fun b => !(b.via = via && b.key = key)) } }

/-- The buffer after a write of it. -/
def Staging.place (b : Staging) (r : Req) : Staging :=
  { b with
    value := setBytesAt b.value r.offset r.length (leNat r.payload)
    mask := b.mask ||| (2 ^ r.length - 1) <<< r.offset }

/-- A write to a DOMAIN: it is staged, or with the commit flag the whole staged value is checked and applied, and the buffer
discarded; a refused one leaves the buffer as it was (R671, R672). -/
def domainWrite (w : Waiting) (row : EntryRow) (s : State) : Option Nat × State :=
  let r := w.req
  let b := (s.stagingOf w.via r.index r.sub).place r
  if r.flags = 0 then
    (if row.acc = .rwd && !(s.dev.rwdOk r.index r.sub b.value) then (some 0x0107, s)
     else (some 0, s.onDev (fun d =>
      let d := d.unstage w.via b.key
      { d with dict := { d.dict with staging := d.dict.staging ++ [b] } })))
  else if wholeOnly r.index r.sub && b.mask ≠ 2 ^ row.size - 1 then (some 0x010E, s)
  else
    let c := s.dev.valueChecks row r.index r.sub b.value
    if c ≠ 0 then (some c, s) else
    let q := applyWrite w b.value s
    if q.1.getD 0 ≠ 0 then q else (q.1, q.2.onDev (fun d => d.unstage w.via b.key))

/-- WRITE: steps 2 to 12 of R672; none: its reply is delayed. -/
def State.write (s : State) (w : Waiting) : Option Nat × State :=
  let r := w.req
  match s.dev.writeHead w.via r.index r.sub with
  | .error c => (some c, s)
  | .ok row =>
    if r.ty ≠ row.ty.code || (row.ty ≠ .domain && r.length ≠ row.size) then (some 0x0104, s) else
    let c := spanCode row 2 r
    if c ≠ 0 then (some c, s)
    else if row.ty = .domain then domainWrite w row s
    else
      let v := leNat r.payload
      let c := s.dev.valueChecks row r.index r.sub v
      if c ≠ 0 then (some c, s) else applyWrite w v s

/-! Serving a request (R668, R673, R688, R706). -/

/-- The code that a device answers with while the dictionary is not available; none where it serves the request (R688,
R706). -/
def State.early (s : State) (op : Nat) (r : Req) : Option Nat :=
  if s.dev.avail then none
  else if s.persist.life = 4 && 5 ≤ s.dev.reg 0x6000 0x02 then
    (if op ≠ 2 && (r.index = 0x1000 || r.index = 0x6000) then none else some (s.notYet r.index r.sub))
  else if op = 1 && (r.index = 0x1000 || (r.index = 0x6000 && 1 ≤ r.sub && r.sub ≤ 3)) then none
  else some 0x0B08

/-- Send the reply of a request (R668). -/
def Dev.answer (d : Dev) (w : Waiting) (a : Ans) : Dev :=
  let r := w.req
  let (code, count, ty, payload) := match a with
    | .error c => (c, 0, 0, [])
    | .ok (count, ty, payload) => (0, count, ty, payload)
  d.sendReply w.via (!w.plain)
    { opcode := w.opcode % 128 + 128, tag := r.tag, index := r.index, sub := r.sub, count := count, reason := code, ty := ty,
      state := if idxPresent r.index then d.fnByte r.index else 0, payload := payload }

/-- Serve a request: it waits behind a delayed write of its index; otherwise it is checked, takes effect and is answered. -/
def State.serve (s : State) (w : Waiting) : State :=
  let r := w.req
  match s.early w.opcode r with
  | some c => s.onDev (fun d => d.answer w (.error c))
  | none =>
    if !w.plain && malformed w.opcode r then s.onDev (fun d => d.answer w (.error 0x010A))
    else if s.dev.busyIdx r.index then s.onDev (fun d => d.park { w with kind := 0 })
    else if w.opcode = 2 then
      match s.write w with
      | (some 0, s) => s.onDev (fun d => (d.answer w (.ok (0, 0, []))).afterReply r.index r.sub (leNat r.payload))
      | (some c, s) => s.onDev (fun d => d.answer w (.error c))
      | (none, s) => s
    else s.onDev (fun d => d.answer w (s.ask w.via w.opcode r))

/-- Requests that wait from a requester. -/
def Dev.outstanding (d : Dev) (via : Via) : Nat := (d.dict.waiting.filter (fun w => w.via = via)).length

/-- The requests that a requester may hold (R677): 4 over I3C, 16 over the management VLAN, 1 in a mailbox. -/
def viaLimit : Via → Nat
  | .i3c _ => 4
  | .vlan _ => 16
  | .mailbox _ => 1

/-- A request arrives: unheard, it is dropped; a tag that repeats that of a kept reply receives the reply again; a requester
with too many outstanding is refused (R676, R677). -/
def State.receive (s : State) (via : Via) (op : Nat) (r : Req) : State :=
  let w : Waiting := { via := via, opcode := op, req := r, kind := 0, plain := false }
  if s.dev.deaf via then s.onDev (fun d => d.unheard via)
  else
    let again := match via with
      | .vlan a => (s.dev.dict.kept.find? (fun k => k.1 = a && k.2.tag = r.tag)).map (·.2)
      | _ => none
    match again with
    | some reply => s.onDev (fun d => d.out (.reply via reply))
    | none =>
      if viaLimit via ≤ s.dev.outstanding via then s.onDev (fun d => d.answer w (.error 0x010F)) else s.serve w

/-- READ (R669). -/
def execRead (via : Via) (r : Req) (s : State) : Host.Outcome State Fault Refusal := .next (s.receive via 1 r)
/-- WRITE (R672). -/
def execWrite (via : Via) (r : Req) (s : State) : Host.Outcome State Fault Refusal := .next (s.receive via 2 r)
/-- READ_BLOCK (R670). -/
def execReadBlock (via : Via) (r : Req) (s : State) : Host.Outcome State Fault Refusal := .next (s.receive via 3 r)
/-- LIST (R669). -/
def execList (via : Via) (r : Req) (s : State) : Host.Outcome State Fault Refusal := .next (s.receive via 4 r)
/-- DESCRIBE (R760). -/
def execDescribe (via : Via) (r : Req) (s : State) : Host.Outcome State Fault Refusal := .next (s.receive via 5 r)

/-- MAILBOX_SUBMIT: ignored while the mailbox is busy; a reply that is ready is discarded (R676). -/
def mailboxSubmit (h : Fin 4) (op : Nat) (r : Req) (s : State) : State :=
  if s.dev.deaf (.mailbox h) then s
  else (s.onDev (fun d => d.updSite h.val (fun x => { x with mbState := 0, mbReply := none }))).receive (.mailbox h) op r

/-- MAILBOX_SUBMIT (R676). -/
def execMailboxSubmit (h : Fin 4) (opcode : Nat) (r : Req) (s : State) : Host.Outcome State Fault Refusal :=
  .next (s.hostSide h.val (.mailboxSubmit h opcode r) (mailboxSubmit h opcode r))

/-- A host acknowledges a reply (R676). -/
def Dev.mailboxAck (d : Dev) (h : Nat) : Dev :=
  if (d.site h).mbState = 2 then d.updSite h (fun x => { x with mbState := 0, mbReply := none }) else d

/-- MAILBOX_ACKNOWLEDGE (R676). -/
def execMailboxAcknowledge (h : Fin 4) (s : State) : Host.Outcome State Fault Refusal :=
  .next (s.hostSide h.val (.mailboxAcknowledge h) (fun s => s.onDev (fun d => d.mailboxAck h.val)))

/-- DOMAIN_STAGING_DISCARD (R671). -/
def execDomainStagingDiscard (via : Via) (index sub : Nat) (s : State) : Host.Outcome State Fault Refusal :=
  .next (s.onDev (fun d => d.unstage via (ekey index sub)))

/-- REPLY_CACHE_EXPIRY: the oldest kept reply of a sender with the tag goes (R677). -/
def execReplyCacheExpiry (sender tag : Nat) (s : State) : Host.Outcome State Fault Refusal :=
  .next (s.onDev (fun d => match d.dict.kept.find? (fun k => k.1 = sender && k.2.tag = tag) with
    | some k => { d with dict := { d.dict with kept := d.dict.kept.erase k } }
    | none => d))

/-- SET_ENDPOINT_ID: the MCTP endpoint (R677). -/
def execSetEndpointId (eid : Nat) (s : State) : Host.Outcome State Fault Refusal :=
  .next (s.onDev (fun d => if d.mute (.i3c 0) then d else d.setReg 0x1100 0x0F (setBytesAt (d.reg 0x1100 0x0F) 0 1 eid)))

/-- DYNAMIC_ADDRESS_ASSIGNMENT: the I3C address (R677). -/
def execDynamicAddressAssignment (addr : Nat) (s : State) : Host.Outcome State Fault Refusal :=
  .next (s.onDev (fun d => if d.mute (.i3c 0) then d else d.setReg 0x1100 0x0F (setBytesAt (d.reg 0x1100 0x0F) 1 1 addr)))

/-! Functions that end STOPPING (R675). -/

/-- Have the conditions that end the STOPPING of a function been met? -/
def State.stopDone (s : State) (idx : Nat) : Bool :=
  let d := s.dev
  if 0x3000 ≤ idx && idx < 0x3040 then
    let x := d.eng (idx - 0x3000)
    x.jobs.isEmpty && x.vq.isEmpty && x.dq.isEmpty && x.sets.all (fun b => b.st = 0)
  else if 0x3800 ≤ idx && idx < 0x3820 then
    -- its running jobs have retired; what its intake holds waits (R276, R306)
    (d.stk (idx - 0x3800)).queue.all (fun r => !r.started) && (d.stk (idx - 0x3800)).arms.isEmpty
  else if idx = 0x5800 then !d.imaging
  else if idx = 0x5C00 then !d.tele.harvesting
  else true

/-- A function ends its STOPPING (R675). -/
def stoppingEnd (idx : Nat) (s : State) : State :=
  if s.dev.fn idx ≠ 3 || !(isFunction idx) then s
  else match ctxIdx idx with
    | some c => contextStop c s
    | none =>
      if 0x2C00 ≤ idx && idx < 0x2C18 then s.portStopped (idx - 0x2C00)
      else match ruleOf idx with
        | some rule => if s.stopDone idx then s.fnStopped rule idx else s
        | none => s

/-! Writes whose reply is delayed. -/

/-- Requests that waited behind a delayed write of an index are served in their order (R673). -/
def State.unblock (s : State) (idx : Nat) : State :=
  if s.dev.busyIdx idx then s else
  let held := fun (w : Waiting) => w.kind = 0 && w.req.index = idx
  let mine := s.dev.dict.waiting.filter held
  let s := s.onDev (fun d => { d with dict := { d.dict with waiting := d.dict.waiting.filter (fun w => !(held w)) } })
  mine.foldl (fun s w =>
    let s := match w.via with
      | .mailbox h => s.onDev (fun d => d.updSite h.val (fun x => { x with mbState := 0 }))
      | _ => s
    s.serve w) s

/-- Requests that waited behind a reclamation are served (R546, R673). -/
def State.unblockSites (s : State) : State := (List.range 4).foldl (fun s h => s.unblock (0x4800 + h)) s

/-- FUNCTION_STOPPING_END (R675). -/
def execFunctionStoppingEnd (index : Nat) (s : State) : Host.Outcome State Fault Refusal :=
  .next (stoppingEnd index s).unblockSites

/-- CONTEXT_STOP_COMPLETE (R384). -/
def execContextStopComplete (c : Fin 1024) (s : State) : Host.Outcome State Fault Refusal :=
  .next (contextStop c.val s).unblockSites

/-- A write that has a command of its own, as a request. -/
def State.ownWrite (s : State) (via : Via) (idx sub v : Nat) : State :=
  if s.dev.deaf via then s.onDev (fun d => d.unheard via) else s.serve (s.dev.wholeWrite via idx sub v)

/-- RECLAIM_NOW (R546). -/
def execReclaimNow (via : Via) (h : Fin 4) (v : Nat) (s : State) : Host.Outcome State Fault Refusal :=
  .next (s.ownWrite via (0x4800 + h.val) 0x07 v)

/-- SETTINGS_COMMIT (R681). -/
def execSettingsCommit (via : Via) (generation : Nat) (s : State) : Host.Outcome State Fault Refusal :=
  .next (s.ownWrite via 0x1800 0x11 generation)

/-- SETTINGS_BURN_COMPLETE (R681). -/
def execSettingsBurnComplete (ok : Bool) (s : State) : Host.Outcome State Fault Refusal :=
  .next ((settingsBurned ok s).unblock 0x1800)

/-- LIFE_CYCLE_TRANSITION (R707, R708). -/
def execLifeCycleTransition (via : Via) (v : Nat) (s : State) : Host.Outcome State Fault Refusal :=
  .next (s.ownWrite via 0x6000 0x10 v)

/-- LIFE_CYCLE_BURN_COMPLETE (R708). -/
def execLifeCycleBurnComplete (s : State) : Host.Outcome State Fault Refusal := .next ((lifeBurned s).unblock 0x6000)

/-- ATTESTATION_NONCE (R704). -/
def execAttestationNonce (via : Via) (nonce : Nat) (s : State) : Host.Outcome State Fault Refusal :=
  .next (s.ownWrite via 0x6000 0x30 nonce)

/-- KEY_REDERIVATION (R703). -/
def execKeyRederivation (s : State) : Host.Outcome State Fault Refusal := .next ((keyRederivation s).unblock 0x6000)

end Sys2Proof.Machine
end

