-- ==== Sys2Proof/Machine/Hosts.lean ====
section
/-! DEFINITION. What a host sent while its link held it takes effect once the link is active again (R532, R536, R717). -/
namespace Sys2Proof.Machine
open Sys2Proof

/-- A transaction of a host that its link held; every other command is none. -/
def hostEffect (i : Instr) (s : State) : State :=
  match i with
  | .commandSubmit h offset size aligned data => s.windowWrite h.val offset size aligned data
  | .hostCxlMemAccess h write dpa len data => hostAccess h.val write dpa len data s
  | .syncWindowRead h y => s.onDev (fun d => d.syncRead h.val y.val)
  | .syncWindowWrite h y v => s.onDev (fun d => d.syncWrite h.val y.val v)
  | .hdmDecoderCommit h => s.onDev (fun d => d.hdmCommit h.val)
  | .attach h ringBase ringCtl key regs => attach h.val ringBase ringCtl key regs s
  | .detachAndHold h => detachWrite h.val 0 s
  | .detachAndRelease h => detachWrite h.val 1 s
  | .consumerIndexWrite h v => siteWrite h.val (fun d => d.consume h.val v) s
  | .summaryClear h v => siteWrite h.val (fun d => d.clearSummary h.val v) s
  | .mailboxSubmit h opcode r => mailboxSubmit h opcode r s
  | .mailboxAcknowledge h => s.onDev (fun d => d.mailboxAck h.val)
  | _ => s

/-- What a site's link held takes effect, in order, where the link holds no longer (R532). -/
def State.releaseHost (s : State) (h : Nat) : State :=
  if s.dev.linkHolds h then s else
  (s.dev.site h).heldIn.foldl (fun s i => hostEffect i s)
    (s.onDev (fun d => d.updSite h (fun x => { x with heldIn := [] })))

/-- The active state is reached; a retraining that ends so releases what it held (R532). -/
def State.linkActive (s : State) (h modules rate repaired : Nat) : State :=
  let x := s.dev.site h
  let t := s.onDev (linkTrained h modules rate repaired)
  if x.link = 3 && x.heldLink then t.releaseHost h else t

/-- LINK_TRAINED (R530). -/
def execLinkTrained (h : Fin 4) (modules rate repaired : Nat) (s : State) : Host.Outcome State Fault Refusal :=
  .next (s.linkActive h.val modules rate repaired)

/-- The UCLK PLL of a site that has lock again releases what its link held (R717). -/
def State.relocked (s : State) (pll : Nat) : State :=
  let t := s.onDev (fun d => d.pllRelock pll)
  if pll / 16 = 13 then t.releaseHost (pll % 16) else t

/-- PLL_RELOCK (R717). -/
def execPllRelock (pll : Nat) (s : State) : Host.Outcome State Fault Refusal := .next (s.relocked pll)

end Sys2Proof.Machine
end

