-- ==== Sys2Proof/Machine/Jtag.lean ====
section
/-! DEFINITION. The test access port (R731 to R734). -/
namespace Sys2Proof.Machine
open Sys2Proof

/-- Change the test access port. -/
def Dev.onTap (d : Dev) (f : Tap → Tap) : Dev := { d with tap := f d.tap }

/-- The bypass register is selected: it captures 0, and one shift takes TDI in (PRESUMED from IEEE 1149.1, log entry 70). -/
def Dev.tapBypass (d : Dev) (tdi : Bool) : Dev :=
  (d.onTap (fun t => { t with ir := 0xFF, bypass := tdi, mode := 0 })).out (.tdo 1 0)

/-- BYPASS (R731). -/
def execBypass (tdi : Bool) (s : State) : Host.Outcome State Fault Refusal := .next (s.onDev (fun d => d.tapBypass tdi))

/-- The IDCODE register (R732). -/
def Dev.idcode (d : Dev) : Nat := (d.mfg.stepping / 16 % 16) <<< 28 + 0x5064 <<< 12 + (d.mfg.jep % 2048) <<< 1 + 1

/-- IDCODE (R732). -/
def execIdcode (s : State) : Host.Outcome State Fault Refusal :=
  .next (s.onDev (fun d => (d.onTap (fun t => { t with ir := 0x01, mode := 0 })).out (.tdo 32 d.idcode)))

/-- What the boundary-scan chain captures from its lands (R733): the order of its cells stands in a description outside the
spec, so the captured word is the free value of log entry 71 for the levels that the model holds. -/
def Dev.tapCapture (d : Dev) : Out :=
  .tdo Config.scanCells (Config.scanWord [b2n d.pow.alert, b2n d.boot.thermtrip, d.boot.straps, b2n d.boot.reset])

/-- SAMPLE/PRELOAD: the lands are captured and shifted out, the given word is loaded into the cells (R731, R733). -/
def execSamplePreload (boundary : Nat) (s : State) : Host.Outcome State Fault Refusal :=
  .next (s.onDev (fun d => (d.out d.tapCapture).onTap (fun t => { t with ir := 0x02, cells := boundary, mode := 0 })))

/-- EXTEST: while RESET# is asserted, the lands are captured, and driven from the given word; otherwise BYPASS (R731). -/
def execExtest (boundary : Nat) (s : State) : Host.Outcome State Fault Refusal :=
  .next (s.onDev (fun d =>
    if d.boot.reset then (d.out d.tapCapture).onTap (fun t => { t with ir := 0x03, cells := boundary, mode := 1 })
    else d.tapBypass false))

/-- CLAMP and HIGHZ: while RESET# is asserted, the lands are held from the cells or released, with the bypass register
selected; otherwise BYPASS (R731). -/
def Dev.tapHold (d : Dev) (code mode : Nat) : Dev :=
  if d.boot.reset then d.onTap (fun t => { t with ir := code, bypass := false, mode := mode }) else d.tapBypass false

/-- CLAMP (R731). -/
def execClamp (s : State) : Host.Outcome State Fault Refusal := .next (s.onDev (fun d => d.tapHold 0x04 2))
/-- HIGHZ (R731). -/
def execHighz (s : State) : Host.Outcome State Fault Refusal := .next (s.onDev (fun d => d.tapHold 0x05 3))

/-- DEBUG: in MANUFACTURE and RETURNED, the Gardener presents an access at input 4 of the management bus; otherwise BYPASS
(R706, R731, R734). What the access does beyond the bus is not described (log entry 72). -/
def execDebug (v : Nat) (s : State) : Host.Outcome State Fault Refusal :=
  .next (s.onDev (fun d =>
    if s.persist.life ≠ 0 && s.persist.life ≠ 3 then d.tapBypass (v % 2 = 1)
    else
      let d := d.onTap (fun t => { t with ir := 0x10, mode := 0 })
      if d.boot.reset || d.boot.thermtrip then d
      else { d with arbs := Tbl.upd Arb.reset 77 (fun a => { a with held := a.held ++ [4] }) d.arbs }))

/-- TRST_ASSERT: test-logic reset selects IDCODE (R731). -/
def execTrstAssert (s : State) : Host.Outcome State Fault Refusal :=
  .next (s.onDev (fun d => d.onTap (fun t => { t with ir := 0x01, mode := 0 })))

end Sys2Proof.Machine
end

