-- ==== Sys2Proof/Machine/Dispatch.lean ====
section
/-! DEFINITION. Which meaning each command has: one arm per constructor of `Instr`. -/
namespace Sys2Proof.Machine
open Sys2Proof

/-- The effect of a command on everything but the queue. -/
def exec (i : Instr) (s : State) : Host.Outcome State Fault Refusal :=
  match i with
  | .nop o reserved => Sys2Proof.Machine.execNop o reserved s
  | .swait o obj timeout value reserved => Sys2Proof.Machine.execSwait o obj timeout value reserved s
  | .ssignalAdd o obj value reserved => Sys2Proof.Machine.execSsignalAdd o obj value reserved s
  | .ssignalSet o obj value reserved => Sys2Proof.Machine.execSsignalSet o obj value reserved s
  | .sremote o obj rank handle value reserved => Sys2Proof.Machine.execSremote o obj rank handle value reserved s
  | .sfence o addr value reserved => Sys2Proof.Machine.execSfence o addr value reserved s
  | .mtile o f => Sys2Proof.Machine.execMtile o f s
  | .vconv o f => Sys2Proof.Machine.execVconv o f s
  | .vadd o f => Sys2Proof.Machine.execVadd o f s
  | .vsub o f => Sys2Proof.Machine.execVsub o f s
  | .vmul o f => Sys2Proof.Machine.execVmul o f s
  | .vfma o f => Sys2Proof.Machine.execVfma o f s
  | .vmax o f => Sys2Proof.Machine.execVmax o f s
  | .vmin o f => Sys2Proof.Machine.execVmin o f s
  | .vscale o f => Sys2Proof.Machine.execVscale o f s
  | .vdiv o f => Sys2Proof.Machine.execVdiv o f s
  | .vfunc o f => Sys2Proof.Machine.execVfunc o f s
  | .vsel o f => Sys2Proof.Machine.execVsel o f s
  | .vfill o f => Sys2Proof.Machine.execVfill o f s
  | .vtrans o f => Sys2Proof.Machine.execVtrans o f s
  | .vredsum o f => Sys2Proof.Machine.execVredsum o f s
  | .vredsq o f => Sys2Proof.Machine.execVredsq o f s
  | .vredmax o f => Sys2Proof.Machine.execVredmax o f s
  | .vtopk o f => Sys2Proof.Machine.execVtopk o f s
  | .vwin o f => Sys2Proof.Machine.execVwin o f s
  | .vsoftmax o f => Sys2Proof.Machine.execVsoftmax o f s
  | .vdeq o f => Sys2Proof.Machine.execVdeq o f s
  | .mcopy o f => Sys2Proof.Machine.execMcopy o f s
  | .mgather o f => Sys2Proof.Machine.execMgather o f s
  | .mscatter o f => Sys2Proof.Machine.execMscatter o f s
  | .callred o f => Sys2Proof.Machine.execCallred o f s
  | .credscat o f => Sys2Proof.Machine.execCredscat o f s
  | .cgather o f => Sys2Proof.Machine.execCgather o f s
  | .cbcast o f => Sys2Proof.Machine.execCbcast o f s
  | .ctopk o f => Sys2Proof.Machine.execCtopk o f s
  | .cwin o f => Sys2Proof.Machine.execCwin o f s
  | .chandleOpenJob o f => Sys2Proof.Machine.execChandleOpenJob o f s
  | .chandleOpenStorage o f => Sys2Proof.Machine.execChandleOpenStorage o f s
  | .chandleClose o f => Sys2Proof.Machine.execChandleClose o f s
  | .chandleNewEpoch o f => Sys2Proof.Machine.execChandleNewEpoch o f s
  | .chandleBindEmit o f => Sys2Proof.Machine.execChandleBindEmit o f s
  | .rjobs o list count reserved => Sys2Proof.Machine.execRjobs o list count reserved s
  | .unorm o list table handle control reserved => Sys2Proof.Machine.execUnorm o list table handle control reserved s
  | .ufence o table reserved => Sys2Proof.Machine.execUfence o table reserved s
  | .hphase o lead duration cls parts reserved => Sys2Proof.Machine.execHphase o lead duration cls parts reserved s
  | .hcancel o reserved => Sys2Proof.Machine.execHcancel o reserved s
  | .sopen o f => Sys2Proof.Machine.execSopen o f s
  | .sclose o reserved => Sys2Proof.Machine.execSclose o reserved s
  | .srestore o f => Sys2Proof.Machine.execSrestore o f s
  | .stage st j => Sys2Proof.Machine.execStage st j s
  | .compress st j => Sys2Proof.Machine.execCompress st j s
  | .update st j => Sys2Proof.Machine.execUpdate st j s
  | .copy st j => Sys2Proof.Machine.execCopy st j s
  | .convert st j => Sys2Proof.Machine.execConvert st j s
  | .streamOut st j => Sys2Proof.Machine.execStreamOut st j s
  | .streamIn st j data => Sys2Proof.Machine.execStreamIn st j data s
  | .translationReply st ctx va => Sys2Proof.Machine.execTranslationReply st ctx va s
  | .chunkDelivery st ctx tensor q elems bad => Sys2Proof.Machine.execChunkDelivery st ctx tensor q elems bad s
  | .chunkStaged st ctx tensor q => Sys2Proof.Machine.execChunkStaged st ctx tensor q s
  | .emissionAccepted st waited => Sys2Proof.Machine.execEmissionAccepted st waited s
  | .commandSubmit h offset size aligned data => Sys2Proof.Machine.execCommandSubmit h offset size aligned data s
  | .dropEventTimer c k => Sys2Proof.Machine.execDropEventTimer c k s
  | .commandIssue => Sys2Proof.Machine.execCommandIssue s
  | .commandComplete c k seq accepted => Sys2Proof.Machine.execCommandComplete c k seq accepted s
  | .streamControlResumeAfter via c k => Sys2Proof.Machine.execStreamControlResumeAfter via c k s
  | .streamControlDiscard via c k => Sys2Proof.Machine.execStreamControlDiscard via c k s
  | .streamControlRetry via c k => Sys2Proof.Machine.execStreamControlRetry via c k s
  | .contextOwnerWrite via c v => Sys2Proof.Machine.execContextOwnerWrite via c v s
  | .contextEnableWrite via c v => Sys2Proof.Machine.execContextEnableWrite via c v s
  | .contextStopComplete c => Sys2Proof.Machine.execContextStopComplete c s
  | .blockAssign via block remote notify hosts c => Sys2Proof.Machine.execBlockAssign via block remote notify hosts c s
  | .blockFree via block c => Sys2Proof.Machine.execBlockFree via block c s
  | .syncOpGrant => Sys2Proof.Machine.execSyncOpGrant s
  | .swaitTimeout c k => Sys2Proof.Machine.execSwaitTimeout c k s
  | .syncWindowRead h y => Sys2Proof.Machine.execSyncWindowRead h y s
  | .syncWindowWrite h y v => Sys2Proof.Machine.execSyncWindowWrite h y v s
  | .remoteSignalReceive handle epoch job sender y v => Sys2Proof.Machine.execRemoteSignalReceive handle epoch job sender y v s
  | .translationInvalidate via v => Sys2Proof.Machine.execTranslationInvalidate via v s
  | .slabTableWrite via table => Sys2Proof.Machine.execSlabTableWrite via table s
  | .tileFeedStart e waited stalled => Sys2Proof.Machine.execTileFeedStart e waited stalled s
  | .weightLoadComplete e => Sys2Proof.Machine.execWeightLoadComplete e s
  | .tileJobRetire e ns => Sys2Proof.Machine.execTileJobRetire e ns s
  | .runnerMerge e ns => Sys2Proof.Machine.execRunnerMerge e ns s
  | .drainStart e set => Sys2Proof.Machine.execDrainStart e set s
  | .drainComplete e set => Sys2Proof.Machine.execDrainComplete e set s
  | .arrayClockGate e => Sys2Proof.Machine.execArrayClockGate e s
  | .tileCheck e => Sys2Proof.Machine.execTileCheck e s
  | .vectorTileBoundary e ns busy stalled => Sys2Proof.Machine.execVectorTileBoundary e ns busy stalled s
  | .setSave e set => Sys2Proof.Machine.execSetSave e set s
  | .setRestore e set => Sys2Proof.Machine.execSetRestore e set s
  | .engineEnableWrite via e v => Sys2Proof.Machine.execEngineEnableWrite via e v s
  | .scratchpadWriteback e bank => Sys2Proof.Machine.execScratchpadWriteback e bank s
  | .scrubRead e bank upsets => Sys2Proof.Machine.execScrubRead e bank upsets s
  | .scrubForced e bank upsets => Sys2Proof.Machine.execScrubForced e bank upsets s
  | .wipeComplete d => Sys2Proof.Machine.execWipeComplete d s
  | .keyRederivation => Sys2Proof.Machine.execKeyRederivation s
  | .arbiterGrant place presented => Sys2Proof.Machine.execArbiterGrant place presented s
  | .longestWaitClear via place v => Sys2Proof.Machine.execLongestWaitClear via place v s
  | .hbmRequest st input write off len data ctx upsets => Sys2Proof.Machine.execHbmRequest st input write off len data ctx upsets s
  | .hostCxlMemAccess h write dpa len data => Sys2Proof.Machine.execHostCxlMemAccess h write dpa len data s
  | .hbmWriteback st line => Sys2Proof.Machine.execHbmWriteback st line s
  | .laneMark st pc lane => Sys2Proof.Machine.execLaneMark st pc lane s
  | .patrolScrubRead st pc upsets => Sys2Proof.Machine.execPatrolScrubRead st pc upsets s
  | .patrolScrubForced st pc upsets => Sys2Proof.Machine.execPatrolScrubForced st pc upsets s
  | .refresh st pc sid bank busy => Sys2Proof.Machine.execRefresh st pc sid bank busy s
  | .refreshForced st pc sid bank => Sys2Proof.Machine.execRefreshForced st pc sid bank s
  | .retraining st pc => Sys2Proof.Machine.execRetraining st pc s
  | .retrainingForced st pc => Sys2Proof.Machine.execRetrainingForced st pc s
  | .imageComplete c target => Sys2Proof.Machine.execImageComplete c target s
  | .securingHoldRelease st cycles => Sys2Proof.Machine.execSecuringHoldRelease st cycles s
  | .networkHeaderAck c ok => Sys2Proof.Machine.execNetworkHeaderAck c ok s
  | .securingEnableWrite via v => Sys2Proof.Machine.execSecuringEnableWrite via v s
  | .bedWrite via b v => Sys2Proof.Machine.execBedWrite via b v s
  | .splitGroupWrite via g v => Sys2Proof.Machine.execSplitGroupWrite via g v s
  | .engineGrantWrite via e v => Sys2Proof.Machine.execEngineGrantWrite via e v s
  | .bankGrantWrite via e v => Sys2Proof.Machine.execBankGrantWrite via e v s
  | .evaluationAttachWrite via c v => Sys2Proof.Machine.execEvaluationAttachWrite via c v s
  | .windowClose c => Sys2Proof.Machine.execWindowClose c s
  | .windowEarlyClose c => Sys2Proof.Machine.execWindowEarlyClose c s
  | .overrunLimitExpiry c => Sys2Proof.Machine.execOverrunLimitExpiry c s
  | .linkStateChange n k up lanes => Sys2Proof.Machine.execLinkStateChange n k up lanes s
  | .laneRetrainComplete n lanes => Sys2Proof.Machine.execLaneRetrainComplete n lanes s
  | .frameReceive n k f => Sys2Proof.Machine.execFrameReceive n k f s
  | .transportPacketReceive n k p => Sys2Proof.Machine.execTransportPacketReceive n k p s
  | .ackTimer handle rank => Sys2Proof.Machine.execAckTimer handle rank s
  | .ackReceive handle rank cum sack window => Sys2Proof.Machine.execAckReceive handle rank cum sack window s
  | .windowProbeTimer handle rank => Sys2Proof.Machine.execWindowProbeTimer handle rank s
  | .retransmissionTimeout handle rank psn => Sys2Proof.Machine.execRetransmissionTimeout handle rank psn s
  | .cnpReceive handle rank sub => Sys2Proof.Machine.execCnpReceive handle rank sub s
  | .rateIncreaseTimer handle rank sub => Sys2Proof.Machine.execRateIncreaseTimer handle rank sub s
  | .epochResponseReceive handle rank epoch => Sys2Proof.Machine.execEpochResponseReceive handle rank epoch s
  | .digestMismatchResponse handle rank seq => Sys2Proof.Machine.execDigestMismatchResponse handle rank seq s
  | .storageAckReceive handle seq status => Sys2Proof.Machine.execStorageAckReceive handle seq status s
  | .pfcFrameReceive n k classes quanta => Sys2Proof.Machine.execPfcFrameReceive n k classes quanta s
  | .ptpMessageReceive n k offset => Sys2Proof.Machine.execPtpMessageReceive n k offset s
  | .ppsInputEdge offset => Sys2Proof.Machine.execPpsInputEdge offset s
  | .ppsOutputSecond => Sys2Proof.Machine.execPpsOutputSecond s
  | .lldpSendTimer n k => Sys2Proof.Machine.execLldpSendTimer n k s
  | .collectiveTimeout handle seq => Sys2Proof.Machine.execCollectiveTimeout handle seq s
  | .normCollectiveComplete c ok rows marks => Sys2Proof.Machine.execNormCollectiveComplete c ok rows marks s
  | .chunkReofferTimer st ctx tensor q => Sys2Proof.Machine.execChunkReofferTimer st ctx tensor q s
  | .chunkWaitEvent st ctx tensor q => Sys2Proof.Machine.execChunkWaitEvent st ctx tensor q s
  | .faultNoticeReceive handle epoch rank kind => Sys2Proof.Machine.execFaultNoticeReceive handle epoch rank kind s
  | .presenceQueryTimer h => Sys2Proof.Machine.execPresenceQueryTimer h s
  | .presenceResponse h => Sys2Proof.Machine.execPresenceResponse h s
  | .linkTrained h modules rate repaired => Sys2Proof.Machine.execLinkTrained h modules rate repaired s
  | .linkRetrainRequest h => Sys2Proof.Machine.execLinkRetrainRequest h s
  | .linkLoss h cause => Sys2Proof.Machine.execLinkLoss h cause s
  | .attach h ringBase ringCtl key regs => Sys2Proof.Machine.execAttach h ringBase ringCtl key regs s
  | .detachAndHold h => Sys2Proof.Machine.execDetachAndHold h s
  | .detachAndRelease h => Sys2Proof.Machine.execDetachAndRelease h s
  | .gracePeriodExpiry h => Sys2Proof.Machine.execGracePeriodExpiry h s
  | .reclaimNow via h v => Sys2Proof.Machine.execReclaimNow via h v s
  | .consumerIndexWrite h v => Sys2Proof.Machine.execConsumerIndexWrite h v s
  | .summaryClear h v => Sys2Proof.Machine.execSummaryClear h v s
  | .coalescingWindowExpiry target => Sys2Proof.Machine.execCoalescingWindowExpiry target s
  | .interruptModerationTimer h => Sys2Proof.Machine.execInterruptModerationTimer h s
  | .siteEnableWrite via h v => Sys2Proof.Machine.execSiteEnableWrite via h v s
  | .governorTick act => Sys2Proof.Machine.execGovernorTick act s
  | .floorLeave => Sys2Proof.Machine.execFloorLeave s
  | .laneRestore n => Sys2Proof.Machine.execLaneRestore n s
  | .telemetrySample samples => Sys2Proof.Machine.execTelemetrySample samples s
  | .telemetryWindowEnd => Sys2Proof.Machine.execTelemetryWindowEnd s
  | .marginRaiseTimer p => Sys2Proof.Machine.execMarginRaiseTimer p s
  | .canaryWarning p => Sys2Proof.Machine.execCanaryWarning p s
  | .operatingPointChoice => Sys2Proof.Machine.execOperatingPointChoice s
  | .opUpPclkSlew p => Sys2Proof.Machine.execOpUpPclkSlew p s
  | .avsWriteComplete p => Sys2Proof.Machine.execAvsWriteComplete p s
  | .boardCapWrite via v => Sys2Proof.Machine.execBoardCapWrite via v s
  | .operatorCapWrite via v => Sys2Proof.Machine.execOperatorCapWrite via v s
  | .pwrCapAlertEdge asserted => Sys2Proof.Machine.execPwrCapAlertEdge asserted s
  | .droopTrip p => Sys2Proof.Machine.execDroopTrip p s
  | .droopClear p cycles => Sys2Proof.Machine.execDroopClear p cycles s
  | .marginHoldExpiry p => Sys2Proof.Machine.execMarginHoldExpiry p s
  | .thermalCeilingTimer p t => Sys2Proof.Machine.execThermalCeilingTimer p t s
  | .hardThermalEntry p t => Sys2Proof.Machine.execHardThermalEntry p t s
  | .stackThermalLimit st t => Sys2Proof.Machine.execStackThermalLimit st t s
  | .thermtrip => Sys2Proof.Machine.execThermtrip s
  | .flitCrcFailure kind unit fails => Sys2Proof.Machine.execFlitCrcFailure kind unit fails s
  | .hangTimeout kind unit => Sys2Proof.Machine.execHangTimeout kind unit s
  | .partitionResetDrained p => Sys2Proof.Machine.execPartitionResetDrained p s
  | .partitionResetComplete p ok => Sys2Proof.Machine.execPartitionResetComplete p ok s
  | .replayStart p => Sys2Proof.Machine.execReplayStart p s
  | .rollbackControlWrite via c v => Sys2Proof.Machine.execRollbackControlWrite via c v s
  | .deviceWideFault cause => Sys2Proof.Machine.execDeviceWideFault cause s
  | .harvestTick => Sys2Proof.Machine.execHarvestTick s
  | .harvestComplete => Sys2Proof.Machine.execHarvestComplete s
  | .dumpComplete => Sys2Proof.Machine.execDumpComplete s
  | .nextTickWrite via v => Sys2Proof.Machine.execNextTickWrite via v s
  | .logReadPositionWrite via v => Sys2Proof.Machine.execLogReadPositionWrite via v s
  | .read via r => Sys2Proof.Machine.execRead via r s
  | .write via r => Sys2Proof.Machine.execWrite via r s
  | .readBlock via r => Sys2Proof.Machine.execReadBlock via r s
  | .list via r => Sys2Proof.Machine.execList via r s
  | .describe via r => Sys2Proof.Machine.execDescribe via r s
  | .mailboxSubmit h opcode r => Sys2Proof.Machine.execMailboxSubmit h opcode r s
  | .mailboxAcknowledge h => Sys2Proof.Machine.execMailboxAcknowledge h s
  | .domainStagingDiscard via index sub => Sys2Proof.Machine.execDomainStagingDiscard via index sub s
  | .replyCacheExpiry sender tag => Sys2Proof.Machine.execReplyCacheExpiry sender tag s
  | .functionStoppingEnd index => Sys2Proof.Machine.execFunctionStoppingEnd index s
  | .rootEngineEnableWrite via st v => Sys2Proof.Machine.execRootEngineEnableWrite via st v s
  | .portEnableWrite via n v => Sys2Proof.Machine.execPortEnableWrite via n v s
  | .portStartingTimeout n => Sys2Proof.Machine.execPortStartingTimeout n s
  | .telemetryEnableWrite via v => Sys2Proof.Machine.execTelemetryEnableWrite via v s
  | .perturbationEnableWrite via v => Sys2Proof.Machine.execPerturbationEnableWrite via v s
  | .fewestBuffersReset via st v => Sys2Proof.Machine.execFewestBuffersReset via st v s
  | .settingsCommit via generation => Sys2Proof.Machine.execSettingsCommit via generation s
  | .settingsBurnComplete ok => Sys2Proof.Machine.execSettingsBurnComplete ok s
  | .resetAssert => Sys2Proof.Machine.execResetAssert s
  | .resetRelease straps => Sys2Proof.Machine.execResetRelease straps s
  | .startupStepComplete r => Sys2Proof.Machine.execStartupStepComplete r s
  | .deviceResetWrite via v => Sys2Proof.Machine.execDeviceResetWrite via v s
  | .lifeCycleTransition via v => Sys2Proof.Machine.execLifeCycleTransition via v s
  | .authorisationToken via token => Sys2Proof.Machine.execAuthorisationToken via token s
  | .updateBegin via v => Sys2Proof.Machine.execUpdateBegin via v s
  | .updateAppend via v => Sys2Proof.Machine.execUpdateAppend via v s
  | .updateFinish via v => Sys2Proof.Machine.execUpdateFinish via v s
  | .attestationNonce via nonce => Sys2Proof.Machine.execAttestationNonce via nonce s
  | .tamperTrip d cause => Sys2Proof.Machine.execTamperTrip d cause s
  | .tamperRestartTimer => Sys2Proof.Machine.execTamperRestartTimer s
  | .pllLockLoss pll => Sys2Proof.Machine.execPllLockLoss pll s
  | .pllRelock pll => Sys2Proof.Machine.execPllRelock pll s
  | .pllRelockTimeout pll => Sys2Proof.Machine.execPllRelockTimeout pll s
  | .timeHoldover => Sys2Proof.Machine.execTimeHoldover s
  | .bypass tdi => Sys2Proof.Machine.execBypass tdi s
  | .idcode => Sys2Proof.Machine.execIdcode s
  | .samplePreload boundary => Sys2Proof.Machine.execSamplePreload boundary s
  | .extest boundary => Sys2Proof.Machine.execExtest boundary s
  | .clamp => Sys2Proof.Machine.execClamp s
  | .highz => Sys2Proof.Machine.execHighz s
  | .debug v => Sys2Proof.Machine.execDebug v s
  | .trstAssert => Sys2Proof.Machine.execTrstAssert s
  | .moveUnitBoundary e ns => Sys2Proof.Machine.execMoveUnitBoundary e ns s
  | .ucieFlitReplay h => Sys2Proof.Machine.execUcieFlitReplay h s
  | .pclkSlewDownComplete p => Sys2Proof.Machine.execPclkSlewDownComplete p s
  | .hardThermalRelease p t => Sys2Proof.Machine.execHardThermalRelease p t s
  | .stackThermalRelease st t => Sys2Proof.Machine.execStackThermalRelease st t s
  | .setEndpointId eid => Sys2Proof.Machine.execSetEndpointId eid s
  | .dynamicAddressAssignment addr => Sys2Proof.Machine.execDynamicAddressAssignment addr s
  | .summaryRewriteTimer h => Sys2Proof.Machine.execSummaryRewriteTimer h s
  | .lifeCycleBurnComplete => Sys2Proof.Machine.execLifeCycleBurnComplete s
  | .deviceResetDelayExpiry => Sys2Proof.Machine.execDeviceResetDelayExpiry s
  | .snapshotFlushComplete c port status => Sys2Proof.Machine.execSnapshotFlushComplete c port status s
  | .hdmDecoderCommit h => Sys2Proof.Machine.execHdmDecoderCommit h s

end Sys2Proof.Machine
end

