-- ==== Sys2Proof/Safety.lean ====
section
/-! DEFINITION. What a run must keep, and the words the statements are written in: a command that runs, a command at its
stream and at its unit, a dictionary write that passes its checks, and what a command leaves as it was. -/
namespace Sys2Proof.Machine
open Sys2Proof

/-! What a run must keep. -/

/-- The one-time-programmable store only burns (R692, R698, R707 to R709): the life-cycle state, the minimum SVNs and the
revoked key slots never go back. -/
abbrev Persist.burnsOnly (p q : Persist) : Prop :=
  p.life ≤ q.life ∧ p.svnFw ≤ q.svnFw ∧ p.svnMc ≤ q.svnMc ∧ ∀ i, bit p.revoked i = true → bit q.revoked i = true

/-- The OTP store and the flash have the form that the spec gives them (R679, R694, R701, R706): one of the five
life-cycle states, five settings slots, four image banks, two copies of the bank-select record. -/
abbrev Persist.legal (p : Persist) : Prop :=
  p.life ≤ 4 ∧ p.slots.length = 5 ∧ p.banks.length = 4 ∧ p.selects.length = 2

/-! A command that runs. -/

/-- A command runs, and its next state is as `P` says. -/
abbrev Runs (i : Instr) (s : State) (P : State → Prop) : Prop := ∃ t, exec i s = .next t ∧ P t

/-- A command leaves the queue, the memories and what survives a power loss as they were. -/
abbrev State.sameStore (s t : State) : Prop := t.pending = s.pending ∧ t.persist = s.persist ∧ t.mem = s.mem

/-- Every dictionary entry but those at the given places reads as before. -/
abbrev Dev.sameRegs (d e : Dev) (places : List (Nat × Nat)) : Prop :=
  ∀ idx sub, sub < 256 → (idx, sub) ∉ places → e.reg idx sub = d.reg idx sub

/-- Every context but one is as before. -/
abbrev Dev.otherCtxs (d e : Dev) (c : Nat) : Prop := ∀ b, b ≠ c → e.ctx b = d.ctx b

/-- Every engine but one is as before. -/
abbrev Dev.otherEngs (d e : Dev) (k : Nat) : Prop := ∀ b, b ≠ k → e.eng b = d.eng b

/-! A stream command. -/

/-- The command's stream exists, and no command of its sequence is on its scoreboard. -/
abbrev fits (o : Origin) (d : Dev) : Prop :=
  o.stream.val < (d.ctx o.ctx.val).streams.length ∧ ∀ e ∈ (d.stream o.ctx.val o.stream.val).run, e.seq ≠ o.seq

/-- The header of a command that uses no engine is sound: slot 0, and a signal object that the context owns (R402, R431). -/
abbrev plain (o : Origin) (d : Dev) : Prop :=
  o.slot = 0 ∧ (o.sigEn = true → d.ownsObj o.ctx.val o.sigObj = true)

/-- The part with the command on its scoreboard: 0 it runs, 1 its work is done and it awaits its completion (R440). -/
def Dev.boarded (d : Dev) (o : Origin) (op input : Nat) (cmd : Option QCmd) (status : Nat) : Dev :=
  d.updStream o.ctx.val o.stream.val (fun t => { t with
    run := t.run ++ [{ issuedOf o op input cmd with status := status }], lastChange := d.now })

/-- Memories and part as the command's unit finds them. -/
def State.atUnit (s : State) (o : Origin) (op input : Nat) (cmd : Option QCmd) : Wd :=
  ⟨s.mem, (s.board o op input cmd).dev⟩

/-- The command's work is done: its entry awaits its completion. -/
abbrev Dev.doneAt (d : Dev) (o : Origin) : Prop :=
  ∃ e ∈ (d.stream o.ctx.val o.stream.val).run, e.seq = o.seq ∧ e.status = 1

/-- The command runs on: its entry stays open on the scoreboard. -/
abbrev Dev.opensAt (d : Dev) (o : Origin) : Prop :=
  ∃ e ∈ (d.stream o.ctx.val o.stream.val).run, e.seq = o.seq ∧ e.status = 0

/-- The vector commands and their opcodes (R406). -/
def vecRows (o : Origin) (f : VecF) : List (Instr × Nat) :=
  [(.vconv o f, 0x20), (.vadd o f, 0x21), (.vsub o f, 0x22), (.vmul o f, 0x23), (.vfma o f, 0x24), (.vmax o f, 0x25),
   (.vmin o f, 0x26), (.vscale o f, 0x27), (.vdiv o f, 0x28), (.vfunc o f, 0x29), (.vsel o f, 0x2A), (.vfill o f, 0x2B),
   (.vtrans o f, 0x2C), (.vredsum o f, 0x2D), (.vredsq o f, 0x2E), (.vredmax o f, 0x2F), (.vtopk o f, 0x30), (.vwin o f, 0x31),
   (.vsoftmax o f, 0x32), (.vdeq o f, 0x33)]

/-! A dictionary write. -/

/-- A write that is heard and passes steps 2 to 6 and 9 to 11 of R672. -/
abbrev State.passes (s : State) (via : Via) (idx sub v : Nat) : Prop :=
  s.dev.avail = true ∧ s.dev.deaf via = false ∧ s.dev.writeCode via idx sub v = 0

/-- The answer to a write of an entry that has a command of its own, with a reason code: 0 accepts (R668). -/
def State.replied (s : State) (via : Via) (idx sub code : Nat) : State :=
  s.onDev (fun d => d.sendReply via false (d.writeReply 0 idx sub code))

/-- The last thing that left the part is the answer to a write, with a reason code (R668). -/
abbrev answers (t : State) (via : Via) (idx sub code : Nat) : Prop :=
  ∃ r : Reply, t.dev.tx.getLast? = some (.reply via r) ∧ r.opcode = 0x82 ∧ r.index = idx ∧ r.sub = sub ∧ r.reason = code

end Sys2Proof.Machine
end

