-- ==== Sys2Proof/WellFormed.lean ====
section
/-! DEFINITION. Well-formed commands: every operand lies in the width that its row of the opcode table gives it. -/
namespace Sys2Proof

/-- A requester: an endpoint of 8 bits, an address of 128 bits (R676, R677). -/
def Via.wf : Via → Bool
  | .i3c e => e < 256
  | .mailbox _ => true
  | .vlan a => a < 2 ^ 128

/-- A request header and its payload (R667). -/
def Req.wf (r : Req) : Bool :=
  r.version < 256 && r.tag < 65536 && r.index < 65536 && r.sub < 256 && r.count < 256 && r.offset < 2 ^ 32 &&
  r.length < 65536 && r.ty < 256 && r.flags < 256 && r.payload.length ≤ 1024 && r.payload.all (· < 256)

/-- A command header (R400). -/
def Origin.wf (o : Origin) : Bool := o.seq < 65536 && o.stamp < 2 ^ 64 && o.slot < 64 && o.sigObj < 2 ^ 14

/-- An address field: 52 bits, 64-byte aligned (R404). -/
def addrWf (a : Nat) : Bool := a < 2 ^ 52 && a % 64 = 0

/-- The fields of a tile job (R405). -/
def MtileF.wf (f : MtileF) : Bool :=
  addrWf f.wDesc && addrWf f.aDesc && addrWf f.dDesc && f.wKdim < 4 && f.wNdim < 4 && f.aKdim < 4 && f.aMdim < 4 &&
  f.dMdim < 4 && f.dNdim < 4 && f.setNo < 2 && f.accumulate < 2 && f.drain < 4 && f.wKeep < 2 && f.interval < 4 &&
  f.rounding < 8 && f.sat < 2 && f.intOverflow < 2 && f.heirloom < 2 && f.kCount < 256 && f.tensor < 2 ^ 24 &&
  f.k0 < 2 ^ 32 && f.n0 < 2 ^ 32 && f.m0 < 2 ^ 32 && f.nCount < 1024 && f.mCount < 512 && f.reserved < 2 ^ 512

/-- The fields of a vector command (R406). -/
def VecF.wf (f : VecF) : Bool :=
  addrWf f.aDesc && addrWf f.bDesc && addrWf f.cDesc && addrWf f.dDesc && f.fn < 32 && f.axis < 2 && f.order < 2 &&
  f.k < 128 && f.rounding < 8 && f.sat < 2 && f.intOverflow < 2 && f.alpha < 2 ^ 32 && f.beta < 2 ^ 32 &&
  f.tensor < 2 ^ 24 && f.srOrigin < 2 ^ 48 && f.srExtent < 2 ^ 32 && f.reserved < 2 ^ 512

/-- The fields of a move command (R408). -/
def MoveF.wf (f : MoveF) : Bool := addrWf f.src && addrWf f.dst && addrWf f.index && f.reserved < 2 ^ 512

/-- The fields of a collective (R411). -/
def CollF.wf (f : CollF) : Bool :=
  addrWf f.src && f.emit < 2 ^ 32 && addrWf f.dst && addrWf f.positions && f.handle < 2 ^ 32 && f.root < 1024 && f.scheme < 4 &&
  f.combine < 4 && f.srcKind < 2 && f.delKind < 2 && f.rounding < 8 && f.sat < 2 && f.tensor < 2 ^ 24 && f.k < 128 &&
  f.reserved < 2 ^ 512

/-- The fields of SOPEN and SRESTORE (R414). -/
def SnapF.wf (f : SnapF) : Bool :=
  addrWf f.manifest && addrWf f.table && addrWf f.status && f.handle < 2 ^ 32 && f.localBase < 2 ^ 32 &&
  f.localLen < 2 ^ 32 && f.entries < 65536 && f.netInterval < 256 && f.opt < 2 && f.obj < 2 ^ 32 && f.reserved < 2 ^ 512

/-- The fields of CHANDLE (R498). -/
def HandleF.wf (f : HandleF) : Bool :=
  f.wire < 4 && f.group < 256 && f.handle < 2 ^ 32 && addrWf f.table && f.job < 2 ^ 64 && f.timeout < 2 ^ 32 &&
  f.emit < 2 ^ 32 && f.reserved < 2 ^ 512

/-- A job record with its stamp (R277). -/
def JobIn.wf (j : JobIn) : Bool :=
  let r := j.r
  j.stamp < 2 ^ 64 && r.ty < 256 && r.stack < 32 && r.conv < 256 && r.emit < 2 ^ 32 && r.tensor < 2 ^ 24 && r.src0 < 2 ^ 52 &&
  r.src1 < 2 ^ 52 && r.dst < 2 ^ 52 && r.aux < 2 ^ 64 && r.origin < 2 ^ 48 && r.count < 2 ^ 32 && r.waitObj < 2 ^ 14 &&
  r.sigObj < 2 ^ 14 && r.waitVal < 2 ^ 64 && r.reserved < 2 ^ 512

/-- The body of a received frame (R481). -/
def FrameBody.wf : FrameBody → Bool
  | .lldp chassis port => chassis < 2 ^ 152 && port < 2 ^ 352
  | .addrRequest _ target asker => target < 2 ^ 128 && asker < 2 ^ 128
  | .addrReply _ addr mac => addr < 2 ^ 128 && mac < 2 ^ 48
  | .icmp _ dest src _ payload => dest < 2 ^ 128 && src < 2 ^ 128 && payload.all (· < 256)
  | _ => true

/-- A received frame (R480). -/
def FrameF.wf (f : FrameF) : Bool := f.len < 65536 && f.tags.all (· < 4096) && f.body.wf

/-- A received packet (R485, R488). -/
def PacketF.wf (p : PacketF) : Bool :=
  p.handle < 2 ^ 24 && p.psn < 2 ^ 24 && p.rank < 1024 && p.job < 2 ^ 32 && p.epoch < 2 ^ 32 && p.seq < 2 ^ 32 && p.phase < 2 &&
  p.chunk < 2 ^ 32 && p.off < 2 ^ 32 && p.digest < 2 ^ 32 && p.payload.all (· < 256)

/-- The activity of a partition (R570, R588). -/
def ActF.wf (a : ActF) : Bool := a.x.length = 10 && a.demand < 2 ^ 32 && a.withheld < 2 ^ 32

/-- A telemetry reading (R568). -/
def SampleF.wf (x : SampleF) : Bool := x.mv < 65536 && -2 ^ 31 ≤ x.ma && x.ma < 2 ^ 31

/-- What a start-up step finds (R685). -/
def StepF.wf (r : StepF) : Bool := r.lanes.all (fun (l : Nat × Nat) => l.1 < 32 && l.2 < 64 * 36)

/-- Is a command well formed? -/
def Instr.wf : Instr → Bool
  | .nop o reserved => o.wf && reserved < 2 ^ 512
  | .swait o obj timeout value reserved => o.wf && obj < 2 ^ 14 && timeout < 2 ^ 32 && value < 2 ^ 64 && reserved < 2 ^ 512
  | .ssignalAdd o obj value reserved => o.wf && obj < 2 ^ 14 && value < 2 ^ 64 && reserved < 2 ^ 512
  | .ssignalSet o obj value reserved => o.wf && obj < 2 ^ 14 && value < 2 ^ 64 && reserved < 2 ^ 512
  | .sremote o obj rank handle value reserved =>
    o.wf && obj < 2 ^ 14 && rank < 2 ^ 10 && handle < 2 ^ 32 && value < 2 ^ 64 && reserved < 2 ^ 512
  | .sfence o addr value reserved => o.wf && addr < 2 ^ 64 && value < 2 ^ 64 && reserved < 2 ^ 512
  | .mtile o f => o.wf && f.wf
  | .vconv o f => o.wf && f.wf
  | .vadd o f => o.wf && f.wf
  | .vsub o f => o.wf && f.wf
  | .vmul o f => o.wf && f.wf
  | .vfma o f => o.wf && f.wf
  | .vmax o f => o.wf && f.wf
  | .vmin o f => o.wf && f.wf
  | .vscale o f => o.wf && f.wf
  | .vdiv o f => o.wf && f.wf
  | .vfunc o f => o.wf && f.wf
  | .vsel o f => o.wf && f.wf
  | .vfill o f => o.wf && f.wf
  | .vtrans o f => o.wf && f.wf
  | .vredsum o f => o.wf && f.wf
  | .vredsq o f => o.wf && f.wf
  | .vredmax o f => o.wf && f.wf
  | .vtopk o f => o.wf && f.wf
  | .vwin o f => o.wf && f.wf
  | .vsoftmax o f => o.wf && f.wf
  | .vdeq o f => o.wf && f.wf
  | .mcopy o f => o.wf && f.wf
  | .mgather o f => o.wf && f.wf
  | .mscatter o f => o.wf && f.wf
  | .callred o f => o.wf && f.wf
  | .credscat o f => o.wf && f.wf
  | .cgather o f => o.wf && f.wf
  | .cbcast o f => o.wf && f.wf
  | .ctopk o f => o.wf && f.wf
  | .cwin o f => o.wf && f.wf
  | .chandleOpenJob o f => o.wf && f.wf
  | .chandleOpenStorage o f => o.wf && f.wf
  | .chandleClose o f => o.wf && f.wf
  | .chandleNewEpoch o f => o.wf && f.wf
  | .chandleBindEmit o f => o.wf && f.wf
  | .rjobs o lst count reserved => o.wf && lst < 2 ^ 52 && count < 2 ^ 16 && reserved < 2 ^ 512
  | .unorm o lst table handle control reserved =>
    o.wf && lst < 2 ^ 52 && table < 2 ^ 52 && handle < 2 ^ 32 && control < 2 ^ 32 && reserved < 2 ^ 512
  | .ufence o table reserved => o.wf && table < 2 ^ 52 && reserved < 2 ^ 512
  | .hphase o lead duration cls parts reserved =>
    o.wf && lead < 2 ^ 32 && duration < 2 ^ 32 && cls < 2 ^ 8 && parts < 2 ^ 8 && reserved < 2 ^ 512
  | .hcancel o reserved => o.wf && reserved < 2 ^ 512
  | .sopen o f => o.wf && f.wf
  | .sclose o reserved => o.wf && reserved < 2 ^ 512
  | .srestore o f => o.wf && f.wf
  | .stage _ j => j.wf
  | .compress _ j => j.wf
  | .update _ j => j.wf
  | .copy _ j => j.wf
  | .convert _ j => j.wf
  | .streamOut _ j => j.wf
  | .streamIn _ j data => j.wf && data.all (· < 256)
  | .translationReply _ _ va => va < 2 ^ 52
  | .chunkDelivery _ _ tensor q elems _ => tensor < 2 ^ 24 && q < 2 ^ 32 && elems.all (· < 65536)
  | .chunkStaged _ _ tensor q => tensor < 2 ^ 24 && q < 2 ^ 32
  | .emissionAccepted _ waited => waited < 2 ^ 64
  | .commandSubmit _ offset size _ data => offset < 2 ^ 24 && size < 2 ^ 16 && data < 2 ^ 512
  | .dropEventTimer _ _ => true
  | .commandIssue => true
  | .commandComplete _ _ seq _ => seq < 2 ^ 16
  | .streamControlResumeAfter via _ _ => via.wf
  | .streamControlDiscard via _ _ => via.wf
  | .streamControlRetry via _ _ => via.wf
  | .contextOwnerWrite via _ v => via.wf && v < 2 ^ 8
  | .contextEnableWrite via _ v => via.wf && v < 2 ^ 8
  | .contextStopComplete _ => true
  | .blockAssign via _ _ _ hosts _ => via.wf && hosts < 2 ^ 4
  | .blockFree via _ _ => via.wf
  | .syncOpGrant => true
  | .swaitTimeout _ _ => true
  | .syncWindowRead _ _ => true
  | .syncWindowWrite _ _ v => v < 2 ^ 64
  | .remoteSignalReceive handle epoch job sender y v =>
    handle < 2 ^ 32 && epoch < 2 ^ 32 && job < 2 ^ 32 && sender < 2 ^ 10 && y < 2 ^ 14 && v < 2 ^ 64
  | .translationInvalidate via v => via.wf && v < 2 ^ 64
  | .slabTableWrite via table => via.wf && table < 2 ^ 16384
  | .tileFeedStart _ waited stalled => waited < 2 ^ 64 && stalled < 2 ^ 64
  | .weightLoadComplete _ => true
  | .tileJobRetire _ ns => ns < 2 ^ 64
  | .runnerMerge _ ns => ns < 2 ^ 64
  | .drainStart _ _ => true
  | .drainComplete _ _ => true
  | .arrayClockGate _ => true
  | .tileCheck _ => true
  | .vectorTileBoundary _ ns busy stalled => ns < 2 ^ 64 && busy < 2 ^ 64 && stalled < 2 ^ 64
  | .setSave _ _ => true
  | .setRestore _ _ => true
  | .engineEnableWrite via _ v => via.wf && v < 2 ^ 8
  | .scratchpadWriteback _ _ => true
  | .scrubRead _ _ upsets => upsets.all (fun (u : Nat × Nat) => u.1 < 2 ^ 32 && u.2 < 2 ^ 72)
  | .scrubForced _ _ upsets => upsets.all (fun (u : Nat × Nat) => u.1 < 2 ^ 32 && u.2 < 2 ^ 72)
  | .wipeComplete _ => true
  | .keyRederivation => true
  | .arbiterGrant place presented => place < 2 ^ 7 && presented.all (· < 16)
  | .longestWaitClear via place v => via.wf && place < 2 ^ 7 && v < 2 ^ 32
  | .hbmRequest _ _ _ off len _ _ upsets =>
    off < 2 ^ 36 && len < 2 ^ 37 && upsets.all (fun (u : Nat × Nat) => u.1 < 2 ^ 32 && u.2 < 2 ^ 72)
  | .hostCxlMemAccess _ _ dpa len _ => dpa < 2 ^ 43 && len < 2 ^ 37
  | .hbmWriteback _ line => line < 2 ^ 30
  | .laneMark _ _ _ => true
  | .patrolScrubRead _ _ upsets => upsets.all (fun (u : Nat × Nat) => u.1 < 2 ^ 32 && u.2 < 2 ^ 72)
  | .patrolScrubForced _ _ upsets => upsets.all (fun (u : Nat × Nat) => u.1 < 2 ^ 32 && u.2 < 2 ^ 72)
  | .refresh _ _ _ _ _ => true
  | .refreshForced _ _ _ _ => true
  | .retraining _ _ => true
  | .retrainingForced _ _ => true
  | .imageComplete _ _ => true
  | .securingHoldRelease _ cycles => cycles < 2 ^ 64
  | .networkHeaderAck _ _ => true
  | .securingEnableWrite via v => via.wf && v < 2 ^ 8
  | .bedWrite via _ v => via.wf && v < 2 ^ 128
  | .splitGroupWrite via _ v => via.wf && v < 2 ^ 64
  | .engineGrantWrite via _ v => via.wf && v < 2 ^ 8
  | .bankGrantWrite via _ v => via.wf && v < 2 ^ 128
  | .evaluationAttachWrite via _ v => via.wf && v < 2 ^ 16
  | .windowClose _ => true
  | .windowEarlyClose _ => true
  | .overrunLimitExpiry _ => true
  | .linkStateChange _ _ _ lanes => lanes < 2 ^ 3
  | .laneRetrainComplete _ lanes => lanes < 2 ^ 3
  | .frameReceive _ _ f => f.wf
  | .transportPacketReceive _ _ p => p.wf
  | .ackTimer handle rank => handle < 2 ^ 32 && rank < 2 ^ 10
  | .ackReceive handle rank cum _ window => handle < 2 ^ 32 && rank < 2 ^ 10 && cum < 2 ^ 24 && window < 2 ^ 24
  | .windowProbeTimer handle rank => handle < 2 ^ 32 && rank < 2 ^ 10
  | .retransmissionTimeout handle rank psn => handle < 2 ^ 32 && rank < 2 ^ 10 && psn < 2 ^ 24
  | .cnpReceive handle rank sub => handle < 2 ^ 32 && rank < 2 ^ 10 && sub < 2 ^ 8
  | .rateIncreaseTimer handle rank sub => handle < 2 ^ 32 && rank < 2 ^ 10 && sub < 2 ^ 8
  | .epochResponseReceive handle rank epoch => handle < 2 ^ 32 && rank < 2 ^ 10 && epoch < 2 ^ 32
  | .digestMismatchResponse handle rank seq => handle < 2 ^ 32 && rank < 2 ^ 10 && seq < 2 ^ 16
  | .storageAckReceive handle seq status => handle < 2 ^ 32 && seq < 2 ^ 16 && status < 2 ^ 8
  | .pfcFrameReceive _ _ classes quanta => classes < 2 ^ 8 && quanta < 2 ^ 16
  | .ptpMessageReceive _ _ _ => true
  | .ppsInputEdge _ => true
  | .ppsOutputSecond => true
  | .lldpSendTimer _ _ => true
  | .collectiveTimeout handle seq => handle < 2 ^ 32 && seq < 2 ^ 16
  | .normCollectiveComplete _ _ rows marks => rows.all (· < 2 ^ 32) && marks.all (· < 2 ^ 32)
  | .chunkReofferTimer _ _ tensor q => tensor < 2 ^ 24 && q < 2 ^ 32
  | .chunkWaitEvent _ _ tensor q => tensor < 2 ^ 24 && q < 2 ^ 32
  | .faultNoticeReceive handle epoch rank kind => handle < 2 ^ 32 && epoch < 2 ^ 32 && rank < 2 ^ 10 && kind < 2 ^ 8
  | .presenceQueryTimer _ => true
  | .presenceResponse _ => true
  | .linkTrained _ modules rate repaired => modules < 2 ^ 8 && rate < 2 ^ 8 && repaired < 2 ^ 8
  | .linkRetrainRequest _ => true
  | .linkLoss _ cause => cause < 2 ^ 8
  | .attach _ ringBase ringCtl key regs =>
    ringBase < 2 ^ 64 && ringCtl < 2 ^ 64 && key < 2 ^ 64 && regs.all (fun (r : Nat × Nat) => r.1 < 65536 && r.2 < 2 ^ 64)
  | .detachAndHold _ => true
  | .detachAndRelease _ => true
  | .gracePeriodExpiry _ => true
  | .reclaimNow via _ v => via.wf && v < 2 ^ 8
  | .consumerIndexWrite _ v => v < 2 ^ 32
  | .summaryClear _ v => v < 2 ^ 64
  | .coalescingWindowExpiry _ => true
  | .interruptModerationTimer _ => true
  | .siteEnableWrite via _ v => via.wf && v < 2 ^ 8
  | .governorTick act => act.all ActF.wf
  | .floorLeave => true
  | .laneRestore _ => true
  | .telemetrySample samples => samples.all SampleF.wf
  | .telemetryWindowEnd => true
  | .marginRaiseTimer _ => true
  | .canaryWarning _ => true
  | .operatingPointChoice => true
  | .opUpPclkSlew _ => true
  | .avsWriteComplete _ => true
  | .boardCapWrite via v => via.wf && v < 2 ^ 16
  | .operatorCapWrite via v => via.wf && v < 2 ^ 16
  | .pwrCapAlertEdge _ => true
  | .droopTrip _ => true
  | .droopClear _ cycles => cycles < 2 ^ 64
  | .marginHoldExpiry _ => true
  | .thermalCeilingTimer _ _ => true
  | .hardThermalEntry _ _ => true
  | .stackThermalLimit _ _ => true
  | .thermtrip => true
  | .flitCrcFailure _ unit fails => unit < 2 ^ 16 && fails ≤ 8
  | .hangTimeout kind unit => kind < 2 ^ 8 && unit < 2 ^ 16
  | .partitionResetDrained _ => true
  | .partitionResetComplete _ _ => true
  | .replayStart _ => true
  | .rollbackControlWrite via _ v => via.wf && v < 2 ^ 32
  | .deviceWideFault cause => cause < 2 ^ 8
  | .harvestTick => true
  | .harvestComplete => true
  | .dumpComplete => true
  | .nextTickWrite via v => via.wf && v < 2 ^ 64
  | .logReadPositionWrite via v => via.wf && v < 2 ^ 64
  | .read via r => via.wf && r.wf
  | .write via r => via.wf && r.wf
  | .readBlock via r => via.wf && r.wf
  | .list via r => via.wf && r.wf
  | .describe via r => via.wf && r.wf
  | .mailboxSubmit _ opcode r => opcode < 2 ^ 8 && r.wf
  | .mailboxAcknowledge _ => true
  | .domainStagingDiscard via index sub => via.wf && index < 2 ^ 16 && sub < 2 ^ 8
  | .replyCacheExpiry sender tag => sender < 2 ^ 128 && tag < 2 ^ 16
  | .functionStoppingEnd index => index < 2 ^ 16
  | .rootEngineEnableWrite via _ v => via.wf && v < 2 ^ 8
  | .portEnableWrite via _ v => via.wf && v < 2 ^ 8
  | .portStartingTimeout _ => true
  | .telemetryEnableWrite via v => via.wf && v < 2 ^ 8
  | .perturbationEnableWrite via v => via.wf && v < 2 ^ 8
  | .fewestBuffersReset via _ v => via.wf && v < 2 ^ 16
  | .settingsCommit via generation => via.wf && generation < 2 ^ 8
  | .settingsBurnComplete _ => true
  | .resetAssert => true
  | .resetRelease straps => straps < 2 ^ 4
  | .startupStepComplete r => r.wf
  | .deviceResetWrite via v => via.wf && v < 2 ^ 8
  | .lifeCycleTransition via v => via.wf && v < 2 ^ 16
  | .authorisationToken via token => via.wf && token < 2 ^ 5120
  | .updateBegin via v => via.wf && v < 2 ^ 30
  | .updateAppend via v => via.wf && v < 2 ^ 30
  | .updateFinish via v => via.wf && v < 2 ^ 30
  | .attestationNonce via nonce => via.wf && nonce < 2 ^ 384
  | .tamperTrip _ cause => cause < 2 ^ 8
  | .tamperRestartTimer => true
  | .pllLockLoss pll => pll < 2 ^ 16
  | .pllRelock pll => pll < 2 ^ 16
  | .pllRelockTimeout pll => pll < 2 ^ 16
  | .timeHoldover => true
  | .bypass _ => true
  | .idcode => true
  | .samplePreload _ => true
  | .extest _ => true
  | .clamp => true
  | .highz => true
  | .debug _ => true
  | .trstAssert => true
  | .moveUnitBoundary _ ns => ns < 2 ^ 64
  | .ucieFlitReplay _ => true
  | .pclkSlewDownComplete _ => true
  | .hardThermalRelease _ _ => true
  | .stackThermalRelease _ _ => true
  | .setEndpointId eid => eid < 2 ^ 8
  | .dynamicAddressAssignment addr => addr < 2 ^ 7
  | .summaryRewriteTimer _ => true
  | .lifeCycleBurnComplete => true
  | .deviceResetDelayExpiry => true
  | .snapshotFlushComplete _ _ status => status < 2 ^ 16
  | .hdmDecoderCommit _ => true

end Sys2Proof
end

