-- ==== Sys2Proof/Certificates/Slice0/Obligations.lean ====
section
/-! DEFINITION. The statements for the provers, each over every state that meets its hypotheses. -/
open Sys2Proof Sys2Proof.Machine

/-- For every command c and state s whose queue is c followed by rest, step of s is exec c on s with the queue rest. With
an empty queue a step only advances the timebase by one nanosecond; that a step is one nanosecond is the model's
choice, log entry 8. (R718, spec/20_clocks_test.md, spec/95_what_each_step_holds.md) -/
def Obligations.stepRunsFront : Prop :=
  (∀ (c : Instr) (rest : List Instr) (s : State), s.pending = c :: rest → step s = exec c { s with pending := rest }) ∧
  (∀ s : State, s.pending = [] → step s = .next { s with dev := { s.dev with now := s.dev.now + 1 } })

/-- For every command and state, exec answers a next state, never a fault or a refusal, and the queue of waiting commands
is as it was. (spec/95_what_each_step_holds.md) -/
def Obligations.everyCommandCompletes : Prop :=
  ∀ (c : Instr) (s : State), ∃ t, exec c s = .next t ∧ t.pending = s.pending

/-- From every state whose OTP store and flash have their form (a life-cycle state of the five, five settings slots, four
banks, two bank-select records) and whose life-cycle burn, if one is under way, burns one of the five states, every
step answers a state of which the same holds; and the life-cycle state and both minimum SVNs are not lower than before
and no revoked key slot is free again. (R679, R681, R692, R694, R698, R701, R706, R707, R708, R709) -/
def Obligations.storeOnlyBurns : Prop :=
  ∀ s t : State, s.persist.legal → (∀ b, s.dev.boot.burnLife = some b → b ≤ 4) → step s = .next t →
    t.persist.legal ∧ (∀ b, t.dev.boot.burnLife = some b → b ≤ 4) ∧ s.persist.burnsOnly t.persist

/-- From every state in which each account's remainder is below 1,000,000 pJ, every step answers a state in which it is,
the premise under which energyAddsUp is stated. (R573, R647) -/
def Obligations.remaindersStaySmall : Prop :=
  ∀ s t : State, (∀ r ∈ s.dev.pow.rest, r.2 < 1000000) → step s = .next t → ∀ r ∈ t.dev.pow.rest, r.2 < 1000000

/-- On a stream that exists, with a sound header and no reserved bit: NOP only enters the scoreboard as done; SWAIT on an
object the context may wait for is done when the counter has reached the value and otherwise registers the wait;
SSIGNAL queues an add or a set of its value modulo 2^64 at input 15; SFENCE on an idle stream is done at once without
an address and otherwise sends the host write; HCANCEL withdraws every hint. Nothing else of the machine changes. On a
stream that exists, with a sound header: HPHASE with fields in range adds its hint, from now plus the lead for the
duration, to those of the context that have not ended while they are fewer than eight; SREMOTE to another member of a
job handle of its own context sends a remote signal with the value and runs on; to this package itself it queues the
addition at input 14 where the handle's epoch admits it. (R394, R396, R401, R407, R415, R416, R426, R427, R430, R440,
R544, R758) -/
def Obligations.syncCommandsRun : Prop :=
  (∀ (s : State) (o : Origin), fits o s.dev → plain o s.dev →
     exec (.nop o 0) s = .next (s.onDev (fun d => d.boarded o 0x01 15 (cmdOf o 0x01 0 []) 1)) ∧
     exec (.hcancel o 0) s = .next (s.onDev (fun d =>
       (d.boarded o 0x71 15 (cmdOf o 0x71 0 []) 1).updCtx o.ctx.val (fun x => { x with hints := [] }))) ∧
     (∀ y v, y < 16384 → s.dev.ownsObj o.ctx.val y = true →
       exec (.ssignalAdd o y v 0) s = .next (s.onDev (fun d =>
         (d.boarded o 0x03 15 (cmdOf o 0x03 0 (ssignalFields y 0 v)) 1).signal 15 y false (v % 2 ^ 64))) ∧
       exec (.ssignalSet o y v 0) s = .next (s.onDev (fun d =>
         (d.boarded o 0x03 15 (cmdOf o 0x03 0 (ssignalFields y 1 v)) 1).signal 15 y true (v % 2 ^ 64)))) ∧
     (∀ y n v, y < 16384 → v < 2 ^ 64 → s.dev.waitsObj o.ctx.val y = true →
       (v ≤ s.dev.counter y → exec (.swait o y n v 0) s =
         .next (s.onDev (fun d => d.boarded o 0x02 15 (cmdOf o 0x02 0 (swaitFields y n v)) 1))) ∧
       (s.dev.counter y < v → exec (.swait o y n v 0) s =
         .next (s.onDev (fun d => (d.boarded o 0x02 15 (cmdOf o 0x02 0 (swaitFields y n v)) 0).updStream o.ctx.val o.stream.val
           (fun x => { x with waiting := true, waitMet := false, waitObj := y, waitVal := v, waitLeft := n }))))) ∧
     (∀ a v, a % 8 = 0 → (s.dev.stream o.ctx.val o.stream.val).run = [] →
       ((a = 0 ∨ (∀ h, s.dev.owner o.ctx.val = some h → (s.dev.site h).phase ≠ 4)) → exec (.sfence o a v 0) s =
         .next (s.onDev (fun d => d.boarded o 0x05 15 (cmdOf o 0x05 0 (sfenceFields a v)) 1))) ∧
       (∀ h, a ≠ 0 → s.dev.owner o.ctx.val = some h → (s.dev.site h).phase = 4 → exec (.sfence o a v 0) s =
         .next (s.onDev (fun d =>
           (d.boarded o 0x05 15 (cmdOf o 0x05 0 (sfenceFields a v)) 0).out (.hostWrite h a (v % 2 ^ 64))))))) ∧
  (∀ (s : State) (o : Origin), fits o s.dev → plain o s.dev →
     (∀ lead dur cls parts, lead ≤ 1000000 → 0 < dur → dur ≤ 10000000 → cls < 4 → 0 < parts → parts < 256 →
       ((s.dev.ctx o.ctx.val).hints.filter (fun h => s.dev.now < h.stop)).length < 8 →
       exec (.hphase o lead dur cls parts 0) s = .next (s.onDev (fun d =>
         (d.boarded o 0x70 15 (cmdOf o 0x70 0 (hphaseFields lead dur cls parts)) 1).updCtx o.ctx.val (fun x => { x with
           hints := x.hints.filter (fun h => d.now < h.stop) ++
             [{ start := d.now + 1000 * lead, stop := d.now + 1000 * lead + 1000 * dur, cls := cls, parts := parts }] })))) ∧
     (∀ y rank handle v x, y < 16384 → rank < 1024 → s.dev.handle? handle = some x → x.ctx = o.ctx.val → x.kind = 0 → rank < x.n →
       (rank ≠ x.rank → exec (.sremote o y rank handle v 0) s = .next (s.onDev (fun d =>
         (d.boarded o 0x04 14 (cmdOf o 0x04 0 (sremoteFields y rank handle v)) 0).control handle rank 6 [y, v % 2 ^ 64]))) ∧
       (rank = x.rank → s.dev.remoteOk handle x.epoch x.job y = true →
         exec (.sremote o y rank handle v 0) s = .next (s.onDev (fun d =>
           (d.boarded o 0x04 14 (cmdOf o 0x04 0 (sremoteFields y rank handle v)) 1).signal 14 y false (v % 2 ^ 64))))))

/-- A command that uses no engine and has a reserved bit set or a slot other than 0 is refused on a running stream that
exists: the stream is stopped with cause 1, reason 0x0201, its sequence and opcode, its scoreboard is as before (but that a wait held
at its head goes back to the queue),
refusals of the context are counted, no signal is queued, memories, queue and persistent store are as before. (R398,
R402, R440) -/
def Obligations.refusedHeaderStops : Prop :=
  ∀ (s : State) (o : Origin) (r : Nat) (i : Instr) (op : Nat), fits o s.dev → (r ≠ 0 ∨ o.slot ≠ 0) →
    (s.dev.stream o.ctx.val o.stream.val).stopped = false →
    (i, op) ∈ [(Instr.nop o r, 0x01), (Instr.hcancel o r, 0x71), (Instr.sclose o r, 0x79)] →
    Runs i s (fun t =>
      let x := s.dev.stream o.ctx.val o.stream.val
      let y := t.dev.stream o.ctx.val o.stream.val
      y.stopped = true ∧ y.cause = 1 ∧ y.reason = 0x0201 ∧ y.stopSeq = o.seq ∧ y.stopOp = op ∧ y.run = x.unheld.run ∧
      y.q = x.unheld.q ∧
      y.completed = x.completed ∧ t.dev.ctxReg o.ctx.val 0x15 = (s.dev.ctxReg o.ctx.val 0x15 + 1) % 2 ^ 64 ∧
      t.dev.syncQ = s.dev.syncQ ∧ s.sameStore t ∧ s.dev.otherCtxs t.dev o.ctx.val)

/-- With an operation queued and no forced loss, SYNC_OP_GRANT takes the one the arbiter grants off the queue, those that
stand in a pending queue of four having waited a cycle more; its counter becomes the value
set, or the old value plus the value, modulo 2^64; every other counter is as before; the grant is counted; exactly the
registered SWAIT waits on that object whose value the counter has reached end, at this time, their commands done, and the
waits of root-engine jobs on it are released alike; every other stream, the memories and the persistent store are as before.
The operation that a grant takes stands in the queue, no queued operation has a higher input, and every operation
before it in the queue has a lower input; with nothing queued a grant changes nothing. (R215, R216, R225, R426, R427, R433,
R434, R758) -/
def Obligations.syncUnitApplies : Prop :=
  (∀ (s : State) (op : SyncOp), s.dev.nextSync = some op → s.dev.fn 0x7000 ≠ 2 →
     (Tbl.look Arb.reset 0 s.dev.arbs).lose = [] → Runs .syncOpGrant s (fun t =>
     let new := if op.set then op.value % 2 ^ 64 else (s.dev.counter op.obj + op.value) % 2 ^ 64
     t.dev.counter op.obj = new ∧ (∀ y, y ≠ op.obj → t.dev.counter y = s.dev.counter y) ∧
     t.dev.syncQ = ageSync (s.dev.syncQ.erase op) ∧ s.sameStore t ∧
     t.dev.reg 0x4C00 0x30 = (s.dev.reg 0x4C00 0x30 + 1) % 2 ^ 64 ∧
     (∀ c i, i < 4 → t.dev.stream c i =
       (let x := s.dev.stream c i
        if x.waiting && !x.waitMet && x.waitObj == op.obj && decide (x.waitVal ≤ new) then
          { x with waiting := false, waitMet := false, lastChange := s.dev.now,
                   run := x.run.map (fun e => if e.op = 0x02 && e.status = 0 then { e with status := 1 } else e) }
        else x)) ∧
     (∀ st, (t.dev.stk st).queue = (s.dev.stk st).queue.map (fun r =>
       if r.j.r.waitEn && r.j.r.waitObj = op.obj && decide (r.j.r.waitVal ≤ new) then { r with released := true } else r)))) ∧
  (∀ s : State,
     (∀ op, s.dev.nextSync = some op → ∃ a b, s.dev.syncQ = a ++ op :: b ∧ (∀ x ∈ a, x.input < op.input) ∧
       (∀ x ∈ b, x.input ≤ op.input)) ∧
     (s.dev.syncQ = [] → exec .syncOpGrant s = .next s))

/-- SWAIT_TIMEOUT of a registered wait with a timeout, on a running stream of a context that is not held, whose counter
has not reached the value: the wait ends, its command leaves the scoreboard, the stream stops with cause 3 and the
command's sequence and opcode, refusals are counted; the reason code is open. A counter that has reached the value
completes the wait instead. Over an active link that holds no traffic, a host that owns the object's block or that the block
names reads the counter through the window, any other read gives 0 and is counted against the block's context; a write by the
owner's host queues an addition at input 1 + h, any other is without effect; over another link neither has an effect. A remote signal that the handle's job and epoch admit, on an
object of a remote block of the handle's context, queues an addition at input 14 and is answered as accepted; any
other queues nothing, is counted in 0x4C00:04 and answered as refused. (R398, R429, R430, R431, R432, R758) -/
def Obligations.waitsAndWindow : Prop :=
  (∀ (s : State) (c : Fin 1024) (i : Fin 4) (e : Issued),
     let x := s.dev.stream c.val i.val
     x.waiting = true → x.waitMet = false → 0 < x.waitLeft → x.stopped = false → s.dev.ctxReg c.val 0x22 % 2 = 0 →
     x.run.find? (fun e => e.op = 0x02 && e.status = 0) = some e →
     (s.dev.counter x.waitObj < x.waitVal → Runs (.swaitTimeout c i) s (fun t =>
       let y := t.dev.stream c.val i.val
       y.stopped = true ∧ y.cause = 3 ∧ y.stopSeq = e.seq ∧ y.stopOp = 0x02 ∧ y.waiting = false ∧
       y.run = x.run.filter (fun z => z.seq ≠ e.seq) ∧ y.q = x.q ∧
       t.dev.ctxReg c.val 0x15 = (s.dev.ctxReg c.val 0x15 + 1) % 2 ^ 64 ∧ t.dev.sync = s.dev.sync ∧ s.sameStore t ∧
       s.dev.otherCtxs t.dev c.val)) ∧
     (x.waitVal ≤ s.dev.counter x.waitObj → Runs (.swaitTimeout c i) s (fun t =>
       let y := t.dev.stream c.val i.val
       y.stopped = false ∧ y.waiting = false ∧ s.sameStore t ∧ t.dev.sync = s.dev.sync))) ∧
  (∀ (s : State) (h : Fin 4) (y : Fin 16384) (v : Nat),
     let open_ := (s.dev.site h.val).link = 3 ∧ s.dev.linkHolds h.val = false
     ((s.dev.site h.val).link ≠ 3 → s.dev.linkHolds h.val = false →
       exec (.syncWindowRead h y) s = .next s ∧ exec (.syncWindowWrite h y v) s = .next s) ∧
     (∀ c, open_ → s.dev.objOwner y.val = some c →
       (s.dev.owner c = some h.val ∨ bit (s.dev.block (y.val / 64)) (24 + h.val) = true) → exec (.syncWindowRead h y) s = .next (s.onDev (fun d => d.out (.hostData h.val (leBytes 8 (s.dev.counter y.val)) false)))) ∧
     (∀ c, open_ → s.dev.objOwner y.val = some c → s.dev.owner c ≠ some h.val → bit (s.dev.block (y.val / 64)) (24 + h.val) = false →
       exec (.syncWindowRead h y) s = .next (s.onDev (fun d =>
         (d.incReg (0x4000 + c) 0x2E).out (.hostData h.val [0, 0, 0, 0, 0, 0, 0, 0] false)))) ∧
     (∀ c, open_ → s.dev.objOwner y.val = some c → s.dev.owner c = some h.val →
       exec (.syncWindowWrite h y v) s = .next (s.onDev (fun d => d.signal (1 + h.val) y.val false (v % 2 ^ 64)))) ∧
     (open_ → (∀ c, s.dev.objOwner y.val = some c → s.dev.owner c ≠ some h.val) → exec (.syncWindowWrite h y v) s = .next s) ∧
     (∀ handle epoch job sender, s.dev.remoteOk handle epoch job y.val = true →
       exec (.remoteSignalReceive handle epoch job sender y.val v) s = .next (s.onDev (fun d =>
         (d.signal 14 y.val false (v % 2 ^ 64)).control handle sender 9 [epoch, y.val, 1]))) ∧
     (∀ handle epoch job sender z, (16384 ≤ z ∨ s.dev.remoteOk handle epoch job z = false) →
       Runs (.remoteSignalReceive handle epoch job sender z v) s (fun t =>
         t.dev.reg 0x4C00 0x04 = (s.dev.reg 0x4C00 0x04 + 1) % 2 ^ 64 ∧ t.dev.syncQ = s.dev.syncQ ∧ t.dev.sync = s.dev.sync ∧
         (∃ route, t.dev.tx.getLast? = some (.packet handle sender 9 route [epoch, z, 0] [])) ∧ s.sameStore t)))

/-- COMMAND_SUBMIT of an attached host whose link serves: 64 aligned bytes to a command slot of a stream of an ON context
that it owns and that is not held, with the expected sequence and fewer than 256 unissued commands, are accepted. The command
joins the end of its stream's queue with the step stamp of the moment and the log position,
the expected sequence advances modulo 2^16, an update fence advances the stamps of later commands, and where replay is
enabled the command is logged. Without replay nothing else changes. COMMAND_SUBMIT with a cause of R389 to drop it, or of a
site that is not attached (which counts is log entry 120): no command is accepted, the stream's and the context's drop counts
advance; while a millisecond of the rate
limit runs the drop waits to be reported, otherwise an event 0x8201 is raised and a millisecond begins.
DROP_EVENT_TIMER at its end reports the drops since, or ends the limit when there are none. At the end of a rate-limit
millisecond DROP_EVENT_TIMER raises the event for the drops that wait and the limit runs again; with none waiting the
limit ends; without a limit running it changes nothing. (R50, R386, R387, R388, R389, R532, R620) -/
def Obligations.submissionsTaken : Prop :=
  (∀ (s : State) (h : Fin 4) (off size data : Nat) (aligned : Bool),
     let c := off / 16384
     let i := off % 16384 / 4096
     c < 1024 → (s.dev.site h.val).phase = 4 → (s.dev.site h.val).heldLink = false → s.dev.locked 13 h.val = true →
     s.dev.ctxState c = 2 → s.dev.ctxReg c 0x22 % 2 = 0 → s.dev.owner c = some h.val → i < s.dev.streamCount c →
     size = 64 → aligned = true → off % 4096 / 64 ≠ 63 → bits data 47 32 = (s.dev.stream c i).expected →
     (s.dev.stream c i).q.length + b2n ((s.dev.stream c i).waiting && !(s.dev.stream c i).waitMet) < 256 →
     i < (s.dev.ctx c).streams.length →
     let entry : QCmd := ⟨data % 2 ^ 512, s.dev.stampNow c, false, (s.dev.ctx c).rep.logHead⟩
     let taken := s.onDev (fun d =>
       (d.updStream c i (fun x => { x with q := x.q ++ [entry], expected := (x.expected + 1) % 65536, lastChange := d.now })).updCtx
         c (fun x => { x with fences := x.fences + (if data % 256 = 0x62 then 1 else 0) }))
     (s.dev.replayOn c = true → exec (.commandSubmit h off size aligned data) s =
       .next (taken.runAct (logCommand c i (data % 2 ^ 512))).2) ∧
     (s.dev.replayOn c = false → exec (.commandSubmit h off size aligned data) s = .next taken ∧
       s.dev.otherCtxs taken.dev c ∧ (taken.dev.stream c i).q = (s.dev.stream c i).q ++ [entry] ∧
       (taken.dev.stream c i).expected = ((s.dev.stream c i).expected + 1) % 65536 ∧
       (taken.dev.stream c i).run = (s.dev.stream c i).run)) ∧
  (∀ (s : State) (h : Fin 4) (off size data : Nat) (aligned : Bool),
     let c := off / 16384
     let i := off % 16384 / 4096
     c < 1024 → (s.dev.site h.val).heldLink = false → s.dev.locked 13 h.val = true →
     (s.dev.dropCause h.val c i (off % 4096 / 64) size aligned data ≠ 0 ∨ (s.dev.site h.val).phase ≠ 4) →
     i < (s.dev.ctx c).streams.length →
     Runs (.commandSubmit h off size aligned data) s (fun t =>
       let x := s.dev.stream c i
       let y := t.dev.stream c i
       y.q = x.q ∧ y.expected = x.expected ∧ y.dropped = (x.dropped + 1) % 2 ^ 32 ∧ y.dropTimer = true ∧
       y.dropNum = (if x.dropTimer then x.dropNum + 1 else 0) ∧
       t.dev.ctxReg c 0x16 = (s.dev.ctxReg c 0x16 + 1) % 2 ^ 64 ∧ s.sameStore t ∧ s.dev.otherCtxs t.dev c)) ∧
  (∀ (s : State) (c : Fin 1024) (i : Fin 4), i.val < (s.dev.ctx c.val).streams.length →
     let x := s.dev.stream c.val i.val
     (x.dropTimer = true → 0 < x.dropNum → Runs (.dropEventTimer c i) s (fun t =>
       t.dev.stream c.val i.val = { x with dropNum := 0, dropCause := 0, dropTimer := true } ∧
       s.dev.otherCtxs t.dev c.val ∧ s.sameStore t)) ∧
     (x.dropTimer = true → x.dropNum = 0 → exec (.dropEventTimer c i) s =
       .next (s.onDev (fun d => d.updStream c.val i.val (fun x => { x with dropTimer := false })))) ∧
     (x.dropTimer = false → exec (.dropEventTimer c i) s = .next s))

/-- While no schedule table is finished: where a stream may issue, COMMAND_ISSUE takes the head of the first such stream in
round-robin order and gives it to its unit; unless it is refused or holds the stream as a wait, the issue is counted and the
stream becomes the last to have issued. A NOP with a sound
header leaves its queue and stands done on the scoreboard. Where no stream may issue nothing changes.
COMMAND_COMPLETE, in a context with no norm or fence under way and without replay, while no RJOBS waits to be forwarded: a
command whose work is done leaves
the scoreboard, the stream's and the context's completion counts advance, and its signal, if enabled, is queued as an
addition of 1; a command that failed leaves the scoreboard without a signal, its running stream stops with its cause
and reason (a wait held at its head goes back to the queue), and the failure is counted. An SREMOTE completes when its target accepted it and fails with 0x0207
otherwise; an SFENCE completes with its host write. (R393, R394, R396, R397, R398, R400, R437, R438, R440, R455, R758) -/
def Obligations.commandsIssueAndComplete : Prop :=
  (∀ s : State, (∀ c, (s.dev.ctx c).schedTab = [] ∨ ((s.dev.ctx c).firstEntry none).isSome = true) →
     (∀ c i q rest, s.dev.issueOrder.find? (fun p => s.mayIssue p.1 p.2) = some (c, i) → (s.dev.stream c i).q = q :: rest →
       let o := originOf ⟨c % 1024, Nat.mod_lt _ (by decide)⟩ ⟨i % 4, Nat.mod_lt _ (by decide)⟩ q.stamp q.raw
       let u := (s.onDev (fun d => d.updStream c i (fun x => { x with q := rest, lastChange := d.now }))).issueTo o q
       exec .commandIssue s = .next (if (u.dev.stream c i).stopped || (u.dev.stream c i).waiting then u else u.issued c i) ∧
       (c < 1024 → i < 4 → opcodeOf q.raw = 0x01 → q.raw &&& bareMask = 0 → fits o s.dev → plain o s.dev →
         (s.dev.stream c i).stopped = false → (s.dev.stream c i).waiting = false → (s.dev.ctx c).schedTab = [] →
         (s.dev.ctx c).gated = 0 →
         Runs .commandIssue s (fun t => (t.dev.stream c i).q = rest ∧
           (t.dev.stream c i).run = (s.dev.stream c i).run ++ [{ issuedOf o 0x01 15 (some q) with status := 1 }] ∧
           t.dev.lastIssue = 4 * c + i ∧ t.dev.reg 0x3400 0x91 = (s.dev.reg 0x3400 0x91 + 1) % 2 ^ 64 ∧ s.sameStore t))) ∧
     (s.dev.issueOrder.find? (fun p => s.mayIssue p.1 p.2) = none → exec .commandIssue s = .next s)) ∧
  (∀ (s : State) (c : Fin 1024) (i : Fin 4) (seq : Nat) (acc : Bool) (e : Issued),
     let x := s.dev.stream c.val i.val
     (s.dev.upd c.val).norm = none → (s.dev.upd c.val).fence = none → s.dev.replayOn c.val = false → s.dev.fwd = [] →
     i.val < (s.dev.ctx c.val).streams.length → x.run.find? (fun z => z.seq = seq) = some e →
     (e.op = 0x62 → (s.dev.upd c.val).sec = none ∧ (s.dev.ctx c.val).win ≠ 1) →
     ((e.status = 1 ∨ (e.status = 0 ∧ (e.op = 0x05 ∨ (e.op = 0x04 ∧ acc = true)))) → Runs (.commandComplete c i seq acc) s (fun t =>
       let y := t.dev.stream c.val i.val
       y.run = x.run.filter (fun z => z.seq ≠ e.seq) ∧ y.completed = (x.completed + 1) % 2 ^ 64 ∧ y.stopped = x.stopped ∧
       t.dev.ctxReg c.val 0x14 = (s.dev.ctxReg c.val 0x14 + 1) % 2 ^ 64 ∧
       t.dev.syncQ = s.dev.syncQ ++ (if e.sigEn then [⟨e.input, e.sigObj, false, 1, 0⟩] else []) ∧
       s.sameStore t ∧ s.dev.otherCtxs t.dev c.val)) ∧
     ((2 ≤ e.status ∨ (e.status = 0 ∧ e.op = 0x04 ∧ acc = false)) → x.stopped = false → Runs (.commandComplete c i seq acc) s (fun t =>
       let y := t.dev.stream c.val i.val
       y.run = (Stream.unheld { x with run := x.run.filter (fun z => z.seq ≠ e.seq) }).run ∧ y.completed = x.completed ∧
       y.stopped = true ∧ y.stopSeq = e.seq ∧
       y.stopOp = e.op ∧ (2 ≤ e.status → y.cause = e.fail.cause ∧ y.reason = e.fail.code) ∧
       (e.status = 0 → y.cause = 2 ∧ y.reason = 0x0207) ∧
       t.dev.ctxReg c.val 0x15 = (s.dev.ctxReg c.val 0x15 + 1) % 2 ^ 64 ∧ t.dev.syncQ = s.dev.syncQ ∧
       s.sameStore t ∧ s.dev.otherCtxs t.dev c.val)))

/-- A write of stream control that passes the checks on a stopped stream that exists, whose stop a norm or fence did not
cause: resume-after clears the stop; discard also empties the queue of accepted commands; retry puts the stopped
command back at its head. The write is answered with reason 0; memories, persistent store and the other contexts are
as before. (R399, R668, R672) -/
def Obligations.streamControlRestarts : Prop :=
  ∀ (s : State) (via : Via) (c : Fin 1024) (i : Fin 4),
    let x := s.dev.stream c.val i.val
    i.val < (s.dev.ctx c.val).streams.length → x.stopped = true → x.stopOp ≠ 0x61 → x.stopOp ≠ 0x62 →
    let clear := fun (x : Stream) => { x with stopped := false, cause := 0, reason := 0, stopSeq := 0, stopOp := 0,
                                              stopCmd := none, lastChange := s.dev.now }
    ∀ p ∈ [(Instr.streamControlResumeAfter via c i, 1, clear x),
           (Instr.streamControlDiscard via c i, 2, clear { x with
              q := [], waiting := false, waitMet := false, run := x.run.filter (fun e => !(e.op = 0x02 && e.status = 0)) }),
           (Instr.streamControlRetry via c i, 3, clear { x with q := x.stopCmd.toList ++ x.q })],
      s.passes via (0x4000 + c.val) 0x0E (4 * i.val + p.2.1) → Runs p.1 s (fun t =>
        t.dev.stream c.val i.val = p.2.2 ∧ answers t via (0x4000 + c.val) 0x0E 0 ∧ s.sameStore t ∧ s.dev.otherCtxs t.dev c.val)

/-- For each of the twenty vector commands, on a stream it fits: where its checks and descriptors are good, its engine
runs, no command waits in its queue and every tile of its destination can be computed and written, the next state holds the
memories and counts that this leaves, the command done and nothing of the queue or the persistent store changed; where the
engine does not run or commands wait before it, the command joins the end of the engine's queue. (R154, R155, R162, R168, R171, R173, R175, R176, R177, R179, R181, R756) -/
def Obligations.vectorCommandsRun : Prop :=
  ∀ (s : State) (o : Origin) (f : VecF) (i : Instr) (op e : Nat) (x : VecCmd) (w : Wd), (i, op) ∈ vecRows o f → fits o s.dev →
    vecIssue op o f (s.atUnit o op (s.dev.slotInput o) (cmdOf o op f.reserved (vecFields op f))) = (.ok (e, x), w) →
    (∀ w', w.dev.engRuns e = true → (w.dev.eng e).vq = [] → Act.work o.ctx.val e (vecRun e x) w = (.ok (), w') → Runs i s (fun t =>
      t.mem = w'.mem ∧ t.dev = w'.dev.markDone o.ctx.val o.stream.val o.seq ∧ t.persist = s.persist ∧ t.pending = s.pending)) ∧
    (w.dev.engRuns e = false ∨ (w.dev.eng e).vq ≠ [] → Runs i s (fun t => t.mem = w.mem ∧ t.persist = s.persist ∧ t.pending = s.pending ∧
      (t.dev.eng e).vq = (w.dev.eng e).vq ++ [x] ∧ w.dev.otherEngs t.dev e))

/-- On the integer path an element is the exact sum, difference or product, wrapped to 32 bits without a count where
overflow wraps; where it saturates, a result inside the INT32 range is exact and counts nothing, and one outside is
the nearer bound and counts one saturation; a maximum or minimum is one of its operands. A wrapping sum along a line
of INT32 values gives the exact sum of the line modulo 2^32, whatever the tree order, and the sum of squares likewise
the exact sum of the squares. (R47, R164, R177) -/
def Obligations.integersExact : Prop :=
  (∀ (a b : Int) (r : Int) (op : Nat) (t : Tbl Nat), (op, r) ∈ [(0x21, a + b), (0x22, a - b), (0x23, a * b)] →
     vecInt op 1 a b t = (ofSigned 32 r, t) ∧
     (-2 ^ 31 ≤ r → r < 2 ^ 31 → vecInt op 0 a b t = (ofSigned 32 r, t)) ∧
     (2 ^ 31 ≤ r → vecInt op 0 a b t = (0x7FFFFFFF, Tbl.upd 0 0x05 (· + 1) t)) ∧
     (r < -2 ^ 31 → vecInt op 0 a b t = (0x80000000, Tbl.upd 0 0x05 (· + 1) t)) ∧
     (vecInt 0x25 0 a b t).1 = ofSigned 32 (max a b) ∧ (vecInt 0x26 0 a b t).1 = ofSigned 32 (min a b)) ∧
  (∀ (f : VecF) (xs : List Int) (t : Tbl Nat), f.intOverflow = 1 →
     (redInt 0x2D f xs t).1 = ofSigned 32 xs.sum ∧
     (redInt 0x2E f xs t).1 = ofSigned 32 (xs.map (fun x => x * x)).sum)

/-- For MCOPY, MGATHER and MSCATTER, on a stream they fit: where the checks and descriptors are good, the engine runs, no move
waits in its DMA queue and every unit can be read and written, the next state holds the memories that this leaves and the
command done; where the engine does not run or moves wait before it, the move joins the end of the engine's DMA queue. A gather writes row i of its destination from the
source row that entry i of its list names; a scatter with the same list and shape moves the same pairs of rows the
other way. (R408, R409, R410, R439) -/
def Obligations.movesRun : Prop :=
  (∀ (s : State) (o : Origin) (f : MoveF) (i : Instr) (op e : Nat) (x : MoveCmd) (w : Wd), fits o s.dev →
     (i, op) ∈ [(Instr.mcopy o f, 0x40), (Instr.mgather o f, 0x41), (Instr.mscatter o f, 0x42)] →
     moveIssue op o f (s.atUnit o op (s.dev.slotInput o) (cmdOf o op f.reserved (moveFields f))) = (.ok (e, x), w) →
     (∀ w', w.dev.engRuns e = true → (w.dev.eng e).dq = [] → moveRun e x w = (.ok (), w') → Runs i s (fun t =>
       t.mem = w'.mem ∧ t.dev = w'.dev.markDone o.ctx.val o.stream.val o.seq ∧ t.persist = s.persist ∧ t.pending = s.pending)) ∧
     (w.dev.engRuns e = false ∨ (w.dev.eng e).dq ≠ [] → Runs i s (fun t => t.mem = w.mem ∧ t.persist = s.persist ∧ t.pending = s.pending ∧
       (t.dev.eng e).dq = (w.dev.eng e).dq ++ [x] ∧ w.dev.otherEngs t.dev e))) ∧
  (∀ (x : MoveCmd) (a b : List Nat), x.list.isSome → x.op = 0x41 → ((a, b) ∈ x.pairs ↔ (b, a) ∈ { x with op := 0x42 }.pairs))

/-- VECTOR_TILE_BOUNDARY on a running engine with no merge waiting and no running context, where the choice falls on a
context and the next tile of its next command can be computed: the tile runs, and the command stays queued with its
next tile, or leaves the queue with its last one. MOVE_UNIT_BOUNDARY likewise runs the next unit of the chosen
context's move, and a last unit takes the move off the queue as done. With nothing queued, or on an engine that does
not run, memories and queues stay as they are. (R189, R190, R191, R410, R457, R458) -/
def Obligations.unitsAtBoundaries : Prop :=
  ∀ (s : State) (e : Fin 64) (ns busy stalled : Nat),
    let k := s.dev.eng e.val
    (s.dev.engRuns e.val = true → k.scV.cur = none → k.jobs.any (fun j => j.ph = 2 && !j.merged) = false →
      let d0 := (s.dev.addReg (0x3000 + e.val) 0x17 busy).addReg (0x3000 + e.val) 0x16 stalled
      ∀ c x w, d0.choose e.val k.scV (k.vq.map (fun x => x.o.ctx.val)) = some c → k.nextVec c = some x →
        Act.work c e.val (vecTile e.val x) ⟨s.mem, d0.updEng e.val (fun k => { k with scV := ⟨some c, 0⟩ })⟩ = (.ok (), w) →
        Runs (.vectorTileBoundary e ns busy stalled) s (fun t => t.mem = w.mem ∧ t.persist = s.persist ∧ t.pending = s.pending ∧
          (t.dev.eng e.val).vq =
            (let same := fun (y : VecCmd) => y.o.ctx = x.o.ctx && y.o.stream = x.o.stream && y.o.seq = x.o.seq
             if x.next + 1 < x.tiles then (w.dev.eng e.val).vq.map (fun y => if same y then { y with next := y.next + 1 } else y)
             else (w.dev.eng e.val).vq.filter (fun y => !(same y))))) ∧
    (s.dev.engRuns e.val = true → k.scD.cur = none →
      ∀ c x y prs w, s.dev.choose e.val k.scD (k.dq.map (fun x => x.o.ctx.val)) = some c →
        k.dq.find? (fun x => x.o.ctx.val = c) = some x →
        movePlan e.val x ⟨s.mem, s.dev.updEng e.val (fun k => { k with scD := ⟨some c, 0⟩ })⟩ = (.ok y, w) →
        y.units[y.next]? = some prs → ∀ w', moveUnit e.val y prs w = (.ok (), w') →
        Runs (.moveUnitBoundary e ns) s (fun t => t.mem = w'.mem ∧ t.persist = s.persist ∧ t.pending = s.pending ∧
          (t.dev.eng e.val).dq = (if y.next + 1 < y.units.length then
            (w'.dev.eng e.val).dq.map (fun z => if z.same x then { y with next := y.next + 1 } else z)
            else (w'.dev.eng e.val).dq.filter (fun z => !(z.same x))))) ∧
    (k.vq = [] → k.scV.cur = none → Runs (.vectorTileBoundary e ns busy stalled) s (fun t => s.sameStore t ∧
      (t.dev.eng e.val).vq = [] ∧ t.dev.engReg e.val 0x17 = (s.dev.engReg e.val 0x17 + busy) % 2 ^ 64)) ∧
    (k.dq = [] → k.scD.cur = none → Runs (.moveUnitBoundary e ns) s (fun t => s.sameStore t ∧ (t.dev.eng e.val).dq = []))

/-- MTILE on a stream it fits, whose checks pass: its tile job stands last in the queue of its slot's engine with its
weights not loaded and not fed, other engines, memories beyond what the descriptor reads leave, queue and persistent
store are as before; a zero or too large count is refused with 0x0301 and stops the stream. On an engine that runs:
WEIGHT_LOAD_COMPLETE for the job that the array takes next puts its weights into the shadow registers, and the job is
loaded and no other; TILE_FEED_START of that job, where it may feed and its pass can be computed, leaves what the pass
leaves, with the port stalls counted (free values, log entry 245); TILE_JOB_RETIRE of the oldest fed job whose set is its own, with no retired job of the set before it, is
counted and joins its pass to the accumulation, which stays OPEN, is set free (a pass fed behind it then opens the set), or
awaits its drain, as its drain field says; RUNNER_MERGE of the oldest retired accumulation puts
the merged bank into its set. (R82, R84, R87, R92, R93, R95, R98, R184, R186, R405, R439, R440) -/
def Obligations.tileJobsRun : Prop :=
  (∀ (s : State) (o : Origin) (f : MtileF), fits o s.dev →
     let at_ := s.atUnit o 0x10 (s.dev.slotInput o) (cmdOf o 0x10 f.reserved (mtileFields f))
     (∀ e j w, mtileIssue o f at_ = (.ok (e, j), w) → Runs (.mtile o f) s (fun t =>
       (t.dev.eng e).jobs = (w.dev.eng e).jobs ++ [j] ∧ j.o = o ∧ j.f = f ∧ j.ph = 0 ∧ j.loaded = false ∧
       w.dev.otherEngs t.dev e ∧ t.mem = w.mem ∧ t.persist = s.persist ∧ t.pending = s.pending)) ∧
     (∀ e w, slotHeader o f.reserved at_ = (.ok e, w) → (s.dev.stream o.ctx.val o.stream.val).stopped = false →
       (f.kCount = 0 ∨ 128 < f.kCount ∨ f.nCount = 0 ∨ 512 < f.nCount ∨ f.mCount = 0 ∨ 256 < f.mCount ∨ f.drain = 3) →
       Runs (.mtile o f) s (fun t => let y := t.dev.stream o.ctx.val o.stream.val
         y.stopped = true ∧ y.cause = 1 ∧ y.reason = 0x0301 ∧ y.run = (s.dev.stream o.ctx.val o.stream.val).unheld.run ∧ s.sameStore t))) ∧
  (∀ (s : State) (e : Fin 64) (j : TileJob),
     let k := s.dev.eng e.val
     (s.dev.engRuns e.val = true → s.dev.nextJob e.val = some j → j.f.wKeep ≠ 1 → j.loaded = false →
       ∀ els w, readWeights e.val j ⟨s.mem, s.dev⟩ = (.ok els, w) → Runs (.weightLoadComplete e) s (fun t =>
         (t.dev.eng e.val).shadow = some ⟨j.o.ctx.val, mtWkey j.f, els⟩ ∧
         (∀ i ∈ (t.dev.eng e.val).jobs, i.loaded = i.same j) ∧ (t.dev.eng e.val).sets = (w.dev.eng e.val).sets ∧
         t.mem = w.mem ∧ t.persist = s.persist ∧ t.pending = s.pending)) ∧
     (∀ waited stalled w, s.dev.engRuns e.val = true → s.dev.nextJob e.val = some j → k.mayFeed j = true →
       Act.work j.o.ctx.val e.val (feedJob e.val j) ⟨s.mem, s.dev⟩ = (.ok (), w) →
       let g := w.dev.grantUnit e.val j.o.ctx.val (w.dev.eng e.val).scA
       Runs (.tileFeedStart e waited stalled) s (fun t =>
         t.mem = w.mem ∧ t.dev = (((g.2.updEng e.val (fun k => { k with scA := g.1 })).addReg (0x3000 + e.val) 0x08 waited).addReg
           (0x3000 + e.val) 0x09 stalled).portStalls e.val 0 ∧ t.persist = s.persist ∧ t.pending = s.pending)) ∧
     (∀ ns a w, k.jobs.find? (fun j => j.ph = 1) = some j → j.f.setNo < k.sets.length →
       let b := k.sets.getD j.f.setNo ⟨0, Accum.empty⟩
       k.jobs.any (fun i => i.ph = 2 && i.f.setNo = j.f.setNo) = false → b.st = 1 → b.acc.ctx = j.o.ctx.val → joinPass e.val j b.acc ⟨s.mem, s.dev⟩ = (.ok a, w) →
       Runs (.tileJobRetire e ns) s (fun t =>
         let k' := t.dev.eng e.val
         let b' := k'.sets.getD j.f.setNo ⟨0, Accum.empty⟩
         t.mem = w.mem ∧ t.persist = s.persist ∧ t.pending = s.pending ∧
         t.dev.engReg e.val 0x03 = (w.dev.engReg e.val 0x03 + 1) % 2 ^ 64 ∧
         (j.f.drain = 0 → b' = ⟨1, a⟩ ∧ k'.jobs = k.jobs.filter (fun i => !(i.same j))) ∧
         (j.f.drain = 2 → b' = (match (w.dev.eng e.val).opening.find? (fun p => p.1 = j.f.setNo) with
             | some p => ⟨1, p.2⟩
             | none => ⟨0, Accum.empty⟩) ∧ k'.jobs = k.jobs.filter (fun i => !(i.same j))) ∧
         (j.f.drain ≠ 0 → j.f.drain ≠ 2 → b'.st = 1 ∧ b'.acc.bank = a.bank ∧
           ∀ i ∈ k'.jobs, i.same j = true → i.ph = 2))) ∧
     (∀ bank w ns, s.dev.engRuns e.val = true → k.jobs.find? (fun j => j.ph = 2 && !j.merged) = some j →
       j.f.setNo < (w.dev.eng e.val).sets.length →
       let b := k.sets.getD j.f.setNo ⟨0, Accum.empty⟩
       Act.work j.o.ctx.val e.val (mergeAll e.val j.o.ctx.val b.acc) ⟨s.mem, s.dev⟩ = (.ok bank, w) → Runs (.runnerMerge e ns) s (fun t =>
         (t.dev.eng e.val).sets.getD j.f.setNo ⟨0, Accum.empty⟩ = ⟨1, { b.acc with bank := bank }⟩ ∧
         (∀ i ∈ (t.dev.eng e.val).jobs, i.same j = true → i.merged = true) ∧
         t.mem = w.mem ∧ t.persist = s.persist ∧ t.pending = s.pending)))

/-- DRAIN_START of a retired, merged and checked accumulation whose rows can be written moves its set to DRAINING;
DRAIN_COMPLETE frees the set, unless a job fed behind the drain opens it, and takes the job off the array;
SET_SAVE of an OPEN set that no job in flight uses, which another context's next job opens or has saved its own of, or held by a stopping
context, with an area free, saves its accumulation and frees the set; SET_RESTORE gives the next job's context its
saved accumulation back; TILE_CHECK runs the check of a sampled accumulation and leaves the bank it answers;
ARRAY_CLOCK_GATE gates an array without jobs. (R87, R90, R99, R102, R127, R130, R460, R461) -/
def Obligations.arraySetsDrain : Prop :=
  ∀ (s : State) (e : Fin 64) (set : Fin 2) (j : TileJob),
    let k := s.dev.eng e.val
    let b := k.sets.getD set.val ⟨0, Accum.empty⟩
    set.val < k.sets.length →
    (∀ dd w, k.jobs.find? (fun j => j.ph = 2 && j.f.setNo = set.val && j.merged && j.checked) = some j → j.dd = some dd →
      Act.work j.o.ctx.val e.val (drainRows e.val j dd b.acc) ⟨s.mem, s.dev⟩ = (.ok (), w) → set.val < (w.dev.eng e.val).sets.length →
      Runs (.drainStart e set) s (fun t => (t.dev.eng e.val).sets.getD set.val ⟨0, Accum.empty⟩ = ⟨2, b.acc⟩ ∧
        (∀ i ∈ (t.dev.eng e.val).jobs, i.same j = true → i.ph = 3) ∧ t.mem = w.mem ∧ t.persist = s.persist ∧ t.pending = s.pending)) ∧
    (k.jobs.find? (fun j => j.ph = 3 && j.f.setNo = set.val) = some j → Runs (.drainComplete e set) s (fun t =>
      (t.dev.eng e.val).sets.getD set.val ⟨0, Accum.empty⟩ =
        (match k.opening.find? (fun p => p.1 = set.val) with
         | some p => ⟨1, p.2⟩
         | none => ⟨0, Accum.empty⟩) ∧
      (t.dev.eng e.val).jobs = k.jobs.filter (fun i => !(i.same j)) ∧
      t.dev.engReg e.val 0x03 = s.dev.engReg e.val 0x03 ∧ s.sameStore t ∧ s.dev.otherEngs t.dev e.val)) ∧
    (b.st = 1 → k.jobs.any (fun j => (j.ph = 1 || j.ph = 2) && j.f.setNo = set.val) = false → k.saves.length < 8 →
      ((s.dev.nextJob e.val = some j ∧ k.needsSet j set.val = true ∧ j.o.ctx.val ≠ b.acc.ctx) ∨ s.dev.ctxState b.acc.ctx = 3) →
      Runs (.setSave e set) s (fun t => (t.dev.eng e.val).sets.getD set.val ⟨1, Accum.empty⟩ = ⟨0, Accum.empty⟩ ∧
        (t.dev.eng e.val).saves = k.saves ++ [(set.val, b.acc)] ∧ (t.dev.eng e.val).jobs = k.jobs ∧
        t.dev.engReg e.val 0x27 = (s.dev.engReg e.val 0x27 + 1) % 2 ^ 64 ∧ s.sameStore t ∧ s.dev.otherEngs t.dev e.val)) ∧
    (∀ a, b.st = 0 → s.dev.nextJob e.val = some j → j.f.accumulate ≠ 0 → j.f.setNo = set.val →
      k.saves.find? (fun p => p.1 = set.val && p.2.ctx = j.o.ctx.val) = some a →
      Runs (.setRestore e set) s (fun t => (t.dev.eng e.val).sets.getD set.val ⟨0, Accum.empty⟩ = ⟨1, a.2⟩ ∧
        (t.dev.eng e.val).saves = k.saves.filter (fun p => !(p.1 = set.val && p.2.ctx = j.o.ctx.val)) ∧
        t.dev.engReg e.val 0x28 = (s.dev.engReg e.val 0x28 + 1) % 2 ^ 64 ∧ s.sameStore t ∧ s.dev.otherEngs t.dev e.val)) ∧
    (∀ bank w, s.dev.engRuns e.val = true → k.jobs.find? (fun j => j.ph = 2 && j.merged && !j.checked) = some j →
      j.f.setNo = set.val → (k.sets.getD (1 - set.val) ⟨0, Accum.empty⟩).st = 0 →
      Act.work j.o.ctx.val e.val (checkAcc e.val j b.acc) ⟨s.mem, s.dev⟩ = (.ok bank, w) → set.val < (w.dev.eng e.val).sets.length →
      Runs (.tileCheck e) s (fun t =>
        (t.dev.eng e.val).sets.getD set.val ⟨0, Accum.empty⟩ = ⟨1, { b.acc with bank := bank }⟩ ∧
        (∀ i ∈ (t.dev.eng e.val).jobs, i.same j = true → i.checked = true) ∧
        t.mem = w.mem ∧ t.persist = s.persist ∧ t.pending = s.pending)) ∧
    (k.jobs = [] → exec (.arrayClockGate e) s = .next (s.onDev (fun d => d.updEng e.val (fun k => { k with gated := true })))) ∧
    (k.jobs ≠ [] → exec (.arrayClockGate e) s = .next s)

/-- For each of the six collectives, on a stream it fits and a handle with fewer than 16 in progress, whose checks pass
and against which no data of another digest have arrived: its chunks move as far as they go; where every chunk's work
on this member is over the collective leaves the handle and the command is done, otherwise the handle keeps the chunks
as they stand. With 16 in progress the command waits at the head of its stream. For any number of members up to 1,024,
any lead and any two ranks, under the ring and the tree: rank a sends its value to rank b exactly where b receives
from a, and a takes the result from b exactly where b passes the result to a. (R505, R507, R510, R511, R513, R519) -/
def Obligations.collectivesRun : Prop :=
  (∀ (s : State) (o : Origin) (f : CollF) (i : Instr) (op : Nat), fits o s.dev →
     (i, op) ∈ [(Instr.callred o f, 0x50), (Instr.credscat o f, 0x51), (Instr.cgather o f, 0x52), (Instr.cbcast o f, 0x53),
       (Instr.ctopk o f, 0x54), (Instr.cwin o f, 0x55)] →
     ∀ x, s.dev.handle? f.handle = some x →
     (x.colls.length < 16 → ∀ q w y k ks w',
       collEnter op o f (s.atUnit o op 14 (cmdOf o op f.reserved (collFields f))) = (.ok q, w) →
       (∀ e ∈ (w.dev.stream o.ctx.val o.stream.val).run, e.seq = o.seq → e.status = 0) →
       w.dev.handle? f.handle = some y →
       y.colls.find? (fun c => c.o.ctx = o.ctx && c.o.stream = o.stream && c.o.seq = o.seq) = some k →
       y.colls.find? (fun c => c.seq = k.seq) = some k → (∀ m ∈ y.rx, m.seq = k.seq → m.digest = k.digest) → k.op ≠ 0x61 →
       k.chunks.mapM (runChunk f.handle k 32) w = (.ok ks, w') →
       Runs i s (fun t => t.mem = w'.mem ∧ t.persist = s.persist ∧ t.pending = s.pending ∧
         (ks.all (fun g => k.chunkDone g y.rank) = true →
           t.dev = (w'.dev.updHandle f.handle (fun x => { x with
             colls := x.colls.filter (fun c => c.seq ≠ k.seq), rx := x.rx.filter (fun m => m.seq ≠ k.seq) })).markDone
               k.o.ctx.val k.o.stream.val k.o.seq) ∧
         (ks.all (fun g => k.chunkDone g y.rank) = false →
           t.dev = w'.dev.updHandle f.handle (fun x => { x with
             colls := x.colls.map (fun c => if c.seq = k.seq then { c with chunks := ks } else c) })))) ∧
     (16 ≤ x.colls.length → exec i s = .next (s.onDev (fun d => d.updStream o.ctx.val o.stream.val (fun t => { t with
       q := (cmdOf o op f.reserved (collFields f)).toList ++ t.q }))))) ∧
  (∀ (scheme n g j a b : Nat), scheme = 1 ∨ scheme = 2 → n ≤ 1024 → j < n → a < n → b < n →
     ((roleOf scheme n g j a).dest = some b ↔ ∃ first, (a, first) ∈ (roleOf scheme n g j b).recvs) ∧
     ((roleOf scheme n g j a).parent = some b ↔ a ∈ (roleOf scheme n g j b).children))

/-- On a stream it fits, with a sound header and good fields: opening a free number makes a job handle with the epoch,
members and rank of its table, or a storage handle with its store; closing removes the handle; a new epoch beyond the
handle's own takes over the new members and leaves no collective, no received data and sequence 0; binding an emit
handle keeps its extent table. Each command is then done. On a job handle: a response with a higher epoch, and a fault
notice of its own epoch, leave no collective in progress; a fault notice of another epoch is counted and answered and
fails nothing; a digest mismatch and a timeout fail the collective of their sequence, whose command then carries the
code 0x0704 or 0x0705, and no other. On a storage handle an acknowledgement with status 0 frees every packet up to its
PSN, one with status 1 asks for the packets from there again, another status marks the store bad. (R493, R498, R499,
R501, R502, R503, R504, R507, R509, R518, R627) -/
def Obligations.handlesLive : Prop :=
  (∀ (s : State) (o : Origin) (f : HandleF), fits o s.dev → plain o s.dev →
     let c := o.ctx.val
     let at_ := fun (a : Nat) => s.atUnit o 0x56 14 (cmdOf o 0x56 f.reserved (handleFields a f))
     let done := fun (d : Dev) => d.markDone c o.stream.val o.seq
     (handleBad 1 f = false → s.dev.handle? f.handle = none → s.dev.net.handles.length < 256 →
       ∀ epoch n rank ms w, readMembers c f.table f.job (at_ 1) = (.ok (epoch, n, rank, ms), w) → Runs (.chandleOpenJob o f) s (fun t =>
         t.dev = done (w.dev.openHandle f.handle { Handle.fresh 0 c f with epoch := epoch, n := n, rank := rank, members := ms }) ∧
         t.dev.handle? f.handle = some { Handle.fresh 0 c f with epoch := epoch, n := n, rank := rank, members := ms } ∧
         t.mem = w.mem ∧ t.persist = s.persist ∧ t.pending = s.pending)) ∧
     (handleBad 2 f = false → s.dev.handle? f.handle = none → s.dev.net.handles.length < 256 →
       ∀ r w, vreadNat (netUse c) f.table 32 (at_ 2) = (.ok r, w) → bits (bytesAt r 16 4) 31 24 = 0 →
       Runs (.chandleOpenStorage o f) s (fun t => ∃ sub,
         t.dev = done (w.dev.openHandle f.handle { Handle.fresh 1 c f with store := r, sub := sub }) ∧
         t.dev.handle? f.handle = some { Handle.fresh 1 c f with store := r, sub := sub } ∧
         t.mem = w.mem ∧ t.persist = s.persist ∧ t.pending = s.pending)) ∧
     (∀ x, s.dev.handle? f.handle = some x → x.ctx = c →
       (handleBad 3 f = false → Runs (.chandleClose o f) s (fun t => t.dev = done ((at_ 3).dev.closeHandle f.handle) ∧
         t.dev.handle? f.handle = none ∧ s.sameStore t)) ∧
       (handleBad 4 f = false → x.kind = 0 → ∀ epoch n rank ms w, x.epoch < epoch →
         readMembers c f.table x.job (at_ 4) = (.ok (epoch, n, rank, ms), w) → w.dev.handle? f.handle = some x →
         Runs (.chandleNewEpoch o f) s (fun t => t.mem = w.mem ∧ t.persist = s.persist ∧ t.pending = s.pending ∧
           ∃ y, t.dev.handle? f.handle = some y ∧ y.epoch = epoch ∧ y.n = n ∧ y.rank = rank ∧ y.members = ms ∧ y.colls = [] ∧
             y.rx = [] ∧ y.flows = [] ∧ y.seq = 0 ∧ y.job = x.job ∧ y.ctx = x.ctx)) ∧
       (handleBad 5 f = false → x.kind = 0 → ∀ bs w, vread (netUse c) f.table 128 (at_ 5) = (.ok bs, w) →
         Runs (.chandleBindEmit o f) s (fun t =>
           t.dev = done (w.dev.updHandle f.handle (fun x => { x with binds := Tbl.put f.emit ((chunksOf 4 bs).map leNat) x.binds })) ∧
           t.mem = w.mem ∧ t.persist = s.persist ∧ t.pending = s.pending)))) ∧
  (∀ (s : State) (h rank : Nat) (x : Handle), s.dev.handle? h = some x →
     (x.kind = 0 →
       (∀ epoch, x.epoch < epoch → Runs (.epochResponseReceive h rank epoch) s (fun t =>
         s.sameStore t ∧ ∃ y, t.dev.handle? h = some y ∧ y.colls = [] ∧ y.epoch = x.epoch)) ∧
       (∀ epoch, epoch ≤ x.epoch → exec (.epochResponseReceive h rank epoch) s = .next s) ∧
       (∀ kind, Runs (.faultNoticeReceive h x.epoch rank kind) s (fun t => s.sameStore t ∧
         (∃ y, t.dev.handle? h = some y ∧ y.colls = [] ∧ y.epoch = x.epoch) ∧
         t.dev.reg 0x5400 0x0D = (s.dev.reg 0x5400 0x0D + 1) % 2 ^ 64)) ∧
       (∀ epoch kind, epoch ≠ x.epoch → exec (.faultNoticeReceive h epoch rank kind) s = .next (s.onDev (fun d =>
         (d.incReg 0x1100 0x0A).control h rank (if epoch < x.epoch then 3 else 4) [x.epoch])))) ∧
     (∀ seq c (i : Instr) (code : Nat), (i, code) ∈ [(Instr.digestMismatchResponse h rank seq, 0x0704), (Instr.collectiveTimeout h seq, 0x0705)] →
       x.colls.find? (fun c => c.seq = seq) = some c → Runs i s (fun t => s.sameStore t ∧
         (∃ y, t.dev.handle? h = some y ∧ y.colls = x.colls.filter (fun c => c.seq ≠ seq) ∧ y.rx = x.rx.filter (fun m => m.seq ≠ seq)) ∧
         (∀ e ∈ (t.dev.stream c.o.ctx.val c.o.stream.val).run, e.seq = c.o.seq → 2 ≤ e.status ∧
           (e.status = 2 → e.fail.code = code ∨ ∃ g ∈ (s.dev.stream c.o.ctx.val c.o.stream.val).run, g = e)))) ∧
     (x.kind = 1 → ∀ seq,
       Runs (.storageAckReceive h seq 0) s (fun t => s.sameStore t ∧ ∃ y, t.dev.handle? h = some y ∧
         y.unacked = x.unacked.filter (fun p => 0 < (p.1 + 2 ^ 24 - seq) % 2 ^ 24 && (p.1 + 2 ^ 24 - seq) % 2 ^ 24 < 2 ^ 23)) ∧
       exec (.storageAckReceive h seq 1) s = .next (s.onDev (fun d => d.goBack h seq)) ∧
       (∀ k, 2 ≤ k → (s.dev.upd x.ctx).sec = none → Runs (.storageAckReceive h seq k) s (fun t => s.sameStore t ∧
         ∃ y, t.dev.handle? h = some y ∧ y.bad = true ∧ y.unacked = []))))

/-- RJOBS on a stream it fits, where every record of its list passes its checks and translates: the next state holds what
the forwarding leaves, with the command done; nothing of the persistent store or the queue changes. A count of 0 or
above 65,535 is refused with 0x0201. UNORM whose checks pass stands on its scoreboard as the norm under way: while an
encoding of its step runs it waits, otherwise it enters the collective of its handle; a second norm of the context
waits at the head of its stream. When the collective completes with the rows of all other members and the record,
layers and replicas can be written, the norm is done and no longer under way; when it fails, it fails with 0x0705.
(R136, R321, R323, R324, R412, R413, R438, R440, R505) -/
def Obligations.normAndJobs : Prop :=
  (∀ (s : State) (o : Origin) (list count reserved : Nat), fits o s.dev →
     let at_ := s.atUnit o 0x60 (s.rjobsInput o.ctx.val list) (cmdOf o 0x60 reserved (rjobsFields list count))
     (∀ w, rjobs o list count reserved at_ = (.ok true, w) → Runs (.rjobs o list count reserved) s (fun t =>
       t.mem = w.mem ∧ t.dev = w.dev.markDone o.ctx.val o.stream.val o.seq ∧ t.persist = s.persist ∧ t.pending = s.pending)) ∧
     (plain o s.dev → reserved = 0 → list % 64 = 0 → count = 0 ∨ 65535 < count →
       (s.dev.stream o.ctx.val o.stream.val).stopped = false → Runs (.rjobs o list count reserved) s (fun t =>
         let y := t.dev.stream o.ctx.val o.stream.val
         y.stopped = true ∧ y.cause = 1 ∧ y.reason = 0x0201 ∧ y.stopSeq = o.seq ∧ s.sameStore t))) ∧
  (∀ (s : State) (o : Origin) (list table handle control reserved : Nat), fits o s.dev →
     let c := o.ctx.val
     let cmd := cmdOf o 0x61 reserved (unormFields list table handle control)
     ((s.dev.upd c).norm.isSome = true → exec (.unorm o list table handle control reserved) s =
       .next (s.onDev (fun d => d.updStream c o.stream.val (fun t => { t with q := cmd.toList ++ t.q })))) ∧
     ((s.dev.upd c).norm = none → ∀ w r, unorm o list table handle control reserved (s.atUnit o 0x61 15 cmd) = (.ok false, w) →
       (w.dev.upd c).norm = some r →
       (w.dev.encodingsLeft c r.o.stamp = true → Runs (.unorm o list table handle control reserved) s (fun t =>
         t.dev = w.dev ∧ t.mem = w.mem ∧ t.persist = s.persist ∧ t.pending = s.pending)) ∧
       (∀ x w', w.dev.encodingsLeft c r.o.stamp = false → w.dev.normIn r = false → w.dev.handle? r.handle = some x →
         x.colls.length < 16 → normEnter c r w = (.ok (), w') → Runs (.unorm o list table handle control reserved) s (fun t =>
           t.dev = w'.dev ∧ t.mem = w'.mem ∧ t.persist = s.persist ∧ t.pending = s.pending))) ∧
     (∀ r x k rows marks w, (s.dev.upd c).norm = some r → s.dev.handle? r.handle = some x →
       x.colls.find? (fun k => k.op = 0x61 && k.o = r.o) = some k → rows.length = 32 * (x.n - 1) →
       normFinish c r (rows.take (32 * x.rank) ++ r.row ++ rows.drop (32 * x.rank))
         ((if (s.dev.ctx c).policy.jobWide then marks.foldl (· ||| ·) r.marks else r.marks) % 2 ^ 4096) x.epoch
         ⟨s.mem, (s.dev.updHandle r.handle (fun x => { x with
             colls := x.colls.filter (fun q => q.seq ≠ k.seq), rx := x.rx.filter (fun m => m.seq ≠ k.seq) })).updUpd c
               (fun u => { u with norm := none })⟩ = (.ok (), w) →
       Runs (.normCollectiveComplete o.ctx true rows marks) s (fun t =>
         t.dev = w.dev.markDone c r.o.stream.val r.o.seq ∧ t.mem = w.mem ∧ t.persist = s.persist ∧ t.pending = s.pending) ∧
       Runs (.normCollectiveComplete o.ctx false rows marks) s (fun t =>
         t.dev = s.dev.failColl r.handle k.seq 0x0705 x.rank ∧ s.sameStore t)))

/-- UFENCE behind running commands of its stream is held at its head. On an idle stream, with a sound header and an aligned
table that can be read, after the norm of its step (its checks of R345): while a root-engine job of the context up to its
stamp is left, it waits. Where a job of the step failed, the fence fails with cause 2. With none left and none failed, in a
context without watches, securing and replay, where the record can be read and its replicas written, the fence commits: the
norm-valid flag of every replica is cleared, and for an applied step the applied index is the target index and each schedule's
cycle state is committed; the step counter becomes the stamp plus 1 modulo 2^64, the update index of an applied step is taken
over, no fence is under way, the next step's norm is awaited, and the command is done. (R50, R344, R345, R394) -/
def Obligations.fenceCommitsStep : Prop :=
  ∀ (s : State) (o : Origin) (table reserved : Nat), fits o s.dev →
    let c := o.ctx.val
    let cmd := cmdOf o 0x62 reserved [addrField 8 table]
    ((s.dev.stream c o.stream.val).run ≠ [] → exec (.ufence o table reserved) s =
      .next (s.onDev (fun d => d.updStream c o.stream.val (fun t => { t with q := cmd.toList ++ t.q })))) ∧
    ((s.dev.stream c o.stream.val).run = [] → plain o s.dev → reserved = 0 → table % 64 = 0 → (s.dev.upd c).normDone = true →
      ∀ srt w0, readSrt c table (s.atUnit o 0x62 15 cmd) = (.ok srt, w0) →
      let held := w0.dev.updUpd c (fun u => { u with fence := some (o, table) })
      let w : Wd := ⟨w0.mem, (if (held.ctx c).bedPending then held.bedApply c else held).fenceWindow c o.stamp⟩
      (w.dev.rootLeft c o.stamp = true → Runs (.ufence o table reserved) s (fun t =>
        t.dev = w.dev ∧ t.mem = w.mem ∧ t.persist = s.persist ∧ t.pending = s.pending)) ∧
      (w.dev.rootLeft c o.stamp = false → (w.dev.upd c).rootFailed = true → Runs (.ufence o table reserved) s (fun t =>
        (t.dev.upd c).fence = none ∧ t.mem = w.mem ∧ t.dev.ctxReg c 0x08 = w.dev.ctxReg c 0x08 ∧
        ∀ e ∈ (t.dev.stream c o.stream.val).run, e.seq = o.seq → 2 ≤ e.status)) ∧
      (w.dev.rootLeft c o.stamp = false → (w.dev.upd c).rootFailed = false → bits (w.dev.ctxReg c 0x2C) 51 0 = 0 →
        ∀ vas r w1 w2 w3, readSrt c table w = (.ok vas, w1) → vreadNat (coordUse c) (vas.headD 0) 1024 w1 = (.ok r, w2) →
        let skipped := bit (bytesAt r 8 1) 0
        let new := if skipped then r else (List.range 8).foldl (fun r i =>
          setBytesAt r (128 + 96 * i + 48) 8 (bytesAt r (128 + 96 * i + 80) 8)) (setBytesAt r 0 4 (bytesAt r 4 4))
        let done := setBytesAt new 8 1 (clearMask (bytesAt new 8 1) 2)
        writeReplicas c vas done w2 = (.ok (), w3) → (w3.dev.upd c).sec = none → w3.dev.replayOn c = false →
        Runs (.ufence o table reserved) s (fun t =>
          t.dev.ctxReg c 0x08 = (o.stamp + 1) % 2 ^ 64 ∧
          t.dev.ctxReg c 0x09 = (if skipped then w3.dev.ctxReg c 0x09 else bytesAt done 0 4) ∧
          (t.dev.upd c).fence = none ∧ (t.dev.upd c).normDone = false ∧
          (∀ e ∈ (t.dev.stream c o.stream.val).run, e.seq = o.seq → e.status ≠ 0) ∧ t.mem = w3.mem ∧
          t.persist = s.persist ∧ t.pending = s.pending)))

/-- For each command that presents a job of its type (STAGE with fewer than eight armed, COMPRESS, UPDATE, COPY, CONVERT,
STREAM_OUT of a count above 0), while no RJOBS waits to be forwarded: the job is queued unless it is queued already, and waits
while it may not start. One that may start and whose ranges meet an image not yet streamed is held; one whose operands fail
their checks fails. Otherwise it is started and its run leaves
what it leaves: a finished run takes it off the queue, counts it and gives its signal, one that stays leaves it with
its engine, a failing one fails it. A job of another type is counted as refused and changes nothing else. Receiving a
good job that is not queued, while the intake has room, puts it last in its stack's queue, not started and released where it
waits for nothing or its counter has reached the value; without room it stays with its sender; a malformed one is only counted.
A job that retires leaves the queue, is counted in
0x3800+s:03, and gives its signal at input 13; a job that fails without poison leaves the queue without a signal, is counted in
:04 where it was refused under R279, R280 or R287, and the fence of its context will fail. (R216, R217, R276, R279, R282, R283,
R285, R287, R297, R299, R300, R358) -/
def Obligations.rootJobsRun : Prop :=
  (∀ (s : State) (st : Fin 32) (j : JobIn) (i : Instr) (ty : Nat) (writes : RJob → Act (List (Nat × Nat)))
     (run : RJob → Act JobEnd),
     s.dev.fwd = [] →
     (i, ty, writes, run) ∈ ([(.stage st j, 1, stageWrites st.val, stageRun st.val), (.compress st j, 2, compressWrites st.val, compressRun st.val),
       (.update st j, 3, updateWrites st.val, updateRun st.val), (.copy st j, 4, dstWrites st.val, copyRun st.val),
       (.convert st j, 5, dstWrites st.val, convertRun st.val), (.streamOut st j, 6, noWrites, streamOutRun st.val)] :
       List (Instr × Nat × (RJob → Act (List (Nat × Nat))) × (RJob → Act JobEnd))) →
     (ty = 1 → (s.dev.stk st.val).arms.length < 8) → (ty = 6 → j.r.count ≠ 0) →
     (j.r.ty ≠ ty → exec i s = .next (s.onDev (fun d => d.incReg (0x3800 + st.val) 0x04))) ∧
     (j.r.ty = ty →
       let a := s.onDev (fun d => d.receiveJob st.val j)
       (∀ r, a.dev.waitingJob st.val j = some r → a.dev.mayStart st.val r = false → exec i s = .next a) ∧
       (∀ r f w, a.dev.waitingJob st.val j = some r → a.dev.mayStart st.val r = true →
         a.runAct (do jobOk r; writes r) = (.error f, w) → exec i s = .next (w.onDev (fun d => d.jobFailed st.val r f))) ∧
       (∀ r rs w, a.dev.waitingJob st.val j = some r → a.dev.mayStart st.val r = true →
         a.runAct (do jobOk r; writes r) = (.ok rs, w) →
         (a.dev.unstreamed j.ctx.val st.val rs = true → exec i s = .next (a.onDev (fun d => d.holdJob st.val r))) ∧
         (a.dev.unstreamed j.ctx.val st.val rs = false →
           let go := { r with started := true, jobHold := false }
           let b := a.onDev (fun d => d.updStk st.val (fun k => { k with queue := k.queue.map (fun x => if x = r then go else x) }))
           (∀ w', b.runAct (run go) = (.ok .over, w') → exec i s = .next (w'.onDev (fun d => d.jobRetired st.val go))) ∧
           (∀ w', b.runAct (run go) = (.ok .stays, w') → exec i s = .next w') ∧
           (∀ f w', b.runAct (run go) = (.error f, w') → exec i s = .next (w'.onDev (fun d => d.jobFailed st.val go f))))))) ∧
  (∀ (d : Dev) (st : Fin 32) (j : JobIn),
     (d.waitingJob st.val j = none → jobCode j.r st.val = 0 → d.intakeRoom st.val = false → d.receiveJob st.val j = d) ∧
     (d.waitingJob st.val j = none → jobCode j.r st.val = 0 → d.intakeRoom st.val = true → ∃ r, (d.receiveJob st.val j).stk st.val = { d.stk st.val with
         queue := (d.stk st.val).queue ++ [r] } ∧ r.j = j ∧ r.started = false ∧
         (r.released = true ↔ (j.r.waitEn = false ∨ j.r.waitVal ≤ d.counter j.r.waitObj)) ∧
         (∀ b, b ≠ st.val → (d.receiveJob st.val j).stk b = d.stk b)) ∧
     (d.waitingJob st.val j = none → jobCode j.r st.val ≠ 0 → d.receiveJob st.val j = d.incReg (0x3800 + st.val) 0x04) ∧
     (∀ r, (d.jobRetired st.val r).stk st.val = { d.stk st.val with queue := (d.stk st.val).queue.erase r } ∧
       (d.jobRetired st.val r).stkReg st.val 0x03 = (d.stkReg st.val 0x03 + 1) % 2 ^ 64 ∧
       (d.jobRetired st.val r).syncQ = d.syncQ ++ (if r.j.r.sigEn then [⟨13, r.j.r.sigObj, false, 1, 0⟩] else [])) ∧
     (∀ r f, f.poison = false → (d.jobFailed st.val r f).stk st.val = { d.stk st.val with queue := (d.stk st.val).queue.erase r } ∧
       (d.jobFailed st.val r f).stkReg st.val 0x04 =
         (if f.cause = 1 ∧ (f.code ∈ [0x0401, 0x0601, 0x0603] ∨ (f.code = 0x0402 ∧ r.j.r.ty ≠ 3)) then
           (d.stkReg st.val 0x04 + 1) % 2 ^ 64 else d.stkReg st.val 0x04) ∧
       (d.jobFailed st.val r f).syncQ = d.syncQ ∧ ((d.jobFailed st.val r f).upd r.j.ctx.val).rootFailed = true))

/-- Data for a queued stream-in job that has started or may start, while no RJOBS waits to be forwarded, are written at its
destination behind those that came before, at most up to its count, and the job is over when it has them all; otherwise it
stays queued with its count moved on; data whose range meets an image not yet streamed hold the job. TRANSLATION_REPLY of an address that translates puts its leaf into the root engine's cache; while the
partition resets it is dropped and counted. EMISSION_ACCEPTED for the oldest waiting emission of a stack, once a
collective in progress awaits it: it leaves the stack, the wait is counted, the collective's chunks take its elements,
and the job retires with its last emission; then the collective goes on. With no emission waiting, or none awaited,
nothing changes. (R248, R281, R283, R296, R301, R518, R617) -/
def Obligations.streamsEnterAndLeave : Prop :=
  (∀ (s : State) (st : Fin 32) (j : JobIn) (data : List Nat) (r : RJob),
     (s.dev.fwd = [] → (s.dev.stk st.val).queue.find? (fun r => r.j = j) = some r → j.r.ty = 7 →
       (r.started = true ∨ s.dev.mayStart st.val r = true) → ∀ x rs w1 w2,
       let bs := data.take (j.r.count - r.written)
       let u := rootUse j.ctx.val st.val 0 true
       s.runAct (readDesc (schedUse j.ctx.val (partOfStk st.val)) j.r.dst) = (.ok x, w1) →
       w1.runAct (stackRuns (u.of x) true [(x.base + r.written, bs.length)]) = (.ok rs, w2) →
       (s.dev.unstreamed j.ctx.val st.val rs = true → exec (.streamIn st j data) s = .next (s.onDev (fun d => d.holdJob st.val r))) ∧
       (∀ w', s.dev.unstreamed j.ctx.val st.val rs = false →
       s.runAct (vwrite (u.of x) (x.base + r.written) bs) = (.ok (), w') →
       let go := { r with started := true, jobHold := false, written := r.written + bs.length }
       let put := w'.onDev (fun d => d.updStk st.val (fun k => { k with queue := k.queue.map (fun y => if y = r then go else y) }))
       (j.r.count ≤ go.written → exec (.streamIn st j data) s = .next (put.onDev (fun d => d.jobRetired st.val go))) ∧
       (go.written < j.r.count → exec (.streamIn st j data) s = .next put))) ∧
     (∀ (c : Fin 1024) (va : Nat) x w, s.dev.service (partOfStk st.val) ≠ 1 →
       s.runAct (leafOf (schedUse c.val (partOfStk st.val)) va) = (.ok x, w) →
       exec (.translationReply st c va) s = .next (w.onDev (fun d => d.xcFill (.root st.val) (partOfStk st.val) x))) ∧
     (∀ (c : Fin 1024) (va : Nat), s.dev.service (partOfStk st.val) = 1 →
       exec (.translationReply st c va) s = .next (s.onDev (fun d => d.incReg (0x3400 + partOfStk st.val) 0x23)))) ∧
  (∀ (s : State) (st : Fin 32) (waited : Nat) (e : Emis) (rest : List Emis), (s.dev.stk st.val).emits = e :: rest →
     (s.dev.net.handles.find? (fun p => p.2.colls.any (fun k => k.awaits st.val e)) = none → exec (.emissionAccepted st waited) s = .next s) ∧
     (∀ h x k, s.dev.net.handles.find? (fun p => p.2.colls.any (fun k => k.awaits st.val e)) = some (h, x) →
       x.colls.find? (fun k => k.awaits st.val e) = some k →
       let d := ((s.dev.updStk st.val (fun t => { t with emits := rest })).addReg (0x3800 + st.val) 0x0A waited).updHandle h
         (fun x => { x with colls := x.colls.map (fun c => if c.seq = k.seq then c.takeEmis st.val e else c) })
       (rest.any (fun y => y.j = e.j) = true → exec (.emissionAccepted st waited) s = .next ({ s with dev := d }.moveColl h k.seq)) ∧
       (rest.any (fun y => y.j = e.j) = false → ∀ r, (s.dev.stk st.val).queue.find? (fun r => r.j = e.j && r.started) = some r →
         exec (.emissionAccepted st waited) s = .next ({ s with dev := d.jobRetired st.val r }.moveColl h k.seq))))

/-- CHUNK_DELIVERY of the chunk that the network interface holds for the place, otherwise of the one that the command carries,
and CHUNK_REOFFER_TIMER of a held chunk that was returned (of one that was not, it changes nothing), with a free buffer, the
chunk in no buffer yet: for a tensor that is armed and a chunk of it not yet staged, the chunk takes a
buffer, the credits fall by one and the interface, which goes on holding it, counts it as returned no longer; a chunk staged
already, or beyond the tensor's chunks, is refused and let go; for a tensor that is not armed it is refused and the chunk goes on
waiting with the network interface; without a free buffer nothing changes. A refusal counts in 0x3800+s:07.
CHUNK_STAGED of a buffered chunk, with perturbation off: one with an uncorrectable word frees its buffer, is not written, and is
offered again at once where the interface holds it; one that falls in a range of an image not yet streamed waits and is marked;
a good one is written to its place of the staged gradient and its partial to its place behind it, its buffer is free, the job
counts the chunk in 0x3800+s:06, and with its last chunk the shard's partial is written behind the others, the arm is gone, the
job counted and its signal given. CHUNK_WAIT_EVENT reports a returned chunk once. (R18, R20, R287, R288, R289, R290, R291, R292,
R293, R358, R521, R523) -/
def Obligations.chunksStaged : Prop :=
  ∀ (s : State) (st : Fin 32) (c : Fin 1024) (tensor q : Nat) (els : List Nat) (bad : Bool),
    let free := s.dev.stkReg st.val 0x08
    let arm := (s.dev.stk st.val).arms.find? (fun a => a.j.ctx.val = c.val && a.j.r.tensor = tensor)
    let held := s.dev.readyChunk st.val c.val tensor q
    let buffered := (s.dev.stk st.val).chunks.any (fun k => k.ctx = c.val && k.tensor = tensor && k.q = q)
    -- the counters as the way from the holding die leaves them
    let come := match held with
      | some r => s.dev.crossOut r.die (st.val / 8) (2 * r.elems.length)
      | none => s.dev
    (∀ (i : Instr) (data : List Nat) (flag : Bool),
      ((i = .chunkDelivery st c tensor q els bad ∧ data = ((held.map (·.elems)).getD els).take 16384 ∧ flag = bad) ∨
        (i = .chunkReofferTimer st c tensor q ∧ flag = false ∧ ∃ r, held = some r ∧ r.since.isSome = true ∧ data = r.elems)) →
      (free = 0 ∨ (held.isSome = true ∧ buffered = true) → exec i s = .next s) ∧
      (0 < free → held = none ∨ buffered = false →
        (∀ a, arm = some a → q < a.j.r.count → Tbl.look? q a.parts = none → Runs i s (fun t =>
          t.dev.stk st.val = { s.dev.stk st.val with chunks := (s.dev.stk st.val).chunks ++ [⟨c.val, tensor, q, data, flag⟩] } ∧
          t.dev.stkReg st.val 0x08 = free - 1 ∧ t.dev.stkReg st.val 0x09 = min (come.stkReg st.val 0x09) (free - 1) ∧
          t.dev.readyChunk st.val c.val tensor q = held.map (fun r => { r with since := none }) ∧
          come.sameRegs t.dev [(0x3800 + st.val, 0x08), (0x3800 + st.val, 0x09)] ∧ s.sameStore t)) ∧
        (∀ a, arm = some a → a.j.r.count ≤ q ∨ Tbl.look? q a.parts ≠ none → Runs i s (fun t =>
          t.dev.stkReg st.val 0x07 = (come.stkReg st.val 0x07 + 1) % 2 ^ 64 ∧ t.dev.stk st.val = s.dev.stk st.val ∧
          t.dev.readyChunk st.val c.val tensor q = none ∧ s.sameStore t)) ∧
        (arm = none → Runs i s (fun t =>
          t.dev.stkReg st.val 0x07 = (come.stkReg st.val 0x07 + 1) % 2 ^ 64 ∧ t.dev.stk st.val = s.dev.stk st.val ∧
          t.dev.readyChunk st.val c.val tensor q = held.map (fun r => { r with since := some (r.since.getD s.dev.now) }) ∧
          come.sameRegs t.dev [(0x3800 + st.val, 0x07)] ∧ s.sameStore t)))) ∧
    ((∀ r, held = some r → r.since = none) → exec (.chunkReofferTimer st c tensor q) s = .next s) ∧
    (∀ k a, s.dev.fn 0x7000 ≠ 2 →
      (s.dev.stk st.val).chunks.find? (fun k => k.ctx = c.val && k.tensor = tensor && k.q = q) = some k → arm = some a →
      (k.bad = true → exec (.chunkStaged st c tensor q) s = .next (s.onDev (fun d => d.chunkLost st.val k))) ∧
      (k.bad = false → Tbl.look? q a.parts = none →
        (chunkHeld st.val a k s = true → Runs (.chunkStaged st c tensor q) s (fun t => s.sameStore t ∧
          (t.dev.stk st.val).chunks = (s.dev.stk st.val).chunks ∧
          (t.dev.stk st.val).arms = (s.dev.stk st.val).arms.map (fun x => if x = a then { a with hold := true } else x))) ∧
        (∀ p w1 w2 w3, chunkHeld st.val a k s = false →
          let u := rootUse k.ctx st.val 2 true
          s.runAct (vwrite (u.of a.desc) (a.desc.base + 32768 * k.q) (k.elems.flatMap (leBytes 2))) = (.ok (), w1) →
          w1.runAct (Act.num none (do
            let xs ← k.elems.mapM (toFp32 0x1)
            reduceLine add32 0x80000000 (← xs.mapM (fun x => mul32 x x)))) = (.ok p, w2) →
          w2.runAct (vwrite u (a.j.r.aux + 4 * k.q) (leBytes 4 p)) = (.ok (), w3) →
          let parts := Tbl.put k.q p a.parts
          let freed := fun (w : State) => w.onDev (fun d => (d.freeBuffer st.val k).incReg (0x3800 + st.val) 0x06)
          (parts.length ≠ a.j.r.count → exec (.chunkStaged st c tensor q) s = .next (((freed w3).onDev (fun d =>
            d.updStk st.val (fun t => { t with
              arms := t.arms.map (fun x => if x = a then { a with parts := parts, hold := false } else x) }))).chunkStaged
                st.val c.val tensor q)) ∧
          (parts.length = a.j.r.count → ∀ shard w4 w5,
            w3.runAct (Act.num none (reduceLine add32 0x80000000 (parts.map (·.2)))) = (.ok shard, w4) →
            w4.runAct (vwrite u (a.j.r.aux + 4 * a.j.r.count) (leBytes 4 shard)) = (.ok (), w5) →
            ∃ b : State, exec (.chunkStaged st c tensor q) s = .next (b.chunkStaged st.val c.val tensor q) ∧ b.mem = w5.mem ∧
              b.dev.stkReg st.val 0x03 = ((freed w5).dev.stkReg st.val 0x03 + 1) % 2 ^ 64 ∧ (∀ x ∈ (b.dev.stk st.val).arms, x ≠ a) ∧
              b.dev.syncQ = w5.dev.syncQ ++ (if a.j.r.sigEn then [⟨13, a.j.r.sigObj, false, 1, 0⟩] else []))))) ∧
    (∀ r, held = some r → r.since.isSome = true →
      (r.reported = false → exec (.chunkWaitEvent st c tensor q) s = .next (s.onDev (fun d =>
        (d.updReady st.val c.val tensor q (fun r => { r with reported := true })).raiseCtx 0x8706 c.val [st.val, tensor, q]))) ∧
      (r.reported = true → exec (.chunkWaitEvent st c tensor q) s = .next s))

/-- The codewords of the line code are counted first (free values, log entry 279). On a job handle that its QP and job name, from a
rank that is another member, with a good CRC and no drop injected: a packet of another epoch is answered and counted and no flow changes; a new one of the awaited collective is placed at
its offset and received in its flow; a repeated one is not placed again; one whose digest differs from the
collective's fails it and is answered. A packet with a bad CRC is dropped and counted in 0x5400:08, one of an unknown handle or a
wrong rank is dropped.
(R485, R488, R490, R504, R507, R607, R728) -/
def Obligations.packetsReceived : Prop :=
  ∀ (s : State) (n : Fin 24) (k : Fin 4) (p : PacketF),
    let d0 := s.dev.fec n.val k.val
    d0.injectedDrop (4 * n.val + k.val) = (false, d0) →
    (s.dev.jobQp p.handle p.job = none → exec (.transportPacketReceive n k p) s = .next { s with dev := d0 }) ∧
    (∀ h x, s.dev.jobQp p.handle p.job = some (h, x) →
      (x.n ≤ p.rank ∨ p.rank = x.rank → exec (.transportPacketReceive n k p) s = .next { s with dev := d0 }) ∧
      (p.rank < x.n → p.rank ≠ x.rank → p.crcOk = false →
        exec (.transportPacketReceive n k p) s = .next { s with dev := d0.incReg 0x5400 0x08 }) ∧
      (p.rank < x.n → p.rank ≠ x.rank → p.crcOk = true → s.dev.handle? h = some x → p.ce = false →
        exec (.transportPacketReceive n k p) s = .next (({ s with dev := acceptPacket (4 * n.val + k.val) h x p d0 } : State).moveHandle h) ∧
        (p.epoch ≠ x.epoch → acceptPacket (4 * n.val + k.val) h x p d0 =
          (d0.incReg 0x1100 0x0A).control h p.rank (if p.epoch < x.epoch then 3 else 4) [x.epoch]) ∧
        (p.epoch = x.epoch → p.seq = x.seq →
          let f := s.dev.flow h p.rank
          let d := acceptPacket (4 * n.val + k.val) h x p d0
          (∀ c, x.colls.find? (fun c => c.seq = p.seq) = some c → c.digest ≠ p.digest → ∃ y, d.handle? h = some y ∧
            (∀ g ∈ y.colls, g.seq ≠ p.seq) ∧ (∀ m ∈ y.rx, m.seq ≠ p.seq)) ∧
          ((∀ c, x.colls.find? (fun c => c.seq = p.seq) = some c → c.digest = p.digest) → f.since + 1 < 8 →
            (∃ y, d.handle? h = some y ∧ y.colls = x.colls ∧
              y.rx = (if f.has p.psn then x else x.place p ((4 * n.val + k.val) / 24)).rx ∧
              (Tbl.look Flow.reset p.rank y.flows).since = f.since + 1 ∧
              (p.psn < 2 ^ 24 → f.got.length < 2 ^ 22 → (Tbl.look Flow.reset p.rank y.flows).has p.psn = true))))))

/-- ACK_RECEIVE on an open handle takes the window over and leaves no packet that it acknowledges unacknowledged in the
flow, but one that had not been sent. ACK_TIMER acknowledges what has not been; WINDOW_PROBE_TIMER probes a window of
0. RETRANSMISSION_TIMEOUT sends a packet again while it was sent again fewer than sixteen times, and then fails every
collective of its handle with 0x0707. CNP_RECEIVE cuts the rate of its path by an eighth, at least to 1/256 of the
line; RATE_INCREASE_TIMER raises it up to the line where no notification came, and clears the mark. (R488, R489, R490,
R491, R492) -/
def Obligations.flowsDriven : Prop :=
  ∀ (s : State) (h rank : Nat) (x : Handle), s.dev.handle? h = some x →
    let f := s.dev.flow h rank
    (∀ cum sack window, Runs (.ackReceive h rank cum sack window) s (fun t =>
      (t.dev.flow h rank).win = some window ∧ s.sameStore t ∧
      (∀ p ∈ (t.dev.flow h rank).sent, acked cum sack p.psn = true → ∃ q ∈ f.wait, q.psn = p.psn))) ∧
    (f.oldest.isSome = true → Runs (.ackTimer h rank) s (fun t => (t.dev.flow h rank) = { f with since := 0, oldest := none } ∧
      (∃ sack, (∃ route, t.dev.tx.getLast? = some (.packet h rank 1 route [f.cum, sack, s.dev.windowFor f] [])) ∧
        ∀ i < 64, bit sack i = f.got.contains ((f.cum + i) % 2 ^ 24)) ∧ s.sameStore t)) ∧
    (f.oldest = none → exec (.ackTimer h rank) s = .next s) ∧
    (f.win = some 0 → exec (.windowProbeTimer h rank) s = .next (s.onDev (fun d => d.control h rank 2 []))) ∧
    (f.win ≠ some 0 → exec (.windowProbeTimer h rank) s = .next s) ∧
    (∀ psn p, x.kind = 0 → f.sent.find? (fun q => q.psn = psn) = some p →
      (p.resends < 16 → exec (.retransmissionTimeout h rank psn) s = .next (s.onDev (fun d => d.resend h rank psn))) ∧
      (16 ≤ p.resends → Runs (.retransmissionTimeout h rank psn) s (fun t => s.sameStore t ∧
        ∃ y, t.dev.handle? h = some y ∧ y.colls = []))) ∧
    (∀ sub, let line := s.dev.lineRate (sub / 4)
      let p := s.dev.path f sub
      Runs (.cnpReceive h rank sub) s (fun t => Tbl.look? sub (t.dev.flow h rank).paths =
        some { p with rate := max (line / 256) (p.rate - p.rate / 8), cnp := true } ∧ s.sameStore t) ∧
      Runs (.rateIncreaseTimer h rank sub) s (fun t => Tbl.look? sub (t.dev.flow h rank).paths =
        some { p with rate := if p.cnp then p.rate else min line (p.rate + line / s.dev.reg 0x1100 0x06), cnp := false } ∧
        s.sameStore t))

/-- A write to the enable entry of a port, engine, root engine, context, host site, the securing function, telemetry or
perturbation that passes its checks: 1 on an OFF function whose own check passes starts it, to ON at once or to
STARTING for a port, and is accepted; a check that fails answers its code and starts nothing. 0 on an ON function that
may be disabled moves it to STOPPING; one that may not answers its code. 1 while ON or STARTING and 0 while OFF leave
the state. The enable entry reads back what was accepted. A started function reads enabled and ON at once, or STARTING
where its rule says so. When STARTING ends the function is ON unless a stop was latched, and then STOPPING. When
STOPPING ends it is OFF; where a new start was latched its check runs again, and one that fails leaves it OFF and not
enabled. (R103, R306, R378, R383, R560, R650, R672, R674, R675, R728) -/
def Obligations.functionsSwitch : Prop :=
  (∀ (s : State) (via : Via) (v : Nat) (n : Fin 24) (e : Fin 64) (k : Fin 32) (c : Fin 1024) (h : Fin 4) (i : Instr) (idx : Nat)
     (r : FnRule),
     (i, idx, r) ∈ ([(.portEnableWrite via n v, 0x2C00 + n.val, portRule n.val), (.engineEnableWrite via e v, 0x3000 + e.val, engRule e.val),
       (.rootEngineEnableWrite via k v, 0x3800 + k.val, rootRule k.val), (.contextEnableWrite via c v, 0x4000 + c.val, ctxRule c.val),
       (.siteEnableWrite via h v, 0x4800 + h.val, siteRule h.val), (.securingEnableWrite via v, 0x5800, secureRule),
       (.telemetryEnableWrite via v, 0x5C00, teleRule), (.perturbationEnableWrite via v, 0x7000, perturbRule)] :
       List (Instr × Nat × FnRule)) →
     s.passes via idx 1 v → s.dev.busyIdx idx = false →
     (v % 2 = 1 → s.dev.fn idx = 0 →
       (r.check s = 0 → exec i s = .next ((s.fnStart r idx).replied via idx 1 0)) ∧
       (r.check s ≠ 0 → exec i s = .next (s.replied via idx 1 (r.check s)))) ∧
     (v % 2 = 0 → s.dev.fn idx = 2 →
       (r.refuse s = 0 → exec i s = .next ((r.stop ((s.onDev (fun d => d.setReg idx 0x01 0)).setFn idx 3)).replied via idx 1 0)) ∧
       (r.refuse s ≠ 0 → exec i s = .next (s.replied via idx 1 (r.refuse s)))) ∧
     (v % 2 = 1 → s.dev.fn idx = 1 ∨ s.dev.fn idx = 2 → exec i s = .next ((s.onDev (fun d => d.setReg idx 0x01 1)).replied via idx 1 0)) ∧
     (v % 2 = 0 → s.dev.fn idx = 0 → exec i s = .next ((s.onDev (fun d => d.setReg idx 0x01 0)).replied via idx 1 0))) ∧
  (∀ (s : State) (r : FnRule) (idx : Nat), r.start = id → r.stop = id →
     (let t := s.fnStart r idx
      t.dev.fn idx = (if r.atOnce then 2 else 1) ∧ t.dev.reg idx 0x01 = 1 ∧ s.dev.sameRegs t.dev [(idx, 0x01), (idx, 0x02)]) ∧
     (let t := s.fnStarted r idx
      t.dev.fn idx = (if Tbl.look 0 idx s.dev.latch = 1 then 3 else 2) ∧ Tbl.look 0 idx t.dev.latch = 0 ∧
      s.dev.sameRegs t.dev [(idx, 0x02)]) ∧
     (Tbl.look 0 idx s.dev.latch ≠ 2 → (s.fnStopped r idx).dev.fn idx = 0) ∧
     (Tbl.look 0 idx s.dev.latch = 2 →
       let off := (s.onDev (fun d => { d with latch := Tbl.del idx d.latch })).setFn idx 0
       (r.check off = 0 → (s.fnStopped r idx).dev.fn idx = (if r.atOnce then 2 else 1)) ∧
       (r.check off ≠ 0 → (s.fnStopped r idx).dev.fn idx = 0 ∧ (s.fnStopped r idx).dev.reg idx 0x01 = 0)))

/-- LINK_STATE_CHANGE of a sub-port that the mode of a port not OFF has: the sub-port is up or down as the command says,
the others as before, and the last one up of a STARTING port ends STARTING. PORT_STARTING_TIMEOUT ends STARTING of a
port and changes no other. LANE_RETRAIN_COMPLETE ends a retraining. A PFC frame for the collective class pauses and
releases its sub-port. The LLDP timer of an ON port's sub-port sends a frame with the serial number, port, sub-port
and 120 s. On an ON port's sub-port that is up every frame counts in :0A, and the codewords of the line
code are counted (free values, log entry 279). One that is too short or too long, has a bad
FCS or two tags counts in :0C and does nothing else; one of the management VLAN changes nothing else; an LLDP frame is
kept for its sub-port; a request for the sub-port's own address is answered with its MAC, an echo request with the
same payload once the gateway is resolved; a frame of another kind is dropped. An offset from the selected source (a
PTP message on its sub-port, or the PPS edge while it is selected) is recorded; beyond 100 microseconds the timebase
steps by it, is counted, and the mode is 1; otherwise the timebase keeps its value and the frequency adjustment lies
within 200 ppm (which value, and whether the mode is locked, the spec leaves open). A message on another sub-port, or
one while the PPS input is selected, is ignored. PPS is driven unless it is the input. TIME_HOLDOVER of a source puts
the mode to 3. (R480, R481, R482, R484, R494, R495, R496, R497, R525, R527, R675, R725) -/
def Obligations.linksAndFrames : Prop :=
  (∀ (s : State) (n : Fin 24) (k : Fin 4),
     (∀ up lanes, s.dev.fn (0x2C00 + n.val) ≠ 0 → k.val < s.dev.subPorts n.val → Runs (.linkStateChange n k up lanes) s (fun t =>
       (t.dev.port n.val).up.Perm (if up then (if (s.dev.port n.val).up.contains k.val then (s.dev.port n.val).up else
         k.val :: (s.dev.port n.val).up) else (s.dev.port n.val).up.erase k.val) ∧
       (t.dev.fn (0x2C00 + n.val) = 1 ↔ (s.dev.fn (0x2C00 + n.val) = 1 ∧
         ¬ ∀ j < s.dev.subPorts n.val, (t.dev.port n.val).up.contains j = true)) ∧ s.sameStore t)) ∧
     (∀ up lanes, s.dev.fn (0x2C00 + n.val) = 0 ∨ s.dev.subPorts n.val ≤ k.val → exec (.linkStateChange n k up lanes) s = .next s) ∧
     (s.dev.fn (0x2C00 + n.val) = 1 → exec (.portStartingTimeout n) s = .next ((s.fnStarted (portRule n.val) (0x2C00 + n.val)).onDev Dev.pumpAll)) ∧
     (s.dev.fn (0x2C00 + n.val) ≠ 1 → exec (.portStartingTimeout n) s = .next s) ∧
     (∀ lanes, (s.dev.port n.val).retraining = true → Runs (.laneRetrainComplete n lanes) s (fun t =>
       (t.dev.port n.val).retraining = false ∧ (t.dev.port n.val).lanes = lanes ∧ s.sameStore t)) ∧
     (∀ classes quanta, bit (s.dev.reg 0x1100 0x03) 0 = true → bit classes (bits (s.dev.reg 0x1100 0x03) 3 1) = true →
       (quanta ≠ 0 → Runs (.pfcFrameReceive n k classes quanta) s (fun t => (t.dev.port n.val).paused.contains k.val = true ∧
         t.dev.tx = s.dev.tx ∧ t.dev.regs = s.dev.regs ∧ s.sameStore t)) ∧
       (quanta = 0 → (s.dev.port n.val).paused.Nodup → Runs (.pfcFrameReceive n k classes quanta) s (fun t =>
         (t.dev.port n.val).paused.contains k.val = false ∧ s.sameStore t))) ∧
     (s.dev.fn (0x2C00 + n.val) = 2 → (s.dev.port n.val).up.contains k.val = true → Runs (.lldpSendTimer n k) s (fun t =>
       t.dev.tx = s.dev.tx ++ [.frame (4 * n.val + k.val) 1 [s.dev.reg 0x1000 0x06, n.val, k.val, 120]] ∧
       t.dev.portReg n.val 0x0B = (s.dev.portReg n.val 0x0B + 1) % 2 ^ 64 ∧ s.dev.sameRegs t.dev [(0x2C00 + n.val, 0x0B)] ∧ s.sameStore t))) ∧
  ((∀ (s : State) (n : Fin 24) (k : Fin 4) (f : FrameF),
      let d := (s.dev.fec n.val k.val).incReg (0x2C00 + n.val) 0x0A
      let good := 64 ≤ f.len ∧ f.len ≤ 9216 ∧ f.fcsOk = true ∧ f.tags.length ≤ 1
      (s.dev.port n.val).up.contains k.val = true → s.dev.fn (0x2C00 + n.val) = 2 →
      (¬ good → exec (.frameReceive n k f) s = .next { s with dev := d.incReg (0x2C00 + n.val) 0x0C }) ∧
      (good → f.tags.contains (s.dev.reg 0x1100 0x01 % 4096) = true → exec (.frameReceive n k f) s = .next { s with dev := d }) ∧
      (good → f.tags.contains (s.dev.reg 0x1100 0x01 % 4096) = false →
        (∀ v6 target asker, f.body = .addrRequest v6 target asker → target ≠ 0 → target = s.dev.ownAddr n.val k.val v6 →
          exec (.frameReceive n k f) s = .next (s.onDev (fun _ =>
            d.sendFrame (4 * n.val + k.val) 2 [b2n v6, target, s.dev.macOf n.val k.val, asker] 64))) ∧
        (∀ v6 dest src payload, f.body = .icmp v6 dest src true payload → dest ≠ 0 → dest = s.dev.ownAddr n.val k.val v6 →
          s.dev.gateway n.val k.val = true → exec (.frameReceive n k f) s = .next (s.onDev (fun _ =>
            d.sendFrame (4 * n.val + k.val) 3 ([b2n v6, dest, src] ++ payload) (payload.length + 46)))) ∧
        (∀ chassis port, f.body = .lldp chassis port → chassis < 256 ^ 19 → port < 256 ^ 44 → Runs (.frameReceive n k f) s (fun t =>
          bytesAt (t.dev.portReg n.val 0x09) (64 * k.val) 19 = chassis ∧ bytesAt (t.dev.portReg n.val 0x09) (64 * k.val + 19) 44 = port ∧
          s.sameStore t ∧ t.dev.tx = s.dev.tx)) ∧
        (f.body = .other → exec (.frameReceive n k f) s = .next { s with dev := d.incReg (0x2C00 + n.val) 0x0C }) ∧
        (f.body = .pause → exec (.frameReceive n k f) s = .next { s with dev := d }))) ∧
   (∀ (s : State) (offset : Int) (n : Fin 24) (k : Fin 4),
      let c := s.dev.reg 0x1100 0x04
      let taken := fun (t : State) => s.sameStore t ∧ t.dev.reg 0x1100 0x05 = ofSigned 32 offset ∧
        (100000 < offset.natAbs → t.dev.now = ((s.dev.now : Int) - offset).toNat % 2 ^ 64 ∧ t.dev.reg 0x2400 0x02 = 1 ∧
          t.dev.reg 0x2400 0x04 = (s.dev.reg 0x2400 0x04 + 1) % 2 ^ 64) ∧
        (offset.natAbs ≤ 100000 → t.dev.now = s.dev.now ∧ (t.dev.reg 0x2400 0x02 = 1 ∨ t.dev.reg 0x2400 0x02 = 2) ∧
          ∃ a : Int, -200000 ≤ a ∧ a ≤ 200000 ∧ t.dev.reg 0x2400 0x03 = ofSigned 32 a)
      (bit c 12 = true → bit c 13 = false → c % 256 = 4 * n.val + k.val → (s.dev.port n.val).up.contains k.val = true →
        Runs (.ptpMessageReceive n k offset) s taken) ∧
      (bit c 12 = false ∨ bit c 13 = true ∨ c % 256 ≠ 4 * n.val + k.val → exec (.ptpMessageReceive n k offset) s = .next s) ∧
      (bit c 13 = true → Runs (.ppsInputEdge offset) s taken) ∧ (bit c 13 = false → exec (.ppsInputEdge offset) s = .next s) ∧
      (bit c 13 = false → exec .ppsOutputSecond s = .next (s.onDev (fun d => d.out (.pin 1 1)))) ∧
      (bit c 13 = true → exec .ppsOutputSecond s = .next s) ∧
      ((bit c 12 = true ∨ bit c 13 = true) → Runs .timeHoldover s (fun t => t.dev.reg 0x2400 0x02 = 3 ∧ t.dev.now = s.dev.now ∧
        s.sameStore t)) ∧
      (bit c 12 = false → bit c 13 = false → exec .timeHoldover s = .next s)))

/-- On a stream it fits, with a sound header and aligned addresses, while the securing function is ON: SOPEN with nothing open,
its targets present, an object that its context owns and a manifest of good, distinct entries whose operands lie in their stacks
and whose ranges fit the local slot leaves securing open with the command's fields and no image, its first status record
written, and is done; without the function ON it is refused with 0x0A06, while securing is open with 0x0A03. SCLOSE with a
sound header is done where nothing is open, closes and writes the status where no image is in progress, and otherwise runs on
until the image is over. SRESTORE on a context without another command and with securing not open, of a complete image of its
source (the newest, or the update that it names) whose manifest is that of the command and whose segments all verify, is done
where the image can be put back; without the function ON it is refused with 0x0A06, while securing is open with 0x0A05. (R349,
R350, R353, R371, R372, R373, R374, R375, R378) -/
def Obligations.securingOpens : Prop :=
  ∀ (s : State) (o : Origin) (f : SnapF), fits o s.dev →
    let c := o.ctx.val
    let at_ := fun (op : Nat) (cmd : Option QCmd) => s.atUnit o op 15 cmd
    let stopped := fun (op code : Nat) (t : State) => let y := t.dev.stream c o.stream.val
      y.stopped = true ∧ y.cause = 1 ∧ y.reason = code ∧ y.stopSeq = o.seq ∧ y.stopOp = op ∧ s.sameStore t
    let old := (s.dev.upd c).sec
    let open_ := (old.map (·.isOpen)).getD false
    (plain o s.dev → snapBad f = 0 → s.dev.fn 0x5800 = 2 → open_ = false →
      (f.opt = 1 → ∀ p < 4, s.dev.snap.contains p = true) →
      (f.netInterval ≠ 0 → ∃ x, s.dev.handle? f.handle = some x ∧ x.kind = 1 ∧ x.ctx = c) → s.dev.ownsObj c f.obj = true →
      ∀ es crc rs w1 w2 w3 w4, readManifest c f.manifest f.entries (at_ 0x78 (cmdOf o 0x78 f.reserved (snapFields 0x78 f))) =
        (.ok (es, crc), w1) → es ≠ [] → (∀ e ∈ es, e.ok = true) → (es.map (·.obj)).Nodup →
      (es.forM (entryPlaced c) : Act Unit) w1 = (.ok (), w2) → imageRanges c (s.dev.ctxReg c 0x09) es w2 = (.ok rs, w3) →
      (f.opt = 1 → ∀ p < 4, rangeBytes (rs.filter (fun r => r.stack / 8 = p)) ≤ f.localLen * 4096) →
      let x := Secure.opened o f old
      vwrite (coordUse c) f.status (1 :: List.replicate 63 0) ⟨w3.mem, w3.dev.updUpd c (fun u => { u with sec := some x })⟩ =
        (.ok (), w4) →
      Runs (.sopen o f) s (fun t => t.dev = w4.dev.markDone c o.stream.val o.seq ∧ t.mem = w4.mem ∧ t.persist = s.persist ∧
        t.pending = s.pending ∧ (t.dev.upd c).sec = some x ∧ x.isOpen = true ∧ x.image = 0 ∧ x.closing = [] ∧ x.rolling = false ∧
        x.f = f)) ∧
    (plain o s.dev → snapBad f = 0 → (s.dev.stream c o.stream.val).stopped = false → s.dev.fn 0x5800 ≠ 2 →
      Runs (.sopen o f) s (stopped 0x78 0x0A06) ∧ Runs (.srestore o f) s (stopped 0x7A 0x0A06)) ∧
    (plain o s.dev → snapBad f = 0 → (s.dev.stream c o.stream.val).stopped = false → s.dev.fn 0x5800 = 2 → open_ = true →
      Runs (.sopen o f) s (stopped 0x78 0x0A03) ∧ Runs (.srestore o f) s (stopped 0x7A 0x0A05)) ∧
    (plain o s.dev →
      (old = none → exec (.sclose o 0) s = .next (s.onDev (fun d => d.boarded o 0x79 15 (cmdOf o 0x79 0 []) 1))) ∧
      (∀ x, old = some x → x.image ≠ 0 → exec (.sclose o 0) s = .next (s.onDev (fun d =>
        (d.boarded o 0x79 15 (cmdOf o 0x79 0 []) 0).updSec c (fun x => { x with closing := x.closing ++ [o] })))) ∧
      (∀ x, old = some x → x.image = 0 → x.isOpen = false → exec (.sclose o 0) s = .next (s.onDev (fun d =>
        (d.boarded o 0x79 15 (cmdOf o 0x79 0 []) 1).updSec c (fun x => { x with isOpen := false, closing := [] })))) ∧
      (∀ x w, old = some x → x.image = 0 → x.isOpen = true →
        vwrite (coordUse c) x.f.status ({ x with isOpen := false } : Secure).status
          ⟨s.mem, (at_ 0x79 (cmdOf o 0x79 0 [])).dev.updSec c (fun x => { x with isOpen := false, closing := [] })⟩ = (.ok (), w) →
        Runs (.sclose o 0) s (fun t => (t.dev.upd c).sec = some { x with isOpen := false, closing := [] } ∧
          t.dev = w.dev.markDone c o.stream.val o.seq ∧ t.mem = w.mem ∧ t.persist = s.persist ∧ t.pending = s.pending))) ∧
    (plain o s.dev → snapBad f = 0 → s.dev.fn 0x5800 = 2 → open_ = false →
      (∀ (i : Nat) (x : Stream), (s.dev.ctx c).streams[i]? = some x → x.q = [] ∧ x.waiting = false ∧ x.run = []) →
      ∀ u ps es crc w1 w, let all := s.images c f.opt f
      all.find? (fun p => p.1 = (if f.obj = 0 then (all.map (·.1)).foldl max 0 else f.obj)) = some (u, ps) →
      readManifest c f.manifest f.entries (at_ 0x7A (cmdOf o 0x7A f.reserved (snapFields 0x7A f))) = (.ok (es, crc), w1) →
      (ps.map (·.manifest)).headD 0 = crc → (∀ g ∈ ps, g.badSegment = none) → restoreImage c f es u ps w1 = (.ok (), w) →
      Runs (.srestore o f) s (fun t => t.dev = w.dev.markDone c o.stream.val o.seq ∧ t.mem = w.mem ∧ t.persist = s.persist ∧
        t.pending = s.pending))

/-- With an image in progress: SNAPSHOT_FLUSH_COMPLETE with status 0 of a part whose stacks are streamed, on a
present port, and NETWORK_HEADER_ACK of the network part whose header has been sent, put the part of this image on its target,
in place of an older part of the slot, and no other part changes; the header of a local part verifies and holds the image's
context, update and step; a bad status, an absent port or a negative acknowledgement fails the image on
that target and commits nothing. IMAGE_COMPLETE on a target whose parts are all committed records the update index,
counts the image and its bytes and signals the object at input 15; the last target ends the image, and where an SCLOSE waits
securing is closed. SECURING_HOLD_RELEASE lets the held jobs and chunks of a stack go on and counts their wait. (R356, R358,
R359, R364, R365, R366, R367, R368, R370, R371) -/
def Obligations.securingRuns : Prop :=
  ∀ (s : State) (c : Fin 1024) (x : Secure), (s.dev.upd c.val).sec = some x → x.image ≠ 0 →
    let placed := fun (g : ImgPart) (same : ImgPart → Bool) (p : Nat) (seq : Nat) (t : State) =>
      t.pending = s.pending ∧ t.mem = s.mem ∧
      t.persist = { s.persist with media := s.persist.media.filter (fun q => !(same q)) ++ [g] } ∧
      (t.dev.upd c.val).sec = some { x with commitSeq := seq, targets := x.targets.map (fun z =>
        if z.kind = g.kind then { z with partsLeft := z.partsLeft.erase p } else z) }
    let failed := fun (kind : Nat) (t : State) => t.persist = s.persist ∧ t.pending = s.pending ∧
      t.dev.reg 0x5800 0x05 = (s.dev.reg 0x5800 0x05 + 1) % 2 ^ 64 ∧
      ∃ y, (t.dev.upd c.val).sec = some y ∧ ∀ z ∈ y.targets, z.kind ≠ kind
    (∀ port : Fin 4, x.targets.any (fun t => t.kind = 0 && t.partsLeft.contains port.val) = true → x.partStreamed 0 port.val = true →
      let g := x.part c.val 0 port.val port.val
      (s.dev.snap.contains port.val = true → Runs (.snapshotFlushComplete c port 0) s
          (placed g (fun q => q.kind = 0 && q.port = port.val && q.base = g.base) port.val ((x.commitSeq + 1) % 2 ^ 32)) ∧
        g.headerOk = true ∧ g.kind = 0 ∧ g.port = port.val ∧ g.ctx = c.val ∧ g.u = x.image ∧ g.step = x.step ∧ g.parts = 4 ∧
        g.data = x.partData 0 port.val) ∧
      (∀ status, status ≠ 0 ∨ s.dev.snap.contains port.val = false →
        Runs (.snapshotFlushComplete c port status) s (failed 0))) ∧
    (x.targets.any (fun t => t.kind = 1 && t.partsLeft.contains 0) = true → x.partStreamed 1 0 = true →
      (∀ g, x.sent = some g → g.kind = 1 → Runs (.networkHeaderAck c true) s
        (placed g (fun q => q.kind = 1 && q.port = g.port && q.base = g.base && q.ctx = c.val && q.u = g.u) 0 x.commitSeq)) ∧
      Runs (.networkHeaderAck c false) s (failed 1)) ∧
    (∀ (target : Fin 2) z, x.targets.find? (fun t => t.kind = target.val) = some z → z.partsLeft = [] →
      Runs (.imageComplete c target) s (fun t => t.persist = s.persist ∧ t.pending = s.pending ∧
        t.dev.reg 0x5800 0x04 = (s.dev.reg 0x5800 0x04 + 1) % 2 ^ 64 ∧
        t.dev.reg 0x5800 0x07 = (s.dev.reg 0x5800 0x07 + (x.data.map (fun g => g.bytes.length)).sum) % 2 ^ 64 ∧
        t.dev.syncQ = s.dev.syncQ ++ [⟨15, x.f.obj, false, 1, 0⟩] ∧
        ∃ y, (t.dev.upd c.val).sec = some y ∧ (∀ w ∈ y.targets, w.kind ≠ target.val) ∧
          (x.targets.all (fun t => t.kind = target.val) = true → y.image = 0 ∧ (x.closing ≠ [] → y.isOpen = false ∧ y.closing = [])) ∧
          (target.val = 0 → y.lastLocal = x.image ∧ y.lastNet = x.lastNet) ∧
          (target.val = 1 → y.lastNet = x.image ∧ y.lastLocal = x.lastLocal))) ∧
    (∀ (st : Fin 32) n, (s.dev.stk st.val).queue.any (·.jobHold) = true ∨ (s.dev.stk st.val).arms.any (·.hold) = true →
      Runs (.securingHoldRelease st n) s (fun t =>
        (∀ r ∈ (t.dev.stk st.val).queue, r.jobHold = false) ∧ (∀ a ∈ (t.dev.stk st.val).arms, a.hold = false) ∧
        (t.dev.stk st.val).queue.map (·.j) = (s.dev.stk st.val).queue.map (·.j) ∧
        t.dev.reg 0x5800 0x08 = (s.dev.reg 0x5800 0x08 + n) % 2 ^ 64 ∧ s.dev.sameRegs t.dev [(0x5800, 0x08)] ∧ s.sameStore t))

/-- A write that passes the dictionary's checks. CONTEXT_OWNER_WRITE of an OFF context by a host that takes a free context
for itself or gives its own up, or by the management for a populated site, writes the owner; another answers 0x0202.
BLOCK_ASSIGN of a block that is free and BLOCK_FREE of a block of an OFF context write the block table and zero the
block's counters. BED_WRITE of granted engines for a bed that no context names writes the bed; an ungranted engine
answers 0x020D. SPLIT_GROUP_WRITE of disjoint beds writes the group, of beds that share an engine answers 0x0210.
ENGINE_GRANT_WRITE writes the grant. EVALUATION_ATTACH_WRITE that detaches writes the attachment. Every refused write
leaves all but its answer as it was. (R381, R423, R424, R425, R431, R443, R445, R446, R447, R448, R465, R472) -/
def Obligations.contextTablesWritten : Prop :=
  ∀ (s : State) (via : Via) (c : Fin 1024) (v : Nat),
    (s.passes via (0x4000 + c.val) 0x03 v →
      ((ownerWrite via c.val v s).1 = 0 → exec (.contextOwnerWrite via c v) s = .next ((s.onDev (fun d =>
        d.setReg (0x4000 + c.val) 0x03 v)).replied via (0x4000 + c.val) 0x03 0)) ∧
      ((ownerWrite via c.val v s).1 ≠ 0 → exec (.contextOwnerWrite via c v) s = .next (s.replied via (0x4000 + c.val) 0x03 0x0202)) ∧
      (∀ h, viaHost via = some h → s.dev.ctxState c.val = 0 → s.dev.owner c.val = none → v = h → h < 4 → (ownerWrite via c.val v s).1 = 0) ∧
      (s.dev.ctxState c.val ≠ 0 → (ownerWrite via c.val v s).1 = 0x0202)) ∧
    (∀ (b : Fin 256) (remote notify : Bool) (hosts : Nat), hosts < 16 →
      (∀ h, viaHost via = some h → s.dev.owner c.val = some h) → bit (s.dev.block b.val) 31 = false →
      s.passes via 0x4C00 0x02 (blockWord b.val 1 remote notify hosts c.val) →
      Runs (.blockAssign via b remote notify hosts c) s (fun t =>
        t.dev.block b.val = 2 ^ 31 + b2n remote * 2 ^ 30 + b2n notify * 2 ^ 29 + hosts * 2 ^ 24 + c.val ∧
        (∀ y, y / 64 = b.val → t.dev.counter y = 0) ∧ (∀ y, y / 64 ≠ b.val → t.dev.counter y = s.dev.counter y) ∧
        (∀ k, k ≠ b.val → t.dev.block k = s.dev.block k) ∧ s.sameStore t ∧ answers t via 0x4C00 0x02 0)) ∧
    (∀ (b : Fin 256), (∀ h, viaHost via = some h → s.dev.owner c.val = some h) →
      s.passes via 0x4C00 0x02 (blockWord b.val 0 false false 0 c.val) →
      (bit (s.dev.block b.val) 31 = true → bits (s.dev.block b.val) 9 0 = c.val → s.dev.ctxState c.val = 0 →
        exec (.blockFree via b c) s = .next ((s.onDev (fun d => d.freeBlock b.val)).replied via 0x4C00 0x02 0)) ∧
      (bit (s.dev.block b.val) 31 = false → exec (.blockFree via b c) s = .next (s.replied via 0x4C00 0x02 0x0209))) ∧
    (∀ (b : Fin 64), viaHost via = none → s.passes via 0x3400 (0x40 + b.val) v →
      let ungranted := (bitList 64 (bytesAt v 0 8)).any (fun e => clearMask (bits (bytesAt v 8 1) 3 0) (s.dev.engReg e 0x24 % 16) ≠ 0)
      (ungranted = true → exec (.bedWrite via b v) s = .next (s.replied via 0x3400 (0x40 + b.val) 0x020D)) ∧
      (ungranted = false → (∀ k < 1024, s.dev.bedOf k ≠ some b.val) → Runs (.bedWrite via b v) s (fun t =>
        t.dev.reg 0x3400 (0x40 + b.val) = v ∧ t.dev.ctxs = s.dev.ctxs ∧ s.sameStore t ∧ answers t via 0x3400 (0x40 + b.val) 0))) ∧
    (∀ (g : Fin 8), s.passes via 0x3400 (0x80 + g.val) v →
      let masks := (groupBeds v).map (fun b => (s.dev.bedDef b).1)
      let shared := (List.range 64).any (fun e => 1 < (masks.filter (fun m => bit m e)).length)
      (shared = true → exec (.splitGroupWrite via g v) s = .next (s.replied via 0x3400 (0x80 + g.val) 0x0210)) ∧
      (shared = false → (groupBeds v).Nodup → exec (.splitGroupWrite via g v) s = .next ((s.onDev (fun d =>
        { d.setReg 0x3400 (0x80 + g.val) v with splits := Tbl.del g.val d.splits })).replied via 0x3400 (0x80 + g.val) 0))) ∧
    (∀ (e : Fin 64), s.passes via (0x3000 + e.val) 0x24 v → exec (.engineGrantWrite via e v) s =
      .next ((s.onDev (fun d => d.setReg (0x3000 + e.val) 0x24 v)).replied via (0x3000 + e.val) 0x24 0)) ∧
    (s.passes via (0x4000 + c.val) 0x1C v →
      ((attachEval c.val v s).1 = 0 → exec (.evaluationAttachWrite via c v) s =
        .next ((s.onDev (fun d => d.setReg (0x4000 + c.val) 0x1C v)).replied via (0x4000 + c.val) 0x1C 0)) ∧
      ((attachEval c.val v s).1 ≠ 0 → exec (.evaluationAttachWrite via c v) s = .next (s.replied via (0x4000 + c.val) 0x1C 0x0210)) ∧
      (bit v 15 = false → (attachEval c.val v s).1 = 0) ∧ (bit v 15 = true → v % 1024 = c.val → (attachEval c.val v s).1 = 0x0210))

/-- With no request waiting, CONTEXT_STOP_COMPLETE of a STOPPING context that still has an issued command, or of one that
is not STOPPING, changes nothing; of a drained one without an OPEN set that is not being reclaimed and has no new
start latched, the context is OFF, holds no queued or issued command, no hint and no window. WINDOW_CLOSE of an open
window closes it at this time and counts an overrun where an attached context is not idle; WINDOW_EARLY_CLOSE does so
only where early close is set and all are idle. OVERRUN_LIMIT_EXPIRY after a close ends the allowance of every
attached context. (R384, R445, R465, R467, R469, R470, R546, R712) -/
def Obligations.windowsAndStops : Prop :=
  ∀ (s : State) (c : Fin 1024),
    (s.dev.dict.waiting = [] → s.dev.ctxState c.val ≠ 3 ∨ s.dev.ctxDrained c.val = false → exec (.contextStopComplete c) s = .next s) ∧
    (s.dev.dict.waiting = [] → s.dev.ctxState c.val = 3 → s.dev.ctxDrained c.val = true → s.dev.holdsOpen c.val (2 ^ 64 - 1) = false → (s.dev.ctx c.val).reclaimed = false →
      Tbl.look 0 (0x4000 + c.val) s.dev.latch = 0 → Runs (.contextStopComplete c) s (fun t =>
        t.dev.ctxState c.val = 0 ∧ (∀ x ∈ (t.dev.ctx c.val).streams, x.q = [] ∧ x.run = [] ∧ x.waiting = false) ∧
        (t.dev.ctx c.val).hints = [] ∧ (t.dev.ctx c.val).win = 0 ∧ s.sameStore t ∧ s.dev.otherCtxs t.dev c.val)) ∧
    ((s.dev.ctx c.val).win ≠ 2 → exec (.windowClose c) s = .next s ∧ exec (.windowEarlyClose c) s = .next s) ∧
    ((s.dev.ctx c.val).win = 2 →
      let late := (s.dev.attached c.val).any (fun e => !(s.dev.ctxIdle e))
      let closed := fun (t : State) => s.sameStore t ∧ (t.dev.ctx c.val).win = 0 ∧ (t.dev.ctx c.val).winClosed = s.dev.now ∧
        t.dev.ctxReg c.val 0x20 = (if late then (s.dev.ctxReg c.val 0x20 + 1) % 2 ^ 64 else s.dev.ctxReg c.val 0x20) ∧
        ∀ e ∈ s.dev.attached c.val, (t.dev.ctx e).overrunOver = false ∧
          (t.dev.ctx e).overrunSeqs = (s.dev.ctx e).streams.map (·.expected)
      Runs (.windowClose c) s closed ∧
      (((s.dev.ctx c.val).winEarly = true ∧ late = false) → Runs (.windowEarlyClose c) s closed) ∧
      (((s.dev.ctx c.val).winEarly = false ∨ late = true) → exec (.windowEarlyClose c) s = .next s)) ∧
    ((s.dev.ctx c.val).win ≠ 2 → (s.dev.ctx c.val).overrun ≠ 0 → Runs (.overrunLimitExpiry c) s (fun t => s.sameStore t ∧
      t.dev.regs = s.dev.regs ∧ (∀ e ∈ s.dev.attached c.val, (t.dev.ctx e).overrunOver = true) ∧
      (∀ e, e ∉ s.dev.attached c.val → t.dev.ctx e = s.dev.ctx e))) ∧
    ((s.dev.ctx c.val).win = 2 ∨ (s.dev.ctx c.val).overrun = 0 → exec (.overrunLimitExpiry c) s = .next s)

/-- From every state whose HBM and scratchpad contents stand in canonical form (addresses strictly rising, no listed byte
equal to 0, which an unlisted byte reads as: by R238 in a stack, by log entry 2 in a scratchpad), every step answers a
state whose memories stand in canonical form: equal contents are equal data whatever the machine has done. (R228,
R232, R193, R201, R236, R446, R214) -/
def Obligations.memoriesStayCanonical : Prop :=
  ∀ s t : State, s.mem.wf → step s = .next t → t.mem.wf

/-- After reset no command waits, the memories are in canonical form and list nothing, the OTP store and the flash have
their form, RESET# is asserted and the start-up has not begun: the dictionary is not available and no transport is
heard, no context is ON, every counter is 0, no block is assigned, no site is attached, no handle is open and no
engine has work. RESET_ASSERT leaves the part as after a cold start, with empty memories and every entry at its
default; the OTP store and the flash stay, but for burns that it cuts short. RESET_RELEASE samples the straps and
begins step 2. STARTUP_STEP_COMPLETE of a start-up under way ends its step or halts the device: unlocked clocks halt
it with 0x0B0C and a test record that is not accepted with 0x0B0D; locked clocks start the timebase at 0 with a
challenge drawn. A start-up that does not run, is halted, awaits its restart or has tripped stays as it is.
DEVICE_RESET_WRITE of 1 is answered, and the reset that DEVICE_RESET_DELAY_EXPIRY then carries out, once no burn and
no wipe is under way, begins the start-up again. (R238, R423, R533, R685, R686, R687, R688, R689, R690, R691, R708,
R746) -/
def Obligations.partStarts : Prop :=
  (let s := State.reset
   s.pending = [] ∧ s.mem.wf ∧ s.mem.hbm = [] ∧ s.mem.spad = [] ∧ s.persist.legal ∧ s.dev.boot.reset = true ∧
   s.dev.boot.running = false ∧ s.dev.reg 0x6000 0x02 = 0 ∧ s.dev.avail = false ∧ (∀ via, s.dev.deaf via = true) ∧
   (∀ c < 1024, s.dev.ctxState c = 0) ∧ (∀ y, s.dev.counter y = 0 ∧ s.dev.objOwner y = none) ∧ s.dev.syncQ = [] ∧
   (∀ h, (s.dev.site h).phase ≠ 4) ∧ (∀ h, s.dev.handle? h = none) ∧
   (∀ e, (s.dev.eng e).jobs = [] ∧ (s.dev.eng e).vq = [] ∧ (s.dev.eng e).dq = []) ∧ (∀ k, (s.dev.stk k).queue = []) ∧
   (∀ b, s.dev.boot.burnLife = some b → b ≤ 4)) ∧
  (∀ (s : State),
     let b := s.dev.boot
     let cold := fun (t : State) => t.mem = Store.reset ∧ t.dev.mfg = s.dev.mfg ∧ t.pending = s.pending ∧ t.dev.net = Dev.reset.net ∧
       t.dev.ctxs = [] ∧ t.dev.engs = [] ∧ t.dev.stks = [] ∧ t.dev.sites = [] ∧ t.dev.sync = [] ∧
       ∀ idx sub, sub < 256 → (idx, sub) ≠ (0x6000, 0x02) → t.dev.reg idx sub = dfltOf s.dev.mfg idx sub
     Runs .resetAssert s (fun t => cold t ∧ t.dev.boot = Boot.cold ∧ t.dev.reg 0x6000 0x02 = 0 ∧
       (b.burnSettings = none → b.burnLife = none → t.persist = s.persist) ∧
       (∀ q, b.burnSettings = some q → t.persist.slots = setAt s.persist.slots q.1 (some 0)) ∧
       (∀ l, b.burnLife = some l → t.persist.life = s.persist.life ∨ t.persist.life = max s.persist.life l)) ∧
     (∀ straps, (b.reset = true → Runs (.resetRelease straps) s (fun t => cold t ∧ t.persist = s.persist ∧
         t.dev.boot = { Boot.cold with reset := false, running := true, straps := straps % 16 } ∧ t.dev.reg 0x6000 0x02 = 1)) ∧
       (b.reset = false → exec (.resetRelease straps) s = .next s)) ∧
     (∀ r : StepF,
       (b.running = false ∨ b.halted = true ∨ b.thermtrip = true ∨ b.restart = true → exec (.startupStepComplete r) s = .next s) ∧
       (b.running = true → b.halted = false → b.thermtrip = false → b.restart = false →
         Runs (.startupStepComplete r) s (fun t => t.pending = s.pending ∧
           (t.dev.boot.halted = true ∨ t.dev.reg 0x6000 0x02 = s.dev.reg 0x6000 0x02 + 1) ∧
           (s.dev.reg 0x6000 0x02 = 1 → s.sameStore t ∧
             (r.ok = false → t.dev.boot.halted = true ∧ t.dev.boot.running = false ∧ t.dev.reg 0x6000 0x03 = 0x0B0C) ∧
             (r.ok = true → t.dev.boot.halted = false ∧ t.dev.now = 0 ∧ t.dev.boot.challenge.isSome = true)) ∧
           (s.dev.reg 0x6000 0x02 = 2 → s.sameStore t ∧
             (s.recordOk = false → t.dev.boot.halted = true ∧ t.dev.reg 0x6000 0x03 = 0x0B0D))))) ∧
     (∀ via v, s.passes via 0x6000 0x12 v → s.dev.busyIdx 0x6000 = false →
       (v ≠ 1 → exec (.deviceResetWrite via v) s = .next (s.replied via 0x6000 0x12 0)) ∧
       (v = 1 → Runs (.deviceResetWrite via v) s (fun t => s.sameStore t ∧ t.dev.boot = { b with resetWait := true } ∧
         (s.replied via 0x6000 0x12 0).dev.tx <+: t.dev.tx))) ∧
     (b.resetWait = true → b.burnSettings = none → b.burnLife = none → s.dev.wiping = [] →
       Runs .deviceResetDelayExpiry s (fun t => cold t ∧ t.persist = s.persist ∧ t.dev.reg 0x6000 0x02 = 1 ∧
         t.dev.boot = { Boot.cold with reset := false, running := true, straps := b.straps })) ∧
     (b.resetWait = false ∨ b.burnSettings ≠ none ∨ b.burnLife ≠ none ∨ s.dev.wiping ≠ [] →
       exec .deviceResetDelayExpiry s = .next s))

/-- For writes that pass the dictionary's checks: SLAB_TABLE_WRITE of a table that R235 refuses answers 0x0507; an
accepted one is in force, no byte of a slab that lost an owner reads other than 0, every byte of a slab that changed
no owner reads as before, and no cached translation reaches a changed slab. BANK_GRANT_WRITE writes the grants and
zeroes a bank that lost a site, and no other. TRANSLATION_INVALIDATE by the management, or by the owner, leaves no
cached translation of the range and every other; by another host it answers 0x0508. LONGEST_WAIT_CLEAR of 0 clears the
longest wait of its arbiter, FEWEST_BUFFERS_RESET of 256 leaves the buffers free now. (R224, R235, R236, R237, R251,
R305, R446) -/
def Obligations.memoryTablesWritten : Prop :=
  ∀ (s : State) (via : Via),
    (∀ table, s.passes via 0x2800 0x01 table →
      (s.dev.slabBad table = true → exec (.slabTableWrite via table) s = .next (s.replied via 0x2800 0x01 0x0507)) ∧
      (s.dev.slabBad table = false → Runs (.slabTableWrite via table) s (fun t =>
        answers t via 0x2800 0x01 0 ∧ t.mem.spad = s.mem.spad ∧ t.pending = s.pending ∧ t.persist = s.persist ∧
        ∀ st i, st < 32 → i < 64 → t.dev.slab st i = bytesAt table (64 * st + i) 1 ∧
          (∀ k < 2 ^ 30, cellByte t.mem.hbm (hbmKey st (i * 2 ^ 30) + k) =
            if clearMask (s.dev.slab st i % 16) (bytesAt table (64 * st + i) 1 % 16) ≠ 0 then 0
            else cellByte s.mem.hbm (hbmKey st (i * 2 ^ 30) + k)) ∧
          (bytesAt table (64 * st + i) 1 ≠ s.dev.slab st i → (∀ p ∈ t.dev.xcP, ∀ x ∈ p.2, (st, i) ∉ leafSlabs x.leaf) ∧
            (∀ e, ∀ x ∈ (t.dev.eng e).xc, (st, i) ∉ leafSlabs x.leaf) ∧ ∀ k, ∀ x ∈ (t.dev.stk k).xc, (st, i) ∉ leafSlabs x.leaf)))) ∧
    (∀ (e : Fin 64) v, s.passes via (0x3000 + e.val) 0x25 v → Runs (.bankGrantWrite via e v) s (fun t =>
      answers t via (0x3000 + e.val) 0x25 0 ∧ t.dev.engReg e.val 0x25 = v ∧ t.mem.hbm = s.mem.hbm ∧ t.pending = s.pending ∧
      t.persist = s.persist ∧ ∀ b k, b < 32 → k < Config.bankBytes →
        cellByte t.mem.spad (spadKey e.val (b * Config.bankBytes + k)) =
          if clearMask (bits (s.dev.engReg e.val 0x25) (4 * b + 3) (4 * b)) (bits v (4 * b + 3) (4 * b)) ≠ 0 then 0
          else cellByte s.mem.spad (spadKey e.val (b * Config.bankBytes + k)))) ∧
    (∀ v, s.passes via 0x2800 0x02 v →
      let c := bits v 61 52
      let hit := fun (x : XEnt) => x.inRange c (bits v 63 62) (bits v 51 16 * 65536)
      (∀ h, viaHost via = some h → s.dev.owner c ≠ some h → exec (.translationInvalidate via v) s = .next (s.replied via 0x2800 0x02 0x0508)) ∧
      ((∀ h, viaHost via = some h → s.dev.owner c = some h) → Runs (.translationInvalidate via v) s (fun t =>
        answers t via 0x2800 0x02 0 ∧ s.sameStore t ∧ (∀ e, (t.dev.eng e).xc = (s.dev.eng e).xc.filter (fun x => !(hit x))) ∧
        (∀ k, (t.dev.stk k).xc = (s.dev.stk k).xc.filter (fun x => !(hit x))) ∧
        (∀ p, Tbl.look [] p t.dev.xcP = (Tbl.look [] p s.dev.xcP).filter (fun x => !(hit x)))))) ∧
    (∀ place idx b, placeEntry place = some (idx, b) → s.passes via idx (b + 2) 0 →
      exec (.longestWaitClear via place 0) s = .next ((s.onDev (fun d => d.setReg idx (b + 2) 0)).replied via idx (b + 2) 0)) ∧
    (∀ st : Fin 32, s.passes via (0x3800 + st.val) 0x09 256 →
      exec (.fewestBuffersReset via st 256) s = .next ((s.onDev (fun d =>
        d.setReg (0x3800 + st.val) 0x09 (d.stkReg st.val 0x08))).replied via (0x3800 + st.val) 0x09 0))

/-- On a stack that serves, with perturbation off and no stored error in the lines of the request: HBM_REQUEST of up to 2
KiB as a read answers the bytes that stand there and changes none; as a write each byte reads back as written, every
other byte as before. A request of a stack that does not serve changes nothing. Over a link that holds no traffic, a host
access to a slab that it owns
in the view of its mode reads and writes the same way; one that it may not make is counted and, a read, answered
poisoned; one to a stack of another die crosses the link between the dies. HBM_WRITEBACK of a line that awaits it, not marked
uncorrectable, clears its errors, and no byte changes. (R228, R231, R232,
R253, R254, R259, R260, R539, R610, R616) -/
def Obligations.stackServesRequests : Prop :=
  ∀ (s : State) (st : Fin 32) (off len : Nat), s.dev.fn 0x7000 ≠ 2 → 0 < len →
    let clean := ∀ p ∈ s.mem.hbmErr, ¬(hbmKey st.val (off / 64 * 64) ≤ p.1 * 64 ∧ p.1 * 64 < hbmKey st.val (off + len))
    let now := cellsRead s.mem.hbm (hbmKey st.val off) len
    let wrote := fun (t : State) (data : Nat) => t.persist = s.persist ∧ t.pending = s.pending ∧ t.mem.spad = s.mem.spad ∧
      cellsRead t.mem.hbm (hbmKey st.val off) len = leBytes len data ∧
      (∀ a, (a < hbmKey st.val off ∨ hbmKey st.val off + len ≤ a) → cellByte t.mem.hbm a = cellByte s.mem.hbm a)
    (∀ (input : Fin 4) (ctx : Option (Fin 1024)) data, s.mem.wf →
      (s.dev.stackServes st.val = true → len ≤ 2048 → off + len ≤ Config.stackBytes → clean →
        exec (.hbmRequest st input false off len data ctx []) s = .next (s.onDev (fun d => d.out (.memData st.val input.val now false))) ∧
        Runs (.hbmRequest st input true off len data ctx []) s (fun t => wrote t data)) ∧
      (s.dev.stackServes st.val = false ∨ 2048 < len ∨ Config.stackBytes < off + len →
        ∀ write, exec (.hbmRequest st input write off len data ctx []) s = .next s)) ∧
    (∀ (h : Fin 4) dpa data, s.mem.wf → s.dev.linkHolds h.val = false → s.dev.hostMem h.val = true → len ≤ 64 → (dpa < 0x60000000000 ∨ 0x60002000000 ≤ dpa) →
      (∀ v i, s.dev.dpaCheck (some h.val) dpa = none → dpaPhys dpa = some (v, i, st.val, off) → s.dev.stackServes st.val = true → clean →
        exec (.hostCxlMemAccess h false dpa len data) s = .next (s.onDev (fun d =>
          (d.cross (some h.val) (st.val / 8) len false).out (.hostData h.val now false))) ∧
        Runs (.hostCxlMemAccess h true dpa len data) s (fun t => wrote t data)) ∧
      (∀ code, s.dev.dpaCheck (some h.val) dpa = some code →
        exec (.hostCxlMemAccess h true dpa len data) s = .next (s.onDev (fun d => d.hostRefused h.val dpa)) ∧
        exec (.hostCxlMemAccess h false dpa len data) s = .next (s.onDev (fun d =>
          (d.hostRefused h.val dpa).out (.hostData h.val (List.replicate len 0) true))))) ∧
    (∀ line, let key := hbmKey st.val (line * 64) / 64
      ((s.dev.stk st.val).writeback.contains key = true → markedLine (Tbl.look [] key s.mem.hbmErr) = false →
        Runs (.hbmWriteback st line) s (fun t => Tbl.look? key t.mem.hbmErr = none ∧ t.mem.hbm = s.mem.hbm ∧ t.mem.spad = s.mem.spad ∧
          (t.dev.stk st.val).writeback = (s.dev.stk st.val).writeback.erase key ∧ t.dev.regs = s.dev.regs)) ∧
      ((s.dev.stk st.val).writeback.contains key = false → exec (.hbmWriteback st line) s = .next s))

/-- SCRATCHPAD_WRITEBACK of the oldest corrected word of a bank clears its errors, unless the word has been found
uncorrectable meanwhile, and no byte changes; of a bank
without one nothing changes. SCRUB_READ and SCRUB_FORCED move the bank's scrub line on by one modulo 384; without an
error in the line no byte and no other register changes, but that a forced one counts in 0x3000+e:20 and may stall each port for
a cycle (a free value, log entry 245). WIPE_COMPLETE of
a bank that is being wiped leaves it zero, but for the Gardener's 64 KiB of die 0 where the cause is 3 or more; it is
counted, no other byte changes, and a former holder whose bank was not released is reported lost: its recovery state
is 5. PATROL_SCRUB_READ and PATROL_SCRUB_FORCED, with scrub enabled, perturbation off and no error in the line, move
the pseudo-channel to its next line and change no byte; with scrub disabled they change nothing. REFRESH of a busy
bank takes one that was pulled in, or owes one more, up to eight; an idle bank owes none and pulls one in, up to eight (how many
is log entry 255); REFRESH_FORCED of a bank that owes eight leaves seven owed, of another it changes nothing. RETRAINING counts in 0x3800+s:43 and takes
the time; a forced one counts in :44 as well. LANE_MARK after sixteen corrections in this second marks the lane, which
the stack's marked-lane entry then shows; before, or of a marked lane, it changes nothing; with up to four marked
lanes the partition stays in service. (R205, R207, R210, R212, R214, R258, R261, R262, R263, R264, R713) -/
def Obligations.memoriesMaintained : Prop :=
  (∀ (s : State) (e : Fin 64) (bank : Fin 32),
     (∀ w, (s.dev.eng e.val).writeback.find? (fun w => wordBank w = (e.val, bank.val)) = some w → Runs (.scratchpadWriteback e bank) s (fun t =>
       (bit (Tbl.look 0 w s.mem.spadErr) 72 = false → Tbl.look? w t.mem.spadErr = none) ∧ t.mem.spad = s.mem.spad ∧ t.mem.hbm = s.mem.hbm ∧
       (t.dev.eng e.val).writeback = (s.dev.eng e.val).writeback.erase w ∧ t.dev.regs = s.dev.regs)) ∧
     ((s.dev.eng e.val).writeback.find? (fun w => wordBank w = (e.val, bank.val)) = none → exec (.scratchpadWriteback e bank) s = .next s) ∧
     (let line := Tbl.look 0 bank.val (s.dev.eng e.val).scrubLine
      let at_ := bank.val * Config.bankBytes + line * 2048
      s.dev.fn 0x7000 ≠ 2 → (∀ p ∈ s.mem.spadErr, ¬(spadKey e.val (at_ / 8 * 8) ≤ p.1 * 8 ∧ p.1 * 8 < spadKey e.val (at_ + 2048))) →
       exec (.scrubRead e bank []) s = .next (s.onDev (fun d => d.updEng e.val (fun k =>
         { k with scrubLine := Tbl.put bank.val ((line + 1) % 384) k.scrubLine }))) ∧
       exec (.scrubForced e bank []) s = .next (s.onDev (fun d => ((d.updEng e.val (fun k =>
         { k with scrubLine := Tbl.put bank.val ((line + 1) % 384) k.scrubLine })).incReg (0x3000 + e.val) 0x20).portStalls e.val 2))) ∧
     (∀ (die : Fin 4) cause holder, Tbl.look? die.val s.dev.wiping = some (cause, holder) → Runs (.wipeComplete die) s (fun t =>
       let n := if die.val = 0 ∧ 3 ≤ cause then Config.bankBytes - 65536 else Config.bankBytes
       let a := spadKey (16 * die.val) (31 * Config.bankBytes)
       (∀ k < n, cellByte t.mem.spad (a + k) = 0) ∧ (∀ k, (k < a ∨ a + n ≤ k) → cellByte t.mem.spad k = cellByte s.mem.spad k) ∧
       t.mem.hbm = s.mem.hbm ∧ t.pending = s.pending ∧ t.persist = s.persist ∧ Tbl.look? die.val t.dev.wiping = none ∧
       t.dev.engReg (16 * die.val) 0x23 = (s.dev.engReg (16 * die.val) 0x23 + 1) % 2 ^ 32 ∧
       (∀ c, holder = some c → cause ≠ 3 → t.dev.ctxReg c 0x28 = 5))) ∧
     (∀ die : Fin 4, Tbl.look? die.val s.dev.wiping = none → exec (.wipeComplete die) s = .next s)) ∧
  (∀ (s : State) (st : Fin 32) (pc : Fin 64),
     (∀ i ∈ [Instr.patrolScrubRead st pc [], Instr.patrolScrubForced st pc []],
       (s.dev.reg 0x2800 0x04 = 0 ∨ s.dev.service (partOfStk st.val) = 1 → exec i s = .next s) ∧
       (let n := Tbl.look 0 pc.val (s.dev.stk st.val).scrub
        let at_ := pcLine pc.val (n % 2 ^ 24)
        s.dev.reg 0x2800 0x04 ≠ 0 → s.dev.service (partOfStk st.val) ≠ 1 → s.dev.fn 0x7000 ≠ 2 →
         (∀ p ∈ s.mem.hbmErr, ¬(hbmKey st.val (at_ / 64 * 64) ≤ p.1 * 64 ∧ p.1 * 64 < hbmKey st.val (at_ + 64))) → Runs i s (fun t =>
           s.sameStore t ∧ (t.dev.stk st.val).scrub = Tbl.put pc.val (n + 1) (s.dev.stk st.val).scrub ∧
           s.dev.sameRegs t.dev [(0x3800 + st.val, 0x45)]))) ∧
     (∀ (sid : Fin 4) (bank : Fin 16),
       let key := bankKey pc.val sid.val bank.val
       let owed := fun (t : State) => Tbl.look 0 key (t.dev.stk st.val).postponed
       let early := fun (t : State) => Tbl.look 0 key (t.dev.stk st.val).ahead
       Runs (.refresh st pc sid bank false) s (fun t => owed t = 0 ∧ early t = min 8 (early s + 1) ∧ s.sameStore t ∧
         t.dev.regs = s.dev.regs) ∧
       Runs (.refresh st pc sid bank true) s (fun t => s.sameStore t ∧ t.dev.regs = s.dev.regs ∧
         (early s = 0 → owed t = min 8 (owed s + 1) ∧ early t = 0) ∧ (0 < early s → owed t = owed s ∧ early t = early s - 1)) ∧
       (8 ≤ owed s → Runs (.refreshForced st pc sid bank) s (fun t => owed t = 7 ∧ early t = early s ∧ s.sameStore t ∧
         t.dev.regs = s.dev.regs)) ∧
       (owed s < 8 → exec (.refreshForced st pc sid bank) s = .next s)) ∧
     (∀ i n, (i, n) ∈ [(Instr.retraining st pc, 0), (Instr.retrainingForced st pc, 1)] → Runs i s (fun t =>
       t.dev.stkReg st.val 0x43 = (s.dev.stkReg st.val 0x43 + 1) % 2 ^ 64 ∧
       (n = 1 → t.dev.stkReg st.val 0x44 = (s.dev.stkReg st.val 0x44 + 1) % 2 ^ 64) ∧
       Tbl.look? pc.val (t.dev.stk st.val).lastTrain = some s.dev.now ∧
       s.dev.sameRegs t.dev ((0x3800 + st.val, 0x43) :: (if n = 1 then [(0x3800 + st.val, 0x44)] else [])) ∧ s.sameStore t)) ∧
     (∀ lane : Fin 36,
       let k := s.dev.stk st.val
       let due := k.laneSec = s.dev.now / 1000000000 ∧ 16 ≤ Tbl.look 0 (pc.val * 36 + lane.val) k.laneCnt ∧
         (s.dev.markedOf st.val pc.val).contains lane.val = false
       (¬ due → exec (.laneMark st pc lane) s = .next s) ∧
       (due → (s.dev.markedOf st.val pc.val).length < 4 → Runs (.laneMark st pc lane) s (fun t =>
         (t.dev.markedOf st.val pc.val).contains lane.val = true ∧ t.dev.stkReg st.val 0x42 = t.dev.laneEntry st.val ∧
         t.dev.service (partOfStk st.val) = s.dev.service (partOfStk st.val) ∧ s.sameStore t))))

/-- ARBITER_GRANT of a place without forced losses, with perturbation off. A request is barred where it is one of input 3 of a
TSV port, a lower input waits, and the port's limit of grants to that input in 64 cycles, taken from its entry at every 64th
cycle, is below 64 and reached; and where it asks for a reply over a die-to-die link whose other end has 256 outstanding. Of the
requests waiting or presented that are not barred, one of the highest input is granted and leaves; the others wait, at most four
of an input in the queue, the rest held, which is counted; a grant is counted (but at the sync-object unit) and the longest
wait does not fall. With every request barred, or none, nothing is granted and all wait. The port notes for its window whether
input 3 was granted. (R215, R216, R217, R220, R221, R224, R225, R226; which inputs ask for a reply is log entry 254) -/
def Obligations.arbitersGrant : Prop :=
  ∀ (s : State) (place : Nat) (presented : List Nat) (idx b : Nat), placeEntry place = some (idx, b) → s.dev.fn 0x7000 ≠ 2 →
    let at_ := fun (s : State) (p : Nat) => Tbl.look Arb.reset p s.dev.arbs
    let a := at_ s place
    let all := a.queue.map (·.1) ++ a.held ++ presented
    let limit := if a.cycle % 64 = 0 then s.dev.reg idx 0x38 else a.limit
    let barred := fun (i : Nat) =>
      (1 ≤ place ∧ place ≤ 32 ∧ i = 3 ∧ (∃ j ∈ all, j < 3) ∧ limit < 64 ∧ limit ≤ (a.window.filter id).length) ∨
      (65 ≤ place ∧ place ≤ 76 ∧ (i = 0 ∨ (2 ≤ i ∧ i ≤ 5)) ∧ 256 ≤ (at_ s (oppositeEnd place)).replies)
    a.lose = [] →
    Runs (.arbiterGrant place presented) s (fun t =>
      let k := at_ t place
      s.sameStore t ∧ (all = [] → t.dev.regs = s.dev.regs) ∧ k.window.getLast? = some (decide (k.last = some 3)) ∧
      (∀ i, (k.queue.filter (fun q => q.1 = i)).length ≤ 4) ∧
      t.dev.reg idx (b + 1) = (if k.held = [] then s.dev.reg idx (b + 1) else (s.dev.reg idx (b + 1) + 1) % 2 ^ 64) ∧
      ((∀ i ∈ all, barred i) →
        k.last = none ∧ (k.queue.map (·.1) ++ k.held).Perm all ∧ t.dev.reg idx b = s.dev.reg idx b) ∧
      (∀ i ∈ all, ¬ barred i → ∃ g ∈ all, ¬ barred g ∧ k.last = some g ∧ (∀ j ∈ all, ¬ barred j → j ≤ g) ∧
        (k.queue.map (·.1) ++ k.held).Perm (all.erase g) ∧
        (place ≠ 0 → t.dev.reg idx b = (s.dev.reg idx b + 1) % 2 ^ 64) ∧ s.dev.reg idx (b + 2) ≤ t.dev.reg idx (b + 2)))

/-- For a site that is up: PRESENCE_QUERY_TIMER of a DOWN site sends a query, PRESENCE_RESPONSE of one begins training,
LINK_TRAINED with a legal width and rate makes a training link active; outside HOLDING the phase follows the link.
LINK_RETRAIN_REQUEST of an active link holds its traffic and counts; UCIE_FLIT_REPLAY counts, and where more than 64 fall within
a millisecond the link retrains (which replays count is log entry 275); HDM_DECODER_COMMIT commits the decoder; on a link that is
not active they change nothing. While a link holds its traffic, what its host sends waits with it in order, and LINK_TRAINED
at a legal width and rate lets it take effect in that order (that the transactions of the other direction show no hold is log
entry 275). LINK_LOSS of an active, not attached site
leaves its link down and its registers as after reset. (R529, R530, R531, R532, R533, R534, R535, R536, R537, R544) -/
def Obligations.siteLinksMove : Prop :=
  ∀ (s : State) (h : Fin 4),
    let x := s.dev.site h.val
    let follows := fun (t : State) (link : Nat) => (t.dev.site h.val).link = link ∧
      (t.dev.site h.val).phase = (if x.phase = 5 then 5 else link) ∧ s.sameStore t ∧ (∀ g, g < 4 → g ≠ h.val → (t.dev.site g).link = (s.dev.site g).link ∧
        (t.dev.site g).phase = (s.dev.site g).phase)
    (s.dev.siteUp h.val = true → x.link = 1 →
      exec (.presenceQueryTimer h) s = .next (s.onDev (fun d => d.out (.sideband h.val 0))) ∧
      Runs (.presenceResponse h) s (fun t => follows t 2)) ∧
    (s.dev.siteUp h.val = false ∨ x.link ≠ 1 → exec (.presenceQueryTimer h) s = .next s ∧ exec (.presenceResponse h) s = .next s) ∧
    (∀ modules rate repaired, x.link = 2 → modules ∈ [1, 2, 4] → rate ∈ [16, 32] → Runs (.linkTrained h modules rate repaired) s (fun t =>
      follows t 3 ∧ (t.dev.site h.val).modules = modules ∧ (t.dev.site h.val).rate = rate ∧ (t.dev.site h.val).heldLink = false)) ∧
    (∀ rate repaired, x.link = 2 → Runs (.linkTrained h 0 rate repaired) s (fun t => follows t 1)) ∧
    (x.link = 3 → x.heldLink = false → Runs (.linkRetrainRequest h) s (fun t =>
      t.dev.site h.val = { x with heldLink := true, replays := [] } ∧ t.dev.siteReg h.val 0x0F = (s.dev.siteReg h.val 0x0F + 1) % 2 ^ 64 ∧
      t.dev.tx = s.dev.tx ++ [.sideband h.val 2] ∧ s.sameStore t)) ∧
    (x.link = 3 →
      let ts := x.replays.filter (fun t => s.dev.now < t + 1000000) ++ [s.dev.now]
      let d := (s.dev.updSite h.val (fun x => { x with replays := ts })).incReg (0x4800 + h.val) 0x10
      (ts.length ≤ 64 ∨ x.heldLink = true → exec (.ucieFlitReplay h) s = .next { s with dev := d }) ∧
      (64 < ts.length → x.heldLink = false → exec (.ucieFlitReplay h) s = exec (.linkRetrainRequest h) { s with dev := d } ∧
        Runs (.ucieFlitReplay h) s (fun t => (t.dev.site h.val).heldLink = true ∧ (t.dev.site h.val).replays = [] ∧
          t.dev.siteReg h.val 0x0F = (s.dev.siteReg h.val 0x0F + 1) % 2 ^ 64 ∧ s.sameStore t))) ∧
    (s.dev.linkHolds h.val = false → exec (.hdmDecoderCommit h) s = .next (if x.link = 3 then
      s.onDev (fun d => d.updSite h.val (fun x => { x with hdm := true })) else s)) ∧
    (s.dev.linkHolds h.val = true → ∀ (i : Instr) off size al data write dpa len y v rb rc key regs op r,
      i ∈ [.commandSubmit h off size al data, .hostCxlMemAccess h write dpa len data, .syncWindowRead h y, .syncWindowWrite h y v,
        .hdmDecoderCommit h, .attach h rb rc key regs, .detachAndHold h, .detachAndRelease h, .consumerIndexWrite h v,
        .summaryClear h v, .mailboxSubmit h op r, .mailboxAcknowledge h] →
      exec i s = .next (s.onDev (fun d => d.updSite h.val (fun x => { x with heldIn := x.heldIn ++ [i] })))) ∧
    (∀ modules rate repaired, x.link = 3 → x.heldLink = true → s.dev.locked 13 h.val = true → modules ∈ [1, 2, 4] → rate ∈ [16, 32] →
      ∃ u, exec (.linkTrained h modules rate repaired) s = .next (x.heldIn.foldl (fun t i => hostEffect i t) u) ∧ s.sameStore u ∧
        let y := u.dev.site h.val
        y.link = 3 ∧ y.phase = x.phase ∧ y.heldLink = false ∧ y.heldIn = [] ∧ y.modules = modules ∧ y.rate = rate ∧
        y.repaired = repaired) ∧
    (x.link ≠ 3 → exec (.linkRetrainRequest h) s = .next s ∧ exec (.ucieFlitReplay h) s = .next s ∧
      ∀ cause, exec (.linkLoss h cause) s = .next s) ∧
    (∀ cause, x.link = 3 → (cause ≠ 3 ∨ x.heldLink = true) → x.phase ≠ 4 → Runs (.linkLoss h cause) s (fun t => follows t 1 ∧
      (t.dev.site h.val).modules = 0 ∧ (t.dev.site h.val).ringBase = 0 ∧ (t.dev.site h.val).ringCtl = 0 ∧ (t.dev.site h.val).hdm = false ∧
      (t.dev.site h.val).heldLink = false ∧ (t.dev.site h.val).threshold = 1 ∧ (t.dev.site h.val).attachWait = none))

/-- On an active link whose traffic is not held: ATTACH of a READY, enabled site with a sound ring makes it ATTACHED with
its generation advanced, an empty ring and its key; without a ring it answers 0x0802, in another phase 0x0801, and the
phase stays. DETACH_AND_HOLD and DETACH_AND_RELEASE of a site that is not ATTACHED record 0x0801 and change nothing
else; of an ATTACHED site that owns no ON context they leave it READY, hold nothing and count the detach; of one that
owns ON contexts, with a grace period, DETACH_AND_HOLD leaves it HOLDING exactly them, each held. GRACE_PERIOD_EXPIRY
of a site that is not HOLDING changes nothing, and of one whose held contexts are OFF reclaims them: it holds none,
and its phase follows its link. (R540, R541, R543, R544, R545, R546, R547) -/
def Obligations.hostsAttach : Prop :=
  ∀ (s : State) (h : Fin 4),
    let x := s.dev.site h.val
    let only := fun (code : Nat) => s.onDev (fun d => d.updSite h.val (fun x => { x with reasonCode := code }))
    (x.link ≠ 3 → s.dev.linkHolds h.val = false → ∀ i, i ∈ [Instr.detachAndHold h, .detachAndRelease h] ∨
      (∃ rb rc key regs, i = .attach h rb rc key regs) → exec i s = .next s) ∧
    (x.link = 3 → s.dev.linkHolds h.val = false →
      (∀ rb rc key, x.phase = 3 → s.dev.siteReg h.val 0x01 % 2 = 1 → rb ≠ 0 → rc ≠ 0 → rb % 4096 = 0 → rc % 256 = 0 →
        (rc + 256 ≤ rb ∨ rb + 131072 ≤ rc) → Runs (.attach h rb rc key []) s (fun t =>
          let y := t.dev.site h.val
          y.phase = 4 ∧ y.ringBase = rb ∧ y.ringCtl = rc ∧ y.key = key % 2 ^ 64 ∧ y.consumer = 0 ∧ y.held = [] ∧ y.reasonCode = 0 ∧
          t.dev.siteReg h.val 0x05 = (s.dev.siteReg h.val 0x05 + 1) % 2 ^ 32 ∧ s.sameStore t)) ∧
      (∀ key, x.phase = 3 → s.dev.siteReg h.val 0x01 % 2 = 1 → Runs (.attach h 0 0 key []) s (fun t =>
        (t.dev.site h.val).reasonCode = 0x0802 ∧ (t.dev.site h.val).phase = 3 ∧ s.sameStore t ∧ t.dev.regs = s.dev.regs)) ∧
      (∀ rb rc key, x.phase = 4 → exec (.attach h rb rc key []) s = .next (only 0x0801)) ∧
      (∀ i ∈ [Instr.detachAndHold h, Instr.detachAndRelease h],
        (x.phase ≠ 4 → exec i s = .next (only 0x0801)) ∧
        (x.phase = 4 → s.dev.owned h.val = [] → Runs i s (fun t =>
          (t.dev.site h.val).phase = 3 ∧ (t.dev.site h.val).held = [] ∧ (t.dev.site h.val).reasonCode = 0 ∧
          (t.dev.site h.val).staged = none ∧ t.dev.siteReg h.val 0x0A = (s.dev.siteReg h.val 0x0A + 1) % 2 ^ 64 ∧ s.sameStore t))) ∧
      (x.phase = 4 → s.dev.siteReg h.val 0x06 ≠ 0 →
        let on := (s.dev.owned h.val).filter (fun c => s.dev.ctxState c = 2)
        on ≠ [] → Runs (.detachAndHold h) s (fun t => (t.dev.site h.val).phase = 5 ∧ (t.dev.site h.val).held = on ∧
          (∀ c ∈ on, t.dev.ctxReg c 0x22 = 1 ∧ t.dev.ctxState c = 2 ∧ (t.dev.ctx c).hints = []) ∧ s.sameStore t))) ∧
    (x.phase ≠ 5 → exec (.gracePeriodExpiry h) s = .next s) ∧
    (x.phase = 5 → s.dev.reclaiming h.val = false → x.held ≠ [] → x.held.Nodup → x.attachWait = none → s.dev.dict.waiting = [] →
      (∀ c ∈ x.held, c < 1024 ∧ s.dev.ctxState c = 0 ∧ s.dev.owner c = some h.val) → Runs (.gracePeriodExpiry h) s (fun t =>
        (t.dev.site h.val).held = [] ∧ (t.dev.site h.val).phase = x.link ∧ t.mem = s.mem ∧ t.pending = s.pending ∧ t.persist = s.persist))

/-- Over a link that holds no traffic: CONSUMER_INDEX_WRITE on an active link sets the consumer index modulo 2^32, and on another changes nothing.
SUMMARY_CLEAR clears exactly the named bits of its word; one with a reserved bit changes nothing.
SUMMARY_REWRITE_TIMER of an attached site with a changed summary writes the header once. COALESCING_WINDOW_EXPIRY
writes the staged event of a site, or of the log, and leaves none staged. INTERRUPT_MODERATION_TIMER ends the
interval, and of an attached site with entries not yet raised raises vector 0 and begins one again where moderation is
set. (R540, R552, R554, R555, R556, R557, R655) -/
def Obligations.ringsServed : Prop :=
  ∀ (s : State) (h : Fin 4) (v : Nat),
    let x := s.dev.site h.val
    (x.link = 3 → s.dev.linkHolds h.val = false → x.overflow = false → Runs (.consumerIndexWrite h v) s (fun t =>
      (t.dev.site h.val).consumer = v % 2 ^ 32 ∧ (t.dev.site h.val).producer = x.producer ∧ t.dev.tx = s.dev.tx ∧
      t.dev.regs = s.dev.regs ∧ s.sameStore t)) ∧
    (x.link ≠ 3 → s.dev.linkHolds h.val = false → exec (.consumerIndexWrite h v) s = .next s ∧ exec (.summaryClear h v) s = .next s) ∧
    (x.link = 3 → s.dev.linkHolds h.val = false → 2 ^ 37 ≤ v → exec (.summaryClear h v) s = .next s) ∧
    (x.link = 3 → s.dev.linkHolds h.val = false → v < 2 ^ 37 → Runs (.summaryClear h v) s (fun t =>
      (∀ i, bit (t.dev.site h.val).summary i = (bit x.summary i && !(decide (i / 32 = bits v 36 32) && bit v (i % 32)))) ∧
      (t.dev.site h.val).summaryDirty = true ∧ s.sameStore t ∧ t.dev.tx = s.dev.tx)) ∧
    (x.phase = 4 → x.summaryDirty = true → exec (.summaryRewriteTimer h) s = .next (s.onDev (fun d =>
      (d.updSite h.val (fun x => { x with summaryDirty := false })).out (.header h.val x.ringCtl x.producer x.overflow x.lost x.summary)))) ∧
    (x.phase ≠ 4 ∨ x.summaryDirty = false → exec (.summaryRewriteTimer h) s = .next s) ∧
    (x.staged = none → exec (.coalescingWindowExpiry ⟨h.val, by omega⟩) s = .next s) ∧
    (∀ ev n, x.staged = some (ev, n) → x.overflow = false → x.unconsumed < 4096 → Runs (.coalescingWindowExpiry ⟨h.val, by omega⟩) s (fun t =>
      (t.dev.site h.val).staged = none ∧ (t.dev.site h.val).producer = (x.producer + 1) % 2 ^ 32 ∧ s.sameStore t ∧
      t.dev.tx.take (s.dev.tx.length + 1) = s.dev.tx ++ [.ring h.val (x.ringBase + 32 * (x.producer % 4096)) ev n
        (if x.producer / 4096 % 2 = 0 then 1 else 0)])) ∧
    Runs (.coalescingWindowExpiry 4) s (fun t => t.dev.tele.staged = none ∧ s.sameStore t ∧ t.dev.tx = s.dev.tx) ∧
    (x.phase = 4 → x.firstUnraised.isSome = true → 0 < x.unconsumed → Runs (.interruptModerationTimer h) s (fun t =>
      (t.dev.site h.val).firstUnraised = none ∧ (t.dev.site h.val).vec0Hold = decide (x.moderation ≠ 0) ∧ s.sameStore t ∧
      ((x.msix.getD 0 (0, 0, true)).2.2 = false → t.dev.tx = s.dev.tx ++ [.msix h.val 0]) ∧
      ((x.msix.getD 0 (0, 0, true)).2.2 = true → t.dev.tx = s.dev.tx ∧ bit (t.dev.site h.val).pendingBits 0 = true))) ∧
    (x.phase ≠ 4 ∨ x.firstUnraised = none ∨ x.unconsumed = 0 → Runs (.interruptModerationTimer h) s (fun t =>
      t.dev.site h.val = { x with vec0Hold := false } ∧ t.dev.tx = s.dev.tx ∧ s.sameStore t))

/-- CANARY_WARNING lowers the margin by four steps, at least to 0, and counts. MARGIN_RAISE_TIMER raises it by one where
it is enabled, not held, below its limit and no warning came in the last 100 ms, and otherwise leaves it. DROOP_TRIP
outside an episode begins one and counts it; the seventeenth in a millisecond withdraws the margin and holds it.
DROOP_CLEAR ends an episode and counts its cycles, MARGIN_HOLD_EXPIRY ends the hold. PCLK_SLEW_DOWN_COMPLETE,
AVS_WRITE_COMPLETE and OP_UP_PCLK_SLEW carry a change of operating point on: downward the clock first, then the rail
at the table voltage less the margin; upward the rail first, then the clock. (R563, R564, R565, R589, R590, R743) -/
def Obligations.voltagesFollow : Prop :=
  ∀ (s : State) (p : Fin 8),
    let q := s.dev.powP p.val
    let m := s.dev.partReg p.val 0x12
    let op := s.dev.opOf p.val
    let marginOf := fun (t : State) => t.dev.partReg p.val 0x12
    let keeps := fun (t : State) => s.sameStore t ∧ t.dev.now = s.dev.now ∧ ∀ r, r < 8 → r ≠ p.val → t.dev.powP r = s.dev.powP r
    Runs (.canaryWarning p) s (fun t => keeps t ∧ marginOf t = m - 4 ∧ (t.dev.powP p.val).warned = some s.dev.now ∧
      t.dev.partReg p.val 0x18 = (s.dev.partReg p.val 0x18 + 1) % 2 ^ 64) ∧
    (let may := s.dev.reg 0x2000 0x11 ≠ 0 ∧ q.held = false ∧ m < s.dev.reg 0x2000 0x12 ∧ ∀ t, q.warned = some t → t + 100000000 ≤ s.dev.now
     (may → Runs (.marginRaiseTimer p) s (fun t => keeps t ∧ marginOf t = m + 1)) ∧ (¬ may → exec (.marginRaiseTimer p) s = .next s)) ∧
    (q.tripped = true → exec (.droopTrip p) s = .next s) ∧
    (q.tripped = false → Runs (.droopTrip p) s (fun t => keeps t ∧ (t.dev.powP p.val).tripped = true ∧
      t.dev.partReg p.val 0x16 = (s.dev.partReg p.val 0x16 + 1) % 2 ^ 64 ∧
      (q.episodes = (s.dev.now / 1000000, 16) → (t.dev.powP p.val).held = true ∧ (q.held = false → marginOf t = 0)) ∧
      (q.episodes.1 ≠ s.dev.now / 1000000 → (t.dev.powP p.val).held = q.held ∧ marginOf t = m))) ∧
    (∀ n, (q.tripped = true → Runs (.droopClear p n) s (fun t => keeps t ∧ t.dev.powP p.val = { q with tripped := false } ∧
        t.dev.partReg p.val 0x17 = (s.dev.partReg p.val 0x17 + n) % 2 ^ 64)) ∧
      (q.tripped = false → exec (.droopClear p n) s = .next s)) ∧
    exec (.marginHoldExpiry p) s = .next (s.onDev (fun d => d.updPowP p.val (fun q => { q with held := false }))) ∧
    (q.phase = 1 → Runs (.pclkSlewDownComplete p) s (fun t => keeps t ∧ t.dev.partReg p.val 0x10 = q.target ∧
      (t.dev.powP p.val).phase = 2 ∧ (t.dev.powP p.val).avs = some (4500 + 25 * s.dev.mfg.volt p.val q.target - 25 * m))) ∧
    (q.phase ≠ 1 → exec (.pclkSlewDownComplete p) s = .next s) ∧
    (∀ v, q.avs = some v → Runs (.avsWriteComplete p) s (fun t => keeps t ∧ t.dev.partReg p.val 0x11 = v ∧ t.dev.opOf p.val = op ∧
      (t.dev.powP p.val).avs = none ∧ (t.dev.powP p.val).phase = (if q.phase = 2 then 0 else if q.phase = 3 then 4 else q.phase))) ∧
    (q.avs = none → exec (.avsWriteComplete p) s = .next s) ∧
    (q.phase = 4 → Runs (.opUpPclkSlew p) s (fun t => keeps t ∧ t.dev.partReg p.val 0x10 = q.target ∧ (t.dev.powP p.val).phase = 0)) ∧
    (q.phase ≠ 4 → exec (.opUpPclkSlew p) s = .next s)

/-- BOARD_CAP_WRITE and OPERATOR_CAP_WRITE that pass their checks write the cap. An edge of PWR_CAP_ALERT# after start-up
is taken over, and an assertion counted; without a change it is nothing. After GOVERNOR_TICK on the floor every duty
is 0, and off it at least 16; a tick never leaves the floor, entering it is counted, and the memory level rises by at
most one. FLOOR_LEAVE leaves the floor at full levels unless a device-wide fault holds it. LANE_RESTORE gives the port
that shed last a step back and no other. OPERATING_POINT_CHOICE keeps every ceiling within the operator's, the thermal
and the highest point, on the floor at 0 with cause 4, and changes no partition's point itself. THERMAL_CEILING_TIMER
shows the reading; above the soft limit the ceiling falls by a point, below it less 3 degrees it rises, at most to 11,
and between it stays. HARD_THERMAL_ENTRY above 95 degrees holds the partition, HARD_THERMAL_RELEASE below 93 releases
it; STACK_THERMAL_LIMIT above 95 limits the stack, STACK_THERMAL_RELEASE below 90 ends it; other readings leave both.
THERMTRIP outside reset asserts THERMTRIP#. (R574, R582, R583, R584, R585, R586, R588, R591, R592, R593, R594, R632) -/
def Obligations.capsAndHeat : Prop :=
  (∀ (s : State),
     (∀ via v, s.passes via 0x2100 0x01 v → exec (.boardCapWrite via v) s =
       .next ((s.onDev (fun d => d.setReg 0x2100 0x01 v)).replied via 0x2100 0x01 0)) ∧
     (∀ via v, s.passes via 0x2100 0x02 v → exec (.operatorCapWrite via v) s =
       .next ((s.onDev (fun d => d.setReg 0x2100 0x02 v)).replied via 0x2100 0x02 0)) ∧
     (∀ b, (s.dev.avail = true → s.dev.pow.alert ≠ b → Runs (.pwrCapAlertEdge b) s (fun t => t.dev.pow.alert = b ∧ s.sameStore t ∧
         t.dev.reg 0x2100 0x10 = (if b then (s.dev.reg 0x2100 0x10 + 1) % 2 ^ 64 else s.dev.reg 0x2100 0x10))) ∧
       (s.dev.avail = false ∨ s.dev.pow.alert = b → exec (.pwrCapAlertEdge b) s = .next s)) ∧
     (∀ acts, Runs (.governorTick acts) s (fun t => s.sameStore t ∧ t.dev.now = s.dev.now ∧
       (s.dev.pow.floor = true → t.dev.pow.floor = true) ∧ (t.dev.pow.floor = true → ∀ p < 8, t.dev.partReg p 0x13 = 0) ∧
       (t.dev.pow.floor = false → ∀ p < 8, 16 ≤ t.dev.partReg p 0x13) ∧ t.dev.pow.mlev ≤ s.dev.pow.mlev + 1 ∧
       t.dev.reg 0x2100 0x11 = (if s.dev.pow.floor = false ∧ t.dev.pow.floor = true then (s.dev.reg 0x2100 0x11 + 1) % 2 ^ 64
         else s.dev.reg 0x2100 0x11))) ∧
     (s.dev.pow.floor = true → bit (s.dev.reg 0x5400 0x05) 0 = false → Runs .floorLeave s (fun t => t.dev.pow.floor = false ∧
       t.dev.pow.comp = 256 ∧ t.dev.pow.mlev = 16 ∧ bit (t.dev.reg 0x2100 0x04) 15 = false ∧ s.sameStore t)) ∧
     (s.dev.pow.floor = false ∨ bit (s.dev.reg 0x5400 0x05) 0 = true → exec .floorLeave s = .next s) ∧
     (∀ n : Fin 24, (s.dev.pow.shed.head? = some n.val → s.dev.pow.floor = false → Runs (.laneRestore n) s (fun t =>
         (t.dev.port n.val).shed = (s.dev.port n.val).shed - 1 ∧ (t.dev.port n.val).retraining = true ∧
         t.dev.pow.shed = s.dev.pow.shed.tail ∧ s.sameStore t ∧ ∀ k, k ≠ n.val → (t.dev.port k).shed = (s.dev.port k).shed)) ∧
       (s.dev.pow.shed.head? ≠ some n.val ∨ s.dev.pow.floor = true → exec (.laneRestore n) s = .next s)) ∧
     Runs .operatingPointChoice s (fun t => s.sameStore t ∧ ∀ p < 8, t.dev.opOf p = s.dev.opOf p ∧
       (s.dev.pow.floor = true → t.dev.partReg p 0x14 = 0x40) ∧
       (s.dev.pow.floor = false → t.dev.partReg p 0x14 % 16 ≤ min 11 (min (s.dev.powP p).ceiling (s.dev.reg 0x2000 0x14))))) ∧
  (∀ (s : State) (p : Fin 8) (st : Fin 32) (x : Int),
     let q := s.dev.powP p.val
     let soft : Int := (16 * s.dev.reg 0x2100 0x0C : Nat)
     let shown := fun (t : State) => t.dev.partReg p.val 0x15 = ofSigned 16 x ∧ s.sameStore t
     Runs (.thermalCeilingTimer p x) s (fun t => shown t ∧ (t.dev.powP p.val).ceiling =
       if soft < x then q.ceiling - 1 else if x < soft - 48 then min 11 (q.ceiling + 1) else q.ceiling) ∧
     Runs (.hardThermalEntry p x) s (fun t => shown t ∧ (t.dev.powP p.val).hard = (q.hard || decide (1520 < x))) ∧
     Runs (.hardThermalRelease p x) s (fun t => shown t ∧ (t.dev.powP p.val).hard = (q.hard && !(decide (x < 1488)))) ∧
     Runs (.stackThermalLimit st x) s (fun t => s.sameStore t ∧
       t.dev.stk st.val = { s.dev.stk st.val with hot := (s.dev.stk st.val).hot || decide (1520 < x) }) ∧
     Runs (.stackThermalRelease st x) s (fun t => s.sameStore t ∧
       t.dev.stk st.val = { s.dev.stk st.val with hot := (s.dev.stk st.val).hot && !(decide (x < 1440)) }) ∧
     (s.dev.boot.reset = false → s.dev.boot.thermtrip = false → Runs .thermtrip s (fun t => t.dev.boot.thermtrip = true ∧
       t.dev.tx = s.dev.tx ++ [.pin 3 1] ∧ t.dev.regs = s.dev.regs ∧ s.sameStore t)) ∧
     (s.dev.boot.reset = true ∨ s.dev.boot.thermtrip = true → exec .thermtrip s = .next s))

/-- TELEMETRY_SAMPLE of one valid reading adds its energy of 50 microseconds to its rail and to no other, an invalid one
changes nothing. At TELEMETRY_WINDOW_END, where every picojoule remainder is below a microjoule, what the counters of
all contexts and the device account advance by is together what the package's advances by, modulo 2^64; the rails
start the next window at 0 and the remainders stay below a microjoule. (R568, R573, R647, R649) -/
def Obligations.energyAddsUp : Prop :=
  ∀ (s : State),
    (∀ x : SampleF, x.valid = true → Runs (.telemetrySample [x]) s (fun t => s.sameStore t ∧ t.dev.regs = s.dev.regs ∧
      (t.dev.rail x.rail.val).pj = (s.dev.rail x.rail.val).pj + (x.mv : Int) * x.ma * 50 ∧ (t.dev.rail x.rail.val).at_ = s.dev.now ∧
      ∀ r, r ≠ x.rail.val → t.dev.rail r = s.dev.rail r)) ∧
    (∀ x : SampleF, x.valid = false → exec (.telemetrySample [x]) s = .next s) ∧
    ((∀ r ∈ s.dev.pow.rest, r.2 < 1000000) → Runs .telemetryWindowEnd s (fun t => s.sameStore t ∧
      (∃ (total own : Nat) (k : Nat → Nat), (own + ((List.range 1024).map k).sum) % 2 ^ 64 = total % 2 ^ 64 ∧
        t.dev.reg 0x2200 0x0B = (s.dev.reg 0x2200 0x0B + total) % 2 ^ 64 ∧ t.dev.reg 0x2200 0x0A = (s.dev.reg 0x2200 0x0A + own) % 2 ^ 64 ∧
        ∀ c < 1024, t.dev.ctxReg c 0x23 = (s.dev.ctxReg c 0x23 + k c) % 2 ^ 64 ∨ (k c = 0 ∧ t.dev.ctxReg c 0x23 = s.dev.ctxReg c 0x23)) ∧
      (∀ r, (t.dev.rail r).pj = 0 ∧ (t.dev.rail r).beyond = false) ∧ (∀ r ∈ t.dev.pow.rest, r.2 < 1000000) ∧
      t.dev.tele.lastWindow = s.dev.now))

/-- FLIT_CRC_FAILURE counts the replays; the eighth loses the hop: on the fabric or a die-to-die link the device goes out
of service with the tray flagged, on a base-die link the stack's partition does. HANG_TIMEOUT of a unit with work, in
a partition in service and not on the floor, advances the generation modulo 16, shows the cause, counts the reset and
abandons the work of the partition's engines and stacks; without work, on the floor, or outside service it changes
nothing. PARTITION_RESET_DRAINED clears bank sets, save areas and translation caches and wipes the die's secure bank
when the partition's number is even. PARTITION_RESET_COMPLETE returns the partition to service, or takes it out of
service where the self-test failed or the resets in the window have reached the limit. DEVICE_WIDE_FAULT stops every
stream of every context that is not OFF, holds the floor, flags the tray and shows its cause. (R15, R609, R612, R613,
R615, R616, R617, R630, R631, R632) -/
def Obligations.faultsSpread : Prop :=
  ∀ (s : State),
    (∀ (kind : Fin 3) unit fails,
      (fails < 8 → exec (.flitCrcFailure kind unit fails) s = .next (s.onDev (fun d => d.addReg 0x5400 0x06 (fails + 1)))) ∧
      (8 ≤ fails → Runs (.flitCrcFailure kind unit fails) s (fun t => t.mem = s.mem ∧ t.pending = s.pending ∧
        t.dev.reg 0x5400 0x06 = (s.dev.reg 0x5400 0x06 + 8) % 2 ^ 64 ∧ t.dev.reg 0x5400 0x07 = (s.dev.reg 0x5400 0x07 + 1) % 2 ^ 64 ∧
        (kind.val ≠ 2 → bit (t.dev.reg 0x5400 0x05) 0 = true ∧ (bit (s.dev.reg 0x5400 0x05) 0 = false → t.persist.tray = true)) ∧
        (kind.val = 2 → t.dev.service (partOfStk (unit % 32)) = 2)))) ∧
    (∀ kind unit, let p := hangPart kind unit
      let reset := fun (t : State) => s.sameStore t ∧ t.dev.service p = 1 ∧ t.dev.partReg p 0x22 = (s.dev.partReg p 0x22 + 1) % 16 ∧
        t.dev.partReg p 0x25 = hangCause kind unit ∧ t.dev.reg 0x5400 0x09 = (s.dev.reg 0x5400 0x09 + 1) % 2 ^ 64 ∧
        (∀ e ∈ partEngs p, (t.dev.eng e).jobs = [] ∧ (t.dev.eng e).vq = [] ∧ (t.dev.eng e).dq = []) ∧
        (∀ k ∈ partStks p, (t.dev.stk k).queue = [] ∧ (t.dev.stk k).arms = [] ∧ (t.dev.stk k).chunks = []) ∧
        (∀ e, e ∉ partEngs p → t.dev.eng e = s.dev.eng e) ∧
        (∀ c, c < 1024 → Tbl.look? p s.dev.integ.turn = some c → (s.dev.ctx c).rep.replaying = true → t.dev.ctxReg c 0x28 = 4)
      (kind = 0 ∨ 7 < kind ∨ s.dev.service p ≠ 0 → exec (.hangTimeout kind unit) s = .next s) ∧
      (0 < kind → kind < 7 → s.dev.service p = 0 → s.dev.hangCtx kind unit = none ∨ s.dev.pow.floor = true →
        exec (.hangTimeout kind unit) s = .next s) ∧
      (0 < kind → kind < 7 → s.dev.service p = 0 → s.dev.hangCtx kind unit ≠ none → s.dev.pow.floor = false →
        Runs (.hangTimeout kind unit) s reset) ∧
      (kind = 7 → s.dev.service p = 0 → Runs (.hangTimeout kind unit) s reset)) ∧
    (∀ (p : Fin 8),
      (∀ r, Tbl.look? p.val s.dev.integ.resets = some r → r.phase = 1 → Runs (.partitionResetDrained p) s (fun t => s.sameStore t ∧
        Tbl.look? p.val t.dev.integ.resets = some { r with phase := 2 } ∧ Tbl.look? p.val t.dev.xcP = none ∧
        (∀ e ∈ partEngs p.val, (t.dev.eng e).sets = [⟨0, Accum.empty⟩, ⟨0, Accum.empty⟩] ∧ (t.dev.eng e).saves = [] ∧
          (t.dev.eng e).xc = []) ∧
        (∀ e, e ∉ partEngs p.val → t.dev.eng e = s.dev.eng e) ∧
        (p.val % 2 = 0 → (Tbl.look? (p.val / 2) t.dev.wiping).isSome = true) ∧ (p.val % 2 = 1 → t.dev.wiping = s.dev.wiping))) ∧
      ((∀ r, Tbl.look? p.val s.dev.integ.resets = some r → r.phase ≠ 1) → exec (.partitionResetDrained p) s = .next s) ∧
      (∀ ok r, Tbl.look? p.val s.dev.integ.resets = some r → r.phase = 2 → Runs (.partitionResetComplete p ok) s (fun t =>
        t.mem = s.mem ∧ t.pending = s.pending ∧
        (ok = true ∧ s.dev.resetsInWindow p.val < s.dev.reg 0x5400 0x02 → t.dev.service p.val = 0 ∧ t.persist = s.persist ∧
          Tbl.look? p.val t.dev.integ.resets = none ∧
          ∀ c ∈ r.suspects, c < 1024 → s.dev.ctxReg c 0x28 ≠ 4 → s.dev.reg 0x5400 0x0F % 2 = 0 → t.dev.ctxReg c 0x28 = 5) ∧
        (ok = false ∨ s.dev.reg 0x5400 0x02 ≤ s.dev.resetsInWindow p.val → t.dev.service p.val = 2))) ∧
      (∀ ok, (∀ r, Tbl.look? p.val s.dev.integ.resets = some r → r.phase ≠ 2) → exec (.partitionResetComplete p ok) s = .next s)) ∧
    (∀ cause, 2 ≤ cause → cause ≤ 4 → bit (s.dev.reg 0x5400 0x05) 0 = false → Runs (.deviceWideFault cause) s (fun t =>
      t.mem = s.mem ∧ t.pending = s.pending ∧ t.persist = { s.persist with tray := true } ∧
      t.dev.reg 0x5400 0x05 = 16 * cause + 1 ∧ t.dev.reg 0x5400 0x11 = 1 ∧ t.dev.pow.floor = true ∧
      ∀ c i, c < 1024 → s.dev.ctxState c ≠ 0 → i < s.dev.streamCount c → i < (s.dev.ctx c).streams.length →
        (t.dev.stream c i).stopped = true ∧ ((s.dev.stream c i).stopped = false → (t.dev.stream c i).reason = 0x0314))) ∧
    (∀ cause, cause = 0 ∨ 4 < cause ∨ bit (s.dev.reg 0x5400 0x05) 0 = true → exec (.deviceWideFault cause) s = .next s)

/-- REPLAY_START while the partition is not in service, has a suspect replaying or has none ready changes nothing;
otherwise the ready suspect of lowest number takes the turn: one without a point is marked not replayable, one already
rolled back with nothing logged since its point replays at once (recovery state 2, counted), and any other ends
replaying or not replayable. ROLLBACK_CONTROL_WRITE is refused with 0x0312 for an index that no point has, or where
the context is not replayable, and changes nothing; accepted, the recovery state is 1, 3 or 5. (R399, R624, R625,
R626, R628) -/
def Obligations.replaysTakeTurns : Prop :=
  ∀ (s : State),
    (∀ (p : Fin 8),
      (s.dev.service p.val ≠ 0 ∨ (Tbl.look? p.val s.dev.integ.turn).isSome = true ∨
        (∀ c, c < 1024 → (Tbl.look [] p.val s.dev.integ.await).contains c = true → s.dev.replayReady c = false) →
        exec (.replayStart p) s = .next s) ∧
      (∀ c, c < 1024 → s.dev.service p.val = 0 → Tbl.look? p.val s.dev.integ.turn = none →
        (Tbl.look [] p.val s.dev.integ.await).contains c = true → s.dev.replayReady c = true →
        (∀ b, b < c → (Tbl.look [] p.val s.dev.integ.await).contains b = true → s.dev.replayReady b = false) →
        let rep := (s.dev.ctx c).rep
        Runs (.replayStart p) s (fun t => t.pending = s.pending ∧ t.persist = s.persist ∧
          (rep.points = [] → t.dev.ctxReg c 0x28 = 5 ∧ t.mem = s.mem ∧ Tbl.look? p.val t.dev.integ.turn = none) ∧
          (∀ v ps, rep.points = v :: ps → rep.rolled = true → rep.logHead ≤ v.logAt →
            t.dev.ctxReg c 0x28 = 2 ∧ t.mem = s.mem ∧ Tbl.look? p.val t.dev.integ.turn = some c ∧
            (t.dev.ctx c).rep.replaying = true ∧ t.dev.ctxReg c 0x2A = (s.dev.ctxReg c 0x2A + 1) % 2 ^ 64) ∧
          (t.dev.ctxReg c 0x28 = 2 ∨ t.dev.ctxReg c 0x28 = 5)))) ∧
    (∀ via (c : Fin 1024) v, let idx := 0x4000 + c.val
      let rep := (s.dev.ctx c.val).rep
      s.passes via idx 0x29 v →
      let fit := (v = s.dev.ctxReg c.val 0x09 ∨ v + 1 = s.dev.ctxReg c.val 0x09) ∧ s.dev.replayOn c.val = true ∧ rep.marked = false ∧
        s.dev.ctxReg c.val 0x28 ≠ 4 ∧ s.dev.ctxReg c.val 0x28 ≠ 5 ∧ s.dev.ctxState c.val = 2 ∧ ∃ q ∈ rep.points, q.upd = v
      (¬ fit → exec (.rollbackControlWrite via c v) s = .next (s.replied via idx 0x29 0x0312)) ∧
      (fit → Runs (.rollbackControlWrite via c v) s (fun t => answers t via idx 0x29 0 ∧ t.pending = s.pending ∧ t.persist = s.persist ∧
        (t.dev.ctxReg c.val 0x28 = 1 ∨ t.dev.ctxReg c.val 0x28 = 3 ∨ t.dev.ctxReg c.val 0x28 = 5))))

/-- HARVEST_TICK without a scheduled tick changes nothing; otherwise the timebase has reached it and the next follows by
the period, none where it is 0. While telemetry is ON, a tick that finds no harvest and no dump under way begins one:
the spare shadow holds every harvested entry of a unit whose partition is not resetting; one that finds them
unfinished is deferred and counted. HARVEST_COMPLETE exchanges the shadows, advances the sequence and begins the dump;
without a harvest it changes nothing. DUMP_COMPLETE writes the dump and ends it. NEXT_TICK_WRITE less than 10 us ahead
answers 0x0105, otherwise schedules the tick; LOG_READ_POSITION_WRITE sets the position. (R639, R640, R642, R643,
R644, R645, R646, R656, R657) -/
def Obligations.harvestsExchange : Prop :=
  ∀ (s : State),
    (s.dev.tele.tickAt = 0 → exec .harvestTick s = .next s) ∧
    (s.dev.tele.tickAt ≠ 0 → Runs .harvestTick s (fun t =>
      let at_ := s.dev.tele.tickAt
      let p := s.dev.reg 0x5C00 0x03 * 1000
      s.sameStore t ∧ t.dev.now = max s.dev.now at_ ∧ t.dev.tele.tickAt = (if p = 0 then 0 else at_ + p) ∧
      t.dev.tele.current = s.dev.tele.current ∧
      (p ≠ 0 → t.dev.reg 0x5C00 0x04 = (at_ + p) % 2 ^ 64) ∧
      (s.dev.fn 0x5C00 ≠ 2 → t.dev.tele.spare = s.dev.tele.spare ∧ t.dev.tele.harvesting = s.dev.tele.harvesting) ∧
      (s.dev.fn 0x5C00 = 2 → s.dev.tele.harvesting = false → s.dev.tele.dumping = none →
        t.dev.tele.harvesting = true ∧ t.dev.tele.spare.begun = at_ ∧ t.dev.reg 0x5C00 0x0A = s.dev.reg 0x5C00 0x0A ∧
        ∀ idx sub, sub < 256 → s.dev.isHarvested idx sub = true → (∀ q, partOfIdx idx = some q → s.dev.service q ≠ 1) →
          Tbl.look? (ekey idx sub) t.dev.tele.spare.vals = Tbl.look? (ekey idx sub) s.dev.regs) ∧
      (s.dev.fn 0x5C00 = 2 → s.dev.tele.harvesting = true ∨ s.dev.tele.dumping ≠ none →
        t.dev.tele.spare = s.dev.tele.spare ∧ t.dev.reg 0x5C00 0x0A = (s.dev.reg 0x5C00 0x0A + 1) % 2 ^ 64 ∧
        t.dev.tele.deferred = (if s.dev.tele.deferred = 0 then at_ + 1 else s.dev.tele.deferred)))) ∧
    (s.dev.tele.harvesting = false → exec .harvestComplete s = .next s) ∧
    (s.dev.tele.harvesting = true → Runs .harvestComplete s (fun t => t.pending = s.pending ∧ t.persist = s.persist ∧
      t.dev.tele.current = s.dev.tele.spare ∧ t.dev.reg 0x5C00 0x05 = (s.dev.reg 0x5C00 0x05 + 1) % 2 ^ 32 ∧
      t.dev.reg 0x5C00 0x06 = s.dev.tele.spare.begun ∧ t.dev.reg 0x5C00 0x09 = (s.dev.reg 0x5C00 0x09 + 1) % 2 ^ 64 ∧
      (s.dev.reg 0x5C00 0x07 = 0 → t.mem = s.mem ∧ (s.dev.tele.deferred = 0 → t.dev.tele.harvesting = false ∧
        t.dev.tele.spare = s.dev.tele.current)) ∧
      (s.dev.reg 0x5C00 0x07 ≠ 0 → t.dev.tele.harvesting = false ∧ t.dev.tele.dumping = some (s.dev.reg 0x5C00 0x07)))) ∧
    (s.dev.tele.dumping = none → exec .dumpComplete s = .next s) ∧
    (∀ dpa, s.dev.tele.dumping = some dpa → Runs .dumpComplete s (fun t => t.pending = s.pending ∧ t.persist = s.persist ∧
      t.mem = (s.runMm (writeDpa dpa s.dev.dumpBytes)).2.mem ∧ t.dev.tele.dumping = none ∧
      t.dev.tele.current = s.dev.tele.current ∧
      (s.dev.tele.deferred ≠ 0 → s.dev.fn 0x5C00 = 2 → t.dev.tele.harvesting = true ∧ t.dev.tele.spare.begun = s.dev.now))) ∧
    (∀ via v, s.passes via 0x5C00 0x04 v →
      (v < s.dev.now + 10000 → exec (.nextTickWrite via v) s = .next (s.replied via 0x5C00 0x04 0x0105)) ∧
      (s.dev.now + 10000 ≤ v → exec (.nextTickWrite via v) s = .next
        ((s.onDev (fun d => (d.setReg 0x5C00 0x04 v).onTele (fun x => { x with tickAt := v }))).replied via 0x5C00 0x04 0))) ∧
    (∀ via v, s.passes via 0x5C00 0x21 v → exec (.logReadPositionWrite via v) s = .next
      ((s.onDev (fun d => d.onTele (fun x => { x with readPos := v }))).replied via 0x5C00 0x21 0))

/-- TAMPER_TRIP outside the steps in which the detectors run changes nothing. Before step 10 it counts a trip and the
device awaits its restart, which TAMPER_RESTART_TIMER begins with the trips still counted; the third halts it with
0x0B0C. After step 10 every secure bank is being wiped, the challenge, the armed token and 0x6000:14 are gone, and the
detection is counted and recorded. PLL_LOCK_LOSS of a locked PLL after step 2 is counted and holds the PLL unlocked;
PLL_RELOCK ends that, and what a host link held for it takes effect in order; PLL_RELOCK_TIMEOUT of an unlocked PLL takes the device out of service. (R612, R632, R710, R711,
R717) -/
def Obligations.detectorsTrip : Prop :=
  ∀ (s : State),
    let b := s.dev.boot
    let step_ := s.dev.reg 0x6000 0x02
    (∀ (die : Fin 4) cause,
      (b.reset = true ∨ b.thermtrip = true ∨ b.halted = true ∨ step_ < 2 → exec (.tamperTrip die cause) s = .next s) ∧
      (b.reset = false → b.thermtrip = false → b.halted = false → 2 ≤ step_ → step_ < 10 → Runs (.tamperTrip die cause) s (fun t =>
        s.sameStore t ∧ t.dev.boot.trips = b.trips + 1 ∧ t.dev.now = s.dev.now ∧
        (b.trips < 2 → t.dev.boot = { b with trips := b.trips + 1, restart := true } ∧ t.dev.regs = s.dev.regs) ∧
        (2 ≤ b.trips → t.dev.boot.halted = true ∧ t.dev.reg 0x6000 0x03 = 0x0B0C ∧ (∀ p < 8, t.dev.partReg p 0x10 = 0) ∧
          s.dev.sameRegs t.dev ((0x6000, 0x03) :: (List.range 8).map (fun p => (0x3400 + p, 0x10)))))) ∧
      (b.reset = false → b.thermtrip = false → b.halted = false → 10 ≤ step_ → Runs (.tamperTrip die cause) s (fun t =>
        s.sameStore t ∧ t.dev.boot.challenge = none ∧ t.dev.boot.armed = 0 ∧ t.dev.reg 0x6000 0x14 = 0 ∧
        (∀ k < 4, (Tbl.look? k t.dev.wiping).isSome = true ∧ t.dev.engReg (16 * k) 0x22 = 0) ∧ t.dev.boot.keys = false ∧
        t.dev.reg 0x6000 0x07 = (s.dev.reg 0x6000 0x07 + 1) % 2 ^ 64 ∧
        t.dev.reg 0x6000 0x08 = cause % 16 * 2 ^ 28 + die.val * 2 ^ 26))) ∧
    (b.restart = true → b.halted = false → Runs .tamperRestartTimer s (fun t => t.mem = Store.reset ∧ t.persist = s.persist ∧
      t.pending = s.pending ∧ t.dev.reg 0x6000 0x02 = 1 ∧
      t.dev.boot = { Boot.cold with reset := false, running := true, straps := b.straps, trips := b.trips })) ∧
    (b.restart = false ∨ b.halted = true → exec .tamperRestartTimer s = .next s) ∧
    (∀ pll,
      (b.reset = true ∨ b.thermtrip = true ∨ step_ < 2 ∨ s.dev.unlocked.contains pll = true ∨ 18 ≤ pll / 16 →
        exec (.pllLockLoss pll) s = .next s) ∧
      (b.reset = false → b.thermtrip = false → 2 ≤ step_ → s.dev.unlocked.contains pll = false → pll / 16 < 18 →
        Runs (.pllLockLoss pll) s (fun t => s.sameStore t ∧ t.dev.unlocked = pll :: s.dev.unlocked ∧
          t.dev.reg 0x2400 0x30 = (s.dev.reg 0x2400 0x30 + 1) % 2 ^ 64 ∧
          (pll / 16 ≠ 8 → pll / 16 ≠ 15 → t.dev.boot = b ∧ t.dev.wiping = s.dev.wiping))) ∧
      (pll / 16 ≠ 13 ∨ (s.dev.site (pll % 16)).heldIn = [] → Runs (.pllRelock pll) s (fun t =>
        s.sameStore t ∧ t.dev.unlocked = s.dev.unlocked.erase pll ∧ t.dev.boot = b)) ∧
      (s.dev.unlocked = [pll] → pll / 16 = 13 → (s.dev.site (pll % 16)).heldLink = false → ∃ u, s.sameStore u ∧
        u.dev.unlocked = [] ∧ u.dev.boot = b ∧
        exec (.pllRelock pll) s = .next ((s.dev.site (pll % 16)).heldIn.foldl (fun t i => hostEffect i t) u)) ∧
      (s.dev.unlocked.contains pll = true → Runs (.pllRelockTimeout pll) s (fun t => t.mem = s.mem ∧ t.pending = s.pending ∧
        bit (t.dev.reg 0x5400 0x05) 0 = true ∧
        (bit (s.dev.reg 0x5400 0x05) 0 = false → t.persist = { s.persist with tray := true } ∧ t.dev.pow.floor = true))) ∧
      (s.dev.unlocked.contains pll = false → exec (.pllRelockTimeout pll) s = .next s))

/-- AUTHORISATION_TOKEN draws a new challenge whether the token is accepted or not; one that fails a check answers 0x0B05
and changes nothing else, an accepted one arms its transition, permits perturbation or burns the revocation fuse of
its target. UPDATE_BEGIN of type 1 or 2 erases the bank that does not run; while an update or a burn is under way it
answers 0x0B07, another type 0x0105. UPDATE_APPEND puts the first bytes of the window at the end of what the bank
holds; without an update it answers 0x0B07, beyond the bank 0x0105. UPDATE_FINISH ends the update: an image that a
check refuses answers that code, an accepted one becomes the preferred bank of its type. (R696, R700, R701, R709,
R714) -/
def Obligations.imagesUpdate : Prop :=
  ∀ (s : State) (via : Via), s.dev.busyIdx 0x6000 = false →
    let b := s.dev.boot
    let refusedBy := fun (t : State) (code : Nat) => answers t via 0x6000 0x21 code ∧ t.dev.reg 0x6000 0x23 = code ∧
      t.mem = s.mem ∧ t.pending = s.pending
    (∀ token, s.passes via 0x6000 0x11 token →
      let i : Image := ⟨bytesAt token 0 512, bytesAt token 512 128⟩
      let action := bytesAt i.body 0 1
      let target := bytesAt i.body 1 1
      let good := s.imageSigned i 3 = true ∧ bytesAt i.body 2 14 = 0 ∧ bytesAt i.body 80 48 = 0 ∧
        bytesAt i.body 16 16 = s.dev.mfg.serial ∧ b.challenge = some (bytesAt i.body 32 48) ∧
        s.tokenAction action target (bytesAt i.header 5 1) = true
      Runs (.authorisationToken via token) s (fun t => t.mem = s.mem ∧ t.pending = s.pending ∧ t.dev.fresh = s.dev.fresh + 1 ∧
        t.dev.boot.challenge = some (Config.entropy s.dev.fresh % 2 ^ 384) ∧
        (¬ good → answers t via 0x6000 0x11 0x0B05 ∧ t.persist = s.persist ∧ t.dev.boot.armed = b.armed ∧
          t.dev.reg 0x6000 0x14 = s.dev.reg 0x6000 0x14) ∧
        (good → answers t via 0x6000 0x11 0 ∧ (action ≤ 2 → t.dev.boot.armed = action ∧ t.persist = s.persist) ∧
          (action = 3 → t.dev.reg 0x6000 0x14 = 1 ∧ t.persist = s.persist) ∧
          (action = 4 → t.persist = { s.persist with revoked := s.persist.revoked ||| 1 <<< target })))) ∧
    (∀ v, s.passes via 0x6000 0x21 (2 ^ 30 + v % 2 ^ 30) →
      let ty := bits v 27 24
      (ty ≠ 1 → ty ≠ 2 → exec (.updateBegin via v) s = .next (s.replied via 0x6000 0x21 0x0105)) ∧
      (ty = 1 ∨ ty = 2 → b.update ≠ none ∨ b.burnSettings ≠ none ∨ b.burnLife ≠ none →
        Runs (.updateBegin via v) s (fun t => refusedBy t 0x0B07 ∧ t.persist = s.persist)) ∧
      (ty = 1 ∨ ty = 2 → b.update = none → b.burnSettings = none → b.burnLife = none →
        Runs (.updateBegin via v) s (fun t => answers t via 0x6000 0x21 0 ∧ t.mem = s.mem ∧ t.pending = s.pending ∧
          t.persist = { s.persist with banks := setAt s.persist.banks (2 * (ty - 1) + (1 - b.banks.getD (ty - 1) 0)) ⟨0, 0⟩ } ∧
          t.dev.boot = { b with update := some (ty, 0) } ∧ t.dev.reg 0x6000 0x22 = 2 ^ 30))) ∧
    (∀ v, s.passes via 0x6000 0x21 (2 * 2 ^ 30 + v % 2 ^ 30) →
      let n := bits v 16 0
      (b.update = none → Runs (.updateAppend via v) s (fun t => refusedBy t 0x0B07 ∧ t.persist = s.persist)) ∧
      (∀ ty at_, b.update = some (ty, at_) → n = 0 ∨ 65536 < n ∨ maxBody ty + 512 < at_ + n →
        exec (.updateAppend via v) s = .next (s.replied via 0x6000 0x21 0x0105)) ∧
      (∀ ty at_, b.update = some (ty, at_) → 0 < n → n ≤ 65536 → at_ + n ≤ maxBody ty + 512 →
        let k := 2 * (ty - 1) + (1 - b.banks.getD (ty - 1) 0)
        let whole := fun (i : Image) => i.header + i.body <<< 4096
        k < s.persist.banks.length → (s.persist.banks.getD k ⟨0, 0⟩).header < 2 ^ 4096 →
        Runs (.updateAppend via v) s (fun t => answers t via 0x6000 0x21 0 ∧ t.mem = s.mem ∧ t.pending = s.pending ∧
          t.dev.boot = { b with update := some (ty, at_ + n) } ∧
          bytesAt (whole (t.persist.banks.getD k ⟨0, 0⟩)) at_ n = bytesAt (s.dev.reg 0x6000 0x20) 0 n ∧
          (∀ j, j < at_ ∨ at_ + n ≤ j →
            bytesAt (whole (t.persist.banks.getD k ⟨0, 0⟩)) j 1 = bytesAt (whole (s.persist.banks.getD k ⟨0, 0⟩)) j 1) ∧
          ∀ j, j ≠ k → t.persist.banks.getD j ⟨0, 0⟩ = s.persist.banks.getD j ⟨0, 0⟩))) ∧
    (∀ v, s.passes via 0x6000 0x21 (3 * 2 ^ 30 + v % 2 ^ 30) →
      (b.update = none → Runs (.updateFinish via v) s (fun t => refusedBy t 0x0B07 ∧ t.persist = s.persist)) ∧
      (∀ ty n, b.update = some (ty, n) →
        let k := 1 - b.banks.getD (ty - 1) 0
        let code := s.imageCode (s.persist.bank ty k) ty
        (code ≠ 0 → Runs (.updateFinish via v) s (fun t => refusedBy t code ∧ t.persist = s.persist ∧ t.dev.boot.update = none)) ∧
        (code = 0 → s.persist.selects.length = 2 → Runs (.updateFinish via v) s (fun t => answers t via 0x6000 0x21 0 ∧
          t.dev.boot.update = none ∧ t.mem = s.mem ∧ t.pending = s.pending ∧ t.persist.banks = s.persist.banks ∧
          (ty = 1 → t.persist.select.firmware = k ∧ t.persist.select.microcode = s.persist.select.microcode) ∧
          (ty = 2 → t.persist.select.microcode = k ∧ t.persist.select.firmware = s.persist.select.firmware)))))

/-- BYPASS selects the bypass register and shifts one bit; SAMPLE_PRELOAD shifts out the captured lands and loads the
cells. While RESET# is asserted EXTEST drives the lands from the cells, CLAMP holds them and HIGHZ releases them;
otherwise each is BYPASS. DEBUG in MANUFACTURE and RETURNED presents an access at input 4 of the management bus and in
every other state is BYPASS. TRST_ASSERT selects IDCODE. Nothing else of the part changes. (What the bypass register
captures is log entry 70, the captured word log entry 71.) (R685, R706, R731, R733, R734) -/
def Obligations.portTested : Prop :=
  ∀ (s : State),
    let tap := s.dev.tap
    let only := fun (t : State) (x : Tap) (outs : List Out) => t = s.onDev (fun d => { d with tap := x, tx := d.tx ++ outs })
    let bypassed := fun (t : State) (tdi : Bool) => only t { tap with ir := 0xFF, bypass := tdi, mode := 0 } [.tdo 1 0]
    let held := s.dev.boot.reset
    (∀ tdi, Runs (.bypass tdi) s (fun t => bypassed t tdi)) ∧
    (∀ w, Runs (.samplePreload w) s (fun t => only t { tap with ir := 0x02, cells := w, mode := 0 } [s.dev.tapCapture])) ∧
    (∀ w, (held = true → Runs (.extest w) s (fun t => only t { tap with ir := 0x03, cells := w, mode := 1 } [s.dev.tapCapture])) ∧
      (held = false → Runs (.extest w) s (fun t => bypassed t false))) ∧
    (held = true → Runs .clamp s (fun t => only t { tap with ir := 0x04, bypass := false, mode := 2 } []) ∧
      Runs .highz s (fun t => only t { tap with ir := 0x05, bypass := false, mode := 3 } [])) ∧
    (held = false → Runs .clamp s (fun t => bypassed t false) ∧ Runs .highz s (fun t => bypassed t false)) ∧
    (∀ v, (s.persist.life ≠ 0 → s.persist.life ≠ 3 → Runs (.debug v) s (fun t => bypassed t (decide (v % 2 = 1)))) ∧
      (s.persist.life = 0 ∨ s.persist.life = 3 → Runs (.debug v) s (fun t => s.sameStore t ∧ t.dev.regs = s.dev.regs ∧
        t.dev.tx = s.dev.tx ∧ t.dev.tap = { tap with ir := 0x10, mode := 0 } ∧
        (held = false → s.dev.boot.thermtrip = false →
          (Tbl.look Arb.reset 77 t.dev.arbs).held = (Tbl.look Arb.reset 77 s.dev.arbs).held ++ [4]) ∧
        (held = true ∨ s.dev.boot.thermtrip = true → t.dev.arbs = s.dev.arbs)))) ∧
    Runs .trstAssert s (fun t => only t { tap with ir := 0x01, mode := 0 } [])

/-- IDCODE shifts out 32 bits: bits [31:28] are the major stepping (bits [7:4] of 0x1000:07), bits [27:12] are 0x5064,
bits [11:1] are the low 11 bits of the manufacturer code and bit [0] is 1; nothing but the port changes. (R732) -/
def Obligations.idcodeReads : Prop :=
  ∀ (s : State), Runs .idcode s (fun t => ∃ w, t.dev.tx = s.dev.tx ++ [.tdo 32 w] ∧ w < 2 ^ 32 ∧
      bits w 31 28 = bits s.dev.mfg.stepping 7 4 ∧ bits w 27 12 = 0x5064 ∧ bits w 11 1 = s.dev.mfg.jep % 2048 ∧ bit w 0 = true ∧
      t.dev.regs = s.dev.regs ∧ s.sameStore t)

/-- A request that is heard while the dictionary is available, repeats no kept tag, is within its sender's limit and waits
behind no delayed write is answered with its own tag, index and sub-index. A malformed one answers 0x010A. A READ of a
visible entry that is not a DOMAIN returns its bytes with its type, of a DOMAIN the bytes asked for; READ_BLOCK
returns whole records of at most 1,024 bytes together; LIST the sub-indices present, DESCRIBE 40 bytes; none of them
changes an entry but the transport counters. A WRITE that a check refuses answers the check's code and changes nothing
else; an accepted one to an entry of the energy model writes it and no other. A request over the limit answers 0x010F,
an unheard one is not answered. Over a link that holds no traffic: MAILBOX_SUBMIT of a mailbox that is busy or without a link
is ignored; otherwise a ready reply is discarded and the request is received as its opcode says. MAILBOX_ACKNOWLEDGE makes a ready mailbox
idle and leaves any other. DOMAIN_STAGING_DISCARD discards the requester's buffer of the entry and no other.
REPLY_CACHE_EXPIRY drops one kept reply of the sender with the tag, or nothing. SET_ENDPOINT_ID and
DYNAMIC_ADDRESS_ASSIGNMENT write their byte of 0x1100:0F unless the management bus is silent. (R662, R667, R668, R669,
R670, R671, R672, R676, R677, R678, R760) -/
def Obligations.requestsAnswered : Prop :=
  (∀ (s : State) (via : Via) (r : Req),
     let w : Waiting := { via := via, opcode := 0, req := r, kind := 0, plain := false }
     let ops : List (Nat × Instr) := [(1, .read via r), (2, .write via r), (3, .readBlock via r), (4, .list via r), (5, .describe via r)]
     let fresh := ∀ a, via = .vlan a → ∀ k ∈ s.dev.dict.kept, k.1 = a → k.2.tag ≠ r.tag
     let answered := fun (t : State) (op code : Nat) (count ty : Nat) (payload : List Nat) =>
       s.sameStore t ∧ t.dev.tx.getLast? = some (.reply via ⟨op + 128, r.tag, r.index, r.sub, count, code, ty,
         (if idxPresent r.index then s.dev.fnByte r.index else 0), payload⟩) ∧
       s.dev.sameRegs t.dev [(0x1100, if code = 0 then 0x10 else 0x11)] ∧ t.dev.ctxs = s.dev.ctxs ∧ t.dev.engs = s.dev.engs
     (∀ q ∈ ops, s.dev.deaf via = true → exec q.2 s = .next (s.onDev (fun d => d.unheard via))) ∧
     (∀ q ∈ ops, s.dev.deaf via = false → fresh → viaLimit via ≤ s.dev.outstanding via →
       Runs q.2 s (fun t => answered t q.1 0x010F 0 0 [])) ∧
     (s.dev.deaf via = false → fresh → s.dev.outstanding via < viaLimit via → s.dev.avail = true →
       (∀ q ∈ ops, malformed q.1 r = true → Runs q.2 s (fun t => answered t q.1 0x010A 0 0 [])) ∧
       (s.dev.busyIdx r.index = true → ∀ q ∈ ops, malformed q.1 r = false → Runs q.2 s (fun t => s.sameStore t ∧ t.dev.tx = s.dev.tx ∧
         t.dev.dict.waiting = s.dev.dict.waiting ++ [{ w with opcode := q.1 }])) ∧
       (s.dev.busyIdx r.index = false →
         (∀ q ∈ ops, q.1 ≠ 2 → malformed q.1 r = false → ∀ code, s.ask via q.1 r = .error code →
           code ≠ 0 → Runs q.2 s (fun t => answered t q.1 code 0 0 [])) ∧
         (malformed 2 r = false → ∀ code, s.dev.writeHead via r.index r.sub = .error code → code ≠ 0 →
           Runs (.write via r) s (fun t => answered t 2 code 0 0 [])) ∧
         (∀ row, idxPresent r.index = true → s.dev.row r.index r.sub = some row → s.dev.visible via r.index r.sub = true →
           (malformed 1 r = false → row.acc ≠ .wo → row.ty ≠ .domain → r.offset = 0 → r.length = 0 →
             Runs (.read via r) s (fun t => answered t 1 0 0 row.ty.code (row.bytes (s.view via r.index r.sub)))) ∧
           (malformed 1 r = false → row.acc ≠ .wo → row.ty = .domain → 0 < r.length → r.offset + r.length ≤ row.size →
             Runs (.read via r) s (fun t => answered t 1 0 0 row.ty.code
               (leBytes r.length (bytesAt (s.view via r.index r.sub) r.offset r.length)))) ∧
           (malformed 3 r = false → r.offset = 0 → r.offset + r.length ≤ row.size → Runs (.readBlock via r) s (fun t => ∃ recs : List (List Nat),
             answered t 3 0 recs.length 0 recs.flatten ∧ recs.flatten.length ≤ 1024 ∧
             recs <+: ((0 :: s.dev.subs r.index).filter (fun k => r.sub ≤ k && k ≤ r.count)).filterMap (s.blockRecord via r.index))) ∧
           (malformed 4 r = false → r.offset = 0 → Runs (.list via r) s (fun t => answered t 4 0 0 0 (0 :: s.dev.subs r.index))) ∧
           (malformed 5 r = false → r.offset = 0 → Runs (.describe via r) s (fun t => ∃ bytes : List Nat, answered t 5 0 0 0 bytes ∧
             bytes.length = 40 ∧ bytes.take 3 = [row.ty.code, row.acc.code, row.scope.code] ∧
             leNat ((bytes.drop 4).take 4) = row.size % 2 ^ 32))) ∧
         (∀ row, r.index = 0x2200 → s.dev.writeHead via r.index r.sub = .ok row → row.ty ≠ .domain → malformed 2 r = false →
           r.ty = row.ty.code → r.length = row.size → r.offset = 0 → r.flags = 0 →
           s.dev.valueChecks row r.index r.sub (leNat r.payload) = 0 → r.sub < 256 →
           Runs (.write via r) s (fun t => s.sameStore t ∧ t.dev.reg 0x2200 r.sub = leNat r.payload ∧
             s.dev.sameRegs t.dev [(0x2200, r.sub), (0x1100, 0x10)] ∧ answers t via 0x2200 r.sub 0 ∧ t.dev.ctxs = s.dev.ctxs))))) ∧
  (∀ (s : State),
     (∀ (h : Fin 4) op r, s.dev.linkHolds h.val = false →
       (s.dev.deaf (.mailbox h) = true → exec (.mailboxSubmit h op r) s = .next s) ∧
       (s.dev.deaf (.mailbox h) = false → exec (.mailboxSubmit h op r) s =
         .next ((s.onDev (fun d => d.updSite h.val (fun x => { x with mbState := 0, mbReply := none }))).receive (.mailbox h) op r)) ∧
       ((s.dev.site h.val).mbState ≠ 2 → exec (.mailboxAcknowledge h) s = .next s) ∧
       ((s.dev.site h.val).mbState = 2 → Runs (.mailboxAcknowledge h) s (fun t => s.sameStore t ∧ t.dev.regs = s.dev.regs ∧
         t.dev.tx = s.dev.tx ∧ t.dev.site h.val = { s.dev.site h.val with mbState := 0, mbReply := none } ∧
         ∀ g, g ≠ h.val → t.dev.site g = s.dev.site g))) ∧
     (∀ via index sub, sub < 256 → Runs (.domainStagingDiscard via index sub) s (fun t => s.sameStore t ∧ t.dev.regs = s.dev.regs ∧
       t.dev.tx = s.dev.tx ∧ ∀ b, b ∈ t.dev.dict.staging ↔ b ∈ s.dev.dict.staging ∧ ¬(b.via = via ∧ b.key = ekey index sub))) ∧
     (∀ sender tag,
       ((∀ k ∈ s.dev.dict.kept, ¬(k.1 = sender ∧ k.2.tag = tag)) → exec (.replyCacheExpiry sender tag) s = .next s) ∧
       (∀ k ∈ s.dev.dict.kept, k.1 = sender → k.2.tag = tag → Runs (.replyCacheExpiry sender tag) s (fun t => s.sameStore t ∧
         t.dev.regs = s.dev.regs ∧ t.dev.dict.kept.length + 1 = s.dev.dict.kept.length ∧ t.dev.dict.kept.Sublist s.dev.dict.kept ∧
         t.dev.dict.kept.filter (fun q => ¬(q.1 = sender ∧ q.2.tag = tag)) =
           s.dev.dict.kept.filter (fun q => ¬(q.1 = sender ∧ q.2.tag = tag))))) ∧
     (∀ v, v < 256 → s.dev.mute (.i3c 0) = false →
       Runs (.setEndpointId v) s (fun t => s.sameStore t ∧ bytesAt (t.dev.reg 0x1100 0x0F) 0 1 = v ∧
         (∀ i, 1 ≤ i → bytesAt (t.dev.reg 0x1100 0x0F) i 1 = bytesAt (s.dev.reg 0x1100 0x0F) i 1) ∧
         s.dev.sameRegs t.dev [(0x1100, 0x0F)]) ∧
       Runs (.dynamicAddressAssignment v) s (fun t => s.sameStore t ∧ bytesAt (t.dev.reg 0x1100 0x0F) 1 1 = v ∧
         (∀ i, i ≠ 1 → bytesAt (t.dev.reg 0x1100 0x0F) i 1 = bytesAt (s.dev.reg 0x1100 0x0F) i 1) ∧
         s.dev.sameRegs t.dev [(0x1100, 0x0F)])) ∧
     (∀ v, s.dev.mute (.i3c 0) = true → exec (.setEndpointId v) s = .next s ∧ exec (.dynamicAddressAssignment v) s = .next s))

/-- RECLAIM_NOW of a site that does not hold, or of 0, is answered at once; of a holding site whose held contexts are OFF
it reclaims them. SETTINGS_COMMIT of another than the next generation answers 0x010C, after RETURNED 0x010D, of a
malformed image 0x010B; an accepted one begins the burn and keeps its reply. SETTINGS_BURN_COMPLETE consumes the slot,
valid only where the burn verified, and sends the reply. LIFE_CYCLE_TRANSITION while a burn is under way answers
0x0B07, of a wrong confirm value or target 0x0B04; otherwise the burn begins. LIFE_CYCLE_BURN_COMPLETE burns the
state, wipes the secure banks, sends the reply and resets. ATTESTATION_NONCE in MANUFACTURE, RETURNED and SCRAPPED
answers 0x0B09, with the keys in place makes the evidence, and otherwise waits for them; KEY_REDERIVATION puts the
keys back and answers what waits. FUNCTION_STOPPING_END ends STOPPING once its conditions are met. (R546, R673, R681,
R703, R704, R707, R708, R714) -/
def Obligations.delayedRepliesFollow : Prop :=
  ∀ (s : State),
    let b := s.dev.boot
    let w := fun (via : Via) (idx sub v kind : Nat) => { s.dev.wholeWrite via idx sub v with kind := kind }
    let waits := fun (t : State) (x : Waiting) => s.sameStore t ∧ t.dev.tx = s.dev.tx ∧ t.dev.regs = s.dev.regs ∧
      t.dev.dict.waiting = s.dev.dict.waiting ++ [x]
    (∀ via (h : Fin 4) v, let idx := 0x4800 + h.val
      let x := s.dev.site h.val
      s.passes via idx 0x07 v → s.dev.busyIdx idx = false →
      (v % 2 = 0 ∨ x.phase ≠ 5 → exec (.reclaimNow via h v) s = .next (s.replied via idx 0x07 0)) ∧
      (v % 2 = 1 → x.phase = 5 → s.dev.reclaiming h.val = false → x.held ≠ [] → x.held.Nodup → x.attachWait = none →
        s.dev.dict.waiting = [] → (∀ c ∈ x.held, c < 1024 ∧ s.dev.ctxState c = 0 ∧ s.dev.owner c = some h.val) →
        Runs (.reclaimNow via h v) s (fun t => (t.dev.site h.val).held = [] ∧ (t.dev.site h.val).phase = x.link ∧ t.mem = s.mem ∧
          t.pending = s.pending ∧ t.persist = s.persist ∧ answers t via idx 0x07 0))) ∧
    (∀ via g, s.passes via 0x1800 0x11 g → s.dev.busyIdx 0x1800 = false →
      let img := s.dev.reg 0x1800 0x10
      (s.persist.nextSlot = none → exec (.settingsCommit via g) s = .next (s.replied via 0x1800 0x11 0x010C)) ∧
      (∀ slot, s.persist.nextSlot = some slot →
        (g ≠ slot + 1 → exec (.settingsCommit via g) s = .next (s.replied via 0x1800 0x11 0x010C)) ∧
        (g = slot + 1 → 3 ≤ s.persist.life → exec (.settingsCommit via g) s = .next (s.replied via 0x1800 0x11 0x010D)) ∧
        (g = slot + 1 → s.persist.life < 3 → settingsForm img g = false →
          exec (.settingsCommit via g) s = .next (s.replied via 0x1800 0x11 0x010B)) ∧
        (g = slot + 1 → s.persist.life < 3 → settingsForm img g = true →
          (∀ i, i < bytesAt img 8 2 → s.dev.recordOk (settingsRecord img i) = true) →
          Runs (.settingsCommit via g) s (fun t => waits t (w via 0x1800 0x11 g 1) ∧
            t.dev.boot = { b with burnSettings := some (slot, img) })))) ∧
    (b.burnSettings = none → s.dev.dict.waiting = [] → ∀ ok, exec (.settingsBurnComplete ok) s = .next s) ∧
    (∀ ok slot img e (x : Waiting), b.burnSettings = some (slot, img) → s.dev.dict.waiting = [x] → x.kind = 1 → x.via = .i3c e →
      Runs (.settingsBurnComplete ok) s (fun t => t.mem = s.mem ∧ t.pending = s.pending ∧ t.dev.dict.waiting = [] ∧
        t.persist = { s.persist with slots := setAt s.persist.slots slot (some (if ok then img else 0)) } ∧
        t.dev.boot = { b with burnSettings := none } ∧ answers t x.via x.req.index x.req.sub 0)) ∧
    (∀ via v, s.passes via 0x6000 0x10 v → s.dev.busyIdx 0x6000 = false →
      let clear := b.burnSettings = none ∧ b.burnLife = none
      let fit := bits v 15 8 = 0xA5 ∧ s.lifeOk (v % 8) = true
      (¬ clear → exec (.lifeCycleTransition via v) s = .next (s.replied via 0x6000 0x10 0x0B07)) ∧
      (clear → ¬ fit → exec (.lifeCycleTransition via v) s = .next (s.replied via 0x6000 0x10 0x0B04)) ∧
      (clear → fit → Runs (.lifeCycleTransition via v) s (fun t => waits t (w via 0x6000 0x10 v 2) ∧
        t.dev.boot = { b with burnLife := some (v % 8) }))) ∧
    (b.burnLife = none → s.dev.dict.waiting = [] → exec .lifeCycleBurnComplete s = .next s) ∧
    (∀ l e (x : Waiting), b.burnLife = some l → s.dev.dict.waiting = [x] → x.kind = 2 → x.via = .i3c e → x.req.index = 0x6000 →
      Runs .lifeCycleBurnComplete s (fun t => t.mem = s.mem ∧ t.pending = s.pending ∧ t.dev.dict.waiting = [] ∧
        t.persist.life = max s.persist.life l ∧ t.persist.lifeOld = some s.persist.life ∧ t.persist.slots = s.persist.slots ∧
        t.persist.secret = (if l = 4 then 2 ^ 384 - 1 else s.persist.secret) ∧ t.dev.boot.resetWait = true ∧ t.dev.boot.burnLife = none ∧
        (∀ k < 4, (Tbl.look? k t.dev.wiping).isSome = true) ∧ Out.reply x.via ((s.dev.writeReply x.req.tag x.req.index x.req.sub 0)) ∈ t.dev.tx)) ∧
    (∀ via nonce, s.passes via 0x6000 0x30 nonce → s.dev.busyIdx 0x6000 = false → s.dev.dict.staging = [] →
      s.live via 0x6000 0x30 < 2 ^ 384 → nonce < 2 ^ 384 →
      (s.persist.life = 0 ∨ 3 ≤ s.persist.life → exec (.attestationNonce via nonce) s = .next (s.replied via 0x6000 0x30 0x0B09)) ∧
      (s.persist.life = 1 ∨ s.persist.life = 2 → b.keys = true → Runs (.attestationNonce via nonce) s (fun t => s.sameStore t ∧
        answers t via 0x6000 0x30 0 ∧ t.dev.reg 0x6000 0x30 = nonce ∧
        (via, leNat (s.evidence via nonce)) ∈ t.dev.boot.evidence ∧ t.dev.boot.keys = true)) ∧
      (s.persist.life = 1 ∨ s.persist.life = 2 → b.keys = false → Runs (.attestationNonce via nonce) s (fun t =>
        waits t (w via 0x6000 0x30 nonce 3) ∧ t.dev.boot = b))) ∧
    (b.keys = true ∨ (Tbl.look? 0 s.dev.wiping).isSome = true ∨ s.dev.reg 0x6000 0x02 < 5 → s.dev.dict.waiting = [] →
      exec .keyRederivation s = .next s) ∧
    (b.keys = false → Tbl.look? 0 s.dev.wiping = none → 5 ≤ s.dev.reg 0x6000 0x02 →
      (s.dev.dict.waiting = [] → Runs .keyRederivation s (fun t => s.sameStore t ∧ t.dev.boot = { b with keys := true } ∧
        t.dev.tx = s.dev.tx ∧ s.dev.sameRegs t.dev [(0x6000, 0x33), (0x6000, 0x34)] ∧
        t.dev.reg 0x6000 0x33 = leNat (Crypto.publicKey s.identityKey))) ∧
      (∀ e (x : Waiting), s.dev.dict.waiting = [x] → x.kind = 3 → x.via = .i3c e → Runs .keyRederivation s (fun t => s.sameStore t ∧
        t.dev.boot.keys = true ∧ t.dev.dict.waiting = [] ∧ answers t x.via x.req.index x.req.sub 0 ∧
        t.dev.reg 0x6000 0x30 = leNat x.req.payload))) ∧
    (∀ idx, s.dev.dict.waiting = [] →
      (s.dev.fn idx ≠ 3 ∨ isFunction idx = false → exec (.functionStoppingEnd idx) s = .next s) ∧
      (∀ rule, s.dev.fn idx = 3 → isFunction idx = true → ctxIdx idx = none → ruleOf idx = some rule →
        (∀ n, n < 24 → idx = 0x2C00 + n → exec (.functionStoppingEnd idx) s = .next (s.portStopped n)) ∧
        (idx < 0x2C00 ∨ 0x2C18 ≤ idx → s.stopDone idx = true → exec (.functionStoppingEnd idx) s = .next (s.fnStopped rule idx)) ∧
        (idx < 0x2C00 ∨ 0x2C18 ≤ idx → s.stopDone idx = false → exec (.functionStoppingEnd idx) s = .next s)))

/-- For every command that writes a dictionary entry: while the dictionary is available, heard and with no delayed write
of the index, a write that fails a check of steps 2 to 6 and 9 to 11 answers the first failing check's code and
changes nothing else. (R668, R672, R673, R683) -/
def Obligations.refusedWritesChangeNothing : Prop :=
  ∀ (s : State) (via : Via) (i : Instr) (idx sub v code : Nat) (c : Fin 1024) (e : Fin 64) (k : Fin 32) (n : Fin 24) (h : Fin 4)
    (g : Fin 8) (bed : Fin 64),
    (i, idx, sub) ∈ ([(.rollbackControlWrite via c v, 0x4000 + c.val, 0x29), (.contextOwnerWrite via c v, 0x4000 + c.val, 0x03),
      (.contextEnableWrite via c v, 0x4000 + c.val, 0x01), (.evaluationAttachWrite via c v, 0x4000 + c.val, 0x1C),
      (.bedWrite via bed v, 0x3400, 0x40 + bed.val), (.splitGroupWrite via g v, 0x3400, 0x80 + g.val),
      (.engineGrantWrite via e v, 0x3000 + e.val, 0x24), (.bankGrantWrite via e v, 0x3000 + e.val, 0x25),
      (.engineEnableWrite via e v, 0x3000 + e.val, 0x01), (.rootEngineEnableWrite via k v, 0x3800 + k.val, 0x01),
      (.fewestBuffersReset via k v, 0x3800 + k.val, 0x09), (.slabTableWrite via v, 0x2800, 0x01),
      (.translationInvalidate via v, 0x2800, 0x02), (.portEnableWrite via n v, 0x2C00 + n.val, 0x01),
      (.boardCapWrite via v, 0x2100, 0x01), (.operatorCapWrite via v, 0x2100, 0x02), (.securingEnableWrite via v, 0x5800, 0x01),
      (.siteEnableWrite via h v, 0x4800 + h.val, 0x01), (.nextTickWrite via v, 0x5C00, 0x04),
      (.logReadPositionWrite via v, 0x5C00, 0x21), (.telemetryEnableWrite via v, 0x5C00, 0x01),
      (.perturbationEnableWrite via v, 0x7000, 0x01), (.deviceResetWrite via v, 0x6000, 0x12),
      (.authorisationToken via v, 0x6000, 0x11)] : List (Instr × Nat × Nat)) →
    s.dev.avail = true → s.dev.deaf via = false → s.dev.busyIdx idx = false → s.dev.writeCode via idx sub v = code → code ≠ 0 →
    exec i s = .next (s.replied via idx sub code)

/-- For every header and every set of fields within their widths, without a reserved bit: the 64 bytes that a stream holds
of a tile job, a vector command, a move, a collective, CHANDLE, SOPEN or SRESTORE spell its opcode, its header and
exactly its fields, so that a command that waits, is retried or is replayed is the command that was sent. (R400, R404,
R405, R406, R408, R411, R414, R498) -/
def Obligations.commandsRoundTrip : Prop :=
  ∀ o : Origin, o.wf = true →
    let reads := fun (q : Option QCmd) (op : Nat) (p : Nat → Prop) => ∃ x, q = some ⟨x, o.stamp, false, 0⟩ ∧ x < 2 ^ 512 ∧ opcodeOf x = op ∧
      originOf o.ctx o.stream o.stamp x = o ∧ p x
    (∀ f : MtileF, f.wf = true → f.reserved = 0 → reads (cmdOf o 0x10 0 (mtileFields f)) 0x10 (fun x => mtileOf x = f)) ∧
    (∀ (f : VecF) op, 0x20 ≤ op → op ≤ 0x33 → f.wf = true → f.reserved = 0 → (op = 0x27 → f.bDesc = 0) → (op ≠ 0x27 → f.beta = 0) →
      reads (cmdOf o op 0 (vecFields op f)) op (fun x => vecOf x = f)) ∧
    (∀ (f : MoveF) op, 0x40 ≤ op → op ≤ 0x42 → f.wf = true → f.reserved = 0 →
      reads (cmdOf o op 0 (moveFields f)) op (fun x => moveOf x = f)) ∧
    (∀ (f : CollF) op, op < 256 → f.wf = true → f.reserved = 0 → (f.srcKind = 0 → f.emit = 0) → (f.srcKind = 1 → f.src = 0) →
      reads (cmdOf o op 0 (collFields f)) op (fun x => collOf x = f)) ∧
    (∀ (f : HandleF) action, action < 8 → f.wf = true → f.reserved = 0 →
      reads (cmdOf o 0x56 0 (handleFields action f)) 0x56 (fun x => handleOf x = f ∧ bits (bytesAt x 8 1) 2 0 = action)) ∧
    (∀ f : SnapF, f.wf = true → f.reserved = 0 →
      (f.obj < 2 ^ 14 → reads (cmdOf o 0x78 0 (snapFields 0x78 f)) 0x78 (fun x => snapOf x = f)) ∧
      (f.netInterval = 0 → reads (cmdOf o 0x7A 0 (snapFields 0x7A f)) 0x7A (fun x => snapOf x = f)))

/-- At the index of an absent host site only sub-indices 0, 02 and 03 are present, with 02 and 03 reading 0 (OFF, phase
0); a request other than a write for any other sub-index is refused with 0x0102, and every write with 0x0103. (R664) -/
def Obligations.absentSitesRefuse : Prop :=
  ∀ (s : State) (h : Fin 4), let idx := 0x4800 + h.val
    s.dev.populated h.val = false →
    (∀ sub, (s.dev.row idx sub).isSome = true ↔ sub = 0 ∨ sub = 2 ∨ sub = 3) ∧
    (∀ via, s.view via idx 2 = 0 ∧ s.view via idx 3 = 0) ∧
    (∀ via op (r : Req), r.index = idx → r.sub ≠ 0 → r.sub ≠ 2 → r.sub ≠ 3 → s.ask via op r = .error 0x0102) ∧
    (∀ via sub, s.dev.writeHead via idx sub = .error 0x0103) ∧
    (∀ (w : Waiting), w.req.index = idx → s.write w = (some 0x0103, s)) ∧
    (∀ via v, s.dev.avail = true → s.dev.deaf via = false → s.dev.busyIdx idx = false →
      exec (.siteEnableWrite via h v) s = .next (s.replied via idx 0x01 0x0103) ∧
      exec (.reclaimNow via h v) s = .next (s.replied via idx 0x07 0x0103))

/-- A SLAB_TABLE_WRITE through a host's mailbox answers 0x0508, an ENGINE_GRANT_WRITE or BANK_GRANT_WRITE through it
0x030E, and nothing else changes; so does a request of the mailbox for one of these entries. I3C/MCTP and the
management VLAN write the slab table. (R237, R447) -/
def Obligations.transportsRefused : Prop :=
  ∀ (s : State) (h : Fin 4) (e : Fin 64) (v : Nat), let idx := 0x3000 + e.val
    (s.dev.avail = true → s.dev.deaf (.mailbox h) = false →
      exec (.slabTableWrite (.mailbox h) v) s = .next (s.replied (.mailbox h) 0x2800 0x01 0x0508) ∧
      exec (.engineGrantWrite (.mailbox h) e v) s = .next (s.replied (.mailbox h) idx 0x24 0x030E) ∧
      exec (.bankGrantWrite (.mailbox h) e v) s = .next (s.replied (.mailbox h) idx 0x25 0x030E)) ∧
    (∀ w : Waiting, w.via = .mailbox h →
      (w.req.index = 0x2800 → w.req.sub = 0x01 → s.write w = (some 0x0508, s)) ∧
      (w.req.index = idx → w.req.sub = 0x24 ∨ w.req.sub = 0x25 → s.write w = (some 0x030E, s))) ∧
    (∀ a, (s.dev.writeHead (.i3c a) 0x2800 0x01).toOption.isSome = true ∧ (s.dev.writeHead (.vlan a) 0x2800 0x01).toOption.isSome = true)

/-- An entry is harvested exactly when it is RO, of type U64 or F32 and outside indices 0x1000, 0x1800 and 0x5C00. A read
over any transport of a harvested entry that the latest completed harvest holds gives the value held there; a read of
every other entry gives its value as it stands. (R638) -/
def Obligations.harvestedReads : Prop :=
  ∀ (s : State) (via : Via) (idx sub : Nat),
    (s.dev.isHarvested idx sub = true ↔ ∃ row, s.dev.row idx sub = some row ∧ row.acc = .ro ∧ (row.ty = .u64 ∨ row.ty = .f32) ∧
      idx ≠ 0x1000 ∧ idx ≠ 0x1800 ∧ idx ≠ 0x5C00) ∧
    (∀ v, s.dev.isHarvested idx sub = true → Tbl.look? (ekey idx sub) s.dev.tele.current.vals = some v → s.view via idx sub = v) ∧
    (s.dev.isHarvested idx sub = false → s.view via idx sub = s.live via idx sub)

/-- At the end of start-up step 10 the minimum SVN of each type is that of the image it runs where that is higher, and
otherwise as before; each rise raises event 0x8B07 with the type and the SVN; and an image of a lower SVN is refused
from then on. (R698) -/
def Obligations.minimumSvnRises : Prop :=
  ∀ (s : State) (r : StepF),
    let svn := fun (s : State) (ty : Nat) => if ty = 1 then s.persist.svnFw else s.persist.svnMc
    (s.dev.boot.running = true → s.dev.boot.halted = false → s.dev.boot.thermtrip = false → s.dev.boot.restart = false →
      s.dev.reg 0x6000 0x02 = 9 → Runs (.startupStepComplete r) s (fun t => t.dev.reg 0x6000 0x02 = 10 ∧ ∀ ty, ty = 1 ∨ ty = 2 →
        (∀ hd, s.dev.boot.headers.getD (ty - 1) none = some hd → svn t ty = max (svn s ty) (bytesAt hd 12 1)) ∧
        (s.dev.boot.headers.getD (ty - 1) none = none → svn t ty = svn s ty) ∧
        (∀ img : Image, bytesAt img.header 12 1 < svn t ty → t.imageCode img ty ≠ 0))) ∧
    (∀ ty hd, ty = 1 ∨ ty = 2 → s.dev.boot.headers.getD (ty - 1) none = some hd → svn s ty < bytesAt hd 12 1 →
      (s.raiseSvn ty).dev = s.dev.raiseDev 0x8B07 [ty, bytesAt hd 12 1])

/-- Whatever runs came before in a pass: a NaN run (a NaN product, or infinite products of both signs) sets the carry to
the canonical NaN; an infinite run sets it to add_rne of the carry and the infinity of its sign. (R73) -/
def Obligations.carriesTakeNan : Prop :=
  ∀ (fp16 : Bool) (n : Nat) (a w a2 w2 : List Opnd) (sa sw : List (Option Nat)), 0 < n → a.length = w.length → n ∣ a.length →
    a2.length = n → w2.length = n →
    let before := floatPass fp16 n a w sa sw
    let run := (runOf 0 0 (a2.zip w2)).1
    let after := floatPass fp16 n (a ++ a2) (w ++ w2) sa sw
    (run.nan = true ∨ (run.pinf = true ∧ run.ninf = true) → after = (do let _ ← before; return nan32)) ∧
    (run.nan = false → run.pinf = true → run.ninf = false → after = (do let c ← before; add32 c fp32.infmag)) ∧
    (run.nan = false → run.pinf = false → run.ninf = true → after = (do let c ← before; add32 c (packMag true fp32.infmag fp32)))
end

