-- ==== Sys2Proof/Laws/State.lean ====
section
/-! SUPPORT. One lemma per field per update, so that no later proof unfolds a record update. -/
namespace Sys2Proof.Machine
open Sys2Proof

variable (s : State) (d : Dev)

@[simp] theorem State.onDev_pending (g : Dev → Dev) : (s.onDev g).pending = s.pending := rfl
@[simp] theorem State.onDev_persist (g : Dev → Dev) : (s.onDev g).persist = s.persist := rfl
@[simp] theorem State.onDev_mem (g : Dev → Dev) : (s.onDev g).mem = s.mem := rfl
@[simp] theorem State.onDev_dev (g : Dev → Dev) : (s.onDev g).dev = g s.dev := rfl
@[simp] theorem State.setFn_pending (i t : Nat) : (s.setFn i t).pending = s.pending := rfl
@[simp] theorem State.runAct_pending {α : Type} (a : Act α) : (s.runAct a).2.pending = s.pending := rfl
@[simp] theorem State.runMm_pending {α : Type} (a : Mm α) : (s.runMm a).2.pending = s.pending := rfl
@[simp] theorem State.setFn_persist (i t : Nat) : (s.setFn i t).persist = s.persist := rfl
@[simp] theorem State.runAct_persist {α : Type} (a : Act α) : (s.runAct a).2.persist = s.persist := rfl
@[simp] theorem State.runMm_persist {α : Type} (a : Mm α) : (s.runMm a).2.persist = s.persist := rfl
@[simp] theorem State.setFn_mem (i t : Nat) : (s.setFn i t).mem = s.mem := rfl
@[simp] theorem Dev.setReg_mfg (i j v : Nat) : (d.setReg i j v).mfg = d.mfg := rfl
@[simp] theorem Dev.setReg_now (i j v : Nat) : (d.setReg i j v).now = d.now := rfl
@[simp] theorem Dev.setReg_fresh (i j v : Nat) : (d.setReg i j v).fresh = d.fresh := rfl
@[simp] theorem Dev.setReg_tx (i j v : Nat) : (d.setReg i j v).tx = d.tx := rfl
@[simp] theorem Dev.setReg_ctxs (i j v : Nat) : (d.setReg i j v).ctxs = d.ctxs := rfl
@[simp] theorem Dev.setReg_upds (i j v : Nat) : (d.setReg i j v).upds = d.upds := rfl
@[simp] theorem Dev.setReg_engs (i j v : Nat) : (d.setReg i j v).engs = d.engs := rfl
@[simp] theorem Dev.setReg_stks (i j v : Nat) : (d.setReg i j v).stks = d.stks := rfl
@[simp] theorem Dev.setReg_sites (i j v : Nat) : (d.setReg i j v).sites = d.sites := rfl
@[simp] theorem Dev.setReg_xcP (i j v : Nat) : (d.setReg i j v).xcP = d.xcP := rfl
@[simp] theorem Dev.setReg_sync (i j v : Nat) : (d.setReg i j v).sync = d.sync := rfl
@[simp] theorem Dev.setReg_blocks (i j v : Nat) : (d.setReg i j v).blocks = d.blocks := rfl
@[simp] theorem Dev.setReg_syncQ (i j v : Nat) : (d.setReg i j v).syncQ = d.syncQ := rfl
@[simp] theorem Dev.setReg_arbs (i j v : Nat) : (d.setReg i j v).arbs = d.arbs := rfl
@[simp] theorem Dev.setReg_lastIssue (i j v : Nat) : (d.setReg i j v).lastIssue = d.lastIssue := rfl
@[simp] theorem Dev.setReg_splits (i j v : Nat) : (d.setReg i j v).splits = d.splits := rfl
@[simp] theorem Dev.setReg_tele (i j v : Nat) : (d.setReg i j v).tele = d.tele := rfl
@[simp] theorem Dev.setReg_dict (i j v : Nat) : (d.setReg i j v).dict = d.dict := rfl
@[simp] theorem Dev.setReg_pert (i j v : Nat) : (d.setReg i j v).pert = d.pert := rfl
@[simp] theorem Dev.setReg_wiping (i j v : Nat) : (d.setReg i j v).wiping = d.wiping := rfl
@[simp] theorem Dev.setReg_stalled (i j v : Nat) : (d.setReg i j v).stalled = d.stalled := rfl
@[simp] theorem Dev.setReg_fwd (i j v : Nat) : (d.setReg i j v).fwd = d.fwd := rfl
@[simp] theorem Dev.setReg_latch (i j v : Nat) : (d.setReg i j v).latch = d.latch := rfl
@[simp] theorem Dev.setReg_net (i j v : Nat) : (d.setReg i j v).net = d.net := rfl
@[simp] theorem Dev.setReg_pow (i j v : Nat) : (d.setReg i j v).pow = d.pow := rfl
@[simp] theorem Dev.setReg_integ (i j v : Nat) : (d.setReg i j v).integ = d.integ := rfl
@[simp] theorem Dev.setReg_boot (i j v : Nat) : (d.setReg i j v).boot = d.boot := rfl
@[simp] theorem Dev.setReg_tap (i j v : Nat) : (d.setReg i j v).tap = d.tap := rfl
@[simp] theorem Dev.setReg_unlocked (i j v : Nat) : (d.setReg i j v).unlocked = d.unlocked := rfl
@[simp] theorem Dev.setReg_snap (i j v : Nat) : (d.setReg i j v).snap = d.snap := rfl
@[simp] theorem Dev.setReg_pmem (i j v : Nat) : (d.setReg i j v).pmem = d.pmem := rfl
@[simp] theorem Dev.addReg_mfg (i j n : Nat) : (d.addReg i j n).mfg = d.mfg := rfl
@[simp] theorem Dev.addReg_now (i j n : Nat) : (d.addReg i j n).now = d.now := rfl
@[simp] theorem Dev.addReg_fresh (i j n : Nat) : (d.addReg i j n).fresh = d.fresh := rfl
@[simp] theorem Dev.addReg_tx (i j n : Nat) : (d.addReg i j n).tx = d.tx := rfl
@[simp] theorem Dev.addReg_ctxs (i j n : Nat) : (d.addReg i j n).ctxs = d.ctxs := rfl
@[simp] theorem Dev.addReg_upds (i j n : Nat) : (d.addReg i j n).upds = d.upds := rfl
@[simp] theorem Dev.addReg_engs (i j n : Nat) : (d.addReg i j n).engs = d.engs := rfl
@[simp] theorem Dev.addReg_stks (i j n : Nat) : (d.addReg i j n).stks = d.stks := rfl
@[simp] theorem Dev.addReg_sites (i j n : Nat) : (d.addReg i j n).sites = d.sites := rfl
@[simp] theorem Dev.addReg_xcP (i j n : Nat) : (d.addReg i j n).xcP = d.xcP := rfl
@[simp] theorem Dev.addReg_sync (i j n : Nat) : (d.addReg i j n).sync = d.sync := rfl
@[simp] theorem Dev.addReg_blocks (i j n : Nat) : (d.addReg i j n).blocks = d.blocks := rfl
@[simp] theorem Dev.addReg_syncQ (i j n : Nat) : (d.addReg i j n).syncQ = d.syncQ := rfl
@[simp] theorem Dev.addReg_arbs (i j n : Nat) : (d.addReg i j n).arbs = d.arbs := rfl
@[simp] theorem Dev.addReg_lastIssue (i j n : Nat) : (d.addReg i j n).lastIssue = d.lastIssue := rfl
@[simp] theorem Dev.addReg_splits (i j n : Nat) : (d.addReg i j n).splits = d.splits := rfl
@[simp] theorem Dev.addReg_tele (i j n : Nat) : (d.addReg i j n).tele = d.tele := rfl
@[simp] theorem Dev.addReg_dict (i j n : Nat) : (d.addReg i j n).dict = d.dict := rfl
@[simp] theorem Dev.addReg_pert (i j n : Nat) : (d.addReg i j n).pert = d.pert := rfl
@[simp] theorem Dev.addReg_wiping (i j n : Nat) : (d.addReg i j n).wiping = d.wiping := rfl
@[simp] theorem Dev.addReg_stalled (i j n : Nat) : (d.addReg i j n).stalled = d.stalled := rfl
@[simp] theorem Dev.addReg_fwd (i j n : Nat) : (d.addReg i j n).fwd = d.fwd := rfl
@[simp] theorem Dev.addReg_latch (i j n : Nat) : (d.addReg i j n).latch = d.latch := rfl
@[simp] theorem Dev.addReg_net (i j n : Nat) : (d.addReg i j n).net = d.net := rfl
@[simp] theorem Dev.addReg_pow (i j n : Nat) : (d.addReg i j n).pow = d.pow := rfl
@[simp] theorem Dev.addReg_integ (i j n : Nat) : (d.addReg i j n).integ = d.integ := rfl
@[simp] theorem Dev.addReg_boot (i j n : Nat) : (d.addReg i j n).boot = d.boot := rfl
@[simp] theorem Dev.addReg_tap (i j n : Nat) : (d.addReg i j n).tap = d.tap := rfl
@[simp] theorem Dev.addReg_unlocked (i j n : Nat) : (d.addReg i j n).unlocked = d.unlocked := rfl
@[simp] theorem Dev.addReg_snap (i j n : Nat) : (d.addReg i j n).snap = d.snap := rfl
@[simp] theorem Dev.addReg_pmem (i j n : Nat) : (d.addReg i j n).pmem = d.pmem := rfl
@[simp] theorem Dev.incReg_mfg (i j : Nat) : (d.incReg i j).mfg = d.mfg := rfl
@[simp] theorem Dev.incReg_now (i j : Nat) : (d.incReg i j).now = d.now := rfl
@[simp] theorem Dev.incReg_fresh (i j : Nat) : (d.incReg i j).fresh = d.fresh := rfl
@[simp] theorem Dev.incReg_tx (i j : Nat) : (d.incReg i j).tx = d.tx := rfl
@[simp] theorem Dev.incReg_ctxs (i j : Nat) : (d.incReg i j).ctxs = d.ctxs := rfl
@[simp] theorem Dev.incReg_upds (i j : Nat) : (d.incReg i j).upds = d.upds := rfl
@[simp] theorem Dev.incReg_engs (i j : Nat) : (d.incReg i j).engs = d.engs := rfl
@[simp] theorem Dev.incReg_stks (i j : Nat) : (d.incReg i j).stks = d.stks := rfl
@[simp] theorem Dev.incReg_sites (i j : Nat) : (d.incReg i j).sites = d.sites := rfl
@[simp] theorem Dev.incReg_xcP (i j : Nat) : (d.incReg i j).xcP = d.xcP := rfl
@[simp] theorem Dev.incReg_sync (i j : Nat) : (d.incReg i j).sync = d.sync := rfl
@[simp] theorem Dev.incReg_blocks (i j : Nat) : (d.incReg i j).blocks = d.blocks := rfl
@[simp] theorem Dev.incReg_syncQ (i j : Nat) : (d.incReg i j).syncQ = d.syncQ := rfl
@[simp] theorem Dev.incReg_arbs (i j : Nat) : (d.incReg i j).arbs = d.arbs := rfl
@[simp] theorem Dev.incReg_lastIssue (i j : Nat) : (d.incReg i j).lastIssue = d.lastIssue := rfl
@[simp] theorem Dev.incReg_splits (i j : Nat) : (d.incReg i j).splits = d.splits := rfl
@[simp] theorem Dev.incReg_tele (i j : Nat) : (d.incReg i j).tele = d.tele := rfl
@[simp] theorem Dev.incReg_dict (i j : Nat) : (d.incReg i j).dict = d.dict := rfl
@[simp] theorem Dev.incReg_pert (i j : Nat) : (d.incReg i j).pert = d.pert := rfl
@[simp] theorem Dev.incReg_wiping (i j : Nat) : (d.incReg i j).wiping = d.wiping := rfl
@[simp] theorem Dev.incReg_stalled (i j : Nat) : (d.incReg i j).stalled = d.stalled := rfl
@[simp] theorem Dev.incReg_fwd (i j : Nat) : (d.incReg i j).fwd = d.fwd := rfl
@[simp] theorem Dev.incReg_latch (i j : Nat) : (d.incReg i j).latch = d.latch := rfl
@[simp] theorem Dev.incReg_net (i j : Nat) : (d.incReg i j).net = d.net := rfl
@[simp] theorem Dev.incReg_pow (i j : Nat) : (d.incReg i j).pow = d.pow := rfl
@[simp] theorem Dev.incReg_integ (i j : Nat) : (d.incReg i j).integ = d.integ := rfl
@[simp] theorem Dev.incReg_boot (i j : Nat) : (d.incReg i j).boot = d.boot := rfl
@[simp] theorem Dev.incReg_tap (i j : Nat) : (d.incReg i j).tap = d.tap := rfl
@[simp] theorem Dev.incReg_unlocked (i j : Nat) : (d.incReg i j).unlocked = d.unlocked := rfl
@[simp] theorem Dev.incReg_snap (i j : Nat) : (d.incReg i j).snap = d.snap := rfl
@[simp] theorem Dev.incReg_pmem (i j : Nat) : (d.incReg i j).pmem = d.pmem := rfl
@[simp] theorem Dev.setField_mfg (i j hi lo v : Nat) : (d.setField i j hi lo v).mfg = d.mfg := rfl
@[simp] theorem Dev.setField_now (i j hi lo v : Nat) : (d.setField i j hi lo v).now = d.now := rfl
@[simp] theorem Dev.setField_fresh (i j hi lo v : Nat) : (d.setField i j hi lo v).fresh = d.fresh := rfl
@[simp] theorem Dev.setField_tx (i j hi lo v : Nat) : (d.setField i j hi lo v).tx = d.tx := rfl
@[simp] theorem Dev.setField_ctxs (i j hi lo v : Nat) : (d.setField i j hi lo v).ctxs = d.ctxs := rfl
@[simp] theorem Dev.setField_upds (i j hi lo v : Nat) : (d.setField i j hi lo v).upds = d.upds := rfl
@[simp] theorem Dev.setField_engs (i j hi lo v : Nat) : (d.setField i j hi lo v).engs = d.engs := rfl
@[simp] theorem Dev.setField_stks (i j hi lo v : Nat) : (d.setField i j hi lo v).stks = d.stks := rfl
@[simp] theorem Dev.setField_sites (i j hi lo v : Nat) : (d.setField i j hi lo v).sites = d.sites := rfl
@[simp] theorem Dev.setField_xcP (i j hi lo v : Nat) : (d.setField i j hi lo v).xcP = d.xcP := rfl
@[simp] theorem Dev.setField_sync (i j hi lo v : Nat) : (d.setField i j hi lo v).sync = d.sync := rfl
@[simp] theorem Dev.setField_blocks (i j hi lo v : Nat) : (d.setField i j hi lo v).blocks = d.blocks := rfl
@[simp] theorem Dev.setField_syncQ (i j hi lo v : Nat) : (d.setField i j hi lo v).syncQ = d.syncQ := rfl
@[simp] theorem Dev.setField_arbs (i j hi lo v : Nat) : (d.setField i j hi lo v).arbs = d.arbs := rfl
@[simp] theorem Dev.setField_lastIssue (i j hi lo v : Nat) : (d.setField i j hi lo v).lastIssue = d.lastIssue := rfl
@[simp] theorem Dev.setField_splits (i j hi lo v : Nat) : (d.setField i j hi lo v).splits = d.splits := rfl
@[simp] theorem Dev.setField_tele (i j hi lo v : Nat) : (d.setField i j hi lo v).tele = d.tele := rfl
@[simp] theorem Dev.setField_dict (i j hi lo v : Nat) : (d.setField i j hi lo v).dict = d.dict := rfl
@[simp] theorem Dev.setField_pert (i j hi lo v : Nat) : (d.setField i j hi lo v).pert = d.pert := rfl
@[simp] theorem Dev.setField_wiping (i j hi lo v : Nat) : (d.setField i j hi lo v).wiping = d.wiping := rfl
@[simp] theorem Dev.setField_stalled (i j hi lo v : Nat) : (d.setField i j hi lo v).stalled = d.stalled := rfl
@[simp] theorem Dev.setField_fwd (i j hi lo v : Nat) : (d.setField i j hi lo v).fwd = d.fwd := rfl
@[simp] theorem Dev.setField_latch (i j hi lo v : Nat) : (d.setField i j hi lo v).latch = d.latch := rfl
@[simp] theorem Dev.setField_net (i j hi lo v : Nat) : (d.setField i j hi lo v).net = d.net := rfl
@[simp] theorem Dev.setField_pow (i j hi lo v : Nat) : (d.setField i j hi lo v).pow = d.pow := rfl
@[simp] theorem Dev.setField_integ (i j hi lo v : Nat) : (d.setField i j hi lo v).integ = d.integ := rfl
@[simp] theorem Dev.setField_boot (i j hi lo v : Nat) : (d.setField i j hi lo v).boot = d.boot := rfl
@[simp] theorem Dev.setField_tap (i j hi lo v : Nat) : (d.setField i j hi lo v).tap = d.tap := rfl
@[simp] theorem Dev.setField_unlocked (i j hi lo v : Nat) : (d.setField i j hi lo v).unlocked = d.unlocked := rfl
@[simp] theorem Dev.setField_snap (i j hi lo v : Nat) : (d.setField i j hi lo v).snap = d.snap := rfl
@[simp] theorem Dev.setField_pmem (i j hi lo v : Nat) : (d.setField i j hi lo v).pmem = d.pmem := rfl
@[simp] theorem Dev.updCtx_regs (c : Nat) (f : Ctx → Ctx) : (d.updCtx c f).regs = d.regs := rfl
@[simp] theorem Dev.updCtx_mfg (c : Nat) (f : Ctx → Ctx) : (d.updCtx c f).mfg = d.mfg := rfl
@[simp] theorem Dev.updCtx_now (c : Nat) (f : Ctx → Ctx) : (d.updCtx c f).now = d.now := rfl
@[simp] theorem Dev.updCtx_fresh (c : Nat) (f : Ctx → Ctx) : (d.updCtx c f).fresh = d.fresh := rfl
@[simp] theorem Dev.updCtx_tx (c : Nat) (f : Ctx → Ctx) : (d.updCtx c f).tx = d.tx := rfl
@[simp] theorem Dev.updCtx_upds (c : Nat) (f : Ctx → Ctx) : (d.updCtx c f).upds = d.upds := rfl
@[simp] theorem Dev.updCtx_engs (c : Nat) (f : Ctx → Ctx) : (d.updCtx c f).engs = d.engs := rfl
@[simp] theorem Dev.updCtx_stks (c : Nat) (f : Ctx → Ctx) : (d.updCtx c f).stks = d.stks := rfl
@[simp] theorem Dev.updCtx_sites (c : Nat) (f : Ctx → Ctx) : (d.updCtx c f).sites = d.sites := rfl
@[simp] theorem Dev.updCtx_xcP (c : Nat) (f : Ctx → Ctx) : (d.updCtx c f).xcP = d.xcP := rfl
@[simp] theorem Dev.updCtx_sync (c : Nat) (f : Ctx → Ctx) : (d.updCtx c f).sync = d.sync := rfl
@[simp] theorem Dev.updCtx_blocks (c : Nat) (f : Ctx → Ctx) : (d.updCtx c f).blocks = d.blocks := rfl
@[simp] theorem Dev.updCtx_syncQ (c : Nat) (f : Ctx → Ctx) : (d.updCtx c f).syncQ = d.syncQ := rfl
@[simp] theorem Dev.updCtx_arbs (c : Nat) (f : Ctx → Ctx) : (d.updCtx c f).arbs = d.arbs := rfl
@[simp] theorem Dev.updCtx_lastIssue (c : Nat) (f : Ctx → Ctx) : (d.updCtx c f).lastIssue = d.lastIssue := rfl
@[simp] theorem Dev.updCtx_splits (c : Nat) (f : Ctx → Ctx) : (d.updCtx c f).splits = d.splits := rfl
@[simp] theorem Dev.updCtx_tele (c : Nat) (f : Ctx → Ctx) : (d.updCtx c f).tele = d.tele := rfl
@[simp] theorem Dev.updCtx_dict (c : Nat) (f : Ctx → Ctx) : (d.updCtx c f).dict = d.dict := rfl
@[simp] theorem Dev.updCtx_pert (c : Nat) (f : Ctx → Ctx) : (d.updCtx c f).pert = d.pert := rfl
@[simp] theorem Dev.updCtx_wiping (c : Nat) (f : Ctx → Ctx) : (d.updCtx c f).wiping = d.wiping := rfl
@[simp] theorem Dev.updCtx_stalled (c : Nat) (f : Ctx → Ctx) : (d.updCtx c f).stalled = d.stalled := rfl
@[simp] theorem Dev.updCtx_fwd (c : Nat) (f : Ctx → Ctx) : (d.updCtx c f).fwd = d.fwd := rfl
@[simp] theorem Dev.updCtx_latch (c : Nat) (f : Ctx → Ctx) : (d.updCtx c f).latch = d.latch := rfl
@[simp] theorem Dev.updCtx_net (c : Nat) (f : Ctx → Ctx) : (d.updCtx c f).net = d.net := rfl
@[simp] theorem Dev.updCtx_pow (c : Nat) (f : Ctx → Ctx) : (d.updCtx c f).pow = d.pow := rfl
@[simp] theorem Dev.updCtx_integ (c : Nat) (f : Ctx → Ctx) : (d.updCtx c f).integ = d.integ := rfl
@[simp] theorem Dev.updCtx_boot (c : Nat) (f : Ctx → Ctx) : (d.updCtx c f).boot = d.boot := rfl
@[simp] theorem Dev.updCtx_tap (c : Nat) (f : Ctx → Ctx) : (d.updCtx c f).tap = d.tap := rfl
@[simp] theorem Dev.updCtx_unlocked (c : Nat) (f : Ctx → Ctx) : (d.updCtx c f).unlocked = d.unlocked := rfl
@[simp] theorem Dev.updCtx_snap (c : Nat) (f : Ctx → Ctx) : (d.updCtx c f).snap = d.snap := rfl
@[simp] theorem Dev.updCtx_pmem (c : Nat) (f : Ctx → Ctx) : (d.updCtx c f).pmem = d.pmem := rfl
@[simp] theorem Dev.updUpd_regs (c : Nat) (f : Upd → Upd) : (d.updUpd c f).regs = d.regs := rfl
@[simp] theorem Dev.updUpd_mfg (c : Nat) (f : Upd → Upd) : (d.updUpd c f).mfg = d.mfg := rfl
@[simp] theorem Dev.updUpd_now (c : Nat) (f : Upd → Upd) : (d.updUpd c f).now = d.now := rfl
@[simp] theorem Dev.updUpd_fresh (c : Nat) (f : Upd → Upd) : (d.updUpd c f).fresh = d.fresh := rfl
@[simp] theorem Dev.updUpd_tx (c : Nat) (f : Upd → Upd) : (d.updUpd c f).tx = d.tx := rfl
@[simp] theorem Dev.updUpd_ctxs (c : Nat) (f : Upd → Upd) : (d.updUpd c f).ctxs = d.ctxs := rfl
@[simp] theorem Dev.updUpd_engs (c : Nat) (f : Upd → Upd) : (d.updUpd c f).engs = d.engs := rfl
@[simp] theorem Dev.updUpd_stks (c : Nat) (f : Upd → Upd) : (d.updUpd c f).stks = d.stks := rfl
@[simp] theorem Dev.updUpd_sites (c : Nat) (f : Upd → Upd) : (d.updUpd c f).sites = d.sites := rfl
@[simp] theorem Dev.updUpd_xcP (c : Nat) (f : Upd → Upd) : (d.updUpd c f).xcP = d.xcP := rfl
@[simp] theorem Dev.updUpd_sync (c : Nat) (f : Upd → Upd) : (d.updUpd c f).sync = d.sync := rfl
@[simp] theorem Dev.updUpd_blocks (c : Nat) (f : Upd → Upd) : (d.updUpd c f).blocks = d.blocks := rfl
@[simp] theorem Dev.updUpd_syncQ (c : Nat) (f : Upd → Upd) : (d.updUpd c f).syncQ = d.syncQ := rfl
@[simp] theorem Dev.updUpd_arbs (c : Nat) (f : Upd → Upd) : (d.updUpd c f).arbs = d.arbs := rfl
@[simp] theorem Dev.updUpd_lastIssue (c : Nat) (f : Upd → Upd) : (d.updUpd c f).lastIssue = d.lastIssue := rfl
@[simp] theorem Dev.updUpd_splits (c : Nat) (f : Upd → Upd) : (d.updUpd c f).splits = d.splits := rfl
@[simp] theorem Dev.updUpd_tele (c : Nat) (f : Upd → Upd) : (d.updUpd c f).tele = d.tele := rfl
@[simp] theorem Dev.updUpd_dict (c : Nat) (f : Upd → Upd) : (d.updUpd c f).dict = d.dict := rfl
@[simp] theorem Dev.updUpd_pert (c : Nat) (f : Upd → Upd) : (d.updUpd c f).pert = d.pert := rfl
@[simp] theorem Dev.updUpd_wiping (c : Nat) (f : Upd → Upd) : (d.updUpd c f).wiping = d.wiping := rfl
@[simp] theorem Dev.updUpd_stalled (c : Nat) (f : Upd → Upd) : (d.updUpd c f).stalled = d.stalled := rfl
@[simp] theorem Dev.updUpd_fwd (c : Nat) (f : Upd → Upd) : (d.updUpd c f).fwd = d.fwd := rfl
@[simp] theorem Dev.updUpd_latch (c : Nat) (f : Upd → Upd) : (d.updUpd c f).latch = d.latch := rfl
@[simp] theorem Dev.updUpd_net (c : Nat) (f : Upd → Upd) : (d.updUpd c f).net = d.net := rfl
@[simp] theorem Dev.updUpd_pow (c : Nat) (f : Upd → Upd) : (d.updUpd c f).pow = d.pow := rfl
@[simp] theorem Dev.updUpd_integ (c : Nat) (f : Upd → Upd) : (d.updUpd c f).integ = d.integ := rfl
@[simp] theorem Dev.updUpd_boot (c : Nat) (f : Upd → Upd) : (d.updUpd c f).boot = d.boot := rfl
@[simp] theorem Dev.updUpd_tap (c : Nat) (f : Upd → Upd) : (d.updUpd c f).tap = d.tap := rfl
@[simp] theorem Dev.updUpd_unlocked (c : Nat) (f : Upd → Upd) : (d.updUpd c f).unlocked = d.unlocked := rfl
@[simp] theorem Dev.updUpd_snap (c : Nat) (f : Upd → Upd) : (d.updUpd c f).snap = d.snap := rfl
@[simp] theorem Dev.updUpd_pmem (c : Nat) (f : Upd → Upd) : (d.updUpd c f).pmem = d.pmem := rfl
@[simp] theorem Dev.updStream_regs (c i : Nat) (f : Stream → Stream) : (d.updStream c i f).regs = d.regs := rfl
@[simp] theorem Dev.updStream_mfg (c i : Nat) (f : Stream → Stream) : (d.updStream c i f).mfg = d.mfg := rfl
@[simp] theorem Dev.updStream_now (c i : Nat) (f : Stream → Stream) : (d.updStream c i f).now = d.now := rfl
@[simp] theorem Dev.updStream_fresh (c i : Nat) (f : Stream → Stream) : (d.updStream c i f).fresh = d.fresh := rfl
@[simp] theorem Dev.updStream_tx (c i : Nat) (f : Stream → Stream) : (d.updStream c i f).tx = d.tx := rfl
@[simp] theorem Dev.updStream_upds (c i : Nat) (f : Stream → Stream) : (d.updStream c i f).upds = d.upds := rfl
@[simp] theorem Dev.updStream_engs (c i : Nat) (f : Stream → Stream) : (d.updStream c i f).engs = d.engs := rfl
@[simp] theorem Dev.updStream_stks (c i : Nat) (f : Stream → Stream) : (d.updStream c i f).stks = d.stks := rfl
@[simp] theorem Dev.updStream_sites (c i : Nat) (f : Stream → Stream) : (d.updStream c i f).sites = d.sites := rfl
@[simp] theorem Dev.updStream_xcP (c i : Nat) (f : Stream → Stream) : (d.updStream c i f).xcP = d.xcP := rfl
@[simp] theorem Dev.updStream_sync (c i : Nat) (f : Stream → Stream) : (d.updStream c i f).sync = d.sync := rfl
@[simp] theorem Dev.updStream_blocks (c i : Nat) (f : Stream → Stream) : (d.updStream c i f).blocks = d.blocks := rfl
@[simp] theorem Dev.updStream_syncQ (c i : Nat) (f : Stream → Stream) : (d.updStream c i f).syncQ = d.syncQ := rfl
@[simp] theorem Dev.updStream_arbs (c i : Nat) (f : Stream → Stream) : (d.updStream c i f).arbs = d.arbs := rfl
@[simp] theorem Dev.updStream_lastIssue (c i : Nat) (f : Stream → Stream) : (d.updStream c i f).lastIssue = d.lastIssue := rfl
@[simp] theorem Dev.updStream_splits (c i : Nat) (f : Stream → Stream) : (d.updStream c i f).splits = d.splits := rfl
@[simp] theorem Dev.updStream_tele (c i : Nat) (f : Stream → Stream) : (d.updStream c i f).tele = d.tele := rfl
@[simp] theorem Dev.updStream_dict (c i : Nat) (f : Stream → Stream) : (d.updStream c i f).dict = d.dict := rfl
@[simp] theorem Dev.updStream_pert (c i : Nat) (f : Stream → Stream) : (d.updStream c i f).pert = d.pert := rfl
@[simp] theorem Dev.updStream_wiping (c i : Nat) (f : Stream → Stream) : (d.updStream c i f).wiping = d.wiping := rfl
@[simp] theorem Dev.updStream_stalled (c i : Nat) (f : Stream → Stream) : (d.updStream c i f).stalled = d.stalled := rfl
@[simp] theorem Dev.updStream_fwd (c i : Nat) (f : Stream → Stream) : (d.updStream c i f).fwd = d.fwd := rfl
@[simp] theorem Dev.updStream_latch (c i : Nat) (f : Stream → Stream) : (d.updStream c i f).latch = d.latch := rfl
@[simp] theorem Dev.updStream_net (c i : Nat) (f : Stream → Stream) : (d.updStream c i f).net = d.net := rfl
@[simp] theorem Dev.updStream_pow (c i : Nat) (f : Stream → Stream) : (d.updStream c i f).pow = d.pow := rfl
@[simp] theorem Dev.updStream_integ (c i : Nat) (f : Stream → Stream) : (d.updStream c i f).integ = d.integ := rfl
@[simp] theorem Dev.updStream_boot (c i : Nat) (f : Stream → Stream) : (d.updStream c i f).boot = d.boot := rfl
@[simp] theorem Dev.updStream_tap (c i : Nat) (f : Stream → Stream) : (d.updStream c i f).tap = d.tap := rfl
@[simp] theorem Dev.updStream_unlocked (c i : Nat) (f : Stream → Stream) : (d.updStream c i f).unlocked = d.unlocked := rfl
@[simp] theorem Dev.updStream_snap (c i : Nat) (f : Stream → Stream) : (d.updStream c i f).snap = d.snap := rfl
@[simp] theorem Dev.updStream_pmem (c i : Nat) (f : Stream → Stream) : (d.updStream c i f).pmem = d.pmem := rfl
@[simp] theorem Dev.updEng_regs (e : Nat) (f : Eng → Eng) : (d.updEng e f).regs = d.regs := rfl
@[simp] theorem Dev.updEng_mfg (e : Nat) (f : Eng → Eng) : (d.updEng e f).mfg = d.mfg := rfl
@[simp] theorem Dev.updEng_now (e : Nat) (f : Eng → Eng) : (d.updEng e f).now = d.now := rfl
@[simp] theorem Dev.updEng_fresh (e : Nat) (f : Eng → Eng) : (d.updEng e f).fresh = d.fresh := rfl
@[simp] theorem Dev.updEng_tx (e : Nat) (f : Eng → Eng) : (d.updEng e f).tx = d.tx := rfl
@[simp] theorem Dev.updEng_ctxs (e : Nat) (f : Eng → Eng) : (d.updEng e f).ctxs = d.ctxs := rfl
@[simp] theorem Dev.updEng_upds (e : Nat) (f : Eng → Eng) : (d.updEng e f).upds = d.upds := rfl
@[simp] theorem Dev.updEng_stks (e : Nat) (f : Eng → Eng) : (d.updEng e f).stks = d.stks := rfl
@[simp] theorem Dev.updEng_sites (e : Nat) (f : Eng → Eng) : (d.updEng e f).sites = d.sites := rfl
@[simp] theorem Dev.updEng_xcP (e : Nat) (f : Eng → Eng) : (d.updEng e f).xcP = d.xcP := rfl
@[simp] theorem Dev.updEng_sync (e : Nat) (f : Eng → Eng) : (d.updEng e f).sync = d.sync := rfl
@[simp] theorem Dev.updEng_blocks (e : Nat) (f : Eng → Eng) : (d.updEng e f).blocks = d.blocks := rfl
@[simp] theorem Dev.updEng_syncQ (e : Nat) (f : Eng → Eng) : (d.updEng e f).syncQ = d.syncQ := rfl
@[simp] theorem Dev.updEng_arbs (e : Nat) (f : Eng → Eng) : (d.updEng e f).arbs = d.arbs := rfl
@[simp] theorem Dev.updEng_lastIssue (e : Nat) (f : Eng → Eng) : (d.updEng e f).lastIssue = d.lastIssue := rfl
@[simp] theorem Dev.updEng_splits (e : Nat) (f : Eng → Eng) : (d.updEng e f).splits = d.splits := rfl
@[simp] theorem Dev.updEng_tele (e : Nat) (f : Eng → Eng) : (d.updEng e f).tele = d.tele := rfl
@[simp] theorem Dev.updEng_dict (e : Nat) (f : Eng → Eng) : (d.updEng e f).dict = d.dict := rfl
@[simp] theorem Dev.updEng_pert (e : Nat) (f : Eng → Eng) : (d.updEng e f).pert = d.pert := rfl
@[simp] theorem Dev.updEng_wiping (e : Nat) (f : Eng → Eng) : (d.updEng e f).wiping = d.wiping := rfl
@[simp] theorem Dev.updEng_stalled (e : Nat) (f : Eng → Eng) : (d.updEng e f).stalled = d.stalled := rfl
@[simp] theorem Dev.updEng_fwd (e : Nat) (f : Eng → Eng) : (d.updEng e f).fwd = d.fwd := rfl
@[simp] theorem Dev.updEng_latch (e : Nat) (f : Eng → Eng) : (d.updEng e f).latch = d.latch := rfl
@[simp] theorem Dev.updEng_net (e : Nat) (f : Eng → Eng) : (d.updEng e f).net = d.net := rfl
@[simp] theorem Dev.updEng_pow (e : Nat) (f : Eng → Eng) : (d.updEng e f).pow = d.pow := rfl
@[simp] theorem Dev.updEng_integ (e : Nat) (f : Eng → Eng) : (d.updEng e f).integ = d.integ := rfl
@[simp] theorem Dev.updEng_boot (e : Nat) (f : Eng → Eng) : (d.updEng e f).boot = d.boot := rfl
@[simp] theorem Dev.updEng_tap (e : Nat) (f : Eng → Eng) : (d.updEng e f).tap = d.tap := rfl
@[simp] theorem Dev.updEng_unlocked (e : Nat) (f : Eng → Eng) : (d.updEng e f).unlocked = d.unlocked := rfl
@[simp] theorem Dev.updEng_snap (e : Nat) (f : Eng → Eng) : (d.updEng e f).snap = d.snap := rfl
@[simp] theorem Dev.updEng_pmem (e : Nat) (f : Eng → Eng) : (d.updEng e f).pmem = d.pmem := rfl
@[simp] theorem Dev.updStk_regs (s : Nat) (f : Stk → Stk) : (d.updStk s f).regs = d.regs := rfl
@[simp] theorem Dev.updStk_mfg (s : Nat) (f : Stk → Stk) : (d.updStk s f).mfg = d.mfg := rfl
@[simp] theorem Dev.updStk_now (s : Nat) (f : Stk → Stk) : (d.updStk s f).now = d.now := rfl
@[simp] theorem Dev.updStk_fresh (s : Nat) (f : Stk → Stk) : (d.updStk s f).fresh = d.fresh := rfl
@[simp] theorem Dev.updStk_tx (s : Nat) (f : Stk → Stk) : (d.updStk s f).tx = d.tx := rfl
@[simp] theorem Dev.updStk_ctxs (s : Nat) (f : Stk → Stk) : (d.updStk s f).ctxs = d.ctxs := rfl
@[simp] theorem Dev.updStk_upds (s : Nat) (f : Stk → Stk) : (d.updStk s f).upds = d.upds := rfl
@[simp] theorem Dev.updStk_engs (s : Nat) (f : Stk → Stk) : (d.updStk s f).engs = d.engs := rfl
@[simp] theorem Dev.updStk_sites (s : Nat) (f : Stk → Stk) : (d.updStk s f).sites = d.sites := rfl
@[simp] theorem Dev.updStk_xcP (s : Nat) (f : Stk → Stk) : (d.updStk s f).xcP = d.xcP := rfl
@[simp] theorem Dev.updStk_sync (s : Nat) (f : Stk → Stk) : (d.updStk s f).sync = d.sync := rfl
@[simp] theorem Dev.updStk_blocks (s : Nat) (f : Stk → Stk) : (d.updStk s f).blocks = d.blocks := rfl
@[simp] theorem Dev.updStk_syncQ (s : Nat) (f : Stk → Stk) : (d.updStk s f).syncQ = d.syncQ := rfl
@[simp] theorem Dev.updStk_arbs (s : Nat) (f : Stk → Stk) : (d.updStk s f).arbs = d.arbs := rfl
@[simp] theorem Dev.updStk_lastIssue (s : Nat) (f : Stk → Stk) : (d.updStk s f).lastIssue = d.lastIssue := rfl
@[simp] theorem Dev.updStk_splits (s : Nat) (f : Stk → Stk) : (d.updStk s f).splits = d.splits := rfl
@[simp] theorem Dev.updStk_tele (s : Nat) (f : Stk → Stk) : (d.updStk s f).tele = d.tele := rfl
@[simp] theorem Dev.updStk_dict (s : Nat) (f : Stk → Stk) : (d.updStk s f).dict = d.dict := rfl
@[simp] theorem Dev.updStk_pert (s : Nat) (f : Stk → Stk) : (d.updStk s f).pert = d.pert := rfl
@[simp] theorem Dev.updStk_wiping (s : Nat) (f : Stk → Stk) : (d.updStk s f).wiping = d.wiping := rfl
@[simp] theorem Dev.updStk_stalled (s : Nat) (f : Stk → Stk) : (d.updStk s f).stalled = d.stalled := rfl
@[simp] theorem Dev.updStk_fwd (s : Nat) (f : Stk → Stk) : (d.updStk s f).fwd = d.fwd := rfl
@[simp] theorem Dev.updStk_latch (s : Nat) (f : Stk → Stk) : (d.updStk s f).latch = d.latch := rfl
@[simp] theorem Dev.updStk_net (s : Nat) (f : Stk → Stk) : (d.updStk s f).net = d.net := rfl
@[simp] theorem Dev.updStk_pow (s : Nat) (f : Stk → Stk) : (d.updStk s f).pow = d.pow := rfl
@[simp] theorem Dev.updStk_integ (s : Nat) (f : Stk → Stk) : (d.updStk s f).integ = d.integ := rfl
@[simp] theorem Dev.updStk_boot (s : Nat) (f : Stk → Stk) : (d.updStk s f).boot = d.boot := rfl
@[simp] theorem Dev.updStk_tap (s : Nat) (f : Stk → Stk) : (d.updStk s f).tap = d.tap := rfl
@[simp] theorem Dev.updStk_unlocked (s : Nat) (f : Stk → Stk) : (d.updStk s f).unlocked = d.unlocked := rfl
@[simp] theorem Dev.updStk_snap (s : Nat) (f : Stk → Stk) : (d.updStk s f).snap = d.snap := rfl
@[simp] theorem Dev.updStk_pmem (s : Nat) (f : Stk → Stk) : (d.updStk s f).pmem = d.pmem := rfl
@[simp] theorem Dev.updSite_regs (h : Nat) (f : Site → Site) : (d.updSite h f).regs = d.regs := rfl
@[simp] theorem Dev.updSite_mfg (h : Nat) (f : Site → Site) : (d.updSite h f).mfg = d.mfg := rfl
@[simp] theorem Dev.updSite_now (h : Nat) (f : Site → Site) : (d.updSite h f).now = d.now := rfl
@[simp] theorem Dev.updSite_fresh (h : Nat) (f : Site → Site) : (d.updSite h f).fresh = d.fresh := rfl
@[simp] theorem Dev.updSite_tx (h : Nat) (f : Site → Site) : (d.updSite h f).tx = d.tx := rfl
@[simp] theorem Dev.updSite_ctxs (h : Nat) (f : Site → Site) : (d.updSite h f).ctxs = d.ctxs := rfl
@[simp] theorem Dev.updSite_upds (h : Nat) (f : Site → Site) : (d.updSite h f).upds = d.upds := rfl
@[simp] theorem Dev.updSite_engs (h : Nat) (f : Site → Site) : (d.updSite h f).engs = d.engs := rfl
@[simp] theorem Dev.updSite_stks (h : Nat) (f : Site → Site) : (d.updSite h f).stks = d.stks := rfl
@[simp] theorem Dev.updSite_xcP (h : Nat) (f : Site → Site) : (d.updSite h f).xcP = d.xcP := rfl
@[simp] theorem Dev.updSite_sync (h : Nat) (f : Site → Site) : (d.updSite h f).sync = d.sync := rfl
@[simp] theorem Dev.updSite_blocks (h : Nat) (f : Site → Site) : (d.updSite h f).blocks = d.blocks := rfl
@[simp] theorem Dev.updSite_syncQ (h : Nat) (f : Site → Site) : (d.updSite h f).syncQ = d.syncQ := rfl
@[simp] theorem Dev.updSite_arbs (h : Nat) (f : Site → Site) : (d.updSite h f).arbs = d.arbs := rfl
@[simp] theorem Dev.updSite_lastIssue (h : Nat) (f : Site → Site) : (d.updSite h f).lastIssue = d.lastIssue := rfl
@[simp] theorem Dev.updSite_splits (h : Nat) (f : Site → Site) : (d.updSite h f).splits = d.splits := rfl
@[simp] theorem Dev.updSite_tele (h : Nat) (f : Site → Site) : (d.updSite h f).tele = d.tele := rfl
@[simp] theorem Dev.updSite_dict (h : Nat) (f : Site → Site) : (d.updSite h f).dict = d.dict := rfl
@[simp] theorem Dev.updSite_pert (h : Nat) (f : Site → Site) : (d.updSite h f).pert = d.pert := rfl
@[simp] theorem Dev.updSite_wiping (h : Nat) (f : Site → Site) : (d.updSite h f).wiping = d.wiping := rfl
@[simp] theorem Dev.updSite_stalled (h : Nat) (f : Site → Site) : (d.updSite h f).stalled = d.stalled := rfl
@[simp] theorem Dev.updSite_fwd (h : Nat) (f : Site → Site) : (d.updSite h f).fwd = d.fwd := rfl
@[simp] theorem Dev.updSite_latch (h : Nat) (f : Site → Site) : (d.updSite h f).latch = d.latch := rfl
@[simp] theorem Dev.updSite_net (h : Nat) (f : Site → Site) : (d.updSite h f).net = d.net := rfl
@[simp] theorem Dev.updSite_pow (h : Nat) (f : Site → Site) : (d.updSite h f).pow = d.pow := rfl
@[simp] theorem Dev.updSite_integ (h : Nat) (f : Site → Site) : (d.updSite h f).integ = d.integ := rfl
@[simp] theorem Dev.updSite_boot (h : Nat) (f : Site → Site) : (d.updSite h f).boot = d.boot := rfl
@[simp] theorem Dev.updSite_tap (h : Nat) (f : Site → Site) : (d.updSite h f).tap = d.tap := rfl
@[simp] theorem Dev.updSite_unlocked (h : Nat) (f : Site → Site) : (d.updSite h f).unlocked = d.unlocked := rfl
@[simp] theorem Dev.updSite_snap (h : Nat) (f : Site → Site) : (d.updSite h f).snap = d.snap := rfl
@[simp] theorem Dev.updSite_pmem (h : Nat) (f : Site → Site) : (d.updSite h f).pmem = d.pmem := rfl
@[simp] theorem Dev.out_regs (x : Out) : (d.out x).regs = d.regs := rfl
@[simp] theorem Dev.out_mfg (x : Out) : (d.out x).mfg = d.mfg := rfl
@[simp] theorem Dev.out_now (x : Out) : (d.out x).now = d.now := rfl
@[simp] theorem Dev.out_fresh (x : Out) : (d.out x).fresh = d.fresh := rfl
@[simp] theorem Dev.out_ctxs (x : Out) : (d.out x).ctxs = d.ctxs := rfl
@[simp] theorem Dev.out_upds (x : Out) : (d.out x).upds = d.upds := rfl
@[simp] theorem Dev.out_engs (x : Out) : (d.out x).engs = d.engs := rfl
@[simp] theorem Dev.out_stks (x : Out) : (d.out x).stks = d.stks := rfl
@[simp] theorem Dev.out_sites (x : Out) : (d.out x).sites = d.sites := rfl
@[simp] theorem Dev.out_xcP (x : Out) : (d.out x).xcP = d.xcP := rfl
@[simp] theorem Dev.out_sync (x : Out) : (d.out x).sync = d.sync := rfl
@[simp] theorem Dev.out_blocks (x : Out) : (d.out x).blocks = d.blocks := rfl
@[simp] theorem Dev.out_syncQ (x : Out) : (d.out x).syncQ = d.syncQ := rfl
@[simp] theorem Dev.out_arbs (x : Out) : (d.out x).arbs = d.arbs := rfl
@[simp] theorem Dev.out_lastIssue (x : Out) : (d.out x).lastIssue = d.lastIssue := rfl
@[simp] theorem Dev.out_splits (x : Out) : (d.out x).splits = d.splits := rfl
@[simp] theorem Dev.out_tele (x : Out) : (d.out x).tele = d.tele := rfl
@[simp] theorem Dev.out_dict (x : Out) : (d.out x).dict = d.dict := rfl
@[simp] theorem Dev.out_pert (x : Out) : (d.out x).pert = d.pert := rfl
@[simp] theorem Dev.out_wiping (x : Out) : (d.out x).wiping = d.wiping := rfl
@[simp] theorem Dev.out_stalled (x : Out) : (d.out x).stalled = d.stalled := rfl
@[simp] theorem Dev.out_fwd (x : Out) : (d.out x).fwd = d.fwd := rfl
@[simp] theorem Dev.out_latch (x : Out) : (d.out x).latch = d.latch := rfl
@[simp] theorem Dev.out_net (x : Out) : (d.out x).net = d.net := rfl
@[simp] theorem Dev.out_pow (x : Out) : (d.out x).pow = d.pow := rfl
@[simp] theorem Dev.out_integ (x : Out) : (d.out x).integ = d.integ := rfl
@[simp] theorem Dev.out_boot (x : Out) : (d.out x).boot = d.boot := rfl
@[simp] theorem Dev.out_tap (x : Out) : (d.out x).tap = d.tap := rfl
@[simp] theorem Dev.out_unlocked (x : Out) : (d.out x).unlocked = d.unlocked := rfl
@[simp] theorem Dev.out_snap (x : Out) : (d.out x).snap = d.snap := rfl
@[simp] theorem Dev.out_pmem (x : Out) : (d.out x).pmem = d.pmem := rfl
@[simp] theorem Dev.updPowP_regs (p : Nat) (f : PowP → PowP) : (d.updPowP p f).regs = d.regs := rfl
@[simp] theorem Dev.updPowP_mfg (p : Nat) (f : PowP → PowP) : (d.updPowP p f).mfg = d.mfg := rfl
@[simp] theorem Dev.updPowP_now (p : Nat) (f : PowP → PowP) : (d.updPowP p f).now = d.now := rfl
@[simp] theorem Dev.updPowP_fresh (p : Nat) (f : PowP → PowP) : (d.updPowP p f).fresh = d.fresh := rfl
@[simp] theorem Dev.updPowP_tx (p : Nat) (f : PowP → PowP) : (d.updPowP p f).tx = d.tx := rfl
@[simp] theorem Dev.updPowP_ctxs (p : Nat) (f : PowP → PowP) : (d.updPowP p f).ctxs = d.ctxs := rfl
@[simp] theorem Dev.updPowP_upds (p : Nat) (f : PowP → PowP) : (d.updPowP p f).upds = d.upds := rfl
@[simp] theorem Dev.updPowP_engs (p : Nat) (f : PowP → PowP) : (d.updPowP p f).engs = d.engs := rfl
@[simp] theorem Dev.updPowP_stks (p : Nat) (f : PowP → PowP) : (d.updPowP p f).stks = d.stks := rfl
@[simp] theorem Dev.updPowP_sites (p : Nat) (f : PowP → PowP) : (d.updPowP p f).sites = d.sites := rfl
@[simp] theorem Dev.updPowP_xcP (p : Nat) (f : PowP → PowP) : (d.updPowP p f).xcP = d.xcP := rfl
@[simp] theorem Dev.updPowP_sync (p : Nat) (f : PowP → PowP) : (d.updPowP p f).sync = d.sync := rfl
@[simp] theorem Dev.updPowP_blocks (p : Nat) (f : PowP → PowP) : (d.updPowP p f).blocks = d.blocks := rfl
@[simp] theorem Dev.updPowP_syncQ (p : Nat) (f : PowP → PowP) : (d.updPowP p f).syncQ = d.syncQ := rfl
@[simp] theorem Dev.updPowP_arbs (p : Nat) (f : PowP → PowP) : (d.updPowP p f).arbs = d.arbs := rfl
@[simp] theorem Dev.updPowP_lastIssue (p : Nat) (f : PowP → PowP) : (d.updPowP p f).lastIssue = d.lastIssue := rfl
@[simp] theorem Dev.updPowP_splits (p : Nat) (f : PowP → PowP) : (d.updPowP p f).splits = d.splits := rfl
@[simp] theorem Dev.updPowP_tele (p : Nat) (f : PowP → PowP) : (d.updPowP p f).tele = d.tele := rfl
@[simp] theorem Dev.updPowP_dict (p : Nat) (f : PowP → PowP) : (d.updPowP p f).dict = d.dict := rfl
@[simp] theorem Dev.updPowP_pert (p : Nat) (f : PowP → PowP) : (d.updPowP p f).pert = d.pert := rfl
@[simp] theorem Dev.updPowP_wiping (p : Nat) (f : PowP → PowP) : (d.updPowP p f).wiping = d.wiping := rfl
@[simp] theorem Dev.updPowP_stalled (p : Nat) (f : PowP → PowP) : (d.updPowP p f).stalled = d.stalled := rfl
@[simp] theorem Dev.updPowP_fwd (p : Nat) (f : PowP → PowP) : (d.updPowP p f).fwd = d.fwd := rfl
@[simp] theorem Dev.updPowP_latch (p : Nat) (f : PowP → PowP) : (d.updPowP p f).latch = d.latch := rfl
@[simp] theorem Dev.updPowP_net (p : Nat) (f : PowP → PowP) : (d.updPowP p f).net = d.net := rfl
@[simp] theorem Dev.updPowP_integ (p : Nat) (f : PowP → PowP) : (d.updPowP p f).integ = d.integ := rfl
@[simp] theorem Dev.updPowP_boot (p : Nat) (f : PowP → PowP) : (d.updPowP p f).boot = d.boot := rfl
@[simp] theorem Dev.updPowP_tap (p : Nat) (f : PowP → PowP) : (d.updPowP p f).tap = d.tap := rfl
@[simp] theorem Dev.updPowP_unlocked (p : Nat) (f : PowP → PowP) : (d.updPowP p f).unlocked = d.unlocked := rfl
@[simp] theorem Dev.updPowP_snap (p : Nat) (f : PowP → PowP) : (d.updPowP p f).snap = d.snap := rfl
@[simp] theorem Dev.updPowP_pmem (p : Nat) (f : PowP → PowP) : (d.updPowP p f).pmem = d.pmem := rfl
@[simp] theorem Dev.onBoot_regs (f : Boot → Boot) : (d.onBoot f).regs = d.regs := rfl
@[simp] theorem Dev.onBoot_mfg (f : Boot → Boot) : (d.onBoot f).mfg = d.mfg := rfl
@[simp] theorem Dev.onBoot_now (f : Boot → Boot) : (d.onBoot f).now = d.now := rfl
@[simp] theorem Dev.onBoot_fresh (f : Boot → Boot) : (d.onBoot f).fresh = d.fresh := rfl
@[simp] theorem Dev.onBoot_tx (f : Boot → Boot) : (d.onBoot f).tx = d.tx := rfl
@[simp] theorem Dev.onBoot_ctxs (f : Boot → Boot) : (d.onBoot f).ctxs = d.ctxs := rfl
@[simp] theorem Dev.onBoot_upds (f : Boot → Boot) : (d.onBoot f).upds = d.upds := rfl
@[simp] theorem Dev.onBoot_engs (f : Boot → Boot) : (d.onBoot f).engs = d.engs := rfl
@[simp] theorem Dev.onBoot_stks (f : Boot → Boot) : (d.onBoot f).stks = d.stks := rfl
@[simp] theorem Dev.onBoot_sites (f : Boot → Boot) : (d.onBoot f).sites = d.sites := rfl
@[simp] theorem Dev.onBoot_xcP (f : Boot → Boot) : (d.onBoot f).xcP = d.xcP := rfl
@[simp] theorem Dev.onBoot_sync (f : Boot → Boot) : (d.onBoot f).sync = d.sync := rfl
@[simp] theorem Dev.onBoot_blocks (f : Boot → Boot) : (d.onBoot f).blocks = d.blocks := rfl
@[simp] theorem Dev.onBoot_syncQ (f : Boot → Boot) : (d.onBoot f).syncQ = d.syncQ := rfl
@[simp] theorem Dev.onBoot_arbs (f : Boot → Boot) : (d.onBoot f).arbs = d.arbs := rfl
@[simp] theorem Dev.onBoot_lastIssue (f : Boot → Boot) : (d.onBoot f).lastIssue = d.lastIssue := rfl
@[simp] theorem Dev.onBoot_splits (f : Boot → Boot) : (d.onBoot f).splits = d.splits := rfl
@[simp] theorem Dev.onBoot_tele (f : Boot → Boot) : (d.onBoot f).tele = d.tele := rfl
@[simp] theorem Dev.onBoot_dict (f : Boot → Boot) : (d.onBoot f).dict = d.dict := rfl
@[simp] theorem Dev.onBoot_pert (f : Boot → Boot) : (d.onBoot f).pert = d.pert := rfl
@[simp] theorem Dev.onBoot_wiping (f : Boot → Boot) : (d.onBoot f).wiping = d.wiping := rfl
@[simp] theorem Dev.onBoot_stalled (f : Boot → Boot) : (d.onBoot f).stalled = d.stalled := rfl
@[simp] theorem Dev.onBoot_fwd (f : Boot → Boot) : (d.onBoot f).fwd = d.fwd := rfl
@[simp] theorem Dev.onBoot_latch (f : Boot → Boot) : (d.onBoot f).latch = d.latch := rfl
@[simp] theorem Dev.onBoot_net (f : Boot → Boot) : (d.onBoot f).net = d.net := rfl
@[simp] theorem Dev.onBoot_pow (f : Boot → Boot) : (d.onBoot f).pow = d.pow := rfl
@[simp] theorem Dev.onBoot_integ (f : Boot → Boot) : (d.onBoot f).integ = d.integ := rfl
@[simp] theorem Dev.onBoot_tap (f : Boot → Boot) : (d.onBoot f).tap = d.tap := rfl
@[simp] theorem Dev.onBoot_unlocked (f : Boot → Boot) : (d.onBoot f).unlocked = d.unlocked := rfl
@[simp] theorem Dev.onBoot_snap (f : Boot → Boot) : (d.onBoot f).snap = d.snap := rfl
@[simp] theorem Dev.onBoot_pmem (f : Boot → Boot) : (d.onBoot f).pmem = d.pmem := rfl
@[simp] theorem Dev.onTele_regs (f : Tele → Tele) : (d.onTele f).regs = d.regs := rfl
@[simp] theorem Dev.onTele_mfg (f : Tele → Tele) : (d.onTele f).mfg = d.mfg := rfl
@[simp] theorem Dev.onTele_now (f : Tele → Tele) : (d.onTele f).now = d.now := rfl
@[simp] theorem Dev.onTele_fresh (f : Tele → Tele) : (d.onTele f).fresh = d.fresh := rfl
@[simp] theorem Dev.onTele_tx (f : Tele → Tele) : (d.onTele f).tx = d.tx := rfl
@[simp] theorem Dev.onTele_ctxs (f : Tele → Tele) : (d.onTele f).ctxs = d.ctxs := rfl
@[simp] theorem Dev.onTele_upds (f : Tele → Tele) : (d.onTele f).upds = d.upds := rfl
@[simp] theorem Dev.onTele_engs (f : Tele → Tele) : (d.onTele f).engs = d.engs := rfl
@[simp] theorem Dev.onTele_stks (f : Tele → Tele) : (d.onTele f).stks = d.stks := rfl
@[simp] theorem Dev.onTele_sites (f : Tele → Tele) : (d.onTele f).sites = d.sites := rfl
@[simp] theorem Dev.onTele_xcP (f : Tele → Tele) : (d.onTele f).xcP = d.xcP := rfl
@[simp] theorem Dev.onTele_sync (f : Tele → Tele) : (d.onTele f).sync = d.sync := rfl
@[simp] theorem Dev.onTele_blocks (f : Tele → Tele) : (d.onTele f).blocks = d.blocks := rfl
@[simp] theorem Dev.onTele_syncQ (f : Tele → Tele) : (d.onTele f).syncQ = d.syncQ := rfl
@[simp] theorem Dev.onTele_arbs (f : Tele → Tele) : (d.onTele f).arbs = d.arbs := rfl
@[simp] theorem Dev.onTele_lastIssue (f : Tele → Tele) : (d.onTele f).lastIssue = d.lastIssue := rfl
@[simp] theorem Dev.onTele_splits (f : Tele → Tele) : (d.onTele f).splits = d.splits := rfl
@[simp] theorem Dev.onTele_dict (f : Tele → Tele) : (d.onTele f).dict = d.dict := rfl
@[simp] theorem Dev.onTele_pert (f : Tele → Tele) : (d.onTele f).pert = d.pert := rfl
@[simp] theorem Dev.onTele_wiping (f : Tele → Tele) : (d.onTele f).wiping = d.wiping := rfl
@[simp] theorem Dev.onTele_stalled (f : Tele → Tele) : (d.onTele f).stalled = d.stalled := rfl
@[simp] theorem Dev.onTele_fwd (f : Tele → Tele) : (d.onTele f).fwd = d.fwd := rfl
@[simp] theorem Dev.onTele_latch (f : Tele → Tele) : (d.onTele f).latch = d.latch := rfl
@[simp] theorem Dev.onTele_net (f : Tele → Tele) : (d.onTele f).net = d.net := rfl
@[simp] theorem Dev.onTele_pow (f : Tele → Tele) : (d.onTele f).pow = d.pow := rfl
@[simp] theorem Dev.onTele_integ (f : Tele → Tele) : (d.onTele f).integ = d.integ := rfl
@[simp] theorem Dev.onTele_boot (f : Tele → Tele) : (d.onTele f).boot = d.boot := rfl
@[simp] theorem Dev.onTele_tap (f : Tele → Tele) : (d.onTele f).tap = d.tap := rfl
@[simp] theorem Dev.onTele_unlocked (f : Tele → Tele) : (d.onTele f).unlocked = d.unlocked := rfl
@[simp] theorem Dev.onTele_snap (f : Tele → Tele) : (d.onTele f).snap = d.snap := rfl
@[simp] theorem Dev.onTele_pmem (f : Tele → Tele) : (d.onTele f).pmem = d.pmem := rfl
@[simp] theorem Dev.onTap_regs (f : Tap → Tap) : (d.onTap f).regs = d.regs := rfl
@[simp] theorem Dev.onTap_mfg (f : Tap → Tap) : (d.onTap f).mfg = d.mfg := rfl
@[simp] theorem Dev.onTap_now (f : Tap → Tap) : (d.onTap f).now = d.now := rfl
@[simp] theorem Dev.onTap_fresh (f : Tap → Tap) : (d.onTap f).fresh = d.fresh := rfl
@[simp] theorem Dev.onTap_tx (f : Tap → Tap) : (d.onTap f).tx = d.tx := rfl
@[simp] theorem Dev.onTap_ctxs (f : Tap → Tap) : (d.onTap f).ctxs = d.ctxs := rfl
@[simp] theorem Dev.onTap_upds (f : Tap → Tap) : (d.onTap f).upds = d.upds := rfl
@[simp] theorem Dev.onTap_engs (f : Tap → Tap) : (d.onTap f).engs = d.engs := rfl
@[simp] theorem Dev.onTap_stks (f : Tap → Tap) : (d.onTap f).stks = d.stks := rfl
@[simp] theorem Dev.onTap_sites (f : Tap → Tap) : (d.onTap f).sites = d.sites := rfl
@[simp] theorem Dev.onTap_xcP (f : Tap → Tap) : (d.onTap f).xcP = d.xcP := rfl
@[simp] theorem Dev.onTap_sync (f : Tap → Tap) : (d.onTap f).sync = d.sync := rfl
@[simp] theorem Dev.onTap_blocks (f : Tap → Tap) : (d.onTap f).blocks = d.blocks := rfl
@[simp] theorem Dev.onTap_syncQ (f : Tap → Tap) : (d.onTap f).syncQ = d.syncQ := rfl
@[simp] theorem Dev.onTap_arbs (f : Tap → Tap) : (d.onTap f).arbs = d.arbs := rfl
@[simp] theorem Dev.onTap_lastIssue (f : Tap → Tap) : (d.onTap f).lastIssue = d.lastIssue := rfl
@[simp] theorem Dev.onTap_splits (f : Tap → Tap) : (d.onTap f).splits = d.splits := rfl
@[simp] theorem Dev.onTap_tele (f : Tap → Tap) : (d.onTap f).tele = d.tele := rfl
@[simp] theorem Dev.onTap_dict (f : Tap → Tap) : (d.onTap f).dict = d.dict := rfl
@[simp] theorem Dev.onTap_pert (f : Tap → Tap) : (d.onTap f).pert = d.pert := rfl
@[simp] theorem Dev.onTap_wiping (f : Tap → Tap) : (d.onTap f).wiping = d.wiping := rfl
@[simp] theorem Dev.onTap_stalled (f : Tap → Tap) : (d.onTap f).stalled = d.stalled := rfl
@[simp] theorem Dev.onTap_fwd (f : Tap → Tap) : (d.onTap f).fwd = d.fwd := rfl
@[simp] theorem Dev.onTap_latch (f : Tap → Tap) : (d.onTap f).latch = d.latch := rfl
@[simp] theorem Dev.onTap_net (f : Tap → Tap) : (d.onTap f).net = d.net := rfl
@[simp] theorem Dev.onTap_pow (f : Tap → Tap) : (d.onTap f).pow = d.pow := rfl
@[simp] theorem Dev.onTap_integ (f : Tap → Tap) : (d.onTap f).integ = d.integ := rfl
@[simp] theorem Dev.onTap_boot (f : Tap → Tap) : (d.onTap f).boot = d.boot := rfl
@[simp] theorem Dev.onTap_unlocked (f : Tap → Tap) : (d.onTap f).unlocked = d.unlocked := rfl
@[simp] theorem Dev.onTap_snap (f : Tap → Tap) : (d.onTap f).snap = d.snap := rfl
@[simp] theorem Dev.onTap_pmem (f : Tap → Tap) : (d.onTap f).pmem = d.pmem := rfl
@[simp] theorem Dev.updNet_regs (f : Net → Net) : (d.updNet f).regs = d.regs := rfl
@[simp] theorem Dev.updNet_mfg (f : Net → Net) : (d.updNet f).mfg = d.mfg := rfl
@[simp] theorem Dev.updNet_now (f : Net → Net) : (d.updNet f).now = d.now := rfl
@[simp] theorem Dev.updNet_fresh (f : Net → Net) : (d.updNet f).fresh = d.fresh := rfl
@[simp] theorem Dev.updNet_tx (f : Net → Net) : (d.updNet f).tx = d.tx := rfl
@[simp] theorem Dev.updNet_ctxs (f : Net → Net) : (d.updNet f).ctxs = d.ctxs := rfl
@[simp] theorem Dev.updNet_upds (f : Net → Net) : (d.updNet f).upds = d.upds := rfl
@[simp] theorem Dev.updNet_engs (f : Net → Net) : (d.updNet f).engs = d.engs := rfl
@[simp] theorem Dev.updNet_stks (f : Net → Net) : (d.updNet f).stks = d.stks := rfl
@[simp] theorem Dev.updNet_sites (f : Net → Net) : (d.updNet f).sites = d.sites := rfl
@[simp] theorem Dev.updNet_xcP (f : Net → Net) : (d.updNet f).xcP = d.xcP := rfl
@[simp] theorem Dev.updNet_sync (f : Net → Net) : (d.updNet f).sync = d.sync := rfl
@[simp] theorem Dev.updNet_blocks (f : Net → Net) : (d.updNet f).blocks = d.blocks := rfl
@[simp] theorem Dev.updNet_syncQ (f : Net → Net) : (d.updNet f).syncQ = d.syncQ := rfl
@[simp] theorem Dev.updNet_arbs (f : Net → Net) : (d.updNet f).arbs = d.arbs := rfl
@[simp] theorem Dev.updNet_lastIssue (f : Net → Net) : (d.updNet f).lastIssue = d.lastIssue := rfl
@[simp] theorem Dev.updNet_splits (f : Net → Net) : (d.updNet f).splits = d.splits := rfl
@[simp] theorem Dev.updNet_tele (f : Net → Net) : (d.updNet f).tele = d.tele := rfl
@[simp] theorem Dev.updNet_dict (f : Net → Net) : (d.updNet f).dict = d.dict := rfl
@[simp] theorem Dev.updNet_pert (f : Net → Net) : (d.updNet f).pert = d.pert := rfl
@[simp] theorem Dev.updNet_wiping (f : Net → Net) : (d.updNet f).wiping = d.wiping := rfl
@[simp] theorem Dev.updNet_stalled (f : Net → Net) : (d.updNet f).stalled = d.stalled := rfl
@[simp] theorem Dev.updNet_fwd (f : Net → Net) : (d.updNet f).fwd = d.fwd := rfl
@[simp] theorem Dev.updNet_latch (f : Net → Net) : (d.updNet f).latch = d.latch := rfl
@[simp] theorem Dev.updNet_pow (f : Net → Net) : (d.updNet f).pow = d.pow := rfl
@[simp] theorem Dev.updNet_integ (f : Net → Net) : (d.updNet f).integ = d.integ := rfl
@[simp] theorem Dev.updNet_boot (f : Net → Net) : (d.updNet f).boot = d.boot := rfl
@[simp] theorem Dev.updNet_tap (f : Net → Net) : (d.updNet f).tap = d.tap := rfl
@[simp] theorem Dev.updNet_unlocked (f : Net → Net) : (d.updNet f).unlocked = d.unlocked := rfl
@[simp] theorem Dev.updNet_snap (f : Net → Net) : (d.updNet f).snap = d.snap := rfl
@[simp] theorem Dev.updNet_pmem (f : Net → Net) : (d.updNet f).pmem = d.pmem := rfl
@[simp] theorem Dev.updPort_regs (n : Nat) (f : Port → Port) : (d.updPort n f).regs = d.regs := rfl
@[simp] theorem Dev.updPort_mfg (n : Nat) (f : Port → Port) : (d.updPort n f).mfg = d.mfg := rfl
@[simp] theorem Dev.updPort_now (n : Nat) (f : Port → Port) : (d.updPort n f).now = d.now := rfl
@[simp] theorem Dev.updPort_fresh (n : Nat) (f : Port → Port) : (d.updPort n f).fresh = d.fresh := rfl
@[simp] theorem Dev.updPort_tx (n : Nat) (f : Port → Port) : (d.updPort n f).tx = d.tx := rfl
@[simp] theorem Dev.updPort_ctxs (n : Nat) (f : Port → Port) : (d.updPort n f).ctxs = d.ctxs := rfl
@[simp] theorem Dev.updPort_upds (n : Nat) (f : Port → Port) : (d.updPort n f).upds = d.upds := rfl
@[simp] theorem Dev.updPort_engs (n : Nat) (f : Port → Port) : (d.updPort n f).engs = d.engs := rfl
@[simp] theorem Dev.updPort_stks (n : Nat) (f : Port → Port) : (d.updPort n f).stks = d.stks := rfl
@[simp] theorem Dev.updPort_sites (n : Nat) (f : Port → Port) : (d.updPort n f).sites = d.sites := rfl
@[simp] theorem Dev.updPort_xcP (n : Nat) (f : Port → Port) : (d.updPort n f).xcP = d.xcP := rfl
@[simp] theorem Dev.updPort_sync (n : Nat) (f : Port → Port) : (d.updPort n f).sync = d.sync := rfl
@[simp] theorem Dev.updPort_blocks (n : Nat) (f : Port → Port) : (d.updPort n f).blocks = d.blocks := rfl
@[simp] theorem Dev.updPort_syncQ (n : Nat) (f : Port → Port) : (d.updPort n f).syncQ = d.syncQ := rfl
@[simp] theorem Dev.updPort_arbs (n : Nat) (f : Port → Port) : (d.updPort n f).arbs = d.arbs := rfl
@[simp] theorem Dev.updPort_lastIssue (n : Nat) (f : Port → Port) : (d.updPort n f).lastIssue = d.lastIssue := rfl
@[simp] theorem Dev.updPort_splits (n : Nat) (f : Port → Port) : (d.updPort n f).splits = d.splits := rfl
@[simp] theorem Dev.updPort_tele (n : Nat) (f : Port → Port) : (d.updPort n f).tele = d.tele := rfl
@[simp] theorem Dev.updPort_dict (n : Nat) (f : Port → Port) : (d.updPort n f).dict = d.dict := rfl
@[simp] theorem Dev.updPort_pert (n : Nat) (f : Port → Port) : (d.updPort n f).pert = d.pert := rfl
@[simp] theorem Dev.updPort_wiping (n : Nat) (f : Port → Port) : (d.updPort n f).wiping = d.wiping := rfl
@[simp] theorem Dev.updPort_stalled (n : Nat) (f : Port → Port) : (d.updPort n f).stalled = d.stalled := rfl
@[simp] theorem Dev.updPort_fwd (n : Nat) (f : Port → Port) : (d.updPort n f).fwd = d.fwd := rfl
@[simp] theorem Dev.updPort_latch (n : Nat) (f : Port → Port) : (d.updPort n f).latch = d.latch := rfl
@[simp] theorem Dev.updPort_pow (n : Nat) (f : Port → Port) : (d.updPort n f).pow = d.pow := rfl
@[simp] theorem Dev.updPort_integ (n : Nat) (f : Port → Port) : (d.updPort n f).integ = d.integ := rfl
@[simp] theorem Dev.updPort_boot (n : Nat) (f : Port → Port) : (d.updPort n f).boot = d.boot := rfl
@[simp] theorem Dev.updPort_tap (n : Nat) (f : Port → Port) : (d.updPort n f).tap = d.tap := rfl
@[simp] theorem Dev.updPort_unlocked (n : Nat) (f : Port → Port) : (d.updPort n f).unlocked = d.unlocked := rfl
@[simp] theorem Dev.updPort_snap (n : Nat) (f : Port → Port) : (d.updPort n f).snap = d.snap := rfl
@[simp] theorem Dev.updPort_pmem (n : Nat) (f : Port → Port) : (d.updPort n f).pmem = d.pmem := rfl

/-- What an update leaves at its own place. -/
@[simp] theorem Dev.out_tx (x : Out) : (d.out x).tx = d.tx ++ [x] := rfl

end Sys2Proof.Machine
end

