-- ==== Sys2Proof/Laws/Dict.lean ====
section
/-! SUPPORT. What a write of an entry with a command of its own can do, and what a write of an enable entry can do, said
once. -/
namespace Sys2Proof.Machine
open Sys2Proof

variable {s : State} {via : Via} {idx sub v : Nat} {eff : State → WR}

/-- A write that nothing hears leaves at most its mark as a dropped datagram. -/
theorem State.dictWrite_deaf (h : s.dev.deaf via = true) :
    s.dictWrite via idx sub v eff = s.onDev (fun d => d.unheard via) := by
  simp [State.dictWrite, h]

/-- A write that a check refuses answers the check's code, and has no other effect. -/
theorem State.dictWrite_refused (h : s.dev.deaf via = false) (a : s.dev.avail = true) (c : s.dev.writeCode via idx sub v ≠ 0) :
    s.dictWrite via idx sub v eff =
      s.onDev (fun d => d.sendReply via false (d.writeReply 0 idx sub (s.dev.writeCode via idx sub v))) := by
  simp [State.dictWrite, h, a, c]

/-- A write that passes has the entry's own effect, and its code is the answer. -/
theorem State.dictWrite_passed (h : s.dev.deaf via = false) (a : s.dev.avail = true) (c : s.dev.writeCode via idx sub v = 0) :
    s.dictWrite via idx sub v eff =
      (eff s).2.onDev (fun d => d.sendReply via false (d.writeReply 0 idx sub (eff s).1)) := by
  simp [State.dictWrite, h, a, c]

/-- A write that meets no delayed write of its index goes on at once. -/
theorem State.gated_free {k : State → State} (h : s.dev.busyIdx idx = false) : s.gated via idx sub v k = k s := by
  simp [State.gated, h]

/-- What a write of an enable entry can do: refuse with a code and change nothing, start a function that is OFF, begin to
stop one that is ON, or store the bit and what it latches (R675). -/
theorem State.fnWrite_cases (s : State) (r : FnRule) (idx v : Nat) :
    (∃ c, c ≠ 0 ∧ s.fnWrite r idx v = (c, s)) ∨
    (v % 2 = 1 ∧ s.dev.fn idx = 0 ∧ r.check s = 0 ∧ s.fnWrite r idx v = (0, s.fnStart r idx)) ∨
    (v % 2 = 0 ∧ s.dev.fn idx = 2 ∧ r.refuse s = 0 ∧
      s.fnWrite r idx v = (0, r.stop ((s.onDev (fun d => d.setReg idx 0x01 0)).setFn idx 3))) ∨
    (∃ l : Tbl Nat → Tbl Nat, s.fnWrite r idx v = (0, s.onDev (fun d => { d.setReg idx 0x01 (v % 2) with latch := l d.latch }))) := by
  have st : s.dev.fn idx < 4 := Nat.mod_lt _ (by decide)
  rcases Nat.mod_two_eq_zero_or_one v with hv | hv
  · simp only [State.fnWrite, hv]
    match hf : s.dev.fn idx, st with
    | 0, _ => exact .inr (.inr (.inr ⟨id, rfl⟩))
    | 1, _ => exact .inr (.inr (.inr ⟨_, rfl⟩))
    | 2, _ =>
      by_cases hc : r.refuse s = 0
      · exact .inr (.inr (.inl ⟨trivial, rfl, hc, by simp [hc]⟩))
      · exact .inl ⟨_, hc, by simp [hc]⟩
    | 3, _ => exact .inr (.inr (.inr ⟨_, rfl⟩))
  · simp only [State.fnWrite, hv]
    match hf : s.dev.fn idx, st with
    | 0, _ =>
      by_cases hc : r.check s = 0
      · exact .inr (.inl ⟨trivial, rfl, hc, by simp [hc]⟩)
      · exact .inl ⟨_, hc, by simp [hc]⟩
    | 1, _ => exact .inr (.inr (.inr ⟨id, rfl⟩))
    | 2, _ => exact .inr (.inr (.inr ⟨id, rfl⟩))
    | 3, _ => exact .inr (.inr (.inr ⟨_, rfl⟩))

end Sys2Proof.Machine
end

