-- ==== Sys2Proof/Laws/Memory.lean ====
section
/-! SUPPORT. Memory in canonical form: what a write and a zeroing of cells do to each byte, and that every operation over the
memories keeps the form. -/
namespace Sys2Proof.Machine
open Sys2Proof

/-! Lists of cells. -/

/-- The cells of a run lie in the run, and none holds 0. -/
theorem cellsOf_mem {bs : List Nat} : ∀ {a : Nat} {p : Host.Cell}, p ∈ cellsOf a bs →
    a ≤ p.1 ∧ p.1 < a + bs.length ∧ p.2 ≠ 0#8 := by
  induction bs with
  | nil => intro a p h; simp [cellsOf] at h
  | cons b t ih =>
    intro a p h
    simp only [cellsOf] at h
    split at h
    · obtain ⟨h1, h2, h3⟩ := ih h
      exact ⟨by omega, by simp only [List.length_cons]; omega, h3⟩
    · rename_i hb
      rcases List.mem_cons.mp h with h | h
      · subst h
        refine ⟨by simp, by simp, ?_⟩
        intro h0
        have := congrArg BitVec.toNat h0
        simp at this
        omega
      · obtain ⟨h1, h2, h3⟩ := ih h
        exact ⟨by omega, by simp only [List.length_cons]; omega, h3⟩

/-- The cells of a run stand in canonical form. -/
theorem cellsOf_wf {bs : List Nat} : ∀ a : Nat, cellsWf (cellsOf a bs) := by
  induction bs with
  | nil => intro a; simp [cellsOf, cellsWf]
  | cons b t ih =>
    intro a
    simp only [cellsOf]
    split
    · exact ih _
    · rename_i hb
      refine ⟨List.pairwise_cons.mpr ⟨fun q hq => ?_, (ih (a + 1)).1⟩, fun p hp => ?_⟩
      · obtain ⟨h1, h2, -⟩ := cellsOf_mem hq; simp only; omega
      · exact (cellsOf_mem (a := a) (bs := b :: t) (by simp only [cellsOf]; rw [if_neg hb]; exact hp)).2.2

/-- A part of a list in canonical form stands in it. -/
theorem cellsWf.filter {l : List Host.Cell} (h : cellsWf l) (p : Host.Cell → Bool) : cellsWf (l.filter p) :=
  ⟨h.1.filter p, fun q hq => h.2 q (List.mem_of_mem_filter hq)⟩

/-- A zeroing keeps the canonical form. -/
theorem cellsZero_wf {l : List Host.Cell} (h : cellsWf l) (a n : Nat) : cellsWf (cellsZero l a n) := h.filter _

/-- A write keeps the canonical form. -/
theorem cellsWrite_wf {l : List Host.Cell} (h : cellsWf l) (a : Nat) (bs : List Nat) : cellsWf (cellsWrite l a bs) := by
  refine ⟨?_, ?_⟩
  · unfold cellsWrite
    refine List.pairwise_append.mpr ⟨List.pairwise_append.mpr ⟨h.1.filter _, (cellsOf_wf a).1, ?_⟩, h.1.filter _, ?_⟩
    · intro p hp q hq
      obtain ⟨h1, h2, -⟩ := cellsOf_mem hq
      have hp := (List.mem_filter.mp hp).2
      simp at hp; omega
    · intro p hp q hq
      have hq := (List.mem_filter.mp hq).2
      simp at hq
      rcases List.mem_append.mp hp with hp | hp
      · have hp := (List.mem_filter.mp hp).2
        simp at hp; omega
      · obtain ⟨h1, h2, -⟩ := cellsOf_mem hp; omega
  · intro p hp
    unfold cellsWrite at hp
    rcases List.mem_append.mp hp with hp | hp
    · rcases List.mem_append.mp hp with hp | hp
      · exact h.2 p (List.mem_of_mem_filter hp)
      · exact (cellsOf_mem hp).2.2
    · exact h.2 p (List.mem_of_mem_filter hp)

/-! Bytes. -/

/-- A byte of the cells of a run. -/
theorem cellByte_cellsOf (bs : List Nat) : ∀ a k : Nat,
    cellByte (cellsOf a bs) k = if a ≤ k ∧ k < a + bs.length then bs.getD (k - a) 0 % 256 else 0 := by
  induction bs with
  | nil => intro a k; simp [cellsOf, cellByte]
  | cons b t ih =>
    intro a k
    simp only [cellsOf]
    split
    · rename_i hb
      rw [ih]
      by_cases hk : k = a
      · subst hk
        rw [if_neg (by omega), if_pos (by simp)]
        simp [hb]
      · by_cases h1 : a + 1 ≤ k ∧ k < a + 1 + t.length
        · rw [if_pos h1, if_pos (by simp only [List.length_cons]; omega)]
          obtain ⟨j, rfl⟩ : ∃ j, k = a + 1 + j := ⟨k - (a + 1), by omega⟩
          simp [show a + 1 + j - (a + 1) = j by omega, show a + 1 + j - a = j + 1 by omega]
        · rw [if_neg h1, if_neg (by simp only [List.length_cons]; omega)]
    · rename_i hb
      by_cases hk : k = a
      · subst hk
        simp [cellByte]
      · have : cellByte ((a, BitVec.ofNat 8 b) :: cellsOf (a + 1) t) k = cellByte (cellsOf (a + 1) t) k := by
          simp [cellByte, Ne.symm hk]
        rw [this, ih]
        by_cases h1 : a + 1 ≤ k ∧ k < a + 1 + t.length
        · rw [if_pos h1, if_pos (by simp only [List.length_cons]; omega)]
          obtain ⟨j, rfl⟩ : ∃ j, k = a + 1 + j := ⟨k - (a + 1), by omega⟩
          simp [show a + 1 + j - (a + 1) = j by omega, show a + 1 + j - a = j + 1 by omega]
        · rw [if_neg h1, if_neg (by simp only [List.length_cons]; omega)]

/-- A byte of two lists, the first with no cell at its address. -/
theorem cellByte_append_right {l m : List Host.Cell} {k : Nat} (h : ∀ p ∈ l, p.1 ≠ k) : cellByte (l ++ m) k = cellByte m k := by
  have : l.find? (fun p => decide (p.1 = k)) = none := List.find?_eq_none.mpr (fun p hp => by simp [h p hp])
  simp [cellByte, List.find?_append, this]

/-- A byte of two lists, the second with no cell at its address. -/
theorem cellByte_append_left {l m : List Host.Cell} {k : Nat} (h : ∀ p ∈ m, p.1 ≠ k) : cellByte (l ++ m) k = cellByte l k := by
  have : m.find? (fun p => decide (p.1 = k)) = none := List.find?_eq_none.mpr (fun p hp => by simp [h p hp])
  simp [cellByte, List.find?_append, this]

/-- A byte of a part of a list, at an address that the part keeps or drops as a whole. -/
theorem cellByte_filter (l : List Host.Cell) (f : Nat → Bool) (k : Nat) :
    cellByte (l.filter (fun p => f p.1)) k = if f k then cellByte l k else 0 := by
  induction l with
  | nil => simp [cellByte]
  | cons p t ih =>
    obtain ⟨i, b⟩ := p
    simp only [List.filter_cons]
    by_cases hi : i = k
    · subst hi
      by_cases hf : f i
      · simp [hf, cellByte]
      · simp only [hf, Bool.false_eq_true, if_false] at ih ⊢
        exact ih
    · have h1 : cellByte ((i, b) :: t) k = cellByte t k := by simp [cellByte, hi]
      rw [h1, ← ih]
      by_cases hf : f i
      · simp [hf, cellByte, hi]
      · simp [hf]

/-- Every byte after a zeroing. -/
theorem cellByte_cellsZero (l : List Host.Cell) (a n k : Nat) :
    cellByte (cellsZero l a n) k = if k < a ∨ a + n ≤ k then cellByte l k else 0 := by
  unfold cellsZero
  rw [cellByte_filter l (fun i => decide (i < a) || decide (a + n ≤ i)) k]
  simp

/-- Every byte after a write. -/
theorem cellByte_cellsWrite (l : List Host.Cell) (a : Nat) (bs : List Nat) (k : Nat) :
    cellByte (cellsWrite l a bs) k =
      if a ≤ k ∧ k < a + bs.length then bs.getD (k - a) 0 % 256 else cellByte l k := by
  have hl := cellByte_filter l (fun i => decide (i < a)) k
  have hr := cellByte_filter l (fun i => decide (a + bs.length ≤ i)) k
  have low : ∀ p ∈ l.filter (fun p => decide (p.1 < a)), p.1 < a := fun p hp => by
    simpa using (List.mem_filter.mp hp).2
  have high : ∀ p ∈ l.filter (fun p => decide (a + bs.length ≤ p.1)), a + bs.length ≤ p.1 := fun p hp => by
    simpa using (List.mem_filter.mp hp).2
  have mid : ∀ p ∈ cellsOf a bs, a ≤ p.1 ∧ p.1 < a + bs.length := fun p hp => ⟨(cellsOf_mem hp).1, (cellsOf_mem hp).2.1⟩
  unfold cellsWrite
  by_cases h1 : k < a
  · rw [cellByte_append_left (fun p hp => by have := high p hp; omega),
      cellByte_append_left (fun p hp => by have := mid p hp; omega), hl, if_neg (show ¬(a ≤ k ∧ k < a + bs.length) by omega)]
    simp [h1]
  · by_cases h2 : k < a + bs.length
    · rw [cellByte_append_left (fun p hp => by have := high p hp; omega),
        cellByte_append_right (fun p hp => by have := low p hp; omega), cellByte_cellsOf,
        if_pos ⟨by omega, h2⟩, if_pos ⟨by omega, h2⟩]
    · rw [cellByte_append_right (fun p hp => ?_), hr, if_neg (show ¬(a ≤ k ∧ k < a + bs.length) by omega)]
      · simp [Nat.le_of_not_lt h2]
      · rcases List.mem_append.mp hp with hp | hp
        · have := low p hp; omega
        · have := mid p hp; omega

/-! The memories. -/

/-- The memories at a reset stand in canonical form. -/
theorem Store.reset_wf : Store.reset.wf := by decide

/-- The reset state's memories stand in canonical form. -/
theorem State.reset_mem_wf : State.reset.mem.wf := Store.reset_wf

theorem Store.corrupt_wf {m : Store} (h : m.wf) (line : Nat) (e : List (Nat × Nat)) : (m.corrupt line e).wf := h

theorem Store.flipWord_wf {m : Store} (h : m.wf) (word flips : Nat) : (m.flipWord word flips).wf := h

theorem Store.upsetWords_wf {m : Store} (h : m.wf) (e bank : Nat) (u : List (Nat × Nat)) : (m.upsetWords e bank u).wf := by
  unfold Store.upsetWords
  induction u generalizing m with
  | nil => exact h
  | cons a t ih => exact ih (m.flipWord_wf h _ _)

theorem Store.zeroSpad_wf {m : Store} (h : m.wf) (e off n : Nat) : (m.zeroSpad e off n).wf :=
  ⟨h.1, cellsZero_wf h.2 _ _⟩

theorem Store.zeroSlab_wf {m : Store} (h : m.wf) (s i : Nat) : (m.zeroSlab s i).wf :=
  ⟨cellsZero_wf h.1 _ _, h.2⟩

/-- A computation keeps the canonical form of the memories. -/
def Mm.Keeps {α : Type} (m : Mm α) : Prop := ∀ w : Wd, w.mem.wf → (m w).2.mem.wf

/-- A computation that may fail keeps the canonical form of the memories, whether it fails or not. -/
def Act.Keeps {α : Type} (a : Act α) : Prop := ∀ w : Wd, w.mem.wf → (a w).2.mem.wf

theorem Mm.Keeps.pure {α : Type} (x : α) : Mm.Keeps (Pure.pure x : Mm α) := fun _ h => h

theorem Mm.Keeps.bind {α β : Type} {m : Mm α} {f : α → Mm β} (hm : m.Keeps) (hf : ∀ x, (f x).Keeps) : Mm.Keeps (m >>= f) :=
  fun w h => hf _ _ (hm w h)

theorem Mm.Keeps.get : Mm.Keeps (MonadState.get : Mm Wd) := fun _ h => h

theorem Mm.Keeps.modify {f : Wd → Wd} (hf : ∀ w : Wd, w.mem.wf → (f w).mem.wf) : Mm.Keeps (modify f : Mm Unit) :=
  fun w h => hf w h

theorem Mm.Keeps.upd (f : Dev → Dev) : Mm.Keeps (Mm.upd f) := fun _ h => h

/-- A loop keeps the form when its body does. -/
theorem Mm.Keeps.forIn {α β : Type} (l : List α) {f : α → β → Mm (ForInStep β)} (hf : ∀ a b, (f a b).Keeps) :
    ∀ b : β, Mm.Keeps (ForIn.forIn l b f) := by
  induction l with
  | nil => intro b; simpa using Mm.Keeps.pure b
  | cons a t ih =>
    intro b
    rw [List.forIn_cons]
    refine Mm.Keeps.bind (hf a b) (fun x => ?_)
    cases x with
    | done b => exact Mm.Keeps.pure b
    | yield b => exact ih b

/-- A read of a line keeps the form. -/
theorem lineRead_keeps (s off input : Nat) (ctx : Option Nat) : Mm.Keeps (lineRead s off input ctx) := by
  intro w h
  unfold lineRead
  simp only
  generalize hm : @ite Store (_ = true) (instDecidableEqBool _ true) w.mem _ = m
  have hw : m.wf := by rw [← hm]; split <;> exact h
  split
  · exact hw
  · split
    · exact hw
    · split
      · exact hw
      · split
        · exact ⟨cellsWrite_wf hw.1 _ _, hw.2⟩
        · split
          · exact hw
          · exact ⟨cellsWrite_wf hw.1 _ _, hw.2⟩

/-- A read of bytes of a stack keeps the form. -/
theorem hbmGetAt_keeps (s off n input : Nat) (ctx : Option Nat) : Mm.Keeps (hbmGetAt s off n input ctx) := by
  unfold hbmGetAt
  refine Mm.Keeps.bind Mm.Keeps.get (fun w => Mm.Keeps.bind (Mm.Keeps.forIn _ (fun a b => ?_) _) (fun b => ?_))
  · refine Mm.Keeps.bind (lineRead_keeps _ _ _ _) (fun ok => ?_)
    split <;> exact Mm.Keeps.pure _
  · exact Mm.Keeps.bind Mm.Keeps.get (fun w => Mm.Keeps.pure _)

theorem hbmGet_keeps (s off n input : Nat) (ctx : Option Nat) : Mm.Keeps (hbmGet s off n input ctx) :=
  Mm.Keeps.bind (hbmGetAt_keeps s off n input ctx) (fun _ => Mm.Keeps.pure _)

/-- A write of bytes of a stack keeps the form. -/
theorem hbmPut_keeps (s off : Nat) (bs : List Nat) (input : Nat) (ctx : Option Nat) : Mm.Keeps (hbmPut s off bs input ctx) := by
  unfold hbmPut
  refine Mm.Keeps.bind Mm.Keeps.get (fun w => Mm.Keeps.bind (Mm.Keeps.forIn _ (fun a b => ?_) _) (fun b => ?_))
  · simp only
    split
    · exact Mm.Keeps.bind (Mm.Keeps.modify (fun w h => h)) (fun _ => Mm.Keeps.pure _)
    · refine Mm.Keeps.bind (lineRead_keeps _ _ _ _) (fun ok => ?_)
      split
      · exact Mm.Keeps.bind (Mm.Keeps.modify (fun w h => h)) (fun _ => Mm.Keeps.pure _)
      · exact Mm.Keeps.pure _
  · refine Mm.Keeps.bind Mm.Keeps.get (fun w => Mm.Keeps.bind (Mm.Keeps.modify (fun w h => ?_)) (fun _ => ?_))
    · exact ⟨cellsWrite_wf h.1 _ _, h.2⟩
    · exact Mm.Keeps.bind (Mm.Keeps.upd _) (fun _ => Mm.Keeps.pure _)

/-- A read of a word keeps the form. -/
theorem wordRead_keeps (e off port : Nat) : Mm.Keeps (wordRead e off port) := by
  intro w h
  unfold wordRead
  simp only
  split
  · exact h
  · split
    · exact h
    · split
      · exact h
      · split
        · exact h
        · exact ⟨h.1, cellsWrite_wf h.2 _ _⟩

/-- A fold whose step keeps a property keeps it. -/
theorem foldl_keeps {α β : Type} (P : β → Prop) {f : β → α → β} (hf : ∀ b a, P b → P (f b a)) (l : List α) :
    ∀ b, P b → P (l.foldl f b) := by
  induction l with
  | nil => intro b h; exact h
  | cons a t ih => intro b h; exact ih _ (hf b a h)

/-- Injected errors keep the form. -/
theorem spadPerturb_keeps (e off n : Nat) : Mm.Keeps (spadPerturb e off n) := by
  intro w h
  unfold spadPerturb
  split
  · exact h
  · refine foldl_keeps (fun w : Wd => w.mem.wf) (fun w i hw => ?_) _ _ h
    show Store.wf (Wd.mem (List.foldl _ _ _))
    refine foldl_keeps (fun w : Wd => w.mem.wf) (fun w m hw => ?_) _ _ hw
    exact hw

/-- A read of bytes of a scratchpad keeps the form. -/
theorem spadGet_keeps (e off n port : Nat) : Mm.Keeps (spadGet e off n port) := by
  unfold spadGet
  refine Mm.Keeps.bind (spadPerturb_keeps _ _ _) (fun _ => Mm.Keeps.bind Mm.Keeps.get (fun w =>
    Mm.Keeps.bind (Mm.Keeps.forIn _ (fun a b => ?_) _) (fun b => ?_)))
  · refine Mm.Keeps.bind (wordRead_keeps _ _ _) (fun ok => ?_)
    split <;> exact Mm.Keeps.pure _
  · exact Mm.Keeps.bind Mm.Keeps.get (fun w => Mm.Keeps.pure _)

/-- A write of bytes of a scratchpad keeps the form. -/
theorem spadPut_keeps (e off : Nat) (bs : List Nat) (port : Nat) : Mm.Keeps (spadPut e off bs port) := by
  unfold spadPut
  refine Mm.Keeps.bind Mm.Keeps.get (fun w => Mm.Keeps.bind (Mm.Keeps.forIn _ (fun a b => ?_) _) (fun b => ?_))
  · simp only
    split
    · refine Mm.Keeps.bind (Mm.Keeps.pure _) (fun ok => ?_)
      split
      · exact Mm.Keeps.bind (Mm.Keeps.modify (fun w h => h)) (fun _ => Mm.Keeps.pure _)
      · exact Mm.Keeps.pure _
    · refine Mm.Keeps.bind (wordRead_keeps _ _ _) (fun ok => ?_)
      split
      · exact Mm.Keeps.bind (Mm.Keeps.modify (fun w h => h)) (fun _ => Mm.Keeps.pure _)
      · exact Mm.Keeps.pure _
  · refine Mm.Keeps.bind Mm.Keeps.get (fun w => Mm.Keeps.bind (Mm.Keeps.modify (fun w h => ?_))
      (fun _ => Mm.Keeps.bind (Mm.Keeps.upd _) (fun _ => Mm.Keeps.pure _)))
    exact ⟨h.1, cellsWrite_wf h.2 _ _⟩

/-! Computations that may fail. -/

theorem Act.Keeps.pure {α : Type} (x : α) : Act.Keeps (Pure.pure x : Act α) := fun _ h => h

theorem Act.Keeps.fail {α : Type} (f : Fail) : Act.Keeps (Act.fail f : Act α) := fun _ h => h

theorem Act.Keeps.fail2 {α : Type} (c : Nat) : Act.Keeps (Act.fail2 c : Act α) := fun _ h => h

theorem Act.Keeps.refuse {α : Type} (c : Nat) : Act.Keeps (Act.refuse c : Act α) := fun _ h => h

theorem Act.Keeps.poisoned {α : Type} : Act.Keeps (Act.poisoned : Act α) := fun _ h => h

theorem Act.Keeps.dev : Act.Keeps Act.dev := fun _ h => h

theorem Act.Keeps.upd (f : Dev → Dev) : Act.Keeps (Act.upd f) := fun _ h => h

theorem Mm.Keeps.act {α : Type} {m : Mm α} (h : m.Keeps) : Act.Keeps m.act := fun w hw => h w hw

theorem Act.Keeps.bind {α β : Type} {a : Act α} {f : α → Act β} (ha : a.Keeps) (hf : ∀ x, (f x).Keeps) :
    Act.Keeps (a >>= f) := by
  intro w h
  have h1 := ha w h
  change Store.wf (ExceptT.bind a f w).2.mem
  unfold ExceptT.bind ExceptT.mk
  change Store.wf (((ExceptT.bindCont f) (a w).1) (a w).2).2.mem
  cases hr : (a w).1 with
  | ok x => exact hf x _ h1
  | error e => exact h1

/-- A choice of two computations keeps the form when both do. -/
theorem Act.Keeps.ite {α : Type} {c : Prop} [Decidable c] {a b : Act α} (ha : a.Keeps) (hb : b.Keeps) :
    Act.Keeps (if c then a else b) := by split <;> assumption

/-- A loop keeps the form when its body does. -/
theorem Act.Keeps.forIn {α β : Type} (l : List α) {f : α → β → Act (ForInStep β)} (hf : ∀ a b, (f a b).Keeps) :
    ∀ b : β, Act.Keeps (ForIn.forIn l b f) := by
  induction l with
  | nil => intro b; simpa using Act.Keeps.pure b
  | cons a t ih =>
    intro b
    rw [List.forIn_cons]
    refine Act.Keeps.bind (hf a b) (fun x => ?_)
    cases x with
    | done b => exact Act.Keeps.pure b
    | yield b => exact ih b

theorem xlatFail_keeps {α : Type} (u : Using) (va code : Nat) : Act.Keeps (xlatFail u va code : Act α) := fun _ h => h

theorem nodeRead_keeps (u : Using) (dpa : Nat) : Act.Keeps (nodeRead u dpa) := by
  unfold nodeRead
  split
  · exact Act.Keeps.pure _
  · refine Act.Keeps.bind (hbmGet_keeps _ _ _ _ _).act (fun q => ?_)
    obtain ⟨bs, bad⟩ := q
    simp only
    split
    · exact Act.Keeps.bind Act.Keeps.poisoned (fun _ => Act.Keeps.pure _)
    · exact Act.Keeps.pure _

/-- A walk keeps the form. -/
theorem walkFrom_keeps (u : Using) (va : Nat) : ∀ fuel node : Nat, Act.Keeps (walkFrom u va fuel node) := by
  intro fuel
  induction fuel with
  | zero => intro node; exact Act.Keeps.fail2 _
  | succ n ih =>
    intro node
    unfold walkFrom
    refine Act.Keeps.bind (nodeRead_keeps _ _) (fun e => ?_)
    simp only
    repeat' first
      | with_reducible exact Act.Keeps.pure _
      | with_reducible exact xlatFail_keeps _ _ _
      | with_reducible exact ih _
      | with_reducible exact Act.Keeps.dev
      | with_reducible refine Act.Keeps.ite ?_ ?_
      | split
      | with_reducible refine Act.Keeps.bind ?_ (fun _ => ?_)

/-- A walk through a context's tables keeps the form. -/
theorem walk_keeps (u : Using) (va : Nat) : Act.Keeps (walk u va) := by
  unfold walk
  refine Act.Keeps.bind Act.Keeps.dev (fun d => ?_)
  simp only
  repeat' first
    | with_reducible exact Act.Keeps.pure _
    | with_reducible exact xlatFail_keeps _ _ _
    | with_reducible exact walkFrom_keeps _ _ _ _
    | with_reducible refine Act.Keeps.ite ?_ ?_
    | split
    | with_reducible refine Act.Keeps.bind ?_ (fun _ => ?_)

/-- Finding a leaf keeps the form. -/
theorem leafOf_keeps (u : Using) (va : Nat) : Act.Keeps (leafOf u va) := by
  unfold leafOf
  refine Act.Keeps.bind Act.Keeps.dev (fun d => ?_)
  repeat' first
    | with_reducible exact Act.Keeps.pure _
    | with_reducible exact Act.Keeps.upd _
    | with_reducible exact walk_keeps _ _
    | with_reducible refine Act.Keeps.ite ?_ ?_
    | split
    | with_reducible refine Act.Keeps.bind ?_ (fun _ => ?_)

/-- A translation keeps the form. -/
theorem translate_keeps (u : Using) (va : Nat) (write : Bool) : Act.Keeps (translate u va write) := by
  unfold translate
  refine Act.Keeps.bind (leafOf_keeps _ _) (fun x => Act.Keeps.bind Act.Keeps.dev (fun d => ?_))
  extract_lets al e page j5 j4 j3 j2 js dpa j1 j0
  have h5 : ∀ r, (j5 r).Keeps := fun _ => Act.Keeps.pure _
  have h4 : ∀ r, (j4 r).Keeps := fun _ => by
    simp only [j4]
    split
    · exact Act.Keeps.ite (Act.Keeps.bind (Act.Keeps.fail2 _) h5) (h5 ())
    · exact h5 ()
  have h3 : ∀ r, (j3 r).Keeps := fun _ => Act.Keeps.ite (Act.Keeps.bind (xlatFail_keeps _ _ _) h4) (h4 ())
  have h2 : ∀ r, (j2 r).Keeps := fun _ => Act.Keeps.ite (Act.Keeps.bind (xlatFail_keeps _ _ _) h3) (h3 ())
  have h1 : ∀ r, (j1 r).Keeps := fun _ => by
    simp only [j1]
    split
    · exact xlatFail_keeps _ _ _
    · repeat' first
        | with_reducible exact Act.Keeps.pure _
        | with_reducible exact xlatFail_keeps _ _ _
        | with_reducible exact Act.Keeps.fail2 _
        | with_reducible refine Act.Keeps.ite ?_ ?_
        | with_reducible refine Act.Keeps.bind ?_ (fun _ => ?_)
        | split
  have hs : ∀ r, (js r).Keeps := fun _ => by
    simp only [js]
    split
    · exact Act.Keeps.bind (xlatFail_keeps _ _ _) h2
    · exact h2 ()
  have h0 : ∀ r, (j0 r).Keeps := fun _ => by
    simp only [j0]
    refine Act.Keeps.ite ?_ ?_
    · exact Act.Keeps.ite (Act.Keeps.bind (Act.Keeps.fail _) hs) (hs ())
    · split
      · exact Act.Keeps.bind (xlatFail_keeps _ _ _) h1
      · exact h1 ()
  exact Act.Keeps.ite (Act.Keeps.bind (xlatFail_keeps _ _ _) h0) (h0 ())

/-- Locating a range keeps the form. -/
theorem pieces_keeps (u : Using) (write : Bool) : ∀ fuel va n : Nat, Act.Keeps (pieces u write fuel va n) := by
  intro fuel
  induction fuel with
  | zero => intro va n; exact Act.Keeps.pure _
  | succ k ih =>
    intro va n
    unfold pieces
    split
    · exact Act.Keeps.pure _
    · exact Act.Keeps.bind (translate_keeps _ _ _) (fun _ => Act.Keeps.bind (ih _ _) (fun _ => Act.Keeps.pure _))

/-- A write of located pieces keeps the form. -/
theorem writePieces_keeps (u : Using) (ps : List (Phys × Nat)) :
    ∀ (bs : List Nat) (bad : Bool), Act.Keeps (writePieces u ps bs bad) := by
  induction ps with
  | nil => intro bs bad; exact Act.Keeps.pure _
  | cons p t ih =>
    intro bs bad
    obtain ⟨p, k⟩ := p
    unfold writePieces
    refine Act.Keeps.bind (Act.Keeps.upd _) (fun _ => Act.Keeps.bind (Mm.Keeps.act ?_) (fun b => ih _ _))
    cases p with
    | hbm s off => exact hbmPut_keeps _ _ _ _ _
    | spad e off => exact spadPut_keeps _ _ _ _

/-- A read of located pieces keeps the form. -/
theorem readPieces_keeps (u : Using) (ps : List (Phys × Nat)) : Act.Keeps (readPieces u ps) := by
  unfold readPieces
  refine Act.Keeps.bind (Act.Keeps.forIn _ (fun a b => ?_) _) (fun r => ?_)
  · obtain ⟨p, k⟩ := a
    refine Act.Keeps.bind (Act.Keeps.upd _) (fun _ => Act.Keeps.bind (Mm.Keeps.act ?_) (fun q => Act.Keeps.pure _))
    cases p with
    | hbm s off => exact hbmGet_keeps _ _ _ _ _
    | spad e off => exact spadGet_keeps _ _ _ _
  · simp only
    split
    · exact Act.Keeps.bind Act.Keeps.poisoned (fun _ => Act.Keeps.pure _)
    · exact Act.Keeps.pure _

/-- A read at an address of a context keeps the form. -/
theorem vread_keeps (u : Using) (va n : Nat) : Act.Keeps (vread u va n) :=
  Act.Keeps.bind (pieces_keeps _ _ _ _ _) (fun _ => readPieces_keeps _ _)

/-- A write at an address of a context keeps the form. -/
theorem vwrite_keeps (u : Using) (va : Nat) (bs : List Nat) : Act.Keeps (vwrite u va bs) := by
  unfold vwrite
  refine Act.Keeps.bind (pieces_keeps _ _ _ _ _) (fun _ => Act.Keeps.bind (writePieces_keeps _ _ _ _) (fun b => ?_))
  split
  · exact Act.Keeps.poisoned
  · exact Act.Keeps.pure _

/-- A state after a computation that keeps the form stands in it. -/
theorem State.runMm_wf {α : Type} {m : Mm α} (hm : m.Keeps) {s : State} (h : s.mem.wf) : (s.runMm m).2.mem.wf := hm _ h

theorem State.runAct_wf {α : Type} {a : Act α} (ha : a.Keeps) {s : State} (h : s.mem.wf) : (s.runAct a).2.mem.wf := ha _ h

end Sys2Proof.Machine
end

