-- ==== Sys2Proof/Laws/Tables.lean ====
section
/-! SUPPORT. What the keyed tables and the list update do, said once. -/
namespace Sys2Proof

variable {α : Type}

/-- The second of two writes of one entry stands. -/
@[simp] theorem Tbl.put_put (k : Nat) (a b : α) (t : Tbl α) : Tbl.put k b (Tbl.put k a t) = Tbl.put k b t := by
  induction t with
  | nil => simp [Tbl.put]
  | cons p t ih =>
    obtain ⟨j, v⟩ := p
    by_cases h1 : k < j
    · simp [Tbl.put, h1]
    · by_cases h2 : k = j
      · simp [Tbl.put, h2]
      · simp [Tbl.put, h1, h2, ih]

/-- Two changes of one entry are one change. -/
@[simp] theorem Tbl.upd_upd (d : α) (k : Nat) (f g : α → α) (t : Tbl α) :
    Tbl.upd d k g (Tbl.upd d k f t) = Tbl.upd d k (fun x => g (f x)) t := by
  simp [Tbl.upd]

@[simp] theorem Tbl.look_upd_self (d : α) (k : Nat) (f : α → α) (t : Tbl α) :
    Tbl.look d k (Tbl.upd d k f t) = f (Tbl.look d k t) := by simp [Tbl.upd]

theorem Tbl.look_upd_ne (d : α) {k j : Nat} (h : j ≠ k) (f : α → α) (t : Tbl α) :
    Tbl.look d j (Tbl.upd d k f t) = Tbl.look d j t := by simp [Tbl.upd, Tbl.look_put_ne d h]

/-- A removed key is not listed. -/
theorem Tbl.look?_del_self (k : Nat) (t : Tbl α) : Tbl.look? k (Tbl.del k t) = none := by
  induction t with
  | nil => rfl
  | cons p t ih =>
    obtain ⟨j, v⟩ := p
    by_cases h : j = k
    · simpa [Tbl.del, h] using ih
    · simpa [Tbl.del, h, Tbl.look?] using ih

/-- The removal of one key leaves every other one. -/
theorem Tbl.look?_del_ne {k j : Nat} (h : j ≠ k) (t : Tbl α) : Tbl.look? j (Tbl.del k t) = Tbl.look? j t := by
  induction t with
  | nil => rfl
  | cons p t ih =>
    obtain ⟨i, v⟩ := p
    by_cases hi : i = k
    · subst hi
      simpa [Tbl.del, Tbl.look?, Ne.symm h] using ih
    · by_cases hj : i = j
      · simp [Tbl.del, hi, hj, Tbl.look?, h]
      · simpa [Tbl.del, hi, hj, Tbl.look?] using ih

@[simp] theorem setAt_length (l : List α) (i : Nat) (v : α) : (setAt l i v).length = l.length := by
  induction l generalizing i with
  | nil => rfl
  | cons a t ih => cases i with
    | zero => rfl
    | succ n => simp [setAt, ih]

@[simp] theorem setAt_setAt (l : List α) (i : Nat) (a b : α) : setAt (setAt l i a) i b = setAt l i b := by
  induction l generalizing i with
  | nil => rfl
  | cons x t ih => cases i with
    | zero => rfl
    | succ n => simp [setAt, ih]

theorem setAt_getD_self {l : List α} {i : Nat} (h : i < l.length) (v d : α) : (setAt l i v).getD i d = v := by
  induction l generalizing i with
  | nil => simp at h
  | cons x t ih => cases i with
    | zero => rfl
    | succ n => simpa [setAt] using ih (by simpa using h)

theorem setAt_getD_ne (l : List α) {i j : Nat} (h : j ≠ i) (v d : α) : (setAt l i v).getD j d = l.getD j d := by
  induction l generalizing i j with
  | nil => rfl
  | cons x t ih => cases i with
    | zero => cases j with
      | zero => exact absurd rfl h
      | succ m => rfl
    | succ n => cases j with
      | zero => rfl
      | succ m => simpa [setAt] using ih (by simpa using h)

end Sys2Proof
end

