-- ==== Sys2Proof/Laws/Ops.lean ====
section
/-! SUPPORT. What each shared operation over registers, units, events and streams can do, said once. -/
namespace Sys2Proof.Machine
open Sys2Proof

variable (d : Dev)

/-! Registers. -/

/-- Two places of the dictionary with sub-indices of a byte have different keys. -/
theorem ekey_inj {i j a b : Nat} (ha : a < 256) (hb : b < 256) (h : ekey i a = ekey j b) : i = j ∧ a = b := by
  unfold ekey at h; omega

@[simp] theorem Dev.reg_setReg_self (i a v : Nat) : (d.setReg i a v).reg i a = v := by
  simp [Dev.reg, Dev.setReg, Tbl.look?_put_self]

theorem Dev.reg_setReg_ne {i a j b : Nat} (h : ekey j b ≠ ekey i a) (v : Nat) : (d.setReg i a v).reg j b = d.reg j b := by
  simp [Dev.reg, Dev.setReg, Tbl.look?_put_ne h]

@[simp] theorem Dev.reg_addReg_self (i a n : Nat) : (d.addReg i a n).reg i a = (d.reg i a + n) % two64 := by
  simp [Dev.addReg]

theorem Dev.reg_addReg_ne {i a j b : Nat} (h : ekey j b ≠ ekey i a) (n : Nat) : (d.addReg i a n).reg j b = d.reg j b := by
  simp [Dev.addReg, Dev.reg_setReg_ne d h]

/-- The value of an entry depends on the listed values and the manufacture record only. -/
theorem Dev.reg_congr {d e : Dev} (hr : e.regs = d.regs) (hm : e.mfg = d.mfg) (i a : Nat) : e.reg i a = d.reg i a := by
  simp [Dev.reg, hr, hm]

/-! Units. -/

@[simp] theorem Dev.ctx_updCtx_self (c : Nat) (f : Ctx → Ctx) : (d.updCtx c f).ctx c = f (d.ctx c) := by
  simp [Dev.ctx, Dev.updCtx]

theorem Dev.ctx_updCtx_ne {c b : Nat} (h : b ≠ c) (f : Ctx → Ctx) : (d.updCtx c f).ctx b = d.ctx b := by
  simp [Dev.ctx, Dev.updCtx, Tbl.look_upd_ne _ h]

@[simp] theorem Dev.updCtx_updCtx (c : Nat) (f g : Ctx → Ctx) :
    (d.updCtx c f).updCtx c g = d.updCtx c (fun x => g (f x)) := by
  simp [Dev.updCtx]

@[simp] theorem Dev.eng_updEng_self (e : Nat) (f : Eng → Eng) : (d.updEng e f).eng e = f (d.eng e) := by
  simp [Dev.eng, Dev.updEng]

theorem Dev.eng_updEng_ne {e b : Nat} (h : b ≠ e) (f : Eng → Eng) : (d.updEng e f).eng b = d.eng b := by
  simp [Dev.eng, Dev.updEng, Tbl.look_upd_ne _ h]

@[simp] theorem Dev.stk_updStk_self (e : Nat) (f : Stk → Stk) : (d.updStk e f).stk e = f (d.stk e) := by
  simp [Dev.stk, Dev.updStk]

theorem Dev.stk_updStk_ne {e b : Nat} (h : b ≠ e) (f : Stk → Stk) : (d.updStk e f).stk b = d.stk b := by
  simp [Dev.stk, Dev.updStk, Tbl.look_upd_ne _ h]

@[simp] theorem Dev.upd_updUpd_self (c : Nat) (f : Upd → Upd) : (d.updUpd c f).upd c = f (d.upd c) := by
  simp [Dev.upd, Dev.updUpd]

@[simp] theorem Dev.site_updSite_self (h : Nat) (f : Site → Site) : (d.updSite h f).site h = f (d.site h) := by
  simp [Dev.site, Dev.updSite, Tbl.look, Tbl.look?_put_self]

theorem Dev.site_updSite_ne {h g : Nat} (n : g ≠ h) (f : Site → Site) : (d.updSite h f).site g = d.site g := by
  simp only [Dev.site, Dev.updSite]
  rw [Tbl.look_put_ne _ n]
  rfl

/-- A stream that exists, changed. -/
theorem Dev.stream_updStream_self {c i : Nat} (h : i < (d.ctx c).streams.length) (f : Stream → Stream) :
    (d.updStream c i f).stream c i = f (d.stream c i) := by
  unfold Dev.stream Dev.updStream
  rw [Dev.ctx_updCtx_self]
  exact setAt_getD_self h _ _

/-- Two changes of one stream that exists are one change. -/
theorem Dev.updStream_updStream {c i : Nat} (h : i < (d.ctx c).streams.length) (f g : Stream → Stream) :
    (d.updStream c i f).updStream c i g = d.updStream c i (fun x => g (f x)) := by
  unfold Dev.updStream Dev.updCtx
  simp only [Tbl.upd_upd]
  simp only [Tbl.upd]
  have : (Tbl.look Ctx.reset c d.ctxs).streams.length = (d.ctx c).streams.length := rfl
  rw [setAt_getD_self (by rw [this]; exact h)]
  simp

/-! Events: what raising one can change. -/

/-- Is a place one of the counts that an event can advance: of a ring (0x4800+h:0C to 0E) or of the log (0x5C00:20)? -/
def eventPlace (i a : Nat) : Bool := (0x4800 ≤ i && (a == 0x0C || a == 0x0D || a == 0x0E)) || (i == 0x5C00 && a == 0x20)

/-- A site without the fields that an event writes: its ring, its summary, its staged event, its interrupts. -/
def Site.quiet (x : Site) : Site :=
  { x with producer := 0, overflow := false, lost := 0, lostFlag := 0, lostDetached := 0, summary := 0, summaryDirty := false,
           staged := none, firstUnraised := none, vec0Hold := false, pendingBits := 0 }

/-- `e` is `d` but for what an event writes: counts of rings and log, the sites, what left the part, the log. -/
def EventOf (d e : Dev) : Prop :=
  e = { d with regs := e.regs, sites := e.sites, tx := e.tx, tele := e.tele } ∧ (∀ h, (e.site h).quiet = (d.site h).quiet) ∧
    ∀ i a, a < 256 → eventPlace i a = false → e.reg i a = d.reg i a

theorem EventOf.refl (d : Dev) : EventOf d d := ⟨rfl, fun _ => rfl, fun _ _ _ _ => rfl⟩

theorem EventOf.trans {a b c : Dev} (h : EventOf a b) (k : EventOf b c) : EventOf a c := by
  refine ⟨?_, fun g => (k.2.1 g).trans (h.2.1 g), fun i x hx he => (k.2.2 i x hx he).trans (h.2.2 i x hx he)⟩
  have h1 := h.1
  have k1 := k.1
  rw [k1, h1]

theorem EventOf.updSite (d : Dev) (h : Nat) (f : Site → Site) (hq : ∀ x, (f x).quiet = x.quiet := by intro x; rfl) :
    EventOf d (d.updSite h f) := by
  refine ⟨rfl, fun g => ?_, fun _ _ _ _ => rfl⟩
  by_cases n : g = h
  · subst n; simp [hq]
  · rw [Dev.site_updSite_ne d n]

theorem EventOf.out (d : Dev) (x : Out) : EventOf d (d.out x) := ⟨rfl, fun _ => rfl, fun _ _ _ _ => rfl⟩

theorem EventOf.tele (d : Dev) (t : Tele) : EventOf d { d with tele := t } := ⟨rfl, fun _ => rfl, fun _ _ _ _ => rfl⟩

theorem EventOf.addReg (d : Dev) {i a : Nat} (ha : a < 256) (h : eventPlace i a = true) (n : Nat) :
    EventOf d (d.addReg i a n) := by
  refine ⟨rfl, fun _ => rfl, fun j b hb hj => Dev.reg_addReg_ne _ (fun hk => ?_) _⟩
  obtain ⟨rfl, rfl⟩ := ekey_inj hb ha hk
  simp [h] at hj

theorem EventOf.siteReg (d : Dev) (h : Nat) {a : Nat} (ha : a = 0x0C ∨ a = 0x0D ∨ a = 0x0E) (n : Nat) :
    EventOf d (d.addReg (0x4800 + h) a n) :=
  EventOf.addReg d (by omega) (by rcases ha with rfl | rfl | rfl <;> simp [eventPlace]) n

theorem EventOf.msix (d : Dev) (h v : Nat) : EventOf d (d.msix h v) := by
  unfold Dev.msix
  split
  · exact EventOf.updSite _ _ _
  · exact EventOf.out _ _

theorem EventOf.ringHeader (d : Dev) (h : Nat) : EventOf d (d.ringHeader h) := EventOf.out _ _

theorem EventOf.vector0 (d : Dev) (h : Nat) : EventOf d (d.vector0 h) := by
  unfold Dev.vector0
  dsimp only
  split
  · exact (EventOf.updSite _ _ _).trans (EventOf.msix _ _ _)
  · exact EventOf.refl _

theorem EventOf.putEntry (d : Dev) (h : Nat) (ev : Ev) (n : Nat) : EventOf d (d.putEntry h ev n) := by
  unfold Dev.putEntry
  exact ((((EventOf.out _ _).trans (EventOf.updSite _ _ _)).trans (EventOf.siteReg _ _ (.inl rfl) 1)).trans
    (EventOf.ringHeader _ _)).trans (EventOf.vector0 _ _)

theorem EventOf.writeRing (d : Dev) (h : Nat) (ev : Ev) (n : Nat) : EventOf d (d.writeRing h ev n) := by
  unfold Dev.writeRing
  dsimp only
  split
  · split
    · exact (EventOf.updSite _ _ _).trans (EventOf.siteReg _ _ (.inr (.inr rfl)) n)
    · exact (((EventOf.updSite _ _ _).trans (EventOf.siteReg _ _ (.inr (.inr rfl)) n)).trans
        (EventOf.ringHeader _ _)).trans (EventOf.msix _ _ _)
  · exact EventOf.putEntry _ _ _ _

theorem EventOf.flushSite (d : Dev) (h : Nat) : EventOf d (d.flushSite h) := by
  unfold Dev.flushSite
  split
  · exact EventOf.refl _
  · exact (EventOf.updSite _ _ _).trans (EventOf.writeRing _ _ _ _)

theorem EventOf.postSite (d : Dev) (h : Nat) (ev : Ev) : EventOf d (d.postSite h ev) := by
  unfold Dev.postSite
  dsimp only
  have key : ∀ d : Dev, EventOf d (if (d.site h).phase ≠ 4 then
      (d.updSite h (fun s => { s with lostDetached := s.lostDetached + 1 })).incReg (0x4800 + h) 0x0E
    else match (d.site h).staged with
    | some (e0, n) =>
      if e0.same ev then
        if n + 1 ≥ 65535 then ((d.incReg (0x4800 + h) 0x0D).updSite h (fun s => { s with
          staged := some ({ ev with time := e0.time }, n + 1) })).flushSite h
        else (d.incReg (0x4800 + h) 0x0D).updSite h (fun s => { s with staged := some ({ ev with time := e0.time }, n + 1) })
      else
        if (d.site h).window = 0 then (d.flushSite h).writeRing h ev 1
        else (d.flushSite h).updSite h (fun s => { s with staged := some (ev, 1) })
    | none =>
      if (d.site h).window = 0 then d.writeRing h ev 1 else d.updSite h (fun s => { s with staged := some (ev, 1) })) := by
    intro d
    split
    · exact (EventOf.updSite _ _ _).trans (EventOf.siteReg _ _ (.inr (.inr rfl)) 1)
    · split
      · have k := (EventOf.siteReg d h (a := 0x0D) (.inr (.inl rfl)) 1)
        split
        · split
          · exact (k.trans (EventOf.updSite _ _ _)).trans (EventOf.flushSite _ _)
          · exact k.trans (EventOf.updSite _ _ _)
        · split
          · exact (EventOf.flushSite _ _).trans (EventOf.writeRing _ _ _ _)
          · exact (EventOf.flushSite _ _).trans (EventOf.updSite _ _ _)
      · split
        · exact EventOf.writeRing _ _ _ _
        · exact EventOf.updSite _ _ _
  split
  · exact (EventOf.updSite _ _ _).trans (key _)
  · exact key _

theorem EventOf.writeLog (d : Dev) (ev : Ev) (n : Nat) : EventOf d (d.writeLog ev n) := by
  unfold Dev.writeLog
  exact (EventOf.addReg d (i := 0x5C00) (a := 0x20) (by decide) (by decide) 1).trans (EventOf.tele _ _)

theorem EventOf.flushLog (d : Dev) : EventOf d d.flushLog := by
  unfold Dev.flushLog
  split
  · exact EventOf.refl _
  · exact (EventOf.tele _ _).trans (EventOf.writeLog _ _ _)

theorem EventOf.postLog (d : Dev) (ev : Ev) : EventOf d (d.postLog ev) := by
  unfold Dev.postLog
  dsimp only
  split
  · split
    · exact EventOf.tele _ _
    · split
      · exact (EventOf.flushLog _).trans (EventOf.writeLog _ _ _)
      · exact (EventOf.flushLog _).trans (EventOf.tele _ _)
  · split
    · exact EventOf.writeLog _ _ _
    · exact EventOf.tele _ _

theorem EventOf.foldl {β : Type} (f : Dev → β → Dev) (l : List β) (hf : ∀ d b, EventOf d (f d b)) (d : Dev) :
    EventOf d (l.foldl f d) := by
  induction l generalizing d with
  | nil => exact EventOf.refl _
  | cons b l ih => exact (hf d b).trans (ih _)

/-- Raising an event changes the sites, what left the part, the log, and the counts of rings and log; nothing else. -/
theorem EventOf.raise (d : Dev) (code kind id : Nat) (ctx site : Option Nat) (fields : List Nat) :
    EventOf d (d.raise code kind id ctx site fields) := by
  unfold Dev.raise
  dsimp only
  refine EventOf.trans ?_ (EventOf.postLog _ _)
  exact EventOf.foldl _ _ (fun _ _ => EventOf.postSite _ _ _) _

end Sys2Proof.Machine
end

