-- ==== Sys2Proof/Laws/Streams.lean ====
section
/-! SUPPORT. How a command leaves its issue, said once: done, running on, refused, or failed. -/
namespace Sys2Proof.Machine
open Sys2Proof

variable {s t : State} {o : Origin} {op input : Nat} {cmd : Option QCmd} {m : Act Bool}

/-- A command whose work is done awaits its completion. -/
theorem State.issueCmd_done (h : (s.board o op input cmd).runAct m = (.ok true, t)) :
    s.issueCmd o op input cmd m = t.onDev (fun d => d.markDone o.ctx.val o.stream.val o.seq) := by
  simp only [State.issueCmd, h]

/-- A command that runs on keeps what it did at issue. -/
theorem State.issueCmd_runs (h : (s.board o op input cmd).runAct m = (.ok false, t)) : s.issueCmd o op input cmd m = t := by
  simp only [State.issueCmd, h]

/-- A refusal takes the command off its scoreboard and stops its stream (R398). -/
theorem State.issueCmd_refused {f : Fail} (h : (s.board o op input cmd).runAct m = (.error f, t)) (hc : f.cause = 1) :
    s.issueCmd o op input cmd m = t.onDev (fun d =>
      (d.updStream o.ctx.val o.stream.val (fun x => { x with run := x.run.filter (fun e => e.seq ≠ o.seq) })).failCommand
        o.ctx.val o.stream.val 1 f.code o.seq op cmd) := by
  simp only [State.issueCmd, h, if_pos hc]

/-- A failure waits for the command's completion (R398). -/
theorem State.issueCmd_failed {f : Fail} (h : (s.board o op input cmd).runAct m = (.error f, t)) (hc : f.cause ≠ 1) :
    s.issueCmd o op input cmd m = t.onDev (fun d => d.markFailed o.ctx.val o.stream.val o.seq f) := by
  simp only [State.issueCmd, h, if_neg hc]

/-- Nothing at issue touches the queue of commands or what survives a loss of power. -/
theorem State.issueCmd_keeps : (s.issueCmd o op input cmd m).pending = s.pending ∧ (s.issueCmd o op input cmd m).persist = s.persist := by
  have hr : ((s.board o op input cmd).runAct m).2.pending = s.pending ∧ ((s.board o op input cmd).runAct m).2.persist = s.persist := ⟨rfl, rfl⟩
  revert hr
  generalize hx : (s.board o op input cmd).runAct m = r
  obtain ⟨(f | b), t⟩ := r
  · intro hr
    by_cases hc : f.cause = 1
    · rw [State.issueCmd_refused hx hc]; exact hr
    · rw [State.issueCmd_failed hx hc]; exact hr
  · intro hr
    cases b
    · rw [State.issueCmd_runs hx]; exact hr
    · rw [State.issueCmd_done hx]; exact hr

end Sys2Proof.Machine
end

