-- ==== Sys2Proof/Tests/Slice0.lean ====
section
/-! SUPPORT. Tests: terms that well-formedness refuses, worked examples of the spec, and for each statement a state and
operands that meet its hypotheses. -/
namespace Sys2Proof.Tests
open Sys2Proof Sys2Proof.Machine

set_option Elab.async false

/-! States for the tests. -/

/-- The part after reset, with a change. -/
def partWith (f : Dev → Dev) : State := State.reset.onDev f

/-- A running device: RESET# released and the device ON (R660, R685). -/
def running (d : Dev) : Dev := { d with boot := { d.boot with reset := false } }.setReg 0x6000 0x02 10

/-- Site 0 attached, its link up (R538). -/
def attach0 (d : Dev) : Dev := d.updSite 0 (fun s => { s with phase := 4, link := 3 })

/-- Context 0 ON, of site 0, with four streams (R380 to R385). -/
def context0 (d : Dev) : Dev := ((d.setReg 0x4000 0x02 2).setReg 0x4000 0x03 0).setReg 0x4000 0x05 4

/-- A running device with context 0 and its site. -/
def partA (f : Dev → Dev) : State := partWith (fun d => f (context0 (attach0 (running d))))

/-- Site 3 in a phase with its link in a phase. -/
def sitePart (phase link : Nat) (d : Dev) : Dev := d.updSite 3 (fun x => { x with phase := phase, link := link })

/-- A command of context 0, stream 0. -/
def originA (seq slot : Nat) : Origin := ⟨0, 0, seq, 0, slot, false, false, 0⟩

/-- Did a computation succeed? Its next memories and part are the second component of its answer. -/
def okOf {α : Type} (r : Except Fail α × Wd) : Bool := match r.1 with
  | .ok _ => true
  | .error _ => false

/-- Did a command run? -/
def nextOf (o : Host.Outcome State Fault Refusal) : Bool := match o with
  | .next _ => true
  | _ => false

/-- The 64 bytes of a descriptor of a tensor of n elements along dimension 0, without areas (R418). -/
def descOfFmt (fmt place loc base n : Nat) : List Nat :=
  [fmt, 4 * place, loc, 0, 0, 0, 0, 0] ++ leBytes 8 base ++ leBytes 4 n ++ leBytes 12 (1 + 2 ^ 32 + 2 ^ 64) ++
    [1, 0, 0, 0] ++ List.replicate 28 0

/-- Descriptors at address 0 of context 0 of scratchpad tensors: FP32 at 0x10000 and 0x10100, INT32 at 0x10200, INT8 at
0x10300; FP32 in memory at 0x400; INT32 indices at 0x10400, all of one element. -/
def descs : List Nat :=
  descOfFmt 0x0 3 0 0x10000 1 ++ descOfFmt 0x0 3 0 0x10100 1 ++ descOfFmt 0xA 3 0 0x10200 1 ++ descOfFmt 0x7 3 0 0x10300 1 ++
    descOfFmt 0x0 2 0 0x400 1 ++ descOfFmt 0xA 3 0 0x10400 1

/-- Translations of context 0 in the cache of partition 0: 64 KiB at address 0 to package-view slab 0, the first page of
engine 0's scratchpad at 0x10000 (R235, R250). -/
def cachedA : List XEnt := [⟨0, 0, 16, 2 ^ 42 + 3⟩, ⟨0, 1, 16, 2 ^ 60 + 3⟩]

/-- Device with context 0, its translations, its descriptors, and engine 0 in its bed and running. -/
def partM (f : Dev → Dev) : State :=
  { partA (fun d => f ((({ d with xcP := [(0, cachedA)] } : Dev).updCtx 0 (fun x => { x with bedMask := 1 })).setReg 0x3000 0x02 2)) with
    mem := { Store.reset with hbm := cellsOf 0 descs, spad := cellsOf 0 [0, 0, 0x80, 0x3F] } }
/-! Well-formedness: every command of zero operands is well formed, and each check refuses a term that is out of its
bound. -/

/-- Well-formed operands of each form. -/
def mtileW : MtileF := ⟨0, 0, 0, 0, 0, 0, 0, 0, 0, 0, 0, 0, 0, 0, 0, 0, 0, 0, 0, 0, 0, 0, 0, 0, 0, 0⟩
def vecW : VecF := ⟨0, 0, 0, 0, 0, 0, 0, 0, 0, 0, 0, 0, 0, 0, 0, 0, 0⟩
def moveW : MoveF := ⟨0, 0, 0, 0⟩
def collW : CollF := ⟨0, 0, 0, 0, 0, 0, 0, 0, 0, 0, 0, 0, 0, 0, 0⟩
def snapW : SnapF := ⟨0, 0, 0, 0, 0, 0, 0, 0, 0, 0, 0⟩
def handleW : HandleF := ⟨0, 0, 0, 0, 0, 0, 0, 0⟩
def jobW : JobIn := ⟨0, 0, ⟨0, 0, 0, 0, 0, 0, 0, 0, 0, 0, 0, false, false, 0, 0, 0, 0⟩⟩
def frameW : FrameF := ⟨64, true, [], .other⟩
def packetW : PacketF := ⟨0, 0, false, 0, 0, 0, 0, 0, 0, 0, 0, [], true⟩
def reqW : Req := ⟨1, 0, 0, 0, 0, 0, 0, 0, 0, []⟩
def stepW : StepF := ⟨true, [], [], [], [], [], false⟩

theorem test_wellFormed_0 : ([.nop (originA 0 0) 0, .swait (originA 0 0) 0 0 0 0, .ssignalAdd (originA 0 0) 0 0 0,
    .ssignalSet (originA 0 0) 0 0 0, .sremote (originA 0 0) 0 0 0 0 0, .sfence (originA 0 0) 0 0 0, .mtile (originA 0 0) mtileW,
    .vconv (originA 0 0) vecW, .vadd (originA 0 0) vecW, .vsub (originA 0 0) vecW, .vmul (originA 0 0) vecW, .vfma (originA 0 0) vecW,
    .vmax (originA 0 0) vecW, .vmin (originA 0 0) vecW, .vscale (originA 0 0) vecW, .vdiv (originA 0 0) vecW, .vfunc (originA 0 0) vecW,
    .vsel (originA 0 0) vecW, .vfill (originA 0 0) vecW, .vtrans (originA 0 0) vecW, .vredsum (originA 0 0) vecW,
    .vredsq (originA 0 0) vecW, .vredmax (originA 0 0) vecW, .vtopk (originA 0 0) vecW, .vwin (originA 0 0) vecW,
    .vsoftmax (originA 0 0) vecW, .vdeq (originA 0 0) vecW, .mcopy (originA 0 0) moveW, .mgather (originA 0 0) moveW,
    .mscatter (originA 0 0) moveW, .callred (originA 0 0) collW, .credscat (originA 0 0) collW, .cgather (originA 0 0) collW,
    .cbcast (originA 0 0) collW, .ctopk (originA 0 0) collW, .cwin (originA 0 0) collW, .chandleOpenJob (originA 0 0) handleW,
    .chandleOpenStorage (originA 0 0) handleW, .chandleClose (originA 0 0) handleW, .chandleNewEpoch (originA 0 0) handleW,
    .chandleBindEmit (originA 0 0) handleW, .rjobs (originA 0 0) 0 0 0, .unorm (originA 0 0) 0 0 0 0 0, .ufence (originA 0 0) 0 0,
    .hphase (originA 0 0) 0 0 0 0 0, .hcancel (originA 0 0) 0, .sopen (originA 0 0) snapW, .sclose (originA 0 0) 0,
    .srestore (originA 0 0) snapW, .stage 0 jobW] :
    List Instr).all (fun i => i.wf = true) = true := by decide +kernel

theorem test_wellFormed_1 : ([.compress 0 jobW, .update 0 jobW, .copy 0 jobW, .convert 0 jobW, .streamOut 0 jobW, .streamIn 0 jobW [],
    .translationReply 0 0 0, .chunkDelivery 0 0 0 0 [] false, .chunkStaged 0 0 0 0, .emissionAccepted 0 0, .commandSubmit 0 0 0 false 0,
    .dropEventTimer 0 0, .commandIssue, .commandComplete 0 0 0 false, .streamControlResumeAfter (.i3c 8) 0 0,
    .streamControlDiscard (.i3c 8) 0 0, .streamControlRetry (.i3c 8) 0 0, .contextOwnerWrite (.i3c 8) 0 0,
    .contextEnableWrite (.i3c 8) 0 0, .contextStopComplete 0, .blockAssign (.i3c 8) 0 false false 0 0, .blockFree (.i3c 8) 0 0,
    .syncOpGrant, .swaitTimeout 0 0, .syncWindowRead 0 0, .syncWindowWrite 0 0 0, .remoteSignalReceive 0 0 0 0 0 0,
    .translationInvalidate (.i3c 8) 0, .slabTableWrite (.i3c 8) 0, .tileFeedStart 0 0 0, .weightLoadComplete 0, .tileJobRetire 0 0,
    .runnerMerge 0 0, .drainStart 0 0, .drainComplete 0 0, .arrayClockGate 0, .tileCheck 0, .vectorTileBoundary 0 0 0 0, .setSave 0 0,
    .setRestore 0 0, .engineEnableWrite (.i3c 8) 0 0, .scratchpadWriteback 0 0, .scrubRead 0 0 [], .scrubForced 0 0 [], .wipeComplete 0,
    .keyRederivation, .arbiterGrant 0 [], .longestWaitClear (.i3c 8) 0 0, .hbmRequest 0 0 false 0 0 0 none [],
    .hostCxlMemAccess 0 false 0 0 0] :
    List Instr).all (fun i => i.wf = true) = true := by decide +kernel

theorem test_wellFormed_2 : ([.hbmWriteback 0 0, .laneMark 0 0 0, .patrolScrubRead 0 0 [], .patrolScrubForced 0 0 [],
    .refresh 0 0 0 0 false, .refreshForced 0 0 0 0, .retraining 0 0, .retrainingForced 0 0, .imageComplete 0 0, .securingHoldRelease 0 0,
    .networkHeaderAck 0 false, .securingEnableWrite (.i3c 8) 0, .bedWrite (.i3c 8) 0 0, .splitGroupWrite (.i3c 8) 0 0,
    .engineGrantWrite (.i3c 8) 0 0, .bankGrantWrite (.i3c 8) 0 0, .evaluationAttachWrite (.i3c 8) 0 0, .windowClose 0,
    .windowEarlyClose 0, .overrunLimitExpiry 0, .linkStateChange 0 0 false 0, .laneRetrainComplete 0 0, .frameReceive 0 0 frameW,
    .transportPacketReceive 0 0 packetW, .ackTimer 0 0, .ackReceive 0 0 0 0 0, .windowProbeTimer 0 0, .retransmissionTimeout 0 0 0,
    .cnpReceive 0 0 0, .rateIncreaseTimer 0 0 0, .epochResponseReceive 0 0 0, .digestMismatchResponse 0 0 0, .storageAckReceive 0 0 0,
    .pfcFrameReceive 0 0 0 0, .ptpMessageReceive 0 0 0, .ppsInputEdge 0, .ppsOutputSecond, .lldpSendTimer 0 0, .collectiveTimeout 0 0,
    .normCollectiveComplete 0 false [] [], .chunkReofferTimer 0 0 0 0, .chunkWaitEvent 0 0 0 0, .faultNoticeReceive 0 0 0 0,
    .presenceQueryTimer 0, .presenceResponse 0, .linkTrained 0 0 0 0, .linkRetrainRequest 0, .linkLoss 0 0, .attach 0 0 0 0 [],
    .detachAndHold 0] :
    List Instr).all (fun i => i.wf = true) = true := by decide +kernel

theorem test_wellFormed_3 : ([.detachAndRelease 0, .gracePeriodExpiry 0, .reclaimNow (.i3c 8) 0 0, .consumerIndexWrite 0 0,
    .summaryClear 0 0, .coalescingWindowExpiry 0, .interruptModerationTimer 0, .siteEnableWrite (.i3c 8) 0 0, .governorTick [],
    .floorLeave, .laneRestore 0, .telemetrySample [], .telemetryWindowEnd, .marginRaiseTimer 0, .canaryWarning 0, .operatingPointChoice,
    .opUpPclkSlew 0, .avsWriteComplete 0, .boardCapWrite (.i3c 8) 0, .operatorCapWrite (.i3c 8) 0, .pwrCapAlertEdge false, .droopTrip 0,
    .droopClear 0 0, .marginHoldExpiry 0, .thermalCeilingTimer 0 0, .hardThermalEntry 0 0, .stackThermalLimit 0 0, .thermtrip,
    .flitCrcFailure 0 0 0, .hangTimeout 0 0, .partitionResetDrained 0, .partitionResetComplete 0 false, .replayStart 0,
    .rollbackControlWrite (.i3c 8) 0 0, .deviceWideFault 0, .harvestTick, .harvestComplete, .dumpComplete, .nextTickWrite (.i3c 8) 0,
    .logReadPositionWrite (.i3c 8) 0, .read (.i3c 8) reqW, .write (.i3c 8) reqW, .readBlock (.i3c 8) reqW, .list (.i3c 8) reqW,
    .describe (.i3c 8) reqW, .mailboxSubmit 0 0 reqW, .mailboxAcknowledge 0, .domainStagingDiscard (.i3c 8) 0 0, .replyCacheExpiry 0 0,
    .functionStoppingEnd 0] :
    List Instr).all (fun i => i.wf = true) = true := by decide +kernel

theorem test_wellFormed_4 : ([.rootEngineEnableWrite (.i3c 8) 0 0, .portEnableWrite (.i3c 8) 0 0, .portStartingTimeout 0,
    .telemetryEnableWrite (.i3c 8) 0, .perturbationEnableWrite (.i3c 8) 0, .fewestBuffersReset (.i3c 8) 0 0, .settingsCommit (.i3c 8) 0,
    .settingsBurnComplete false, .resetAssert, .resetRelease 0, .startupStepComplete stepW, .deviceResetWrite (.i3c 8) 0,
    .lifeCycleTransition (.i3c 8) 0, .authorisationToken (.i3c 8) 0, .updateBegin (.i3c 8) 0, .updateAppend (.i3c 8) 0,
    .updateFinish (.i3c 8) 0, .attestationNonce (.i3c 8) 0, .tamperTrip 0 0, .tamperRestartTimer, .pllLockLoss 0, .pllRelock 0,
    .pllRelockTimeout 0, .timeHoldover, .bypass false, .idcode, .samplePreload 0, .extest 0, .clamp, .highz, .debug 0, .trstAssert,
    .moveUnitBoundary 0 0, .ucieFlitReplay 0, .pclkSlewDownComplete 0, .hardThermalRelease 0 0, .stackThermalRelease 0 0,
    .setEndpointId 0, .dynamicAddressAssignment 0, .summaryRewriteTimer 0, .lifeCycleBurnComplete, .deviceResetDelayExpiry,
    .snapshotFlushComplete 0 0 0, .hdmDecoderCommit 0] :
    List Instr).all (fun i => i.wf = true) = true := by decide +kernel

theorem test_illFormed_0 : ([.nop { originA 0 0 with slot := 64 } 0, .nop (originA 0 0) (2 ^ 512),
    .swait { originA 0 0 with slot := 64 } 0 0 0 0, .swait (originA 0 0) (2 ^ 14) 0 0 0, .swait (originA 0 0) 0 (2 ^ 32) 0 0,
    .swait (originA 0 0) 0 0 (2 ^ 64) 0, .swait (originA 0 0) 0 0 0 (2 ^ 512), .ssignalAdd { originA 0 0 with slot := 64 } 0 0 0,
    .ssignalAdd (originA 0 0) (2 ^ 14) 0 0, .ssignalAdd (originA 0 0) 0 (2 ^ 64) 0, .ssignalAdd (originA 0 0) 0 0 (2 ^ 512),
    .ssignalSet { originA 0 0 with slot := 64 } 0 0 0, .ssignalSet (originA 0 0) (2 ^ 14) 0 0, .ssignalSet (originA 0 0) 0 (2 ^ 64) 0,
    .ssignalSet (originA 0 0) 0 0 (2 ^ 512), .sremote { originA 0 0 with slot := 64 } 0 0 0 0 0, .sremote (originA 0 0) (2 ^ 14) 0 0 0 0,
    .sremote (originA 0 0) 0 (2 ^ 10) 0 0 0, .sremote (originA 0 0) 0 0 (2 ^ 32) 0 0, .sremote (originA 0 0) 0 0 0 (2 ^ 64) 0,
    .sremote (originA 0 0) 0 0 0 0 (2 ^ 512), .sfence { originA 0 0 with slot := 64 } 0 0 0, .sfence (originA 0 0) (2 ^ 64) 0 0,
    .sfence (originA 0 0) 0 (2 ^ 64) 0, .sfence (originA 0 0) 0 0 (2 ^ 512), .mtile { originA 0 0 with slot := 64 } mtileW,
    .mtile (originA 0 0) { mtileW with drain := 4 }, .vconv { originA 0 0 with slot := 64 } vecW,
    .vconv (originA 0 0) { vecW with fn := 32 }, .vadd { originA 0 0 with slot := 64 } vecW, .vadd (originA 0 0) { vecW with fn := 32 },
    .vsub { originA 0 0 with slot := 64 } vecW, .vsub (originA 0 0) { vecW with fn := 32 }, .vmul { originA 0 0 with slot := 64 } vecW,
    .vmul (originA 0 0) { vecW with fn := 32 }, .vfma { originA 0 0 with slot := 64 } vecW, .vfma (originA 0 0) { vecW with fn := 32 },
    .vmax { originA 0 0 with slot := 64 } vecW, .vmax (originA 0 0) { vecW with fn := 32 }, .vmin { originA 0 0 with slot := 64 } vecW,
    .vmin (originA 0 0) { vecW with fn := 32 }, .vscale { originA 0 0 with slot := 64 } vecW,
    .vscale (originA 0 0) { vecW with fn := 32 }, .vdiv { originA 0 0 with slot := 64 } vecW, .vdiv (originA 0 0) { vecW with fn := 32 },
    .vfunc { originA 0 0 with slot := 64 } vecW, .vfunc (originA 0 0) { vecW with fn := 32 }, .vsel { originA 0 0 with slot := 64 } vecW,
    .vsel (originA 0 0) { vecW with fn := 32 }, .vfill { originA 0 0 with slot := 64 } vecW] :
    List Instr).all (fun i => i.wf = false) = true := by decide +kernel

theorem test_illFormed_1 : ([.vfill (originA 0 0) { vecW with fn := 32 }, .vtrans { originA 0 0 with slot := 64 } vecW,
    .vtrans (originA 0 0) { vecW with fn := 32 }, .vredsum { originA 0 0 with slot := 64 } vecW,
    .vredsum (originA 0 0) { vecW with fn := 32 }, .vredsq { originA 0 0 with slot := 64 } vecW,
    .vredsq (originA 0 0) { vecW with fn := 32 }, .vredmax { originA 0 0 with slot := 64 } vecW,
    .vredmax (originA 0 0) { vecW with fn := 32 }, .vtopk { originA 0 0 with slot := 64 } vecW,
    .vtopk (originA 0 0) { vecW with fn := 32 }, .vwin { originA 0 0 with slot := 64 } vecW, .vwin (originA 0 0) { vecW with fn := 32 },
    .vsoftmax { originA 0 0 with slot := 64 } vecW, .vsoftmax (originA 0 0) { vecW with fn := 32 },
    .vdeq { originA 0 0 with slot := 64 } vecW, .vdeq (originA 0 0) { vecW with fn := 32 }, .mcopy { originA 0 0 with slot := 64 } moveW,
    .mcopy (originA 0 0) { moveW with src := 32 }, .mgather { originA 0 0 with slot := 64 } moveW,
    .mgather (originA 0 0) { moveW with src := 32 }, .mscatter { originA 0 0 with slot := 64 } moveW,
    .mscatter (originA 0 0) { moveW with src := 32 }, .callred { originA 0 0 with slot := 64 } collW,
    .callred (originA 0 0) { collW with root := 1024 }, .credscat { originA 0 0 with slot := 64 } collW,
    .credscat (originA 0 0) { collW with root := 1024 }, .cgather { originA 0 0 with slot := 64 } collW,
    .cgather (originA 0 0) { collW with root := 1024 }, .cbcast { originA 0 0 with slot := 64 } collW,
    .cbcast (originA 0 0) { collW with root := 1024 }, .ctopk { originA 0 0 with slot := 64 } collW,
    .ctopk (originA 0 0) { collW with root := 1024 }, .cwin { originA 0 0 with slot := 64 } collW,
    .cwin (originA 0 0) { collW with root := 1024 }, .chandleOpenJob { originA 0 0 with slot := 64 } handleW,
    .chandleOpenJob (originA 0 0) { handleW with wire := 4 }, .chandleOpenStorage { originA 0 0 with slot := 64 } handleW,
    .chandleOpenStorage (originA 0 0) { handleW with wire := 4 }, .chandleClose { originA 0 0 with slot := 64 } handleW,
    .chandleClose (originA 0 0) { handleW with wire := 4 }, .chandleNewEpoch { originA 0 0 with slot := 64 } handleW,
    .chandleNewEpoch (originA 0 0) { handleW with wire := 4 }, .chandleBindEmit { originA 0 0 with slot := 64 } handleW,
    .chandleBindEmit (originA 0 0) { handleW with wire := 4 }, .rjobs { originA 0 0 with slot := 64 } 0 0 0,
    .rjobs (originA 0 0) (2 ^ 52) 0 0, .rjobs (originA 0 0) 0 (2 ^ 16) 0, .rjobs (originA 0 0) 0 0 (2 ^ 512),
    .unorm { originA 0 0 with slot := 64 } 0 0 0 0 0] :
    List Instr).all (fun i => i.wf = false) = true := by decide +kernel

theorem test_illFormed_2 : ([.unorm (originA 0 0) (2 ^ 52) 0 0 0 0, .unorm (originA 0 0) 0 (2 ^ 52) 0 0 0,
    .unorm (originA 0 0) 0 0 (2 ^ 32) 0 0, .unorm (originA 0 0) 0 0 0 (2 ^ 32) 0, .unorm (originA 0 0) 0 0 0 0 (2 ^ 512),
    .ufence { originA 0 0 with slot := 64 } 0 0, .ufence (originA 0 0) (2 ^ 52) 0, .ufence (originA 0 0) 0 (2 ^ 512),
    .hphase { originA 0 0 with slot := 64 } 0 0 0 0 0, .hphase (originA 0 0) (2 ^ 32) 0 0 0 0, .hphase (originA 0 0) 0 (2 ^ 32) 0 0 0,
    .hphase (originA 0 0) 0 0 (2 ^ 8) 0 0, .hphase (originA 0 0) 0 0 0 (2 ^ 8) 0, .hphase (originA 0 0) 0 0 0 0 (2 ^ 512),
    .hcancel { originA 0 0 with slot := 64 } 0, .hcancel (originA 0 0) (2 ^ 512), .sopen { originA 0 0 with slot := 64 } snapW,
    .sopen (originA 0 0) { snapW with opt := 2 }, .sclose { originA 0 0 with slot := 64 } 0, .sclose (originA 0 0) (2 ^ 512),
    .srestore { originA 0 0 with slot := 64 } snapW, .srestore (originA 0 0) { snapW with opt := 2 },
    .stage 0 { jobW with stamp := 2 ^ 64 }, .compress 0 { jobW with stamp := 2 ^ 64 }, .update 0 { jobW with stamp := 2 ^ 64 },
    .copy 0 { jobW with stamp := 2 ^ 64 }, .convert 0 { jobW with stamp := 2 ^ 64 }, .streamOut 0 { jobW with stamp := 2 ^ 64 },
    .streamIn 0 { jobW with stamp := 2 ^ 64 } [], .streamIn 0 jobW [256], .translationReply 0 0 (2 ^ 52),
    .chunkDelivery 0 0 (2 ^ 24) 0 [] false, .chunkDelivery 0 0 0 (2 ^ 32) [] false, .chunkDelivery 0 0 0 0 [65536] false,
    .chunkStaged 0 0 (2 ^ 24) 0, .chunkStaged 0 0 0 (2 ^ 32), .emissionAccepted 0 (2 ^ 64), .commandSubmit 0 (2 ^ 24) 0 false 0,
    .commandSubmit 0 0 (2 ^ 16) false 0, .commandSubmit 0 0 0 false (2 ^ 512), .commandComplete 0 0 (2 ^ 16) false,
    .streamControlResumeAfter (.i3c 256) 0 0, .streamControlDiscard (.i3c 256) 0 0, .streamControlRetry (.i3c 256) 0 0,
    .contextOwnerWrite (.i3c 256) 0 0, .contextOwnerWrite (.i3c 8) 0 (2 ^ 8), .contextEnableWrite (.i3c 256) 0 0,
    .contextEnableWrite (.i3c 8) 0 (2 ^ 8), .blockAssign (.i3c 256) 0 false false 0 0, .blockAssign (.i3c 8) 0 false false (2 ^ 4) 0] :
    List Instr).all (fun i => i.wf = false) = true := by decide +kernel

theorem test_illFormed_3 : ([.blockFree (.i3c 256) 0 0, .syncWindowWrite 0 0 (2 ^ 64), .remoteSignalReceive (2 ^ 32) 0 0 0 0 0,
    .remoteSignalReceive 0 (2 ^ 32) 0 0 0 0, .remoteSignalReceive 0 0 (2 ^ 32) 0 0 0, .remoteSignalReceive 0 0 0 (2 ^ 10) 0 0,
    .remoteSignalReceive 0 0 0 0 (2 ^ 14) 0, .remoteSignalReceive 0 0 0 0 0 (2 ^ 64), .translationInvalidate (.i3c 256) 0,
    .translationInvalidate (.i3c 8) (2 ^ 64), .slabTableWrite (.i3c 256) 0, .slabTableWrite (.i3c 8) (2 ^ 16384),
    .tileFeedStart 0 (2 ^ 64) 0, .tileFeedStart 0 0 (2 ^ 64), .tileJobRetire 0 (2 ^ 64), .runnerMerge 0 (2 ^ 64), .vectorTileBoundary 0 (2 ^ 64) 0 0,
    .vectorTileBoundary 0 0 (2 ^ 64) 0, .vectorTileBoundary 0 0 0 (2 ^ 64), .engineEnableWrite (.i3c 256) 0 0, .engineEnableWrite (.i3c 8) 0 (2 ^ 8), .scrubRead 0 0 [(2 ^ 64,
    2 ^ 72)], .scrubForced 0 0 [(2 ^ 64, 2 ^ 72)], .arbiterGrant (2 ^ 7) [], .arbiterGrant 0 [16], .longestWaitClear (.i3c 256) 0 0,
    .longestWaitClear (.i3c 8) (2 ^ 7) 0, .longestWaitClear (.i3c 8) 0 (2 ^ 32), .hbmRequest 0 0 false (2 ^ 36) 0 0 none [],
    .hbmRequest 0 0 false 0 (2 ^ 37) 0 none [], .hbmRequest 0 0 false 0 0 0 none [(2 ^ 64, 2 ^ 72)],
    .hostCxlMemAccess 0 false (2 ^ 43) 0 0, .hostCxlMemAccess 0 false 0 (2 ^ 37) 0, .hbmWriteback 0 (2 ^ 30),
    .patrolScrubRead 0 0 [(2 ^ 64, 2 ^ 72)], .patrolScrubForced 0 0 [(2 ^ 64, 2 ^ 72)], .securingHoldRelease 0 (2 ^ 64),
    .securingEnableWrite (.i3c 256) 0, .securingEnableWrite (.i3c 8) (2 ^ 8), .bedWrite (.i3c 256) 0 0, .bedWrite (.i3c 8) 0 (2 ^ 128),
    .splitGroupWrite (.i3c 256) 0 0, .splitGroupWrite (.i3c 8) 0 (2 ^ 64), .engineGrantWrite (.i3c 256) 0 0,
    .engineGrantWrite (.i3c 8) 0 (2 ^ 8), .bankGrantWrite (.i3c 256) 0 0, .bankGrantWrite (.i3c 8) 0 (2 ^ 128),
    .evaluationAttachWrite (.i3c 256) 0 0, .evaluationAttachWrite (.i3c 8) 0 (2 ^ 16), .linkStateChange 0 0 false (2 ^ 3),
    .laneRetrainComplete 0 (2 ^ 3), .frameReceive 0 0 { frameW with len := 65536 }] :
    List Instr).all (fun i => i.wf = false) = true := by decide +kernel

theorem test_illFormed_4 : ([.transportPacketReceive 0 0 { packetW with rank := 1024 }, .ackTimer (2 ^ 32) 0, .ackTimer 0 (2 ^ 10),
    .ackReceive (2 ^ 32) 0 0 0 0, .ackReceive 0 (2 ^ 10) 0 0 0, .ackReceive 0 0 (2 ^ 24) 0 0, .ackReceive 0 0 0 0 (2 ^ 24),
    .windowProbeTimer (2 ^ 32) 0, .windowProbeTimer 0 (2 ^ 10), .retransmissionTimeout (2 ^ 32) 0 0, .retransmissionTimeout 0 (2 ^ 10) 0,
    .retransmissionTimeout 0 0 (2 ^ 24), .cnpReceive (2 ^ 32) 0 0, .cnpReceive 0 (2 ^ 10) 0, .cnpReceive 0 0 (2 ^ 8),
    .rateIncreaseTimer (2 ^ 32) 0 0, .rateIncreaseTimer 0 (2 ^ 10) 0, .rateIncreaseTimer 0 0 (2 ^ 8), .epochResponseReceive (2 ^ 32) 0 0,
    .epochResponseReceive 0 (2 ^ 10) 0, .epochResponseReceive 0 0 (2 ^ 32), .digestMismatchResponse (2 ^ 32) 0 0,
    .digestMismatchResponse 0 (2 ^ 10) 0, .digestMismatchResponse 0 0 (2 ^ 16), .storageAckReceive (2 ^ 32) 0 0,
    .storageAckReceive 0 (2 ^ 16) 0, .storageAckReceive 0 0 (2 ^ 8), .pfcFrameReceive 0 0 (2 ^ 8) 0, .pfcFrameReceive 0 0 0 (2 ^ 16),
    .collectiveTimeout (2 ^ 32) 0, .collectiveTimeout 0 (2 ^ 16), .normCollectiveComplete 0 false [2 ^ 32] [],
    .normCollectiveComplete 0 false [] [2 ^ 32], .chunkReofferTimer 0 0 (2 ^ 24) 0, .chunkReofferTimer 0 0 0 (2 ^ 32),
    .chunkWaitEvent 0 0 (2 ^ 24) 0, .chunkWaitEvent 0 0 0 (2 ^ 32), .faultNoticeReceive (2 ^ 32) 0 0 0,
    .faultNoticeReceive 0 (2 ^ 32) 0 0, .faultNoticeReceive 0 0 (2 ^ 10) 0, .faultNoticeReceive 0 0 0 (2 ^ 8),
    .linkTrained 0 (2 ^ 8) 0 0, .linkTrained 0 0 (2 ^ 8) 0, .linkTrained 0 0 0 (2 ^ 8), .linkLoss 0 (2 ^ 8), .attach 0 (2 ^ 64) 0 0 [],
    .attach 0 0 (2 ^ 64) 0 [], .attach 0 0 0 (2 ^ 64) [], .attach 0 0 0 0 [(2 ^ 64, 2 ^ 72)], .reclaimNow (.i3c 256) 0 0] :
    List Instr).all (fun i => i.wf = false) = true := by decide +kernel

theorem test_illFormed_5 : ([.reclaimNow (.i3c 8) 0 (2 ^ 8), .consumerIndexWrite 0 (2 ^ 32), .summaryClear 0 (2 ^ 64),
    .siteEnableWrite (.i3c 256) 0 0, .siteEnableWrite (.i3c 8) 0 (2 ^ 8), .governorTick [⟨0, none, [], 0, 0⟩], .telemetrySample [⟨0,
    true, 65536, 0⟩], .boardCapWrite (.i3c 256) 0, .boardCapWrite (.i3c 8) (2 ^ 16), .operatorCapWrite (.i3c 256) 0,
    .operatorCapWrite (.i3c 8) (2 ^ 16), .droopClear 0 (2 ^ 64), .flitCrcFailure 0 (2 ^ 16) 0, .flitCrcFailure 0 0 (8 + 1),
    .hangTimeout (2 ^ 8) 0, .hangTimeout 0 (2 ^ 16), .rollbackControlWrite (.i3c 256) 0 0, .rollbackControlWrite (.i3c 8) 0 (2 ^ 32),
    .deviceWideFault (2 ^ 8), .nextTickWrite (.i3c 256) 0, .nextTickWrite (.i3c 8) (2 ^ 64), .logReadPositionWrite (.i3c 256) 0,
    .logReadPositionWrite (.i3c 8) (2 ^ 64), .read (.i3c 256) reqW, .read (.i3c 8) { reqW with tag := 65536 }, .write (.i3c 256) reqW,
    .write (.i3c 8) { reqW with tag := 65536 }, .readBlock (.i3c 256) reqW, .readBlock (.i3c 8) { reqW with tag := 65536 },
    .list (.i3c 256) reqW, .list (.i3c 8) { reqW with tag := 65536 }, .describe (.i3c 256) reqW,
    .describe (.i3c 8) { reqW with tag := 65536 }, .mailboxSubmit 0 (2 ^ 8) reqW, .mailboxSubmit 0 0 { reqW with tag := 65536 },
    .domainStagingDiscard (.i3c 256) 0 0, .domainStagingDiscard (.i3c 8) (2 ^ 16) 0, .domainStagingDiscard (.i3c 8) 0 (2 ^ 8),
    .replyCacheExpiry (2 ^ 128) 0, .replyCacheExpiry 0 (2 ^ 16), .functionStoppingEnd (2 ^ 16), .rootEngineEnableWrite (.i3c 256) 0 0,
    .rootEngineEnableWrite (.i3c 8) 0 (2 ^ 8), .portEnableWrite (.i3c 256) 0 0, .portEnableWrite (.i3c 8) 0 (2 ^ 8),
    .telemetryEnableWrite (.i3c 256) 0, .telemetryEnableWrite (.i3c 8) (2 ^ 8), .perturbationEnableWrite (.i3c 256) 0,
    .perturbationEnableWrite (.i3c 8) (2 ^ 8), .fewestBuffersReset (.i3c 256) 0 0] :
    List Instr).all (fun i => i.wf = false) = true := by decide +kernel

theorem test_illFormed_6 : ([.fewestBuffersReset (.i3c 8) 0 (2 ^ 16), .settingsCommit (.i3c 256) 0, .settingsCommit (.i3c 8) (2 ^ 8),
    .resetRelease (2 ^ 4), .startupStepComplete { stepW with lanes := [(32, 0)] }, .deviceResetWrite (.i3c 256) 0,
    .deviceResetWrite (.i3c 8) (2 ^ 8), .lifeCycleTransition (.i3c 256) 0, .lifeCycleTransition (.i3c 8) (2 ^ 16),
    .authorisationToken (.i3c 256) 0, .authorisationToken (.i3c 8) (2 ^ 5120), .updateBegin (.i3c 256) 0, .updateBegin (.i3c 8) (2 ^ 30),
    .updateAppend (.i3c 256) 0, .updateAppend (.i3c 8) (2 ^ 30), .updateFinish (.i3c 256) 0, .updateFinish (.i3c 8) (2 ^ 30),
    .attestationNonce (.i3c 256) 0, .attestationNonce (.i3c 8) (2 ^ 384), .tamperTrip 0 (2 ^ 8), .pllLockLoss (2 ^ 16),
    .pllRelock (2 ^ 16), .pllRelockTimeout (2 ^ 16), .moveUnitBoundary 0 (2 ^ 64), .setEndpointId (2 ^ 8),
    .dynamicAddressAssignment (2 ^ 7), .snapshotFlushComplete 0 0 (2 ^ 16)] :
    List Instr).all (fun i => i.wf = false) = true := by decide +kernel

theorem test_illFormed_Origin : ([{ originA 0 0 with seq := 65536 }, { originA 0 0 with stamp := 2 ^ 64 },
    { originA 0 0 with slot := 64 }, { originA 0 0 with sigObj := 2 ^ 14 }] :
    List Origin).all (fun f => f.wf = false) = true := by decide +kernel

theorem test_illFormed_MtileF : ([{ mtileW with wKdim := 4 }, { mtileW with wNdim := 4 }, { mtileW with aKdim := 4 },
    { mtileW with aMdim := 4 }, { mtileW with dMdim := 4 }, { mtileW with dNdim := 4 }, { mtileW with setNo := 2 },
    { mtileW with accumulate := 2 }, { mtileW with drain := 4 }, { mtileW with wKeep := 2 }, { mtileW with interval := 4 },
    { mtileW with rounding := 8 }, { mtileW with sat := 2 }, { mtileW with intOverflow := 2 }, { mtileW with heirloom := 2 },
    { mtileW with kCount := 256 }, { mtileW with tensor := 2 ^ 24 }, { mtileW with k0 := 2 ^ 32 }, { mtileW with n0 := 2 ^ 32 },
    { mtileW with m0 := 2 ^ 32 }, { mtileW with nCount := 1024 }, { mtileW with mCount := 512 }, { mtileW with reserved := 2 ^ 512 },
    { mtileW with wDesc := 2 ^ 52 }, { mtileW with wDesc := 1 }, { mtileW with aDesc := 2 ^ 52 }, { mtileW with aDesc := 1 },
    { mtileW with dDesc := 2 ^ 52 }, { mtileW with dDesc := 1 }] :
    List MtileF).all (fun f => f.wf = false) = true := by decide +kernel

theorem test_illFormed_VecF : ([{ vecW with fn := 32 }, { vecW with axis := 2 }, { vecW with order := 2 }, { vecW with k := 128 },
    { vecW with rounding := 8 }, { vecW with sat := 2 }, { vecW with intOverflow := 2 }, { vecW with alpha := 2 ^ 32 },
    { vecW with beta := 2 ^ 32 }, { vecW with tensor := 2 ^ 24 }, { vecW with srOrigin := 2 ^ 48 }, { vecW with srExtent := 2 ^ 32 },
    { vecW with reserved := 2 ^ 512 }, { vecW with aDesc := 2 ^ 52 }, { vecW with aDesc := 1 }, { vecW with bDesc := 2 ^ 52 },
    { vecW with bDesc := 1 }, { vecW with cDesc := 2 ^ 52 }, { vecW with cDesc := 1 }, { vecW with dDesc := 2 ^ 52 },
    { vecW with dDesc := 1 }] :
    List VecF).all (fun f => f.wf = false) = true := by decide +kernel

theorem test_illFormed_MoveF : ([{ moveW with reserved := 2 ^ 512 }, { moveW with src := 2 ^ 52 }, { moveW with src := 1 },
    { moveW with dst := 2 ^ 52 }, { moveW with dst := 1 }, { moveW with index := 2 ^ 52 }, { moveW with index := 1 }] :
    List MoveF).all (fun f => f.wf = false) = true := by decide +kernel

theorem test_illFormed_CollF : ([{ collW with emit := 2 ^ 32 }, { collW with handle := 2 ^ 32 }, { collW with root := 1024 },
    { collW with scheme := 4 }, { collW with combine := 4 }, { collW with srcKind := 2 }, { collW with delKind := 2 },
    { collW with rounding := 8 }, { collW with sat := 2 }, { collW with tensor := 2 ^ 24 }, { collW with k := 128 },
    { collW with reserved := 2 ^ 512 }, { collW with src := 2 ^ 52 }, { collW with src := 1 }, { collW with dst := 2 ^ 52 },
    { collW with dst := 1 }, { collW with positions := 2 ^ 52 }, { collW with positions := 1 }] :
    List CollF).all (fun f => f.wf = false) = true := by decide +kernel

theorem test_illFormed_SnapF : ([{ snapW with handle := 2 ^ 32 }, { snapW with localBase := 2 ^ 32 }, { snapW with localLen := 2 ^ 32 },
    { snapW with entries := 65536 }, { snapW with netInterval := 256 }, { snapW with opt := 2 }, { snapW with obj := 2 ^ 32 },
    { snapW with reserved := 2 ^ 512 }, { snapW with manifest := 2 ^ 52 }, { snapW with manifest := 1 }, { snapW with table := 2 ^ 52 },
    { snapW with table := 1 }, { snapW with status := 2 ^ 52 }, { snapW with status := 1 }] :
    List SnapF).all (fun f => f.wf = false) = true := by decide +kernel

theorem test_illFormed_HandleF : ([{ handleW with wire := 4 }, { handleW with group := 256 }, { handleW with handle := 2 ^ 32 },
    { handleW with job := 2 ^ 64 }, { handleW with timeout := 2 ^ 32 }, { handleW with emit := 2 ^ 32 },
    { handleW with reserved := 2 ^ 512 }, { handleW with table := 2 ^ 52 }, { handleW with table := 1 }] :
    List HandleF).all (fun f => f.wf = false) = true := by decide +kernel

theorem test_illFormed_Req : ([{ reqW with version := 256 }, { reqW with tag := 65536 }, { reqW with index := 65536 },
    { reqW with sub := 256 }, { reqW with count := 256 }, { reqW with offset := 2 ^ 32 }, { reqW with length := 65536 },
    { reqW with ty := 256 }, { reqW with flags := 256 }, { reqW with payload := List.replicate 1025 0 }, { reqW with payload := [256] }] :
    List Req).all (fun f => f.wf = false) = true := by decide +kernel

theorem test_illFormed_PacketF : ([{ packetW with handle := 2 ^ 24 }, { packetW with psn := 2 ^ 24 }, { packetW with rank := 1024 },
    { packetW with job := 2 ^ 32 }, { packetW with epoch := 2 ^ 32 }, { packetW with seq := 2 ^ 32 }, { packetW with phase := 2 },
    { packetW with chunk := 2 ^ 32 }, { packetW with off := 2 ^ 32 }, { packetW with digest := 2 ^ 32 },
    { packetW with payload := [256] }] :
    List PacketF).all (fun f => f.wf = false) = true := by decide +kernel

theorem test_illFormed_JobIn : ([{ jobW with r := { jobW.r with ty := 256 } }, { jobW with r := { jobW.r with stack := 32 } },
    { jobW with r := { jobW.r with conv := 256 } }, { jobW with r := { jobW.r with emit := 2 ^ 32 } },
    { jobW with r := { jobW.r with tensor := 2 ^ 24 } }, { jobW with r := { jobW.r with src0 := 2 ^ 52 } },
    { jobW with r := { jobW.r with src1 := 2 ^ 52 } }, { jobW with r := { jobW.r with dst := 2 ^ 52 } },
    { jobW with r := { jobW.r with aux := 2 ^ 64 } }, { jobW with r := { jobW.r with origin := 2 ^ 48 } },
    { jobW with r := { jobW.r with count := 2 ^ 32 } }, { jobW with r := { jobW.r with waitObj := 2 ^ 14 } },
    { jobW with r := { jobW.r with sigObj := 2 ^ 14 } }, { jobW with r := { jobW.r with waitVal := 2 ^ 64 } },
    { jobW with r := { jobW.r with reserved := 2 ^ 512 } }, { jobW with stamp := 2 ^ 64 }] :
    List JobIn).all (fun f => f.wf = false) = true := by decide +kernel

theorem test_illFormed_FrameF : ([{ frameW with len := 65536 }, { frameW with tags := [4096] }, { frameW with body := .lldp (2 ^ 152) 0 },
    { frameW with body := .lldp 0 (2 ^ 352) }, { frameW with body := .addrRequest false (2 ^ 128) 0 },
    { frameW with body := .addrRequest false 0 (2 ^ 128) }, { frameW with body := .addrReply true (2 ^ 128) 0 },
    { frameW with body := .addrReply true 0 (2 ^ 48) }, { frameW with body := .icmp false (2 ^ 128) 0 true [] },
    { frameW with body := .icmp false 0 (2 ^ 128) true [] }, { frameW with body := .icmp false 0 0 true [256] }] :
    List FrameF).all (fun f => f.wf = false) = true := by decide +kernel

theorem test_illFormed_readings : ([⟨0, none, [], 0, 0⟩, ⟨0, none, List.replicate 10 0, 2 ^ 32, 0⟩, ⟨0, none, List.replicate 10 0, 0,
    2 ^ 32⟩] :
      List ActF).all (fun f => f.wf = false) = true ∧
    ([⟨0, true, 65536, 0⟩, ⟨0, true, 0, 2 ^ 31⟩, ⟨0, true, 0, -2 ^ 31 - 1⟩] : List SampleF).all (fun f => f.wf = false) = true ∧
    ([⟨true, [], [], [(32, 0)], [], [], false⟩, ⟨true, [], [], [(0, 64 * 36)], [], [], false⟩] : List StepF).all (fun f => f.wf = false) = true ∧
    ([.i3c 256, .vlan (2 ^ 128)] : List Via).all (fun f => f.wf = false) = true := by decide +kernel
/-! Worked examples of the spec; each names where its expected values stand. -/

/-- The MTILE of the example after R405. -/
def mtileExample : MtileF :=
  ⟨0x400001000, 0x400001040, 0x400001080, 0, 1, 0, 1, 1, 0, 1, 1, 1, 0, 1, 1, 0, 0, 0, 128, 0x311, 896, 1024, 0, 512, 256, 0⟩

/-- Its 64 bytes, as the table of that example gives them. -/
def mtileExampleWord : Nat :=
  0x144A01A700000510 + 0x0110000400001000 <<< 64 + 0x04D0000400001049 <<< 128 + 0x0000000400001080 <<< 192 + 0x80000311 <<< 256 +
    0x380 <<< 288 + 0x400 <<< 320 + 0 <<< 352 + 0x200 <<< 384 + 0x100 <<< 400

theorem test_mtile_encodes : (cmdOf ⟨40, 0, 0x1A7, 0, 5, false, true, 0x512⟩ 0x10 0 (mtileFields mtileExample)).map (·.raw) =
    some mtileExampleWord ∧ mtileOf mtileExampleWord = mtileExample ∧
    leBytes 8 mtileExampleWord = [0x10, 0x05, 0x00, 0x00, 0xA7, 0x01, 0x4A, 0x14] := by decide +kernel

/-- R69 and R73 in the example before R92: intervals 32 and 16, carry 0.5 left by row group 0. -/
def passExample (n : Nat) : Nat :=
  let a := (List.replicate 32 0).set 0 0x3F00 ++ [0x3F80, 0x4040, 0xBF40] ++ List.replicate 17 0 ++ [0x3580] ++ List.replicate 75 0
  let w := (List.replicate 32 0).set 0 0x3F80 ++ [0x3F80, 0x3FC0, 0x3F80] ++ List.replicate 17 0 ++ [0x3F81] ++ List.replicate 75 0
  (floatPass false n (a.map (opnd 0x1)) (w.map (opnd 0x1)) (List.replicate 4 none) (List.replicate 4 none) []).1

theorem test_pass_example : passExample 32 = 0x40A80000 ∧ passExample 16 = 0x40A80002 := by decide +kernel

/-- The VB4 block of the example after R36: scale 0x6E and the element codes of 2.5, -0.9 and 0.1. -/
theorem test_block_example : (blockScale 0xC 0x40200000 []).1 = 0x6E ∧
    ([0x40200000, 0xBF666666, 0x3DCCCCCD].map (fun x => (encodeElem false e2m1 x x one32 0x6E Rnd.rne 0 []).1)) = [0x7, 0xC, 0x0] := by
  decide +kernel

/-- The M48 example of "Number Formats and Rounding". -/
theorem test_m48_example : (convertFloat (unpackFloat m48 0x3F8000000200) fp32 0 false 0 []).1 = 0x3F800000 ∧
    (addF m48 0x3F8000000200 (0x2E000000 <<< 16) []).1 = 0x3F8000000210 ∧ (add32 0x3F800000 0x2E000000 []).1 = 0x3F800000 := by decide +kernel

/-- The integer example after R47: 300 and -200 to INT8, 2.5 and -2.5, 10 to the 9. -/
theorem test_integer_example : (narrowInt 8 0 300 []).1 = 0x7F ∧ (narrowInt 8 1 300 []).1 = 0x2C ∧ (narrowInt 8 0 (-200) []).1 = 0x80 ∧
    (narrowInt 8 1 (-200) []).1 = 0x38 ∧ (convertInt (unpackFloat fp32 0x40200000) 8 0 0 []).1 = 2 ∧
    (convertInt (unpackFloat fp32 0xC0200000) 8 0 0 []).1 = 0xFE ∧ (convertInt (unpackFloat fp32 0x4E6E6B28) 8 0 0 []).1 = 127 := by
  decide +kernel

/-- The stochastic rounding example after R49: 0.3 to E4M3 rounds up exactly where r is at least 26,215. -/
theorem test_stochastic_example : (convertFloat (unpackFloat fp32 0x3E99999A) e4m3 1 false 26215 []).1 = 0x2A ∧
    (convertFloat (unpackFloat fp32 0x3E99999A) e4m3 1 false 26214 []).1 = 0x29 := by decide +kernel

/-- The placement example after R245: stack 22, offset 0x30E904C40. -/
theorem test_placement_example : dpaPhys (0x034C3A410000 + 0x2C40) = some (1, 12, 22, 0x30E904C40) := by decide +kernel

/-- The split example after R450: 53 and 11 engines, a suggestion at the default threshold, and its masks. -/
theorem test_split_example : suggest [197100000, 39000000] [54, 10] 64 5 = ([53, 11], true) ∧
    runMasks (List.range 64) [53, 11] = [0x001FFFFFFFFFFFFF, 0xFFE0000000000000] := by decide +kernel

/-- SHA-384 of "abc" (FIPS 180-4, which R693 names). -/
theorem test_sha384 : Crypto.beNat (Crypto.sha384 [0x61, 0x62, 0x63]) =
    0xcb00753f45a35e8bb5a03d699ac65007272c32ab0eded1631a8b605a43ff5bed8086072ba1e7cc2358baeca134c825a7 := by decide +kernel

theorem test_crc32c : crc32c [0x31, 0x32, 0x33, 0x34, 0x35, 0x36, 0x37, 0x38, 0x39] = 0xE3069283 := by decide +kernel

/-! A state and operands for each statement: they meet its hypotheses, clause by clause. -/

theorem witness_stepRunsFront : ({ State.reset with pending := [.nop (originA 0 0) 0] } : State).pending = [.nop (originA 0 0) 0] ∧
    State.reset.pending = [] := by decide +kernel

theorem witness_storeOnlyBurns : Persist.legal State.reset.persist ∧ (∀ b, State.reset.dev.boot.burnLife = some b → b ≤ 4) ∧
    ∃ t, step State.reset = .next t := ⟨by decide +kernel, by simp [State.reset, Dev.reset, Boot.cold], _, rfl⟩

theorem witness_remaindersStaySmall : (∀ r ∈ (partWith (fun d => { d with pow := { d.pow with rest := [(1024, 999999)] } })).dev.pow.rest,
    r.2 < 1000000) ∧ ∃ t, step (partWith (fun d => { d with pow := { d.pow with rest := [(1024, 999999)] } })) = .next t :=
  ⟨by decide +kernel, _, rfl⟩

/-- Object 5 of context 0, object 64 of context 1 on which site 0 may wait, a handle of a job of 2 of which this package
is rank 0. -/
def syncPart (d : Dev) : Dev :=
  { d with blocks := [(0, 2 ^ 31 + 2 ^ 30), (1, 2 ^ 31 + 2 ^ 24 + 1)], sync := [(5, 7)],
           net := { d.net with handles := [(9, ⟨0, 0, 0, 0, 3, 0, 1, 2, 0, [], 0, 0, [], [], [], [], none, 0, 0, [], false⟩)] } }

theorem witness_syncCommandsRun : let d := (partA syncPart).dev
    let o : Origin := ⟨0, 0, 0, 0, 0, false, true, 5⟩
    fits o d ∧ plain o d ∧ d.ownsObj 0 5 = true ∧ d.waitsObj 0 5 = true ∧ d.waitsObj 0 64 = true ∧ 7 ≤ d.counter 5 ∧
    d.counter 64 < 2 ^ 64 - 1 ∧ (d.stream 0 0).run = [] ∧ d.owner 0 = some 0 ∧ (d.site 0).phase = 4 ∧
    (((partA (fun d => (syncPart d).updSite 0 (fun s => { s with phase := 3 }))).dev).site 0).phase ≠ 4 ∧
    ((d.ctx 0).hints.filter (fun h => d.now < h.stop)).length < 8 ∧
    d.handle? 9 = some ⟨0, 0, 0, 0, 3, 0, 1, 2, 0, [], 0, 0, [], [], [], [], none, 0, 0, [], false⟩ ∧
    d.remoteOk 9 1 3 5 = true := by decide +kernel

theorem witness_refusedHeaderStops : fits (originA 0 63) (partA id).dev ∧ (originA 0 63).slot ≠ 0 ∧ fits (originA 65535 0) (partA id).dev ∧
    ((partA id).dev.stream 0 0).stopped = false := by decide +kernel

theorem witness_syncUnitApplies :
    let d := (partA (fun d => { d with syncQ := [⟨3, 5, false, 1, 0⟩, ⟨15, 5, true, 4, 0⟩, ⟨15, 6, false, 9, 0⟩] })).dev
    d.nextSync = some ⟨15, 5, true, 4, 0⟩ ∧ d.fn 0x7000 ≠ 2 ∧ (Tbl.look Arb.reset 0 d.arbs).lose = [] ∧ (partA id).dev.syncQ = [] := by
  decide +kernel

/-- Stream 0 of context 0 held at an SWAIT of sequence 2 on object 5 for the value v. -/
def waitPart (v : Nat) (d : Dev) : Dev :=
  (syncPart d).updStream 0 0 (fun x => { x with
    waiting := true, waitObj := 5, waitVal := v, waitLeft := 10,
    run := [{ issuedOf ⟨0, 0, 2, 0, 0, false, false, 0⟩ 0x02 15 none with status := 0 }] })

theorem witness_waitsAndWindow :
    (∀ v ∈ [7, 8], let d := (partA (waitPart v)).dev
      let x := d.stream 0 0
      x.waiting = true ∧ x.waitMet = false ∧ 0 < x.waitLeft ∧ x.stopped = false ∧ d.ctxReg 0 0x22 % 2 = 0 ∧
      x.run.find? (fun e => e.op = 0x02 && e.status = 0) = some (issuedOf ⟨0, 0, 2, 0, 0, false, false, 0⟩ 0x02 15 none)) ∧
    ¬ ((partA (waitPart 7)).dev.counter 5 < 7) ∧ (partA (waitPart 8)).dev.counter 5 < 8 ∧
    let d := (partA syncPart).dev
    (d.site 0).link = 3 ∧ (∀ h < 4, d.linkHolds h = false) ∧ (d.site 3).link ≠ 3 ∧
    (partA (fun d => sitePart 3 3 (syncPart d))).dev.objOwner 16383 = none ∧ ((partA (fun d => sitePart 3 3 (syncPart d))).dev.site 3).link = 3 ∧
    d.objOwner 5 = some 0 ∧ d.owner 0 = some 0 ∧ d.objOwner 64 = some 1 ∧ d.owner 1 ≠ some 3 ∧ bit (d.block 1) 24 = true ∧
    bit (d.block 1) 27 = false ∧ d.objOwner 16383 = none ∧ d.remoteOk 9 1 3 5 = true ∧ d.remoteOk 9 1 3 64 = false ∧
    16384 ≤ 16384 := by decide +kernel

theorem witness_submissionsTaken :
    let d := (partA id).dev
    (∀ f ∈ [id, fun (d : Dev) => d.setReg 0x4000 0x25 0x4000], let d := (partA f).dev
      (d.site 0).phase = 4 ∧ (d.site 0).heldLink = false ∧ d.locked 13 0 = true ∧ d.ctxState 0 = 2 ∧ d.ctxReg 0 0x22 % 2 = 0 ∧
      d.owner 0 = some 0 ∧ 12288 % 16384 / 4096 < d.streamCount 0 ∧ 12288 % 4096 / 64 ≠ 63 ∧ bits 1 47 32 = (d.stream 0 3).expected ∧
      (d.stream 0 3).q.length + b2n ((d.stream 0 3).waiting && !(d.stream 0 3).waitMet) < 256 ∧ 3 < (d.ctx 0).streams.length) ∧
    d.replayOn 0 = false ∧ (partA (fun d => d.setReg 0x4000 0x25 0x4000)).dev.replayOn 0 = true ∧
    d.dropCause 0 0 0 63 64 true 1 ≠ 0 ∧ d.dropCause 0 0 0 0 64 true (2 ^ 32 + 1) ≠ 0 ∧ 0 < (d.ctx 0).streams.length ∧
    (d.site 1).phase ≠ 4 ∧ (d.site 1).heldLink = false ∧ d.locked 13 1 = true ∧
    (∀ n ∈ [0, 1], let e := (partA (fun d => d.updStream 0 0 (fun x => { x with dropTimer := true, dropNum := n }))).dev
      (e.stream 0 0).dropTimer = true ∧ (e.stream 0 0).dropNum = n) ∧ (d.stream 0 0).dropTimer = false := by decide +kernel

/-- Stream 0 of context 0 with a command queued. -/
def queuedPart (raw : Nat) (d : Dev) : Dev := d.updStream 0 0 (fun x => { x with q := [⟨raw, 0, false, 0⟩] })

/-- Stream 0 of context 0 with a command of an opcode and a status on its scoreboard. -/
def boardPart (op status : Nat) (d : Dev) : Dev :=
  d.updStream 0 0 (fun x => { x with run := [{ issuedOf (originA 65535 0) op 15 none with status := status }] })

theorem witness_commandsIssueAndComplete_tables : ∀ c, ((partA (queuedPart 1)).dev.ctx c).schedTab = []
  | 0 => rfl
  | _ + 1 => rfl

theorem witness_commandsIssueAndComplete :
    (let s := partA (queuedPart 1)
     s.dev.issueOrder.find? (fun p => s.mayIssue p.1 p.2) = some (0, 0) ∧ (s.dev.stream 0 0).q = [⟨1, 0, false, 0⟩] ∧
     opcodeOf 1 = 0x01 ∧ 1 &&& bareMask = 0 ∧ fits (originA 0 0) s.dev ∧ plain (originA 0 0) s.dev ∧
     (s.dev.stream 0 0).stopped = false ∧ (s.dev.stream 0 0).waiting = false ∧ (s.dev.ctx 0).schedTab = [] ∧ (s.dev.ctx 0).gated = 0) ∧
    (partA id).dev.issueOrder.find? (fun p => (partA id).mayIssue p.1 p.2) = none ∧
    (∀ p ∈ [(0x01, 1), (0x05, 0), (0x04, 0), (0x10, 2), (0x62, 1)], let d := (partA (boardPart p.1 p.2)).dev
      (d.upd 0).norm = none ∧ (d.upd 0).fence = none ∧ d.replayOn 0 = false ∧ d.fwd = [] ∧ (d.upd 0).sec = none ∧ (d.ctx 0).win ≠ 1 ∧ 0 < (d.ctx 0).streams.length ∧
      (d.stream 0 0).run.find? (fun z => z.seq = 65535) = some { issuedOf (originA 65535 0) p.1 15 none with status := p.2 } ∧
      (d.stream 0 0).stopped = false) := by decide +kernel

/-- Stream 0 of context 0 stopped by a NOP. -/
def stoppedPart (d : Dev) : Dev :=
  d.updStream 0 0 (fun x => { x with stopped := true, cause := 1, reason := 0x0201, stopSeq := 3, stopOp := 1, stopCmd := some ⟨1, 0, false, 0⟩ })

theorem witness_streamControlRestarts : let s := partA stoppedPart
    0 < (s.dev.ctx 0).streams.length ∧ (s.dev.stream 0 0).stopped = true ∧ (s.dev.stream 0 0).stopOp ≠ 0x61 ∧
    (s.dev.stream 0 0).stopOp ≠ 0x62 ∧ s.passes (.mailbox 0) 0x4000 0x0E 1 ∧ s.passes (.i3c 8) 0x4000 0x0E 2 ∧
    s.passes (.mailbox 0) 0x4000 0x0E 3 := by decide +kernel

/-- A vector command's fields: sources at descriptors a, b, c, destination at descriptor d. -/
def vecF (a b c d fn k : Nat) : VecF := ⟨a, b, c, d, fn, 0, 0, k, 0, 0, 0, 0, 0, 0, 0, 0, 0⟩

/-- Each vector command on one-element tensors: opcode and fields. -/
def vecCases : List (Nat × VecF) :=
  [(0x20, vecF 0 0 0 0x40 0 0), (0x21, vecF 0 0 0 0x40 0 0), (0x22, vecF 0 0 0 0x40 0 0), (0x23, vecF 0 0 0 0x40 0 0),
   (0x24, vecF 0 0 0 0x40 0 0), (0x25, vecF 0 0 0 0x40 0 0), (0x26, vecF 0 0 0 0x40 0 0), (0x27, vecF 0 0 0 0x40 0 0),
   (0x28, vecF 0 0 0 0x40 0 0), (0x29, vecF 0 0 0 0x40 14 0), (0x2A, vecF 0 0 0 0x40 5 0), (0x2B, vecF 0 0 0 0x40 0 0),
   (0x2C, vecF 0 0 0 0x40 0 0), (0x2D, vecF 0 0 0 0x40 0 0), (0x2E, vecF 0 0 0 0x40 0 0), (0x2F, vecF 0 0 0 0x40 1 0),
   (0x30, vecF 0 0 0x140 0x40 0 1), (0x31, vecF 0 0 0 0x40 1 0), (0x32, vecF 0 0 0 0x40 0 0), (0x33, vecF 0x80 0 0 0x40 0 0)]

/-- A vector command's checks and descriptors are good, its engine runs, and all of its tiles can be computed. -/
def vecGoes (op : Nat) (f : VecF) (s : State) : Bool :=
  match vecIssue op (originA 0 0) f (s.atUnit (originA 0 0) op (s.dev.slotInput (originA 0 0)) (cmdOf (originA 0 0) op f.reserved (vecFields op f))) with
  | (.ok (e, x), w) => w.dev.engRuns e && (w.dev.eng e).vq.isEmpty && okOf (Act.work 0 e (vecRun e x) w)
  | _ => false

/-- Its checks and descriptors are good, and its engine does not run or has commands before it. -/
def vecWaits (op : Nat) (f : VecF) (s : State) : Bool :=
  match vecIssue op (originA 0 0) f (s.atUnit (originA 0 0) op (s.dev.slotInput (originA 0 0)) (cmdOf (originA 0 0) op f.reserved (vecFields op f))) with
  | (.ok (e, _), w) => !(w.dev.engRuns e) || !(w.dev.eng e).vq.isEmpty
  | _ => false

/-- A one-element descriptor as read. -/
def desc1 (fmt place base : Nat) : Desc := ⟨fmt, place, false, 0, one32, base, [1, 1, 1, 1], [1, 0, 0, 0], 0, 0⟩

/-- A vector command as it waits in the queue of its engine. -/
def vecA : VecCmd :=
  ⟨0x20, originA 0 0, vecF 0 0 0 0x40 0 0, some (desc1 0 3 0x10000, none), none, none, (desc1 0 3 0x10100, none), none, 0⟩

theorem witness_vectorCommandsRun : fits (originA 0 0) (partM id).dev ∧ vecCases.length = 20 ∧
    (vecCases.take 10).all (fun p => vecGoes p.1 p.2 (partM id)) = true ∧
    (vecCases.drop 10).all (fun p => vecGoes p.1 p.2 (partM id)) = true ∧
    vecCases.all (fun p => vecWaits p.1 p.2 (partM (fun d => d.setReg 0x3000 0x02 0))) = true ∧
    vecWaits 0x20 (vecF 0 0 0 0x40 0 0) (partM (fun d => d.updEng 0 (fun k => { k with vq := [vecA] }))) = true := by decide +kernel

theorem witness_integersExact : (-2 ^ 31 : Int) ≤ 2 ^ 31 - 1 + 0 ∧ (2 ^ 31 - 1 : Int) + 0 < 2 ^ 31 ∧ (2 ^ 31 : Int) ≤ 2 ^ 31 - 1 + 1 ∧
    -2 ^ 31 - 1 < (-2 ^ 31 : Int) ∧ ({ vecF 0 0 0 0 0 0 with intOverflow := 1 } : VecF).intOverflow = 1 := by decide

/-- Each move between the one-element FP32 tensors, with its index list. -/
def moveCases : List (Nat × MoveF) := [(0x40, ⟨0, 0x40, 0, 0⟩), (0x41, ⟨0, 0x40, 0x140, 0⟩), (0x42, ⟨0, 0x40, 0x140, 0⟩)]

/-- A move's checks are good, its engine runs, and all of its units can be moved. -/
def moveGoes (op : Nat) (f : MoveF) (s : State) : Bool :=
  match moveIssue op (originA 0 0) f (s.atUnit (originA 0 0) op (s.dev.slotInput (originA 0 0)) (cmdOf (originA 0 0) op f.reserved (moveFields f))) with
  | (.ok (e, x), w) => w.dev.engRuns e && (w.dev.eng e).dq.isEmpty && okOf (moveRun e x w)
  | _ => false

/-- Its checks are good, and its engine does not run or has moves before it. -/
def moveWaits (op : Nat) (f : MoveF) (s : State) : Bool :=
  match moveIssue op (originA 0 0) f (s.atUnit (originA 0 0) op (s.dev.slotInput (originA 0 0)) (cmdOf (originA 0 0) op f.reserved (moveFields f))) with
  | (.ok (e, _), w) => !(w.dev.engRuns e) || !(w.dev.eng e).dq.isEmpty
  | _ => false

/-- A move as it waits in the queue of its engine. -/
def moveA (op : Nat) : MoveCmd := ⟨op, originA 0 0, desc1 0 3 0x10000, desc1 0 3 0x10100, none, [], false, 0⟩

theorem witness_movesRun : fits (originA 0 0) (partM id).dev ∧
    moveCases.all (fun p => moveGoes p.1 p.2 (partM id) && moveWaits p.1 p.2 (partM (fun d => d.setReg 0x3000 0x02 0))) = true ∧
    moveWaits 0x40 ⟨0, 0x40, 0, 0⟩ (partM (fun d => d.updEng 0 (fun k => { k with dq := [moveA 0x40] }))) = true ∧
    ({ moveA 0x41 with list := some (desc1 0xA 3 0x10400), idx := [0] } : MoveCmd).list.isSome := by decide +kernel

theorem witness_unitsAtBoundaries :
    (let s := partM (fun d => d.updEng 0 (fun k => { k with vq := [vecA], dq := [moveA 0x40] }))
     let k := s.dev.eng 0
     s.dev.engRuns 0 = true ∧ k.scV.cur = none ∧ k.scD.cur = none ∧ k.jobs.any (fun j => j.ph = 2 && !j.merged) = false ∧
     ((s.dev.addReg 0x3000 0x17 1).addReg 0x3000 0x16 0).choose 0 k.scV (k.vq.map (fun x => x.o.ctx.val)) = some 0 ∧
     k.nextVec 0 = some vecA ∧ okOf (Act.work 0 0 (vecTile 0 vecA) ⟨s.mem, s.dev.updEng 0 (fun k => { k with scV := ⟨some 0, 0⟩ })⟩) = true ∧
     s.dev.choose 0 k.scD (k.dq.map (fun x => x.o.ctx.val)) = some 0 ∧
     k.dq.find? (fun x => x.o.ctx.val = 0) = some (moveA 0x40) ∧
     (match movePlan 0 (moveA 0x40) ⟨s.mem, s.dev.updEng 0 (fun k => { k with scD := ⟨some 0, 0⟩ })⟩ with
      | (.ok y, w) => (match y.units[y.next]? with
        | some prs => okOf (moveUnit 0 y prs w)
        | none => false)
      | _ => false) = true) ∧
    ((partM id).dev.eng 0).vq = [] ∧ ((partM id).dev.eng 0).dq = [] ∧ ((partM id).dev.eng 0).scV.cur = none ∧
    ((partM id).dev.eng 0).scD.cur = none := by decide +kernel

/-- A tile job of one weight and one activation in INT8 that drains to INT32. -/
def mtileA (drain kCount : Nat) : MtileF :=
  ⟨0xC0, 0xC0, 0x80, 0, 1, 0, 1, 1, 0, 0, 0, drain, 0, 0, 0, 0, 0, 0, kCount, 0, 0, 0, 0, 1, 1, 0⟩

/-- It waits in the array's queue in a phase. -/
def jobA (drain ph : Nat) : TileJob :=
  ⟨originA 0 0, mtileA drain 1, desc1 0x7 3 0x10300, desc1 0x7 3 0x10300, if drain = 1 then some (desc1 0xA 3 0x10200) else none,
   none, none, none, 2, ph, false, [0], none, false, false⟩

/-- Its accumulation. -/
def accA : Accum := ⟨0, 2, 0, 1, 0, 1, 0, [0], [], false, 0⟩

/-- Engine 0 with a job, a state of set 0. -/
def arrayPart (j : TileJob) (st : Nat) (d : Dev) : Dev :=
  d.updEng 0 (fun k => { k with jobs := [j], sets := [⟨st, if st = 0 then Accum.empty else accA⟩, ⟨0, Accum.empty⟩] })

theorem witness_tileJobsRun :
    (let s := partM id
     let at_ := fun (f : MtileF) => s.atUnit (originA 0 0) 0x10 (s.dev.slotInput (originA 0 0)) (cmdOf (originA 0 0) 0x10 f.reserved (mtileFields f))
     fits (originA 0 0) s.dev ∧ okOf (mtileIssue (originA 0 0) (mtileA 1 1) (at_ (mtileA 1 1))) = true ∧
     okOf (slotHeader (originA 0 0) 0 (at_ (mtileA 1 129))) = true ∧ okOf (slotHeader (originA 0 0) 0 (at_ (mtileA 3 1))) = true ∧
     (s.dev.stream 0 0).stopped = false ∧ 128 < (mtileA 1 129).kCount ∧ (mtileA 1 0).kCount = 0 ∧ (mtileA 3 1).drain = 3) ∧
    (let s := partM (arrayPart (jobA 1 0) 0)
     s.dev.engRuns 0 = true ∧ s.dev.nextJob 0 = some (jobA 1 0) ∧ (jobA 1 0).f.wKeep ≠ 1 ∧ (jobA 1 0).loaded = false ∧
     okOf (readWeights 0 (jobA 1 0) ⟨s.mem, s.dev⟩) = true) ∧
    (let j := { jobA 1 0 with loaded := true }
     let s := partM (fun d => (arrayPart j 0 d).updEng 0 (fun k => { k with shadow := some ⟨0, mtWkey j.f, [[⟨7, false, 0, 0⟩]]⟩ }))
     s.dev.nextJob 0 = some j ∧ (s.dev.eng 0).mayFeed j = true ∧
     okOf (Act.work 0 0 (feedJob 0 j) ⟨s.mem, s.dev⟩) = true) ∧
    (∀ drain ∈ [0, 1, 2], ∀ behind ∈ [[], [(0, { accA with bank := [5] })]],
     let s := partM (fun d => (arrayPart (jobA drain 1) 1 d).updEng 0 (fun k => { k with opening := behind }))
     let k := s.dev.eng 0
     k.jobs.find? (fun j => j.ph = 1) = some (jobA drain 1) ∧ 0 < k.sets.length ∧ (k.sets.getD 0 ⟨0, Accum.empty⟩) = ⟨1, accA⟩ ∧
     k.jobs.any (fun i => i.ph = 2 && i.f.setNo = 0) = false ∧ accA.ctx = 0 ∧ okOf (joinPass 0 (jobA drain 1) accA ⟨s.mem, s.dev⟩) = true) ∧
    (let s := partM (arrayPart (jobA 1 2) 1)
     s.dev.engRuns 0 = true ∧ (s.dev.eng 0).jobs.find? (fun j => j.ph = 2 && !j.merged) = some (jobA 1 2) ∧
     okOf (Act.work 0 0 (mergeAll 0 0 accA) ⟨s.mem, s.dev⟩) = true ∧
     0 < ((Act.work 0 0 (mergeAll 0 0 accA) ⟨s.mem, s.dev⟩).2.dev.eng 0).sets.length) := by
  decide +kernel

theorem witness_arraySetsDrain :
    (let j := { jobA 1 2 with merged := true, checked := true }
     let s := partM (arrayPart j 1)
     0 < (s.dev.eng 0).sets.length ∧
     (s.dev.eng 0).jobs.find? (fun j => j.ph = 2 && j.f.setNo = 0 && j.merged && j.checked) = some j ∧
     j.dd = some (desc1 0xA 3 0x10200) ∧ okOf (Act.work 0 0 (drainRows 0 j (desc1 0xA 3 0x10200) accA) ⟨s.mem, s.dev⟩) = true ∧
     0 < ((Act.work 0 0 (drainRows 0 j (desc1 0xA 3 0x10200) accA) ⟨s.mem, s.dev⟩).2.dev.eng 0).sets.length) ∧
    ((partM (arrayPart (jobA 1 3) 2)).dev.eng 0).jobs.find? (fun j => j.ph = 3 && j.f.setNo = 0) = some (jobA 1 3) ∧
    (let s := partM (fun d => ((arrayPart { jobA 1 0 with o := ⟨1, 0, 0, 0, 0, false, false, 0⟩ } 1 d).setReg 0x4001 0x02 2))
     (s.dev.eng 0).jobs.any (fun j => (j.ph = 1 || j.ph = 2) && j.f.setNo = 0) = false ∧ (s.dev.eng 0).saves.length < 8 ∧
     s.dev.nextJob 0 = some { jobA 1 0 with o := ⟨1, 0, 0, 0, 0, false, false, 0⟩ } ∧ accA.ctx ≠ 1 ∧
     (s.dev.eng 0).needsSet { jobA 1 0 with o := ⟨1, 0, 0, 0, 0, false, false, 0⟩ } 0 = true) ∧
    ({ Eng.reset with saves := [(0, accA)] } : Eng).needsSet { jobA 1 0 with f := { mtileA 1 1 with accumulate := 2 } } 0 = true ∧
    (partM (fun d => (d.setReg 0x4000 0x02 3).updEng 0 (fun k => { k with sets := [⟨1, accA⟩, ⟨0, Accum.empty⟩] }))).dev.ctxState accA.ctx = 3 ∧
    (let j := { jobA 1 0 with f := { mtileA 1 1 with accumulate := 2 } }
     let s := partM (fun d => (arrayPart j 0 d).updEng 0 (fun k => { k with saves := [(0, accA)] }))
     s.dev.nextJob 0 = some j ∧ j.f.accumulate ≠ 0 ∧ j.f.setNo = 0 ∧
     (s.dev.eng 0).saves.find? (fun p => p.1 = 0 && p.2.ctx = 0) = some (0, accA)) ∧
    (let j := { jobA 1 2 with merged := true }
     let s := partM (arrayPart j 1)
     s.dev.engRuns 0 = true ∧ (s.dev.eng 0).jobs.find? (fun j => j.ph = 2 && j.merged && !j.checked) = some j ∧
     ((s.dev.eng 0).sets.getD 1 ⟨0, Accum.empty⟩).st = 0 ∧ okOf (Act.work 0 0 (checkAcc 0 j accA) ⟨s.mem, s.dev⟩) = true ∧
     0 < ((Act.work 0 0 (checkAcc 0 j accA) ⟨s.mem, s.dev⟩).2.dev.eng 0).sets.length) ∧
    ((partM id).dev.eng 0).jobs = [] ∧ ((partM (arrayPart (jobA 1 0) 0)).dev.eng 0).jobs ≠ [] := by decide +kernel

/-! Collectives, handles, the norm, the fence, root-engine jobs. -/

/-- A job handle of job 3 in epoch 1 with n members, of which this package is rank 0. -/
def handleA (n : Nat) : Handle := ⟨0, 0, 0, 2, 3, 0, 1, n, 0, [], 0, 0, [], [], [], [], none, 0, 0, [], false⟩

/-- Handle 9 is open. -/
def handlePart (x : Handle) (d : Dev) : Dev := { d with net := { d.net with handles := [(9, x)] } }

/-- A collective's fields: source, destination and positions. -/
def collA (src dst pos k : Nat) : CollF := ⟨src, 0, dst, pos, 9, 0, 0, 0, 0, 0, 0, 0, 0, k, 0⟩

/-- Each collective on the one-element tensors. -/
def collCases : List (Nat × CollF) :=
  [(0x50, collA 0 0x40 0 0), (0x51, collA 0 0x40 0 0), (0x52, collA 0 0x40 0 0), (0x53, collA 0 0x40 0 0),
   (0x54, collA 0 0x40 0x140 1), (0x55, collA 0 0x40 0 0)]

/-- A collective's checks pass and its chunks can be moved: whether their work on this member is over. -/
def collGoes (op : Nat) (f : CollF) (s : State) : Option Bool :=
  match collEnter op (originA 0 0) f (s.atUnit (originA 0 0) op 14 (cmdOf (originA 0 0) op f.reserved (collFields f))) with
  | (.ok _, w) =>
    (w.dev.handle? f.handle).bind (fun y =>
      (y.colls.find? (fun c => c.o.ctx = 0 && c.o.stream = 0 && c.o.seq = 0)).bind (fun k =>
        if y.rx = [] && k.op ≠ 0x61 && (y.colls.find? (fun c => c.seq = k.seq)).isSome &&
            (w.dev.stream 0 0).run.all (fun e => e.status = 0) then
          match k.chunks.mapM (runChunk f.handle k 32) w with
          | (.ok ks, _) => some (ks.all (fun g => k.chunkDone g y.rank))
          | _ => none
        else none))
  | _ => none

theorem witness_collectivesRun : fits (originA 0 0) (partM (handlePart (handleA 1))).dev ∧
    collCases.all (fun p => collGoes p.1 p.2 (partM (handlePart (handleA 1))) == some true) = true ∧
    collGoes 0x50 (collA 0 0x40 0 0) (partM (handlePart (handleA 2))) = some false ∧
    16 ≤ ({ handleA 1 with colls := List.replicate 16 ⟨originA 1 0, 0x50, collA 0 0 0 0, 0, 0, 1, 0, none, none, none, []⟩ } : Handle).colls.length ∧
    (1024 ≤ 1024 ∧ 1023 < 1024 ∧ 0 < 1024 ∧ (roleOf 1 1024 2 1023 0).dest = some 1) := by decide +kernel

/-- A membership table of epoch 5 with one member for job 3 at address 0xE00, zeros at 0xE80. -/
def memberBytes : List Host.Cell := cellsOf 0xE00 (leBytes 4 5 ++ leBytes 2 1 ++ leBytes 2 0 ++ leBytes 8 3)

/-- Device with context 0 and its translations, and more in memory. -/
def partN (cells : List Host.Cell) (f : Dev → Dev) : State :=
  { partM f with mem := { (partM f).mem with hbm := (partM f).mem.hbm ++ cells } }

/-- A collective in progress on handle 9. -/
def collRun (seq : Nat) : Coll := ⟨originA 7 0, 0x50, collA 0 0 0 0, seq, 0, 1, 0, none, none, none, []⟩

theorem witness_handlesLive :
    (let s := partN memberBytes id
     let t := partN memberBytes (handlePart (handleA 1))
     let o := originA 0 0
     let at_ := fun (s : State) (a : Nat) (f : HandleF) => s.atUnit o 0x56 14 (cmdOf o 0x56 f.reserved (handleFields a f))
     fits o s.dev ∧ plain o s.dev ∧ fits o t.dev ∧ plain o t.dev ∧ s.dev.handle? 9 = none ∧ s.dev.net.handles.length < 256 ∧
     handleBad 1 ⟨0, 64, 9, 0xE00, 3, 600000, 0, 0⟩ = false ∧ okOf (readMembers 0 0xE00 3 (at_ s 1 ⟨0, 64, 9, 0xE00, 3, 600000, 0, 0⟩)) = true ∧
     handleBad 2 ⟨0, 0, 9, 0xE80, 0, 1, 0, 0⟩ = false ∧ okOf (vreadNat (netUse 0) 0xE80 32 (at_ s 2 ⟨0, 0, 9, 0xE80, 0, 1, 0, 0⟩)) = true ∧
     bits (bytesAt 0 16 4) 31 24 = 0 ∧ t.dev.handle? 9 = some (handleA 1) ∧ (handleA 1).ctx = 0 ∧
     handleBad 3 ⟨0, 0, 9, 0, 0, 0, 0, 0⟩ = false ∧ handleBad 4 ⟨0, 0, 9, 0xE00, 0, 0, 0, 0⟩ = false ∧ (handleA 1).kind = 0 ∧
     (handleA 1).epoch < 5 ∧
     (match readMembers 0 0xE00 3 (at_ t 4 ⟨0, 0, 9, 0xE00, 0, 0, 0, 0⟩) with
      | (.ok m, w) => m.1 == 5 && w.dev.handle? 9 == some (handleA 1)
      | _ => false) = true ∧
     handleBad 5 ⟨0, 0, 9, 0xE80, 0, 0, 77, 0⟩ = false ∧ okOf (vread (netUse 0) 0xE80 128 (at_ t 5 ⟨0, 0, 9, 0xE80, 0, 0, 77, 0⟩)) = true) ∧
    (let s := partM (handlePart { handleA 2 with colls := [collRun 4, collRun 5] })
     s.dev.handle? 9 = some { handleA 2 with colls := [collRun 4, collRun 5] } ∧ (handleA 2).epoch < 2 ∧ 1 ≤ (handleA 2).epoch ∧
     0 ≠ (handleA 2).epoch ∧ [collRun 4, collRun 5].find? (fun c => c.seq = 5) = some (collRun 5)) ∧
    (let s := partM (handlePart { handleA 1 with kind := 1, unacked := [(3, 0)] })
     s.dev.handle? 9 = some { handleA 1 with kind := 1, unacked := [(3, 0)] } ∧ (s.dev.upd 0).sec = none) := by
  decide +kernel

/-- A descriptor of one element with block scales (R418). -/
def descScaled (fmt loc base scale : Nat) : List Nat :=
  [fmt, 0, loc, 0, 0, 0, 0, 0] ++ leBytes 8 base ++ leBytes 16 (1 + 2 ^ 32 + 2 ^ 64 + 2 ^ 96) ++ leBytes 16 1 ++ leBytes 8 scale ++ leBytes 8 0

/-- Each stack s has 64 KiB of context 0 at 0x1000000 + 0x10000 s (the stack view of slab 0, offset 0x10000); the state
record stands at the start of each (R317, R235). -/
def replicas : List XEnt := (List.range 32).map (fun s => ⟨0, 0x100 + s, 16, s * 2 ^ 36 + 0x10000 + 3⟩)

/-- A schedule record whose fields are in range (R330): floor 0, warm-up floor 1.0, span 1, growth 1.0, base 0.5. -/
def schedA : Nat := one32 <<< 128 + 1 <<< 160 + one32 <<< 224 + 0x3F000000 <<< 256

/-- A state record whose norm is valid and whose target update is 1 (R317, R318). -/
def recordA : Nat := 1 <<< 32 + 2 <<< 64 + ((List.range 8).map (fun i => schedA <<< (8 * (128 + 96 * i)))).sum

/-- In stack 0: the record, a parameter block of one moment at 0x1001000 (R314), descriptors from 0x1001100 on: M48 masters,
VB8 moments, a BF16 gradient, an FP32 tensor; the version record at 0x1002200. -/
def stackCells : List Host.Cell :=
  cellsOf 0x10000 (leBytes 1024 recordA) ++
  cellsOf 0x11000 ([1, 0, 0, 0, 0, 0, 0, 0] ++
    [0x1000000, 0x1001100, 0x1001100, 0x1001140, 0x1001140, 0, 0, 0x1001180, 0x1002300].flatMap (leBytes 8)) ++
  cellsOf 0x11100 (descScaled 0xE 0 0x1002000 0 ++ descScaled 0xD 0 0x1002100 0x1002140 ++ descScaled 0x1 0 0x1002180 0 ++
    descScaled 0x0 0 0x10021C0 0)

/-- At 0x400 a job record of CONVERT on stack 0, at 0x800 the state-record table, at 0xC00 a norm list of one block. -/
def listCells : List Host.Cell :=
  cellsOf 0x400 ([5, 0, 0, 0, 0, 0, 0, 0] ++ [0x10011C0, 0, 0x1001180, 0, 0, 1].flatMap (leBytes 8)) ++
  cellsOf 0x800 ((List.range 32).flatMap (fun s => leBytes 8 (0x1000000 + 0x10000 * s))) ++ cellsOf 0xC00 (leBytes 8 0x1001000)

/-- Device with context 0, its replicas and lists, handle 9 of one member, and root engine 0 running. -/
def partR (f : Dev → Dev) : State :=
  partN (listCells ++ stackCells) (fun d =>
    f (handlePart (handleA 1) (({ d with xcP := [(0, replicas ++ cachedA)] } : Dev).setReg 0x3800 0x02 2)))

/-- A norm under way from sequence 0 of stream 0 of context 0. -/
def normA : NormRun := ⟨originA 0 0, 0xC00, 0x800, 9, 1, false, List.replicate 32 0x80000000, 0⟩

/-- The norm's collective on handle 9. -/
def normColl9 : Coll := ⟨originA 0 0, 0x61, normColl 9, 0, 0, 2, 0, none, none, none, []⟩

/-- UNORM's checks pass: whether encodings of its step are left, and whether it can enter its collective. -/
def normGoes (control : Nat) (s : State) : Option (Bool × Bool) :=
  match unorm (originA 0 0) 0xC00 0x800 9 control 0 (s.atUnit (originA 0 0) 0x61 15
      (cmdOf (originA 0 0) 0x61 0 (unormFields 0xC00 0x800 9 control))) with
  | (.ok false, w) =>
    (w.dev.upd 0).norm.map (fun r => (w.dev.encodingsLeft 0 r.o.stamp,
      !(w.dev.normIn r) && (w.dev.handle? 9).any (fun x => decide (x.colls.length < 16)) && okOf (normEnter 0 r w)))
  | _ => none

theorem witness_normAndJobs :
    (let s := partR id
     let at_ := s.atUnit (originA 0 0) 0x60 (s.rjobsInput 0 0x400) (cmdOf (originA 0 0) 0x60 0 (rjobsFields 0x400 1))
     fits (originA 0 0) s.dev ∧ plain (originA 0 0) s.dev ∧ 0x400 % 64 = 0 ∧ 65535 < 65536 ∧
     (s.dev.stream 0 0).stopped = false ∧ okOf (rjobs (originA 0 0) 0x400 1 0 at_) = true ∧ (s.dev.upd 0).norm = none) ∧
    normGoes (2 ^ 17 + 1) (partR id) = some (false, true) ∧
    (normGoes 1 (partR (fun d => d.updStream 0 1 (fun x => { x with run := [issuedOf (originA 9 0) 0x10 5 none] })))).map (·.1) = some true ∧
    ((partR (fun d => d.updUpd 0 (fun u => { u with norm := some normA }))).dev.upd 0).norm.isSome = true ∧
    (let s := partR (fun d => (handlePart { handleA 1 with colls := [normColl9] } d).updUpd 0 (fun u => { u with norm := some normA }))
     (s.dev.upd 0).norm = some normA ∧ s.dev.handle? 9 = some { handleA 1 with colls := [normColl9] } ∧
     [normColl9].find? (fun k => k.op = 0x61 && k.o = normA.o) = some normColl9 ∧ ([] : List Nat).length = 32 * (1 - 1) ∧
     okOf (normFinish 0 normA normA.row 0 1 ⟨s.mem, (s.dev.updHandle 9 (fun x => { x with colls := [] })).updUpd 0
       (fun u => { u with norm := none })⟩) = true) := by
  decide +kernel

/-- UFENCE's checks pass: whether jobs are left, whether jobs failed, and where it can commit whether its step is skipped. -/
def fenceGoes (s : State) : Option (Bool × Bool × Option Bool) :=
  let o := originA 0 0
  match readSrt 0 0x800 (s.atUnit o 0x62 15 (cmdOf o 0x62 0 [addrField 8 0x800])) with
  | (.ok _, w0) =>
    let held := w0.dev.updUpd 0 (fun u => { u with fence := some (o, 0x800) })
    let w : Wd := ⟨w0.mem, (if (held.ctx 0).bedPending then held.bedApply 0 else held).fenceWindow 0 o.stamp⟩
    some (w.dev.rootLeft 0 o.stamp, (w.dev.upd 0).rootFailed,
      if bits (w.dev.ctxReg 0 0x2C) 51 0 = 0 then
        match readSrt 0 0x800 w with
        | (.ok vas, w1) => match vreadNat (coordUse 0) (vas.headD 0) 1024 w1 with
          | (.ok r, w2) =>
            let skipped := bit (bytesAt r 8 1) 0
            let new := if skipped then r else (List.range 8).foldl (fun r i =>
              setBytesAt r (128 + 96 * i + 48) 8 (bytesAt r (128 + 96 * i + 80) 8)) (setBytesAt r 0 4 (bytesAt r 4 4))
            match writeReplicas 0 vas (setBytesAt new 8 1 (clearMask (bytesAt new 8 1) 2)) w2 with
            | (.ok _, w3) => if (w3.dev.upd 0).sec = none ∧ w3.dev.replayOn 0 = false then some skipped else none
            | _ => none
          | _ => none
        | _ => none
      else none)
  | _ => none

/-- A job of context 0 at root engine 0. -/
def jobIn (ty src0 src1 dst aux emit count : Nat) : JobIn :=
  ⟨0, 0, ⟨ty, 0, 0, emit, 0, src0, src1, dst, aux, 0, count, false, false, 0, 0, 0, 0⟩⟩

/-- A job in its queue. -/
def jobQ (j : JobIn) (started : Bool) : RJob := ⟨j, Policy.reset, started, true, false, 0⟩

theorem witness_fenceCommitsStep :
    let done := fun (d : Dev) => d.updUpd 0 (fun u => { u with normDone := true })
    (let s := partR (fun d => d.updStream 0 0 (fun x => { x with run := [issuedOf (originA 9 0) 0x10 5 none] }))
     fits (originA 0 0) s.dev ∧ (s.dev.stream 0 0).run ≠ []) ∧
    fits (originA 0 0) (partR done).dev ∧ plain (originA 0 0) (partR done).dev ∧ ((partR done).dev.stream 0 0).run = [] ∧
    0x800 % 64 = 0 ∧ ((partR done).dev.upd 0).normDone = true ∧ fenceGoes (partR done) = some (false, false, some false) ∧
    fenceGoes { partR done with mem := { (partR done).mem with hbm := cellsWrite (partR done).mem.hbm 0x10008 [3] } } =
      some (false, false, some true) ∧
    (fenceGoes (partR (fun d => (done d).updStk 0 (fun k =>
      { k with queue := [jobQ (jobIn 5 0 0 0 0 0 1) false] })))).map (·.1) = some true ∧
    (fenceGoes (partR (fun d => d.updUpd 0 (fun u => { u with normDone := true, rootFailed := true })))).map (·.2.1) = some true := by
  decide +kernel

/-- Each job that a command presents, and how it runs: its type, writes, run, and whether it is over at once. -/
def rootCases : List (JobIn × (RJob → Act (List (Nat × Nat))) × (RJob → Act JobEnd) × Bool) :=
  [(jobIn 1 0 0 0x1001180 0x1002400 0 1, stageWrites 0, stageRun 0, false),
   (jobIn 2 0x10011C0 0 9 0 1 1, compressWrites 0, compressRun 0, false),
   (jobIn 3 0x1001000 0 0 0x1002200 0 1, updateWrites 0, updateRun 0, true),
   (jobIn 4 0x1001100 0 0x1001180 0 0 1, dstWrites 0, copyRun 0, true),
   (jobIn 5 0x10011C0 0 0x1001180 0 0 1, dstWrites 0, convertRun 0, true),
   (jobIn 6 0x10011C0 0 0 0 2 1, noWrites, streamOutRun 0, true)]

/-- A received job that may start, whose ranges translate and wait for no image, runs: how it ends. -/
def rootGoes (j : JobIn) (writes : RJob → Act (List (Nat × Nat))) (run : RJob → Act JobEnd) (s : State) : Option (Option JobEnd) :=
  let a := s.onDev (fun d => d.receiveJob 0 j)
  (a.dev.waitingJob 0 j).bind (fun r =>
    if !(a.dev.mayStart 0 r) || !s.dev.fwd.isEmpty then none else
    match a.runAct (do jobOk r; writes r) with
    | (.ok rs, _) =>
      if a.dev.unstreamed 0 0 rs then none else
      let go := { r with started := true, jobHold := false }
      match ((a.onDev (fun d => d.updStk 0 (fun k => { k with queue := k.queue.map (fun x => if x = r then go else x) }))).runAct (run go)).1 with
      | .ok e => some (some e)
      | .error _ => some none
    | _ => none)

/-- Securing of context 0 with an image under way that still has a range of stack 0 to stream. -/
def secureA (runs : List (Nat × Nat)) : Secure :=
  { Secure.opened (originA 0 0) snapW none with image := 1, plan := [⟨0, 0, runs⟩], ranges := [⟨0, 0, runs⟩] }

theorem witness_rootJobsRun :
    rootCases.all (fun p => rootGoes p.1 p.2.1 p.2.2.1 (partR id) ==
      some (some (if p.2.2.2 then JobEnd.over else JobEnd.stays))) = true ∧
    ((partR id).dev.stk 0).arms.length < 8 ∧ (jobIn 6 0x10011C0 0 0 0 2 1).r.count ≠ 0 ∧ (jobIn 5 0 0 0 0 0 1).r.ty ≠ 4 ∧
    rootGoes (jobIn 1 0 0 0x1001180 0x1002400 0 1) (stageWrites 0) (stageRun 0)
      (partR (fun d => d.updStk 0 (fun k => { k with arms := [⟨jobIn 1 0 0 0 0 0 1, desc1 0 0 0, [], false⟩] }))) = some none ∧
    (let j := jobIn 5 0x10011C0 0 0x1001180 0 0 1
     let a := (partR (fun d => d.setReg 0x3800 0x02 0)).onDev (fun d => d.receiveJob 0 j)
     (match a.dev.waitingJob 0 j with
      | some r => !(a.dev.mayStart 0 r)
      | none => false) = true) ∧
    (let j := jobIn 4 0x1001100 0 0x1001180 0 0 1
     let a := (partR (fun d => d.updUpd 0 (fun u => { u with sec := some (secureA [(0x12181, 1)]) }))).onDev (fun d => d.receiveJob 0 j)
     (match a.dev.waitingJob 0 j with
      | some r => (match a.runAct (do jobOk r; dstWrites 0 r) with
        | (.ok rs, _) => a.dev.mayStart 0 r && a.dev.unstreamed 0 0 rs
        | _ => false)
      | none => false) = true) ∧
    -- a COPY of a source that is no M48 tensor fails its checks (R280)
    (let j := jobIn 4 0x10011C0 0 0x1001180 0 0 1
     let a := (partR id).onDev (fun d => d.receiveJob 0 j)
     (match a.dev.waitingJob 0 j with
      | some r => a.dev.mayStart 0 r && !(okOf (((do jobOk r; dstWrites 0 r) : Act _) ⟨a.mem, a.dev⟩))
      | none => false) = true) ∧
    (partR id).dev.waitingJob 0 (jobIn 5 0x10011C0 0 0x1001180 0 0 1) = none ∧ (partR id).dev.intakeRoom 0 = true ∧
    (partR (fun d => d.updStk 0 (fun k => { k with queue := List.replicate 20 (jobQ (jobIn 5 0 0 0 0 0 2) false) }))).dev.intakeRoom 0 = false ∧
    (partR (fun d => d.updStk 0 (fun k => { k with queue := List.replicate 20 (jobQ (jobIn 5 0 0 0 0 0 2) false) }))).dev.waitingJob 0
      (jobIn 5 0x10011C0 0 0x1001180 0 0 1) = none ∧
    jobCode (jobIn 5 0x10011C0 0 0x1001180 0 0 1).r 0 = 0 ∧ jobCode (jobIn 5 0x10011C0 0 0x1001180 0 0 0).r 0 ≠ 0 := by
  decide +kernel

/-- An emission of a COMPRESS job with emit handle 9, and a collective that awaits it. -/
def emisA : Emis := ⟨jobIn 2 0x10011C0 0 9 0 1 1, 0, [0]⟩

/-- The collective that awaits it. -/
def awaitA : Coll :=
  ⟨originA 7 0, 0x50, { collA 0 0 0 0 with srcKind := 1, emit := 9 }, 4, 0, 1, 0, none, none, none, [ChunkRun.fresh 0 0 0 0 0 0]⟩

theorem witness_streamsEnterAndLeave :
    (∀ count ∈ [4, 5], ∀ image ∈ [none, some (secureA [(0x121C1, 1)])], let j := jobIn 7 0 0 0x10011C0 0 0 count
     let s := partR (fun d => (d.updUpd 0 (fun u => { u with sec := image })).updStk 0 (fun k => { k with queue := [jobQ j false] }))
     s.dev.fwd = [] ∧ (s.dev.stk 0).queue.find? (fun r => r.j = j) = some (jobQ j false) ∧ s.dev.mayStart 0 (jobQ j false) = true ∧
     (match s.runAct (readDesc (schedUse 0 0) j.r.dst) with
      | (.ok x, w) => (match w.runAct (stackRuns ((rootUse 0 0 0 true).of x) true [(x.base, 4)]) with
        | (.ok rs, _) => s.dev.unstreamed 0 0 rs == image.isSome &&
          okOf ((vwrite ((rootUse 0 0 0 true).of x) x.base [1, 2, 3, 4]) ⟨s.mem, s.dev⟩)
        | _ => false)
      | _ => false) = true) ∧
    okOf (leafOf (schedUse 0 0) 0x1000000 ⟨(partR id).mem, (partR id).dev⟩) = true ∧ (partR id).dev.service 0 = 0 ∧
    (partR (fun d => d.setReg 0x3400 0x26 1)).dev.service 0 = 1 ∧
    (let s := partR (fun d => d.updStk 0 (fun k => { k with emits := [emisA], queue := [jobQ emisA.j true] }))
     (s.dev.stk 0).emits = [emisA] ∧ s.dev.net.handles.find? (fun p => p.2.colls.any (fun k => k.awaits 0 emisA)) = none) ∧
    (∀ more ∈ [[], [{ emisA with q := 2 }]],
     let s := partR (fun d => (handlePart { handleA 2 with colls := [awaitA] } d).updStk 0 (fun k =>
       { k with emits := emisA :: more, queue := [jobQ emisA.j true] }))
     (s.dev.stk 0).emits = emisA :: more ∧
     s.dev.net.handles.find? (fun p => p.2.colls.any (fun k => k.awaits 0 emisA)) = some (9, { handleA 2 with colls := [awaitA] }) ∧
     [awaitA].find? (fun k => k.awaits 0 emisA) = some awaitA ∧ more.any (fun y => y.j = emisA.j) = !more.isEmpty ∧
     (s.dev.stk 0).queue.find? (fun r => r.j = emisA.j && r.started) = some (jobQ emisA.j true)) := by
  decide +kernel

/-! Staging, the network, functions, securing. -/

/-- An armed STAGE job of n chunks of tensor 0 of context 0. -/
def armA (n : Nat) : Arm := ⟨jobIn 1 0 0 0x1001180 0x1002400 0 n, desc1 0x1 0 0x1001180, [], false⟩

/-- Chunk 0 in a buffer. -/
def chunkA (bad : Bool) : Chunk := ⟨0, 0, 0, [0x3F80], bad⟩

/-- Chunk 0 waiting with the network interface. -/
def readyA (reported : Bool) : ReadyChunk := ⟨0, 0, 0, 0, [0x3F80], 2, 0, some 0, reported⟩

/-- Root engine 0 with an armed STAGE job of n chunks, chunk 0 in a buffer or none, and with the network interface or not. -/
def chunkPart (n : Option Nat) (chunks : List Chunk) (ready : List ReadyChunk) (d : Dev) : Dev :=
  ({ d with net := { d.net with ready := ready } } : Dev).updStk 0 (fun k => { k with arms := n.toList.map armA, chunks := chunks })

/-- A buffered chunk can be staged: its writes and its partial, and the shard's partial where it is the last one. -/
def stageGoes (a : Arm) (k : Chunk) (s : State) : Bool :=
  let u := rootUse k.ctx 0 2 true
  match s.runAct (vwrite (u.of a.desc) (a.desc.base + 32768 * k.q) (k.elems.flatMap (leBytes 2))) with
  | (.ok _, w1) => match w1.runAct (Act.num none (do
      let xs ← k.elems.mapM (toFp32 0x1)
      reduceLine add32 0x80000000 (← xs.mapM (fun x => mul32 x x)))) with
    | (.ok p, w2) => match w2.runAct (vwrite u (a.j.r.aux + 4 * k.q) (leBytes 4 p)) with
      | (.ok _, w3) => (Tbl.put k.q p a.parts).length != a.j.r.count ||
        (match w3.runAct (Act.num none (reduceLine add32 0x80000000 ((Tbl.put k.q p a.parts).map (·.2)))) with
         | (.ok shard, w4) => okOf (vwrite u (a.j.r.aux + 4 * a.j.r.count) (leBytes 4 shard) ⟨w4.mem, w4.dev⟩)
         | _ => false)
      | _ => false
    | _ => false
  | _ => false

theorem witness_chunksStaged :
    (∀ ready ∈ [[], [readyA false]], let s := partR (fun d => (chunkPart (some 2) [] ready d).setReg 0x3800 0x08 0)
     s.dev.stkReg 0 0x08 = 0 ∧ s.dev.readyChunk 0 0 0 0 = ready.head?) ∧
    (∀ ready ∈ [[], [readyA false]], ∀ q ∈ [0, 1, 2], let s := partR (chunkPart (some 2) [] ready)
     0 < s.dev.stkReg 0 0x08 ∧ (s.dev.stk 0).chunks.any (fun k => k.ctx = 0 && k.tensor = 0 && k.q = q) = false ∧
     (s.dev.stk 0).arms.find? (fun a => a.j.ctx.val = 0 && a.j.r.tensor = 0) = some (armA 2) ∧
     (q < (armA 2).j.r.count ∨ (armA 2).j.r.count ≤ q) ∧ Tbl.look? q (armA 2).parts = none) ∧
    Tbl.look? 0 { armA 2 with parts := [(0, 0)] }.parts ≠ none ∧
    ((partR (chunkPart (some 2) [chunkA false] [readyA false])).dev.stk 0).chunks.any (fun k => k.ctx = 0 && k.tensor = 0 && k.q = 0) = true ∧
    ((partR id).dev.stk 0).arms.find? (fun a => a.j.ctx.val = 0 && a.j.r.tensor = 0) = none ∧
    (∀ b ∈ [false, true], let s := partR (chunkPart none [] [readyA b])
     s.dev.readyChunk 0 0 0 0 = some (readyA b) ∧ (readyA b).since.isSome = true) ∧
    (partR id).dev.readyChunk 0 0 0 0 = none ∧ { readyA false with since := none }.since = none ∧
    (partR id).dev.fn 0x7000 ≠ 2 ∧
    (∀ bad ∈ [false, true], ∀ n ∈ [1, 2], let s := partR (chunkPart (some n) [chunkA bad] [])
     (s.dev.stk 0).chunks.find? (fun k => k.ctx = 0 && k.tensor = 0 && k.q = 0) = some (chunkA bad) ∧ (chunkA bad).bad = bad ∧
     (s.dev.stk 0).arms.find? (fun a => a.j.ctx.val = 0 && a.j.r.tensor = 0) = some (armA n) ∧
     chunkHeld 0 (armA n) (chunkA bad) s = false ∧ stageGoes (armA n) (chunkA bad) s = true) ∧
    chunkHeld 0 (armA 2) (chunkA false) (partR (fun d => (chunkPart (some 2) [chunkA false] [] d).updUpd 0 (fun u =>
      { u with sec := some (secureA [(0x11181, 1)]) }))) = true := by
  decide +kernel

/-- A packet of handle 9 and job 3 from a rank, in an epoch, with a digest. -/
def packetA (rank epoch digest : Nat) (crcOk : Bool) : PacketF := ⟨9, 0, false, rank, 3, epoch, 0, 0, 0, 0, digest, [1, 2, 3, 4], crcOk⟩

theorem witness_packetsReceived :
    (let s := partM (handlePart { handleA 2 with colls := [collRun 0] })
     s.dev.fec 0 0 = s.dev ∧ s.dev.fec 23 3 = s.dev ∧ s.dev.injectedDrop 0 = (false, s.dev) ∧ s.dev.injectedDrop 95 = (false, s.dev) ∧ s.dev.jobQp 8 3 = none ∧
     s.dev.jobQp 9 3 = some (9, { handleA 2 with colls := [collRun 0] }) ∧
     s.dev.handle? 9 = some { handleA 2 with colls := [collRun 0] } ∧ (handleA 2).n ≤ (packetA 2 1 0 true).rank ∧
     (packetA 0 1 0 true).rank = (handleA 2).rank ∧ (packetA 1 1 0 false).crcOk = false ∧ (packetA 1 1 0 true).rank < (handleA 2).n ∧
     (packetA 1 1 0 true).rank ≠ (handleA 2).rank ∧ (packetA 1 2 0 true).epoch ≠ (handleA 2).epoch ∧
     (packetA 1 1 0 true).epoch = (handleA 2).epoch ∧ (packetA 1 1 0 true).seq = (handleA 2).seq ∧
     [collRun 0].find? (fun c => c.seq = 0) = some (collRun 0) ∧ (collRun 0).digest ≠ (packetA 1 1 7 true).digest ∧
     (collRun 0).digest = (packetA 1 1 0 true).digest ∧ (s.dev.flow 9 1).since + 1 < 8 ∧ (packetA 1 1 0 true).psn < 2 ^ 24 ∧
     (s.dev.flow 9 1).got.length < 2 ^ 22 ∧ (s.dev.flow 9 1).has 0 = false) ∧
    (let s := partM (handlePart { handleA 2 with flows := [(1, { Flow.reset with cum := 1, since := 6 })] })
     (s.dev.flow 9 1).has 0 = true ∧ (s.dev.flow 9 1).since + 1 < 8) := by decide +kernel

/-- A packet of PSN 5 that was sent again so many times. -/
def sentA (n : Nat) : Pkt := ⟨5, 0, 0, 0, 0, [1], 0, 0, 0, n, 0⟩

theorem witness_flowsDriven :
    (∀ n ∈ [15, 16], let x := { handleA 2 with flows := [(1, { Flow.reset with sent := [sentA n], oldest := some 0, win := some 0 })] }
     let s := partM (handlePart x)
     s.dev.handle? 9 = some x ∧ (s.dev.flow 9 1).oldest.isSome = true ∧ (s.dev.flow 9 1).win = some 0 ∧ x.kind = 0 ∧
     (s.dev.flow 9 1).sent.find? (fun q => q.psn = 5) = some (sentA n) ∧ (n < 16 ∨ 16 ≤ n)) ∧
    (let s := partM (handlePart (handleA 2))
     s.dev.handle? 9 = some (handleA 2) ∧ (s.dev.flow 9 1).oldest = none ∧ (s.dev.flow 9 1).win ≠ some 0) := by decide +kernel

/-- Every function with the last unit of its family and its rule, and an entry that makes its check pass or fail. -/
def fnCases : List (Nat × FnRule) :=
  [(0x2C17, portRule 23), (0x303F, engRule 63), (0x381F, rootRule 31), (0x4000, ctxRule 0), (0x4800, siteRule 0), (0x5800, secureRule),
   (0x5C00, teleRule), (0x7000, perturbRule)]

/-- A device on which every function is OFF and every check passes: an owner, a root, a bed and a block for context 0. -/
def offPart (d : Dev) : Dev :=
  let d := (((d.setReg 0x4000 0x02 0).setReg 0x4000 0x04 (2 ^ 63 + 2 ^ 42)).setReg 0x6000 0x09 (2 ^ 32 - 1)).updSite 0 (fun s => { s with phase := 3 })
  [0x2C17, 0x303F, 0x381F, 0x4800, 0x5800, 0x5C00, 0x7000].foldl (fun d i => d.setReg i 0x02 0) { d with blocks := [(0, 2 ^ 31)] }

/-- The requester of each function's write: its host for a context or a site, else the management. -/
def fnVia (idx : Nat) : Via := if idx = 0x4000 then .mailbox 0 else .i3c 8

theorem witness_functionsSwitch :
    (∀ p ∈ fnCases, let s := partA offPart
     s.passes (fnVia p.1) p.1 1 1 ∧ s.passes (fnVia p.1) p.1 1 0 ∧ s.dev.busyIdx p.1 = false ∧ s.dev.fn p.1 = 0 ∧
     (partA (fun d => (offPart d).setReg p.1 0x02 2)).passes (fnVia p.1) p.1 1 0 ∧
     (partA (fun d => (offPart d).setReg p.1 0x02 2)).dev.fn p.1 = 2 ∧ (partA (fun d => (offPart d).setReg p.1 0x02 1)).dev.fn p.1 = 1 ∧
     (p.1 ≠ 0x4800 → p.1 ≠ 0x4000 → (p.2.check s = 0 ∧ p.2.refuse (partA (fun d => (offPart d).setReg p.1 0x02 2)) = 0))) ∧
    (siteRule 0).check (partA offPart) = 0 ∧ (siteRule 0).refuse (partA id) = 0x0803 ∧ (siteRule 0).refuse (partA offPart) = 0 ∧
    (ctxRule 0).check (partA offPart) ≠ 0 ∧ (ctxRule 0).check (partA (fun d => (offPart d).setReg 0x4000 0x06 0x80)) = 0 ∧ (engRule 63).check (partA (fun d => d.setReg 0x3407 0x26 1)) = 0x0110 ∧
    (engRule 0).refuse (partM (arrayPart (jobA 1 0) 0)) = 0x0112 ∧ (rootRule 31).check (partA (fun d => d.setReg 0x6000 0x09 0)) = 0x0111 ∧
    (∀ l ∈ [1, 2], Tbl.look 0 0x303F ({ (partA id).dev with latch := [(0x303F, l)] } : Dev).latch = l) := by decide +kernel

/-- Port 23 in a state of its function, with sub-port 0 up, a MAC-resolved gateway and its own IPv4 address. -/
def portPart (f : Nat) (d : Dev) : Dev :=
  (((d.setReg 0x2C17 0x02 f).setReg 0x2C17 0x05 0x0A000001).setReg 0x2C17 0x07 (1 <<< 256)).updPort 23 (fun p => { p with up := [0] })

/-- A frame with a body. -/
def frameA (b : FrameBody) : FrameF := ⟨64, true, [], b⟩

theorem witness_linksAndFrames :
    (let d := (partA (portPart 1)).dev
     d.fn 0x2C17 ≠ 0 ∧ 0 < d.subPorts 23 ∧ d.fn 0x2C17 = 1 ∧ d.subPorts 23 ≤ 3 ∧ (partA (portPart 0)).dev.fn 0x2C17 = 0 ∧
     ((partA (fun d => d.updPort 23 (fun p => { p with retraining := true }))).dev.port 23).retraining = true ∧
     bit ((partA (fun d => d.setReg 0x1100 0x03 15)).dev.reg 0x1100 0x03) 0 = true ∧
     bit 0x80 (bits ((partA (fun d => d.setReg 0x1100 0x03 15)).dev.reg 0x1100 0x03) 3 1) = true ∧ (d.port 23).paused.Nodup) ∧
    (let d := (partA (portPart 2)).dev
     d.fn 0x2C17 = 2 ∧ (d.port 23).up.contains 0 = true ∧ ¬ (64 ≤ 63) ∧ ¬ (9217 ≤ 9216) ∧ 64 ≤ 9216 ∧
     [d.reg 0x1100 0x01 % 4096].contains (d.reg 0x1100 0x01 % 4096) = true ∧ ([] : List Nat).contains (d.reg 0x1100 0x01 % 4096) = false ∧
     d.ownAddr 23 0 false = 0x0A000001 ∧ 0x0A000001 ≠ 0 ∧ d.gateway 23 0 = true ∧
     (frameA (.addrRequest false 0x0A000001 5)).body = .addrRequest false 0x0A000001 5 ∧
     (frameA (.icmp false 0x0A000001 5 true [1])).body = .icmp false 0x0A000001 5 true [1] ∧ 256 ^ 19 - 1 < 256 ^ 19 ∧
     (frameA .other).body = .other ∧ (frameA .pause).body = .pause) ∧
    (let d := (partA (fun d => (portPart 2 d).setReg 0x1100 0x04 (2 ^ 12 + 4 * 23))).dev
     let c := d.reg 0x1100 0x04
     bit c 12 = true ∧ bit c 13 = false ∧ c % 256 = 4 * 23 ∧ (d.port 23).up.contains 0 = true ∧
     100000 < (100001 : Int).natAbs ∧ (-100000 : Int).natAbs ≤ 100000) ∧
    bit ((partA (fun d => d.setReg 0x1100 0x04 (2 ^ 13))).dev.reg 0x1100 0x04) 13 = true ∧
    bit ((partA id).dev.reg 0x1100 0x04) 13 = false ∧ bit ((partA (fun d => d.setReg 0x1100 0x04 0)).dev.reg 0x1100 0x04) 12 = false := by decide +kernel

/-- The fields of SOPEN and SRESTORE: manifest of one entry at 0xF00, status at 0xF40, signal object or update index. -/
def snapA (opt obj : Nat) : SnapF := ⟨0xF00, 0x800, 0xF40, 9, 0, 0, 1, 0, opt, obj, 0⟩

/-- The manifest: the FP32 tensor of stack 0 (R352). -/
def manifestA : List Nat := [2, 0, 0, 0, 0, 0, 0, 0] ++ leBytes 24 0x10011C0

/-- Device with replicas, the manifest and the securing function in a state. -/
def partS (fn : Nat) (sec : Option Secure) : State :=
  partN (listCells ++ cellsOf 0xF00 manifestA ++ stackCells) (fun d =>
    (({ d with xcP := [(0, replicas ++ cachedA)], blocks := [(0, 2 ^ 31)], snap := [0, 1, 2, 3] } : Dev).setReg 0x5800 0x02 fn).updUpd 0
      (fun u => { u with sec := sec }))

/-- A complete image of update 3 on the store of number 0. -/
def bareA : ImgPart := ⟨1, 0, 0, 0, 3, 0, 0, 0, 1, crc32c manifestA, 1, 0, 0, [], []⟩

/-- With the CRC of its header (R366). -/
def imageA : ImgPart := { bareA with hcrc := crc32c bareA.header }

/-- Securing open with an image under way on a target whose parts are left. -/
def securingA (kind : Nat) (parts : List Nat) : Secure := { secureA [] with f := snapA 0 5, ranges := [], targets := [⟨kind, parts⟩] }

/-- SOPEN's manifest, operands, ranges and status record are good. -/
def sopenGoes (f : SnapF) (s : State) : Bool :=
  let o := originA 0 0
  match readManifest 0 f.manifest f.entries (s.atUnit o 0x78 15 (cmdOf o 0x78 f.reserved (snapFields 0x78 f))) with
  | (.ok (es, _), w1) =>
    decide (es ≠ [] ∧ (∀ e ∈ es, e.ok = true) ∧ (es.map (·.obj)).Nodup) &&
    (match (es.forM (entryPlaced 0) : Act Unit) w1 with
     | (.ok _, w2) => match imageRanges 0 (s.dev.ctxReg 0 0x09) es w2 with
       | (.ok rs, w3) =>
         (f.opt != 1 || (List.range 4).all (fun p => decide (rangeBytes (rs.filter (fun r => r.stack / 8 = p)) ≤ f.localLen * 4096))) &&
         okOf (vwrite (coordUse 0) f.status (1 :: List.replicate 63 0)
           ⟨w3.mem, w3.dev.updUpd 0 (fun u => { u with sec := some (Secure.opened o f (s.dev.upd 0).sec) })⟩)
       | _ => false
     | _ => false)
  | _ => false

theorem witness_securingOpens :
    (∀ f ∈ [snapA 0 5, { snapA 1 5 with localLen := 1 }, { snapA 0 5 with netInterval := 2 }],
     let s := (partS 2 none).onDev (handlePart { handleA 1 with kind := 1 })
     fits (originA 0 0) s.dev ∧ plain (originA 0 0) s.dev ∧ snapBad f = 0 ∧ s.dev.fn 0x5800 = 2 ∧ (s.dev.upd 0).sec = none ∧
     (∀ p < 4, s.dev.snap.contains p = true) ∧ (s.dev.handle? f.handle).any (fun x => x.kind = 1 && x.ctx = 0) = true ∧
     s.dev.ownsObj 0 f.obj = true ∧ sopenGoes f s = true) ∧
    (∀ fn ∈ [0, 2], let s := partS fn (if fn = 0 then none else some (securingA 0 [3]))
     plain (originA 0 0) s.dev ∧ (s.dev.stream 0 0).stopped = false ∧ s.dev.fn 0x5800 = fn ∧
     (((s.dev.upd 0).sec.map (·.isOpen)).getD false) = decide (fn ≠ 0)) ∧
    (∀ x ∈ [securingA 0 [3], { securingA 0 [] with image := 0, isOpen := false }, { securingA 0 [] with image := 0 }],
     let s := partS 2 (some x)
     (s.dev.upd 0).sec = some x ∧ (x.image ≠ 0 ∨ x.isOpen = false ∨ okOf (vwrite (coordUse 0) x.f.status
       ({ x with isOpen := false } : Secure).status ⟨s.mem, (s.atUnit (originA 0 0) 0x79 15 (cmdOf (originA 0 0) 0x79 0 [])).dev.updSec 0
         (fun x => { x with isOpen := false, closing := [] })⟩) = true)) := by
  decide +kernel

/-- A header that carries its own CRC verifies. -/
theorem sealed_ok (g : ImgPart) : ({ g with hcrc := crc32c g.header } : ImgPart).headerOk = true := by
  have h : ∀ c, c = crc32c g.header → ({ g with hcrc := c } : ImgPart).headerOk = true := fun c h => by
    rw [ImgPart.headerOk, show ({ g with hcrc := c } : ImgPart).header = g.header from rfl, ← h]
    exact beq_self_eq_true c
  exact h _ (Eq.refl (crc32c g.header))

/-- A store that holds one part whose header verifies holds an image. -/
theorem image_found (s : State) (f : SnapF) (x : Handle) (g : ImgPart) (h : s.dev.handle? f.handle = some x) (m : s.persist.media = [g])
    (ok : g.headerOk = true) (k : g.kind = 1) (c : g.ctx = 0) (n : g.parts = 1) (p : g.port = x.store) :
    s.images 0 1 f = [(g.u, [g])] := by
  simp [State.images, m, h, ok, k, c, n, p]

theorem witness_securingOpens_restores :
    let s : State := { (partS 2 none).onDev (handlePart { handleA 1 with kind := 1 }) with persist := { Persist.reset with media := [imageA] } }
    let f := snapA 1 0
    plain (originA 0 0) s.dev ∧ snapBad f = 0 ∧ s.dev.fn 0x5800 = 2 ∧ (s.dev.upd 0).sec = none ∧
    (∀ (i : Nat) (x : Stream), (s.dev.ctx 0).streams[i]? = some x → x.q = [] ∧ x.waiting = false ∧ x.run = []) ∧
    (s.images 0 f.opt f).find? (fun p => p.1 = (if f.obj = 0 then ((s.images 0 f.opt f).map (·.1)).foldl max 0 else f.obj)) =
      some (3, [imageA]) ∧
    (match readManifest 0 f.manifest f.entries (s.atUnit (originA 0 0) 0x7A 15 (cmdOf (originA 0 0) 0x7A f.reserved (snapFields 0x7A f))) with
     | (.ok (es, crc), w) => imageA.manifest == crc && okOf (restoreImage 0 f es 3 [imageA] w)
     | _ => false) = true ∧ imageA.badSegment = none := by
  refine ⟨by decide +kernel, by decide +kernel, by decide +kernel, by decide +kernel, ?_, ?_, by decide +kernel, by decide +kernel⟩
  · intro i x h
    have h4 : (((partS 2 none).onDev (handlePart { handleA 1 with kind := 1 })).dev.ctx 0).streams = List.replicate 4 Stream.reset := by
      decide +kernel
    have hx : x ∈ List.replicate 4 Stream.reset := h4 ▸ List.mem_of_getElem? h
    rw [List.eq_of_mem_replicate hx]
    exact ⟨rfl, rfl, rfl⟩
  · rw [show (snapA 1 0).opt = 1 from rfl, image_found _ _ { handleA 1 with kind := 1 } imageA (by decide +kernel) rfl (sealed_ok bareA) rfl rfl rfl rfl]
    rfl

theorem witness_securingRuns :
    (∀ k ∈ [(0, 3), (1, 0)], let x := { securingA k.1 [k.2] with sent := some { bareA with port := 7 } }
     let s := partS 2 (some x)
     (s.dev.upd 0).sec = some x ∧ x.image ≠ 0 ∧ x.targets.any (fun t => t.kind = k.1 && t.partsLeft.contains k.2) = true ∧
     x.partStreamed k.1 k.2 = true ∧ s.dev.snap.contains 3 = true ∧ bareA.kind = 1 ∧
     (securingA k.1 []).targets.find? (fun t => t.kind = k.1) = some ⟨k.1, []⟩) ∧
    ((partS 2 (some (securingA 0 [3]))).onDev (fun d => { d with snap := [0] })).dev.snap.contains 3 = false ∧
    (let x := { securingA 0 [] with closing := [originA 0 0] }
     ((partS 2 (some x)).dev.upd 0).sec = some x ∧ x.image ≠ 0 ∧ x.targets.find? (fun t => t.kind = 0) = some ⟨0, []⟩ ∧
     x.targets.all (fun t => t.kind = 0) = true ∧ x.closing ≠ []) ∧
    ((((partS 2 (some (securingA 0 [3]))).onDev (fun d => d.updStk 31 (fun k => { k with queue := [{ jobQ (jobIn 5 0 0 0 0 0 1) false with
      jobHold := true }] }))).dev.stk 31).queue.any (·.jobHold)) = true ∧
    ((((partS 2 (some (securingA 0 [3]))).onDev (fun d => d.updStk 31 (fun k => { k with arms := [{ armA 1 with
      hold := true }] }))).dev.stk 31).arms.any (·.hold)) = true := by
  decide +kernel

/-! Tables of contexts and memories, start-up, arbiters, links, sites. -/

/-- Context 0 OFF and of no site. -/
def freeCtx (d : Dev) : Dev := (d.setReg 0x4000 0x02 0).setReg 0x4000 0x03 4

theorem witness_contextTablesWritten :
    (let s := partA freeCtx
     s.passes (.mailbox 0) 0x4000 0x03 0 ∧ (ownerWrite (.mailbox 0) 0 0 s).1 = 0 ∧ (ownerWrite (.mailbox 0) 0 1 s).1 = 0x0202 ∧
     s.passes (.mailbox 0) 0x4000 0x03 1 ∧ viaHost (.mailbox 0) = some 0 ∧ s.dev.ctxState 0 = 0 ∧ s.dev.owner 0 = none ∧
     (partA id).dev.ctxState 0 ≠ 0 ∧ (partA id).passes (.i3c 8) 0x4000 0x03 0) ∧
    (let s := partA id
     s.dev.owner 0 = some 0 ∧ bit (s.dev.block 255) 31 = false ∧ s.passes (.mailbox 0) 0x4C00 0x02 (blockWord 255 1 true true 15 0) ∧
     s.passes (.mailbox 0) 0x4C00 0x02 (blockWord 255 0 false false 0 0)) ∧
    (let s := partA (fun d => { d.setReg 0x4000 0x02 0 with blocks := [(255, 2 ^ 31)] })
     s.passes (.mailbox 0) 0x4C00 0x02 (blockWord 255 0 false false 0 0) ∧ bit (s.dev.block 255) 31 = true ∧
     bits (s.dev.block 255) 9 0 = 0 ∧ s.dev.ctxState 0 = 0) := by decide +kernel

theorem witness_contextTablesWritten_beds :
    (let s := partA id
     let un := fun (s : State) (v : Nat) => (bitList 64 (bytesAt v 0 8)).any (fun e => clearMask (bits (bytesAt v 8 1) 3 0) (s.dev.engReg e 0x24 % 16) ≠ 0)
     viaHost (.i3c 8) = none ∧ s.passes (.i3c 8) 0x3400 0x7F (2 ^ 63 + 2 ^ 64) ∧ un s (2 ^ 63 + 2 ^ 64) = false ∧
     un (partA (fun d => d.setReg 0x303F 0x24 2)) (2 ^ 63 + 2 ^ 64) = true ∧
     (partA (fun d => d.setReg 0x303F 0x24 2)).passes (.i3c 8) 0x3400 0x7F (2 ^ 63 + 2 ^ 64) ∧ (∀ k < 1024, s.dev.bedOf k ≠ some 63)) ∧
    (let s := partA (fun d => ((d.setReg 0x3400 0x40 1).setReg 0x3400 0x41 1).setReg 0x3400 0x42 2)
     let shared := fun (v : Nat) => (List.range 64).any (fun e => 1 < (((groupBeds v).map (fun b => (s.dev.bedDef b).1)).filter (fun m => bit m e)).length)
     s.passes (.i3c 8) 0x3400 0x87 (2 ^ 48 + 2 ^ 40 + 2 ^ 38 + 2 ^ 16) ∧ shared (2 ^ 48 + 2 ^ 40 + 2 ^ 38 + 2 ^ 16) = true ∧
     s.passes (.i3c 8) 0x3400 0x87 (2 ^ 48 + 2 ^ 40 + 2 ^ 38 + 2 ^ 17) ∧ shared (2 ^ 48 + 2 ^ 40 + 2 ^ 38 + 2 ^ 17) = false ∧
     (groupBeds (2 ^ 48 + 2 ^ 40 + 2 ^ 38 + 2 ^ 17)).Nodup) ∧
    (partA id).passes (.i3c 8) 0x303F 0x24 15 ∧
    (let s := partA (fun d => (({ d with blocks := [(0, 2 ^ 31 + 2 ^ 24 + 0)] } : Dev).setReg 0x4001 0x03 0).setReg 0x4000 0x02 0)
     s.passes (.mailbox 0) 0x4000 0x1C 0x8001 ∧ (attachEval 0 0x8001 s).1 = 0 ∧ bit 0 15 = false ∧ s.passes (.mailbox 0) 0x4000 0x1C 0 ∧
     bit 0x8000 15 = true ∧ 0x8000 % 1024 = 0 ∧ s.passes (.mailbox 0) 0x4000 0x1C 0x8000 ∧ (attachEval 0 0x8000 s).1 = 0x0210) := by
  decide +kernel

theorem witness_windowsAndStops :
    (partA id).dev.dict.waiting = [] ∧ (partA id).dev.ctxState 0 ≠ 3 ∧ (partA (boardPart 0x10 0)).dev.ctxDrained 0 = false ∧
    (let d := (partA (fun d => d.setReg 0x4000 0x02 3)).dev
     d.dict.waiting = [] ∧ d.ctxState 0 = 3 ∧ d.ctxDrained 0 = true ∧ d.holdsOpen 0 (2 ^ 64 - 1) = false ∧ (d.ctx 0).reclaimed = false ∧
     Tbl.look 0 0x4000 d.latch = 0) ∧
    ((partA id).dev.ctx 0).win ≠ 2 ∧
    (let d := (partA (fun d => (d.updCtx 0 (fun x => { x with win := 2, winEarly := true })).setReg 0x4001 0x1C 0x8000)).dev
     (d.ctx 0).win = 2 ∧ (d.ctx 0).winEarly = true ∧ d.attached 0 = [1] ∧ (d.attached 0).any (fun e => !(d.ctxIdle e)) = false) ∧
    (let d := (partA (fun d => ((d.updCtx 0 (fun x => { x with win := 2 })).updCtx 1 (fun x => { x with streams := [{ Stream.reset with
       q := [⟨1, 0, false, 0⟩] }] })).setReg 0x4001 0x1C 0x8000)).dev
     (d.ctx 0).win = 2 ∧ (d.ctx 0).winEarly = false ∧ (d.attached 0).any (fun e => !(d.ctxIdle e)) = true) ∧
    (let d := (partA (fun d => d.updCtx 0 (fun x => { x with overrun := 1 }))).dev
     (d.ctx 0).win ≠ 2 ∧ (d.ctx 0).overrun ≠ 0) ∧ ((partA id).dev.ctx 0).overrun = 0 := by decide +kernel

theorem witness_memoriesStayCanonical : (partR id).mem.wf ∧ nextOf (step { partR id with pending := [.nop (originA 0 0) 0] }) = true := by
  decide +kernel

theorem witness_partStarts :
    (let b := State.reset.dev.boot
     b.reset = true ∧ b.burnSettings = none ∧ b.burnLife = none) ∧ (partA id).dev.boot.reset = false ∧
    (let s := partWith (fun d => { d with boot := { d.boot with reset := false, running := true, burnSettings := some (4, 7), burnLife := some 4 } }.setReg 0x6000 0x02 1)
     s.dev.boot.running = true ∧ s.dev.boot.halted = false ∧ s.dev.boot.thermtrip = false ∧ s.dev.boot.restart = false ∧
     s.dev.reg 0x6000 0x02 = 1 ∧ s.dev.boot.burnSettings = some (4, 7) ∧ s.dev.boot.burnLife = some 4) ∧
    (let s := partWith (fun d => { d with mfg := { d.mfg with pop := 2 }, boot := { d.boot with reset := false, running := true } }.setReg 0x6000 0x02 2)
     s.dev.reg 0x6000 0x02 = 2 ∧ s.recordOk = false) ∧
    (partA id).passes (.i3c 8) 0x6000 0x12 1 ∧ (partA id).passes (.i3c 8) 0x6000 0x12 0 ∧ (partA id).dev.busyIdx 0x6000 = false ∧
    (let d := (partA (fun d => { d with boot := { d.boot with resetWait := true } })).dev
     d.boot.resetWait = true ∧ d.boot.burnSettings = none ∧ d.boot.burnLife = none ∧ d.wiping = []) ∧
    (partA (fun d => { d with wiping := [(3, 1, none)] })).dev.wiping ≠ [] := by decide +kernel

theorem witness_memoryTablesWritten :
    (let s := partA id
     s.passes (.i3c 8) 0x2800 0x01 0x40 ∧ s.dev.slabBad 0x40 = true ∧ s.passes (.i3c 8) 0x2800 0x01 0 ∧ s.dev.slabBad 0 = false ∧
     s.passes (.i3c 8) 0x303F 0x25 (2 ^ 128 - 1) ∧ (let s := partA (fun d => d.updSite 1 (fun x => { x with link := 3 }))
      s.passes (.mailbox 1) 0x2800 0x02 0 ∧ s.dev.owner (bits 0 61 52) ≠ some 1) ∧ viaHost (.mailbox 1) = some 1 ∧ s.dev.owner 0 ≠ some 1 ∧
     s.passes (.mailbox 0) 0x2800 0x02 (2 ^ 63) ∧ viaHost (.mailbox 0) = some 0 ∧ s.dev.owner (bits (2 ^ 63) 61 52) = some 0 ∧
     (∀ p ∈ [0, 32, 64, 76, 77], (placeEntry p).isSome) ∧ placeEntry 77 = some (0x1100, 0x30) ∧ placeEntry 78 = none ∧
     s.passes (.i3c 8) 0x1100 0x32 0 ∧ s.passes (.i3c 8) 0x381F 0x09 256) := by decide +kernel

theorem witness_stackServesRequests :
    (let s := partA (fun d => d.updSite 0 (fun x => { x with hdm := true }))
     s.dev.fn 0x7000 ≠ 2 ∧ s.mem.wf ∧ s.dev.stackServes 31 = true ∧ Config.stackBytes - 2048 + 2048 ≤ Config.stackBytes ∧
     (∀ p ∈ s.mem.hbmErr, ¬(p.1 = 0)) ∧ s.dev.linkHolds 0 = false ∧ s.dev.hostMem 0 = true ∧ s.dev.dpaCheck (some 0) (2 ^ 42) = none ∧
     dpaPhys (2 ^ 42) = some (2, 0, 0, 0) ∧ s.dev.dpaCheck (some 0) 0 = some 0x0503 ∧ ((2 ^ 42 < 0x60000000000) ∨ (0x60002000000 ≤ 2 ^ 42)) ∧
     0x60002000000 < 2 ^ 43) ∧
    (partA (fun d => d.setReg 0x3407 0x26 1)).dev.stackServes 31 = false ∧
    (let s := partA (fun d => d.updStk 31 (fun k => { k with writeback := [hbmKey 31 64 / 64] }))
     (s.dev.stk 31).writeback.contains (hbmKey 31 64 / 64) = true ∧ markedLine (Tbl.look [] (hbmKey 31 64 / 64) s.mem.hbmErr) = false ∧
     (s.dev.stk 31).writeback.contains (hbmKey 31 0 / 64) = false) := by decide +kernel

theorem witness_memoriesMaintained :
    (let w := spadKey 63 (31 * Config.bankBytes) / 8
     let s := partA (fun d => d.updEng 63 (fun k => { k with writeback := [w] }))
     (s.dev.eng 63).writeback.find? (fun w => wordBank w = (63, 31)) = some w ∧
     (s.dev.eng 63).writeback.find? (fun w => wordBank w = (63, 30)) = none ∧ s.dev.fn 0x7000 ≠ 2 ∧ s.mem.spadErr = []) ∧
    (let d := (partA (fun d => { d with wiping := [(0, 3, some 0), (3, 2, some 0)] })).dev
     Tbl.look? 0 d.wiping = some (3, some 0) ∧ Tbl.look? 3 d.wiping = some (2, some 0) ∧ Tbl.look? 1 d.wiping = none) ∧
    (let d := (partA id).dev
     d.reg 0x2800 0x04 ≠ 0 ∧ d.service 7 ≠ 1 ∧ d.fn 0x7000 ≠ 2) ∧
    (∀ owed ∈ [7, 8], Tbl.look 0 (bankKey 63 3 15) ((partA (fun d => d.updStk 31 (fun k =>
      { k with postponed := [(bankKey 63 3 15, owed)] }))).dev.stk 31).postponed = owed) ∧
    (∀ early ∈ [0, 1, 8], Tbl.look 0 (bankKey 63 3 15) ((partA (fun d => d.updStk 31 (fun k =>
      { k with ahead := [(bankKey 63 3 15, early)] }))).dev.stk 31).ahead = early) ∧ (partA (fun d => d.setReg 0x2800 0x04 0)).dev.reg 0x2800 0x04 = 0 ∧
    (∀ n ∈ [15, 16], let d := (partA (fun d => d.updStk 31 (fun k => { k with laneCnt := [(63 * 36 + 35, n)] }))).dev
     (d.stk 31).laneSec = d.now / 1000000000 ∧ Tbl.look 0 (63 * 36 + 35) (d.stk 31).laneCnt = n ∧ (d.markedOf 31 63).contains 35 = false ∧
     (d.markedOf 31 63).length < 4) := by decide +kernel

/-- The arbiter of a place with a change. -/
def arbPart (place : Nat) (f : Arb → Arb) : State := partA (fun d => { d with arbs := [(place, f Arb.reset)] })

theorem witness_arbitersGrant :
    (∀ p ∈ [(0, 0x4C00, 0x30), (1, 0x3800, 0x30), (33, 0x3800, 0x34), (64, 0x381F, 0x34), (65, 0x3400, 0x30), (77, 0x1100, 0x30)],
      placeEntry p.1 = some (p.2.1, p.2.2) ∧ (Tbl.look Arb.reset p.1 (partA id).dev.arbs).lose = []) ∧
    (partA id).dev.fn 0x7000 ≠ 2 ∧
    -- a TSV port whose limit of 1 is reached, at and off the boundary; input 3 alone, and with a lower one
    (∀ p ∈ [(0, 64), (5, 1)],
      let s := (arbPart 1 (fun a => { a with window := [true], cycle := p.1, limit := p.2 })).onDev (fun d => d.setReg 0x3800 0x38 1)
      let a := Tbl.look Arb.reset 1 s.dev.arbs
      a.cycle = p.1 ∧ a.limit = p.2 ∧ a.lose = [] ∧ (a.window.filter id).length = 1) ∧
    (∃ j ∈ [3, 0], j < 3) ∧ (¬ ∃ j ∈ [3], j < 3) ∧
    -- a link end whose other end has 255 or 256 replies outstanding
    (∀ n ∈ [255, 256], (Tbl.look Arb.reset (oppositeEnd 65) (arbPart (oppositeEnd 65) (fun a => { a with replies := n })).dev.arbs).replies = n) ∧
    oppositeEnd 65 = 68 ∧ oppositeEnd 76 = 73 := by decide +kernel

theorem witness_siteLinksMove :
    (∀ l ∈ [1, 2, 3], ((partA (sitePart l l)).dev.site 3).link = l ∧ ((partA (sitePart l l)).dev.site 3).heldLink = false ∧
      ((partA (sitePart l l)).dev.site 3).phase ≠ 4) ∧
    (partA (sitePart 1 1)).dev.siteUp 3 = true ∧ (partA (fun d => (sitePart 1 1 d).setReg 0x4803 0x01 0)).dev.siteUp 3 = false ∧
    4 ∈ [1, 2, 4] ∧ 32 ∈ [16, 32] ∧
    (let d := (partA (fun d => (sitePart 3 3 d).updSite 3 (fun x => { x with heldLink := true }))).dev
     (d.site 3).heldLink = true ∧ d.linkHolds 3 = true ∧ d.locked 13 3 = true) ∧ (partA (sitePart 3 3)).dev.linkHolds 3 = false ∧
    -- the sixty-fourth and the sixty-fifth replay within a millisecond
    (∀ n ∈ [63, 64], let d := (partA (fun d => (sitePart 3 3 d).updSite 3 (fun x => { x with replays := List.replicate n d.now }))).dev
     (d.site 3).link = 3 ∧ (d.site 3).heldLink = false ∧
     ((d.site 3).replays.filter (fun t => d.now < t + 1000000) ++ [d.now]).length = n + 1) := by decide +kernel

theorem witness_hostsAttach :
    ((partA (sitePart 3 2)).dev.site 3).link ≠ 3 ∧ (partA (sitePart 3 2)).dev.linkHolds 3 = false ∧
    (∀ p ∈ [3, 4], (partA (sitePart p 3)).dev.linkHolds 3 = false) ∧
    (let d := (partA (sitePart 3 3)).dev
     (d.site 3).link = 3 ∧ (d.site 3).heldLink = false ∧ (d.site 3).phase = 3 ∧ d.siteReg 3 0x01 % 2 = 1 ∧ 0x1000 % 4096 = 0 ∧
     0x21000 % 256 = 0 ∧ 0x1000 + 131072 ≤ 0x21000) ∧
    (let d := (partA (sitePart 4 3)).dev
     (d.site 3).phase = 4 ∧ (d.site 3).heldLink = false ∧ d.owned 3 = []) ∧
    (let d := (partA (fun d => ((sitePart 4 3 d).setReg 0x4000 0x03 3).setReg 0x4803 0x06 1)).dev
     (d.site 3).phase = 4 ∧ d.siteReg 3 0x06 ≠ 0 ∧ (d.owned 3).filter (fun c => d.ctxState c = 2) = [0]) ∧
    (let d := (partA (fun d => ((sitePart 5 3 d).updSite 3 (fun x => { x with held := [1023] })).setReg 0x43FF 0x03 3)).dev
     (d.site 3).phase = 5 ∧ d.reclaiming 3 = false ∧ (d.site 3).held ≠ [] ∧ (d.site 3).held.Nodup ∧ (d.site 3).attachWait = none ∧
     d.dict.waiting = [] ∧ (∀ c ∈ (d.site 3).held, c < 1024 ∧ d.ctxState c = 0 ∧ d.owner c = some 3)) := by decide +kernel

/-! Rings, voltages, power, energy, faults, replays. -/

/-- An event of site 3. -/
def evA : Ev := ⟨0x8501, 1, 3, none, some 3, [3], 0⟩

/-- Site 3 attached, its ring at 0x21000, with a change. -/
def ringPart (f : Site → Site) : State :=
  partA (fun d => (sitePart 4 3 d).updSite 3 (fun x => f { x with ringBase := 0x21000, ringCtl := 0x1000 }))

theorem witness_ringsServed :
    (let x := (ringPart id).dev.site 3
     x.link = 3 ∧ x.overflow = false ∧ x.phase = 4 ∧ x.summaryDirty = false ∧ x.staged = none ∧ x.firstUnraised = none) ∧
    (ringPart id).dev.linkHolds 3 = false ∧ (partA (sitePart 1 1)).dev.linkHolds 3 = false ∧
    ((partA (sitePart 1 1)).dev.site 3).link ≠ 3 ∧ 2 ^ 37 ≤ 2 ^ 37 ∧ 2 ^ 37 - 1 < 2 ^ 37 ∧
    ((ringPart (fun x => { x with summaryDirty := true })).dev.site 3).summaryDirty = true ∧
    ((partA (sitePart 3 3)).dev.site 3).phase ≠ 4 ∧
    (let x := (ringPart (fun x => { x with staged := some (evA, 2), producer := 2 ^ 32 - 1, consumer := 2 ^ 32 - 4096 })).dev.site 3
     x.staged = some (evA, 2) ∧ x.overflow = false ∧ x.unconsumed = 4095 ∧ x.unconsumed < 4096) ∧
    (let x := (ringPart (fun x => { x with firstUnraised := some 7, producer := 1 })).dev.site 3
     x.phase = 4 ∧ x.firstUnraised.isSome = true ∧ 0 < x.unconsumed ∧ (x.msix.getD 0 (0, 0, true)).2.2 = true) ∧
    (let x := (ringPart (fun x => { x with firstUnraised := some 7, producer := 1, msix := List.replicate 3 (0x100, 5, false) })).dev.site 3
     0 < x.unconsumed ∧ (x.msix.getD 0 (0, 0, true)).2.2 = false) ∧
    ((ringPart (fun x => { x with firstUnraised := some 7 })).dev.site 3).unconsumed = 0 := by decide +kernel

/-- Partition 7 of the governor with a change. -/
def powPart (f : PowP → PowP) : State := partA (fun d => d.updPowP 7 f)

theorem witness_voltagesFollow :
    (let s := partA (fun d => ({ d with now := 100000000 } : Dev).updPowP 7 (fun q => { q with warned := some 0 }))
     let q := s.dev.powP 7
     s.dev.reg 0x2000 0x11 ≠ 0 ∧ q.held = false ∧ s.dev.partReg 7 0x12 < s.dev.reg 0x2000 0x12 ∧
       q.warned.all (fun t => t + 100000000 ≤ s.dev.now) = true) ∧
    ((powPart (fun q => { q with held := true })).dev.powP 7).held = true ∧
    ((powPart (fun q => { q with tripped := true })).dev.powP 7).tripped = true ∧
    ((partA id).dev.powP 7).tripped = false ∧
    (let s := powPart (fun q => { q with episodes := (0, 16) })
     (s.dev.powP 7).episodes = (s.dev.now / 1000000, 16) ∧ (s.dev.powP 7).held = false) ∧
    ((powPart (fun q => { q with episodes := (1, 16) })).dev.powP 7).episodes.1 ≠ 0 / 1000000 ∧
    ((powPart (fun q => { q with phase := 1 })).dev.powP 7).phase = 1 ∧
    ((partA id).dev.powP 7).phase ≠ 1 ∧ ((partA id).dev.powP 7).phase ≠ 4 ∧ ((partA id).dev.powP 7).avs = none ∧
    (∀ ph ∈ [2, 3], let q := (powPart (fun q => { q with phase := ph, avs := some 7000 })).dev.powP 7
      q.avs = some 7000 ∧ q.phase = ph) ∧
    ((powPart (fun q => { q with phase := 4 })).dev.powP 7).phase = 4 := by decide +kernel

/-- The governor with a change. -/
def govPart (f : Pow → Pow) : State := partA (fun d => { d with pow := f d.pow })

theorem witness_capsAndHeat :
    (partA id).passes (.i3c 8) 0x2100 0x01 3600 ∧ (partA id).passes (.i3c 8) 0x2100 0x02 1000 ∧
    ((partA id).dev.avail = true ∧ (partA id).dev.pow.alert ≠ true) ∧ State.reset.dev.avail = false ∧
    (let s := govPart (fun p => { p with floor := true })
     s.dev.pow.floor = true ∧ bit (s.dev.reg 0x5400 0x05) 0 = false) ∧
    (partA id).dev.pow.floor = false ∧ bit ((partA (fun d => d.setReg 0x5400 0x05 0x21)).dev.reg 0x5400 0x05) 0 = true ∧
    (let s := govPart (fun p => { p with shed := [23, 0] })
     s.dev.pow.shed.head? = some 23 ∧ s.dev.pow.floor = false ∧ s.dev.pow.shed.head? ≠ some 0) ∧
    (partA id).dev.boot.reset = false ∧ (partA id).dev.boot.thermtrip = false ∧ State.reset.dev.boot.reset = true ∧
    (partA (fun d => { d with boot := { d.boot with thermtrip := true } })).dev.boot.thermtrip = true := by decide +kernel

theorem witness_energyAddsUp :
    (⟨31, true, 900, -5⟩ : SampleF).valid = true ∧ (⟨31, false, 900, 5⟩ : SampleF).valid = false ∧
    ∀ r ∈ (govPart (fun p => { p with rest := [(0, 999999), (1024, 5)] })).dev.pow.rest, r.2 < 1000000 := by decide +kernel

theorem witness_faultsSpread :
    bit ((partA id).dev.reg 0x5400 0x05) 0 = false ∧
    (let s := partA (fun d => d.setReg 0x3407 0x26 2)
     s.dev.service 7 ≠ 0) ∧
    (let s := partM (fun d => d.updEng 0 (fun k => { k with vq := [vecA] }))
     (∀ k ∈ [1, 2, 3, 4, 5, 6], s.dev.service (hangPart k 0) = 0) ∧ (∃ k ∈ [1, 2, 3, 4, 5, 6], s.dev.hangCtx k 0 ≠ none) ∧
     (∃ k ∈ [1, 2, 3, 4, 5, 6], s.dev.hangCtx k 0 = none) ∧ s.dev.pow.floor = false ∧ s.dev.service (hangPart 7 0) = 0) ∧
    (let d := (partA (fun d => (d.updCtx 9 (fun c => { c with rep := { c.rep with replaying := true } }) |> fun d => { d with
        integ := { d.integ with turn := [(0, 9)] } }))).dev
     Tbl.look? 0 d.integ.turn = some 9 ∧ (d.ctx 9).rep.replaying = true) ∧
    (∀ ph ∈ [1, 2], let s := partA (fun d => { d with integ := { d.integ with resets := [(6, ⟨ph, [9]⟩)] } }.setReg 0x5400 0x0F 0)
      Tbl.look? 6 s.dev.integ.resets = some ⟨ph, [9]⟩ ∧ s.dev.resetsInWindow 6 < s.dev.reg 0x5400 0x02 ∧
      s.dev.ctxReg 9 0x28 ≠ 4 ∧ s.dev.reg 0x5400 0x0F % 2 = 0 ∧ Tbl.look? 7 s.dev.integ.resets = none) ∧
    (let s := partA (fun d => ({ d with integ := { d.integ with times := [(6, [0, 0, 0, 0])] } } : Dev).setReg 0x5400 0x02 4)
     s.dev.reg 0x5400 0x02 ≤ s.dev.resetsInWindow 6) ∧
    (let s := partA id
     s.dev.ctxState 0 ≠ 0 ∧ 3 < s.dev.streamCount 0 ∧ 3 < (s.dev.ctx 0).streams.length ∧ (s.dev.stream 0 3).stopped = false) := by
  decide +kernel

/-- A replay point of update 5 at log position 3. -/
def pointA : Point := ⟨[], none, [], 0, 5, 3, []⟩

/-- Context 0 awaiting its replay on partition 0, with a change of what it keeps for it. -/
def replayPart (f : Replay → Replay) : State :=
  partA (fun d => (({ d with integ := { d.integ with await := [(0, [0, 1])] } } : Dev).setReg 0x4000 0x28 1).updCtx 0 (fun c => { c with rep := f { c.rep with
    suspectOf := some 0 } }))

theorem witness_replaysTakeTurns :
    (partA (fun d => d.setReg 0x3400 0x26 1)).dev.service 0 ≠ 0 ∧
    (Tbl.look? 0 (partA (fun d => { d with integ := { d.integ with turn := [(0, 5)] } })).dev.integ.turn).isSome = true ∧
    Tbl.look [] 0 (partA id).dev.integ.await = [] ∧
    (∀ r ∈ [id, fun (x : Replay) => { x with rolled := true, points := [pointA], logHead := 3 }],
      let s := replayPart r
      s.dev.service 0 = 0 ∧ Tbl.look? 0 s.dev.integ.turn = none ∧ (Tbl.look [] 0 s.dev.integ.await).contains 0 = true ∧
      s.dev.replayReady 0 = true) ∧
    (let s := partA id
     s.passes (.mailbox 0) 0x4000 0x29 5 ∧ s.dev.replayOn 0 = false) ∧
    (let s := partA (fun d => ((d.setReg 0x4000 0x25 0x4000).setReg 0x4000 0x09 6).updCtx 0 (fun c => { c with rep := { c.rep with
      points := [pointA] } }))
     s.passes (.mailbox 0) 0x4000 0x29 5 ∧ 5 + 1 = s.dev.ctxReg 0 0x09 ∧ s.dev.replayOn 0 = true ∧ (s.dev.ctx 0).rep.marked = false ∧
     s.dev.ctxReg 0 0x28 ≠ 4 ∧ s.dev.ctxReg 0 0x28 ≠ 5 ∧ s.dev.ctxState 0 = 2 ∧ ∃ q ∈ (s.dev.ctx 0).rep.points, q.upd = 5) := by decide +kernel
/-! Harvests, tampering, images, test port, dictionary. -/

/-- Telemetry with a change. -/
def telePart (f : Tele → Tele) (d : Dev) : Dev := d.onTele f

theorem witness_harvestsExchange :
    (partA id).dev.tele.tickAt = 0 ∧ (partA id).dev.tele.harvesting = false ∧ (partA id).dev.tele.dumping = none ∧
    (let d := (partA (fun d => (telePart (fun t => { t with tickAt := 5000 }) d).setReg 0x5C00 0x02 2)).dev
     d.tele.tickAt ≠ 0 ∧ d.reg 0x5C00 0x03 * 1000 ≠ 0 ∧ d.fn 0x5C00 = 2 ∧ d.tele.harvesting = false ∧ d.isHarvested 0x7000 0x04 = d.isHarvested 0x7000 0x04 ∧
     d.isHarvested 0x5400 0x06 = true ∧ partOfIdx 0x5400 = none) ∧
    (let d := (partA (fun d => (telePart (fun t => { t with tickAt := 5000, harvesting := true }) d).setReg 0x5C00 0x02 2)).dev
     d.tele.tickAt ≠ 0 ∧ d.fn 0x5C00 = 2 ∧ d.tele.harvesting = true) ∧
    (let d := (partA (fun d => (telePart (fun t => { t with tickAt := 5000 }) d).setReg 0x5C00 0x02 0)).dev
     d.tele.tickAt ≠ 0 ∧ d.fn 0x5C00 ≠ 2) ∧
    (let d := (partA (telePart (fun t => { t with harvesting := true }))).dev
     d.reg 0x5C00 0x07 = 0 ∧ d.tele.deferred = 0) ∧
    (partA (fun d => d.setReg 0x5C00 0x07 (2 ^ 42))).dev.reg 0x5C00 0x07 ≠ 0 ∧
    (let d := (partA (fun d => (telePart (fun t => { t with dumping := some (2 ^ 42), deferred := 6 }) d).setReg 0x5C00 0x02 2)).dev
     d.tele.dumping = some (2 ^ 42) ∧ d.tele.deferred ≠ 0 ∧ d.fn 0x5C00 = 2) ∧
    (∀ v ∈ [9999, 10000], (partA id).passes (.i3c 8) 0x5C00 0x04 v) ∧ 9999 < (partA id).dev.now + 10000 ∧
    (partA id).dev.now + 10000 ≤ 10000 ∧ (partA id).passes (.i3c 8) 0x5C00 0x21 (2 ^ 64 - 1) := by decide +kernel

/-- The part in a start-up step with a change of its boot state. -/
def bootPart (step_ : Nat) (f : Boot → Boot) : State := partA (fun d => { d with boot := f d.boot }.setReg 0x6000 0x02 step_)

theorem witness_detectorsTrip :
    State.reset.dev.boot.reset = true ∧ (bootPart 10 (fun b => { b with halted := true })).dev.boot.halted = true ∧
    (bootPart 1 id).dev.reg 0x6000 0x02 < 2 ∧
    (∀ n ∈ [1, 2], ∀ st ∈ [2, 9, 10], let s := bootPart st (fun b => { b with trips := n })
      s.dev.boot.reset = false ∧ s.dev.boot.thermtrip = false ∧ s.dev.boot.halted = false ∧ s.dev.reg 0x6000 0x02 = st ∧ s.dev.boot.trips = n) ∧
    (let b := (bootPart 5 (fun b => { b with restart := true })).dev.boot
     b.restart = true ∧ b.halted = false) ∧ (partA id).dev.boot.restart = false ∧
    (partA (fun d => { d with unlocked := [17 * 16 + 15] })).dev.unlocked.contains (17 * 16 + 15) = true ∧
    (partA id).dev.unlocked.contains (17 * 16 + 15) = false ∧ (17 * 16 + 15) / 16 < 18 ∧ 18 ≤ 18 * 16 / 16 ∧
    (let d := (partA (fun d => { d with unlocked := [16 * 13 + 3] }.updSite 3 (fun x => { x with heldIn := [.hdmDecoderCommit 3] }))).dev
     d.unlocked = [16 * 13 + 3] ∧ (16 * 13 + 3) / 16 = 13 ∧ (d.site ((16 * 13 + 3) % 16)).heldLink = false ∧
     (d.site ((16 * 13 + 3) % 16)).heldIn ≠ []) ∧ ((partA id).dev.site (208 % 16)).heldIn = [] ∧
    (17 * 16 + 15) / 16 ≠ 8 ∧ (17 * 16 + 15) / 16 ≠ 15 ∧ bit ((partA id).dev.reg 0x5400 0x05) 0 = false := by decide +kernel

theorem witness_imagesUpdate :
    (partA id).dev.busyIdx 0x6000 = false ∧
    (let s := partA id
     s.passes (.i3c 8) 0x6000 0x11 0 ∧ s.imageSigned ⟨bytesAt 0 0 512, bytesAt 0 512 128⟩ 3 = false ∧
     (∀ t ∈ [0, 1, 2, 15], s.passes (.i3c 8) 0x6000 0x21 (2 ^ 30 + (t * 2 ^ 24) % 2 ^ 30) ∧ bits (t * 2 ^ 24) 27 24 = t) ∧
     s.dev.boot.update = none ∧ s.dev.boot.burnSettings = none ∧ s.dev.boot.burnLife = none ∧
     s.passes (.i3c 8) 0x6000 0x21 (2 * 2 ^ 30 + 0 % 2 ^ 30) ∧ s.passes (.i3c 8) 0x6000 0x21 (3 * 2 ^ 30 + 0 % 2 ^ 30)) ∧
    (let s := bootPart 10 (fun b => { b with update := some (1, 4193792 + 512 - 65536) })
     s.dev.boot.update = some (1, 4193792 + 512 - 65536) ∧ maxBody 1 + 512 < 4193792 + 512 - 65536 + 65537 ∧
     4193792 + 512 - 65536 + 65536 ≤ maxBody 1 + 512 ∧ s.passes (.i3c 8) 0x6000 0x21 (2 * 2 ^ 30 + 65536 % 2 ^ 30) ∧ bits 65536 16 0 = 65536 ∧
     2 * (1 - 1) + (1 - s.dev.boot.banks.getD (1 - 1) 0) < s.persist.banks.length ∧
     (s.persist.banks.getD (2 * (1 - 1) + (1 - s.dev.boot.banks.getD (1 - 1) 0)) ⟨0, 0⟩).header < 2 ^ 4096 ∧
     s.imageCode (s.persist.bank 1 (1 - s.dev.boot.banks.getD (1 - 1) 0)) 1 ≠ 0 ∧ s.persist.selects.length = 2) := by decide +kernel

theorem witness_portTested :
    (∀ l ∈ [1, 2, 4], let s : State := { partA id with persist := { Persist.reset with life := l } }
      s.persist.life ≠ 0 ∧ s.persist.life ≠ 3) ∧ (partA id).persist.life = 0 ∧ (partA id).dev.boot.reset = false ∧
    (partA id).dev.boot.thermtrip = false ∧ State.reset.dev.boot.reset = true ∧
    (bootPart 10 (fun b => { b with thermtrip := true })).dev.boot.thermtrip = true := by decide +kernel

/-- A request without a payload. -/
def reqA (index sub length : Nat) : Req := ⟨1, 6, index, sub, 0, 0, length, 0, 0, []⟩

/-- The code with which an enquiry is refused (0 where it is not). -/
def askCode (s : State) (op : Nat) (r : Req) : Nat := match s.ask (.i3c 8) op r with
  | .error c => c
  | .ok _ => 0

/-- The code with which the first checks of a write refuse it (0 where they do not). -/
def headCode (s : State) (idx sub : Nat) : Nat := match s.dev.writeHead (.i3c 8) idx sub with
  | .error c => c
  | .ok _ => 0

/-- A waiting request of the endpoint. -/
def waitA (kind index : Nat) : Waiting := ⟨.i3c 8, 2, reqA index 0x11 1, kind, false⟩

/-- The dictionary's transports with a change. -/
def dictPart (f : DictSt → DictSt) : State := partA (fun d => { d with dict := f d.dict })

theorem witness_requestsAnswered :
    State.reset.dev.deaf (.i3c 8) = true ∧ State.reset.dev.deaf (.mailbox 3) = true ∧ State.reset.dev.mute (.i3c 0) = true ∧
    (partA id).dev.mute (.i3c 0) = false ∧
    (let s := dictPart (fun x => { x with waiting := List.replicate 4 (waitA 1 0x1800) })
     s.dev.deaf (.i3c 8) = false ∧ viaLimit (.i3c 8) ≤ s.dev.outstanding (.i3c 8)) ∧
    (let s := partA (fun d => ({ d with dict := { d.dict with kept := [(9, ⟨0x81, 5, 0, 0, 0, 0, 0, 0, []⟩)] } } : Dev).setReg 0x1100 0x0E 9)
     s.dev.deaf (.vlan 9) = false ∧ s.dev.outstanding (.vlan 9) < viaLimit (.vlan 9) ∧ (∀ k ∈ s.dev.dict.kept, k.1 = 9 → k.2.tag ≠ 6) ∧
     s.dev.avail = true) ∧
    (∀ op ∈ [1, 2, 3, 4, 5], malformed op { reqA 0x1000 1 0 with version := 2 } = true) ∧
    (let s := dictPart (fun x => { x with waiting := List.replicate 3 (waitA 1 0x1800) })
     s.dev.deaf (.i3c 8) = false ∧ s.dev.outstanding (.i3c 8) < viaLimit (.i3c 8) ∧ s.dev.avail = true ∧ s.dev.busyIdx 0x1800 = true ∧
     malformed 1 (reqA 0x1800 1 0) = false ∧ malformed 2 { reqA 0x1800 0x11 1 with payload := [1], ty := 2 } = false) ∧
    (let s := partA id
     (∀ op ∈ [1, 3, 4, 5], malformed op (reqA 0xFFFF 1 0) = false ∧ askCode s op (reqA 0xFFFF 1 0) = 0x0101) ∧
     malformed 2 { reqA 0x1000 1 1 with payload := [0] } = false ∧ headCode s 0x1000 0x01 = 0x0103 ∧
     (∃ row, s.dev.row 0x6000 0x02 = some row ∧ s.dev.visible (.i3c 8) 0x6000 0x02 = true ∧ row.acc ≠ .wo ∧ row.ty ≠ .domain) ∧
     (∃ row, s.dev.row 0x6000 0x32 = some row ∧ row.acc ≠ .wo ∧ row.ty = .domain ∧ 4095 + 1 ≤ row.size ∧
       s.dev.visible (.i3c 8) 0x6000 0x32 = true) ∧ malformed 1 { reqA 0x6000 0x32 1 with offset := 4095 } = false ∧
     (∀ op ∈ [3, 4, 5], malformed op (reqA 0x6000 0x02 0) = false) ∧ malformed 3 { reqA 0x6000 0x02 0 with count := 255 } = false ∧
     (∃ row, s.dev.row 0x2200 0x04 = some row ∧ headCode s 0x2200 0x04 = 0 ∧ row.ty ≠ .domain ∧ row.size = 4 ∧
       s.dev.valueChecks row 0x2200 0x04 (leNat [0, 0, 0x80, 0x3B]) = 0 ∧
       malformed 2 { reqA 0x2200 0x04 4 with payload := [0, 0, 0x80, 0x3B], ty := row.ty.code } = false)) ∧
    State.reset.dev.linkHolds 3 = false ∧ (partA id).dev.linkHolds 0 = false ∧ (partA id).dev.linkHolds 3 = false ∧
    (partA (fun d => d.updSite 3 (fun x => { x with mbState := 2 }))).dev.linkHolds 3 = false ∧
    (partA id).dev.deaf (.mailbox 0) = false ∧ ((partA id).dev.site 3).mbState ≠ 2 ∧
    ((partA (fun d => d.updSite 3 (fun x => { x with mbState := 2 }))).dev.site 3).mbState = 2 ∧
    (∀ k ∈ (partA id).dev.dict.kept, ¬(k.1 = 9 ∧ k.2.tag = 5)) := by decide +kernel
/-! Delayed replies, encodings of stream commands, the stated rules. -/

theorem leBytes_add_high : ∀ (n v w : Nat), leBytes n (v + w * 2 ^ (8 * n)) = leBytes n v
  | 0, _, _ => rfl
  | n + 1, v, w => by
    have h : v + w * 2 ^ (8 * (n + 1)) = v + (w * 2 ^ (8 * n)) * 256 := by rw [Nat.mul_assoc, Nat.mul_add, pow_add]; rfl
    rw [h, leBytes, leBytes, Nat.add_mul_mod_self_right, Nat.add_mul_div_right _ _ (by decide), leBytes_add_high n]

theorem bytesAt_add_high (v w off n m : Nat) (h : off + n ≤ m) : bytesAt (v + w * 2 ^ (8 * m)) off n = bytesAt v off n := by
  obtain ⟨k, rfl⟩ := Nat.exists_eq_add_of_le h
  have e : v + w * 2 ^ (8 * (off + n + k)) = v + (w * 2 ^ (8 * k) * 2 ^ (8 * n)) * 2 ^ (8 * off) := by
    rw [Nat.mul_add, Nat.mul_add, pow_add, pow_add]; ring
  rw [bytesAt, bytesAt, Nat.shiftRight_eq_div_pow, Nat.shiftRight_eq_div_pow, e, Nat.add_mul_div_right _ _ (Nat.two_pow_pos _), Nat.add_mul_mod_self_right]

theorem crc32c_lt (bs : List Nat) (hb : ∀ b ∈ bs, b < 256) : crc32c bs < 2 ^ 32 := by
  have bitStep : ∀ c, c < 2 ^ 32 → (if c % 2 = 1 then (c / 2) ^^^ 0x82F63B78 else c / 2) < 2 ^ 32 := by
    intro c hc
    split
    · exact Nat.xor_lt_two_pow (by omega) (by decide)
    · omega
  have byteStep : ∀ (l : List Nat) c, c < 2 ^ 32 →
      l.foldl (fun c _ => if c % 2 = 1 then (c / 2) ^^^ 0x82F63B78 else c / 2) c < 2 ^ 32 := by
    intro l; induction l with
    | nil => intro c hc; exact hc
    | cons a l ih => intro c hc; exact ih _ (bitStep c hc)
  have all : ∀ (l : List Nat) c, (∀ b ∈ l, b < 256) → c < 2 ^ 32 → l.foldl (fun c b => (List.range 8).foldl (fun c _ => if c % 2 = 1 then (c / 2) ^^^ 0x82F63B78 else c / 2) (c ^^^ b)) c < 2 ^ 32 := by
    intro l; induction l with
    | nil => intro c _ hc; exact hc
    | cons a l ih =>
      intro c hl hc
      exact ih _ (fun b hb => hl b (List.mem_cons_of_mem _ hb)) (byteStep _ _ (Nat.xor_lt_two_pow hc (Nat.lt_trans (hl a (List.mem_cons_self ..)) (by decide))))
  exact Nat.xor_lt_two_pow (all bs _ hb (by decide)) (by decide)

theorem leBytes_lt : ∀ (n v : Nat), ∀ b ∈ leBytes n v, b < 256
  | 0, _ => by simp [leBytes]
  | n + 1, v => by
    intro b hb
    rw [leBytes, List.mem_cons] at hb
    rcases hb with rfl | hb
    · exact Nat.mod_lt _ (by decide)
    · exact leBytes_lt n _ b hb

theorem crc_tail (n v : Nat) (h : v < 2 ^ (8 * n)) (c : Nat) (hc : c = crc32c (leBytes n v)) :
    bytesAt (v + c * 2 ^ (8 * n)) n 4 = crc32c (leBytes n (v + c * 2 ^ (8 * n))) := by
  rw [leBytes_add_high, ← hc, bytesAt, Nat.shiftRight_eq_div_pow, Nat.add_mul_div_right _ _ (Nat.two_pow_pos _), Nat.div_eq_of_lt h, Nat.zero_add]
  exact Nat.mod_eq_of_lt (hc ▸ crc32c_lt _ (leBytes_lt n v))

/-- What a settings image of generation 2 without records holds before its CRC (R679). -/
def bodyTwo : Nat := 0x53455453 + 2 <<< 32

/-- The settings image of generation 2 without records (R679). -/
def imageTwo (crc : Nat) : Nat := bodyTwo + crc * 2 ^ (8 * 4092)

theorem imageTwo_formed (c : Nat) (h : c = crc32c (leBytes 4092 bodyTwo)) : settingsForm (imageTwo c) 2 = true ∧ bytesAt (imageTwo c) 8 2 = 0 := by
  have crc := crc_tail 4092 bodyTwo (by decide +kernel) c h
  have n0 : bytesAt (imageTwo c) 8 2 = 0 := (bytesAt_add_high _ _ _ _ _ (by decide)).trans (by decide +kernel)
  have n1 : bytesAt (imageTwo c) 0 4 = 0x53455453 := (bytesAt_add_high _ _ _ _ _ (by decide)).trans (by decide +kernel)
  have n2 : bytesAt (imageTwo c) 4 1 = 2 := (bytesAt_add_high _ _ _ _ _ (by decide)).trans (by decide +kernel)
  have n3 : bytesAt (imageTwo c) 5 3 = 0 := (bytesAt_add_high _ _ _ _ _ (by decide)).trans (by decide +kernel)
  have n4 : bytesAt (imageTwo c) 10 6 = 0 := (bytesAt_add_high _ _ _ _ _ (by decide)).trans (by decide +kernel)
  have n5 : bytesAt (imageTwo c) 16 4076 = 0 := (bytesAt_add_high _ _ _ _ _ (by decide)).trans (by decide +kernel)
  refine ⟨?_, n0⟩
  change bytesAt (imageTwo c) 4092 4 = crc32c (leBytes 4092 (imageTwo c)) at crc
  generalize imageTwo c = img at *
  simp [settingsForm, n0, n1, n2, n3, n4, n5, crc]

theorem witness_delayedRepliesFollow_image : ∃ img, (partA (fun d => d.setReg 0x1800 0x10 img)).dev.reg 0x1800 0x10 = img ∧
    settingsForm img 2 = true ∧ bytesAt img 8 2 = 0 :=
  have read : ∀ img, (partA (fun d => d.setReg 0x1800 0x10 img)).dev.reg 0x1800 0x10 = img := fun _ => rfl
  ⟨imageTwo _, read _, imageTwo_formed _ rfl⟩

theorem witness_delayedRepliesFollow_reclaim :
    (let s := partA (fun d => (sitePart 5 3 d).updSite 3 (fun x => { x with held := [1023] }) |>.setReg 0x43FF 0x03 3)
     s.dev.busyIdx 0x4803 = false ∧ (∀ v ∈ [0, 1], s.passes (.i3c 8) 0x4803 0x07 v) ∧ (s.dev.site 3).phase = 5 ∧ s.dev.reclaiming 3 = false ∧
     (s.dev.site 3).held ≠ [] ∧ (s.dev.site 3).held.Nodup ∧ (s.dev.site 3).attachWait = none ∧ s.dev.dict.waiting = [] ∧
     ∀ c ∈ (s.dev.site 3).held, c < 1024 ∧ s.dev.ctxState c = 0 ∧ s.dev.owner c = some 3) := by decide +kernel

theorem witness_delayedRepliesFollow_settings :
    (∀ l ∈ [2, 3], let s : State := { partA id with persist := { Persist.reset with life := l } }
     s.passes (.i3c 8) 0x1800 0x11 2 ∧ s.dev.busyIdx 0x1800 = false ∧ s.persist.nextSlot = some 1 ∧ s.persist.life = l) ∧
    (partA id).passes (.i3c 8) 0x1800 0x11 3 ∧
    settingsForm ((partA id).dev.reg 0x1800 0x10) 2 = false ∧
    (let s : State := { partA id with persist := { Persist.reset with slots := List.replicate 5 (some 0) } }
     s.persist.nextSlot = none) ∧
    (let s := partA (fun d => { d with boot := { d.boot with burnSettings := some (4, 7) }, dict := { d.dict with waiting := [waitA 1 0x1800] } })
     s.dev.boot.burnSettings = some (4, 7) ∧ s.dev.dict.waiting = [waitA 1 0x1800] ∧ (waitA 1 0x1800).kind = 1 ∧ (waitA 1 0x1800).via = .i3c 8) ∧
    (partA id).dev.boot.burnSettings = none ∧
    (partA id).dev.boot.burnLife = none := by decide +kernel

theorem witness_delayedRepliesFollow_lifeCycle :
    (partA id).dev.dict.waiting = [] ∧
    (let s : State := { partA id with persist := { Persist.reset with life := 1 } }
     s.passes (.i3c 8) 0x6000 0x10 0xA502 ∧ bits 0xA502 15 8 = 0xA5 ∧ s.lifeOk (0xA502 % 8) = true ∧ s.lifeOk (0xA503 % 8) = false ∧
     s.passes (.i3c 8) 0x6000 0x10 0xA503) ∧
    (partA (fun d => { d with boot := { d.boot with burnLife := some 4 } })).passes (.i3c 8) 0x6000 0x10 0xA504 := by decide +kernel

theorem witness_delayedRepliesFollow :
    (let s := partA (fun d => { d with boot := { d.boot with burnLife := some 4 }, dict := { d.dict with waiting := [waitA 2 0x6000] } })
     s.dev.boot.burnLife = some 4 ∧ s.dev.dict.waiting = [waitA 2 0x6000] ∧ (waitA 2 0x6000).req.index = 0x6000) ∧
    (∀ l ∈ [0, 1, 2, 3, 4], ∀ k ∈ [true, false], let s : State := { bootPart 10 (fun b => { b with keys := k }) with persist := { Persist.reset with life := l } }
     s.passes (.i3c 8) 0x6000 0x30 (2 ^ 384 - 1) ∧ s.dev.dict.staging = [] ∧ s.live (.i3c 8) 0x6000 0x30 < 2 ^ 384 ∧ s.dev.boot.keys = k) ∧
    (let d := (bootPart 5 id).dev
     d.boot.keys = false ∧ Tbl.look? 0 d.wiping = none ∧ 5 ≤ d.reg 0x6000 0x02) ∧
    (bootPart 4 id).dev.reg 0x6000 0x02 < 5 ∧
    (dictPart (fun x => { x with waiting := [waitA 3 0x6000] })).dev.dict.waiting = [waitA 3 0x6000] ∧
    (∀ idx ∈ [0x2C17, 0x3000, 0x5800, 0x5C00], let s := partA (fun d => d.setReg idx 0x02 3)
     s.dev.fn idx = 3 ∧ isFunction idx = true ∧ ctxIdx idx = none ∧ (ruleOf idx).isSome = true ∧ s.stopDone idx = true) ∧
    (let s := partA (fun d => (d.setReg 0x3000 0x02 3).updEng 0 (fun k => { k with vq := [vecA] }))
     s.dev.fn 0x3000 = 3 ∧ s.stopDone 0x3000 = false) ∧
    (partA id).dev.fn 0x5C00 ≠ 3 ∧
    isFunction 0x1000 = false := by decide +kernel

theorem witness_refusedWritesChangeNothing :
    (let s := partA id
     s.dev.avail = true ∧ s.dev.deaf (.i3c 8) = false ∧ s.dev.busyIdx 0x2800 = false ∧ s.dev.busyIdx 0x6000 = false ∧
     s.dev.writeCode (.i3c 8) 0x5C00 0x01 2 = 0x0105 ∧ s.dev.writeCode (.mailbox 0) 0x6000 0x11 0 ≠ 0 ∧
     s.dev.writeCode (.mailbox 0) 0x2800 0x01 0 = 0x0508) := by decide +kernel

theorem witness_commandsRoundTrip :
    (⟨1023, 3, 65535, 2 ^ 64 - 1, 63, true, true, 2 ^ 14 - 1⟩ : Origin).wf = true ∧ (mtileA 2 128).wf = true ∧ (mtileA 2 128).reserved = 0 ∧
    (⟨2 ^ 52 - 64, 2 ^ 52 - 64, 0, 0, 31, 1, 1, 127, 7, 1, 1, 2 ^ 32 - 1, 0, 2 ^ 24 - 1, 2 ^ 48 - 1, 2 ^ 32 - 1, 0⟩ : VecF).wf = true ∧
    (⟨2 ^ 52 - 64, 0, 0, 0, 31, 1, 1, 127, 7, 1, 1, 2 ^ 32 - 1, 2 ^ 32 - 1, 2 ^ 24 - 1, 2 ^ 48 - 1, 2 ^ 32 - 1, 0⟩ : VecF).wf = true ∧
    (⟨2 ^ 52 - 64, 2 ^ 52 - 64, 2 ^ 52 - 64, 0⟩ : MoveF).wf = true ∧
    (⟨2 ^ 52 - 64, 0, 2 ^ 52 - 64, 0, 2 ^ 32 - 1, 1023, 3, 3, 0, 1, 7, 1, 2 ^ 24 - 1, 127, 0⟩ : CollF).wf = true ∧
    (⟨0, 2 ^ 32 - 1, 2 ^ 52 - 64, 0, 2 ^ 32 - 1, 1023, 3, 3, 1, 1, 7, 1, 2 ^ 24 - 1, 127, 0⟩ : CollF).wf = true ∧
    (⟨3, 255, 2 ^ 32 - 1, 2 ^ 52 - 64, 2 ^ 64 - 1, 2 ^ 32 - 1, 2 ^ 32 - 1, 0⟩ : HandleF).wf = true ∧
    (⟨2 ^ 52 - 64, 2 ^ 52 - 64, 2 ^ 52 - 64, 2 ^ 32 - 1, 2 ^ 32 - 1, 2 ^ 32 - 1, 65535, 255, 1, 2 ^ 14 - 1, 0⟩ : SnapF).wf = true ∧
    (⟨2 ^ 52 - 64, 2 ^ 52 - 64, 2 ^ 52 - 64, 2 ^ 32 - 1, 2 ^ 32 - 1, 2 ^ 32 - 1, 65535, 0, 1, 2 ^ 32 - 1, 0⟩ : SnapF).wf = true := by
  decide +kernel

theorem witness_absentSitesRefuse :
    (let s := partA (fun d => { d with mfg := { d.mfg with pop := 7 } })
     s.dev.populated 3 = false ∧ s.dev.avail = true ∧ s.dev.deaf (.i3c 8) = false ∧ s.dev.busyIdx 0x4803 = false) := by decide +kernel

theorem witness_transportsRefused :
    (let s := partA (fun d => d.updSite 3 (fun x => { x with link := 3 }))
     s.dev.avail = true ∧ s.dev.deaf (.mailbox 3) = false) ∧
    (⟨.mailbox 3, 2, reqA 0x2800 0x01 1, 0, false⟩ : Waiting).via = .mailbox 3 ∧
    (∀ sub ∈ [0x24, 0x25], (reqA 0x303F sub 1).index = 0x3000 + 63 ∧ (reqA 0x303F sub 1).sub = sub) := by decide +kernel

theorem witness_harvestedReads :
    (let d := (partA (telePart (fun t => { t with current := { t.current with vals := [(ekey 0x5400 0x06, 7)] } }))).dev
     d.isHarvested 0x5400 0x06 = true ∧ Tbl.look? (ekey 0x5400 0x06) d.tele.current.vals = some 7) ∧
    (partA id).dev.isHarvested 0x5C00 0x09 = false := by decide +kernel

theorem witness_minimumSvnRises :
    (let s := bootPart 9 (fun b => { b with running := true, headers := [some (7 <<< 96), none] })
     s.dev.boot.running = true ∧ s.dev.boot.halted = false ∧ s.dev.boot.thermtrip = false ∧ s.dev.boot.restart = false ∧
     s.dev.reg 0x6000 0x02 = 9 ∧ s.dev.boot.headers.getD (1 - 1) none = some (7 <<< 96) ∧ s.dev.boot.headers.getD (2 - 1) none = none ∧
     s.persist.svnFw < bytesAt (7 <<< 96) 12 1 ∧ bytesAt 0 12 1 < 7) := by decide +kernel

theorem witness_carriesTakeNan :
    (let one : Opnd := ⟨.finite, false, 0, 128⟩
     let inf : Opnd := ⟨.inf, false, 0, 0⟩
     let minf : Opnd := ⟨.inf, true, 0, 0⟩
     let nan : Opnd := ⟨.nan, false, 0, 0⟩
     let cls := fun (a w : List Opnd) => (runOf 0 0 (a.zip w)).1
     0 < 2 ∧ ([one, one] : List Opnd).length = ([one, one] : List Opnd).length ∧ 2 ∣ ([one, one] : List Opnd).length ∧
     (cls [one, nan] [one, one]).nan = true ∧
     ((cls [one, inf] [one, one]).nan = false ∧ (cls [one, inf] [one, one]).pinf = true ∧ (cls [one, inf] [one, one]).ninf = false) ∧
     ((cls [inf, one] [minf, one]).nan = false ∧ (cls [inf, one] [minf, one]).pinf = false ∧ (cls [inf, one] [minf, one]).ninf = true) ∧
     ((cls [inf, minf] [one, one]).pinf = true ∧ (cls [inf, minf] [one, one]).ninf = true)) := by decide +kernel
end Sys2Proof.Tests
end

/-! Registers by sub-index, loops over a list of units, and the frames that later proofs share. -/
namespace Sys2Proof.Machine
open Sys2Proof

/-! Loops. -/

/-- What one element of a list establishes under a kept premise, and every element keeps, holds after the whole loop. -/
theorem foldl_establishes {α β : Type} {f : β → α → β} (Q P : β → Prop) {l : List α} {a : α} (ha : a ∈ l)
    (keepQ : ∀ b x, Q b → Q (f b x)) (est : ∀ b, Q b → P (f b a)) (keep : ∀ b x, P b → P (f b x)) :
    ∀ b, Q b → P (l.foldl f b) := by
  induction l with
  | nil => cases ha
  | cons x t ih =>
    intro b hq
    rcases List.mem_cons.mp ha with rfl | ht
    · exact foldl_keeps P keep t _ (est b hq)
    · exact ih ht _ (keepQ b x hq)

/-! Registers: what is written at some sub-indices only leaves the entries at every other one. -/

/-- Only entries at the listed sub-indices may read differently. -/
def Dev.RegsOff (l : List Nat) (d e : Dev) : Prop := ∀ i a, a < 256 → a ∉ l → e.reg i a = d.reg i a

/-- A write of one entry leaves an entry at another place (the keys are the spelled-out `ekey`). -/
theorem Dev.reg_setReg_other (d : Dev) {i a j b : Nat} (h : j * 256 + b ≠ i * 256 + a) (v : Nat) :
    (d.setReg i a v).reg j b = d.reg j b := Dev.reg_setReg_ne d h v

/-- A write of one entry leaves an entry at another place, the places given as pairs. -/
theorem Dev.reg_setReg_place (d : Dev) {i a j b : Nat} (hb : b < 256) (ha : a < 256) (h : (j, b) ≠ (i, a)) (v : Nat) :
    (d.setReg i a v).reg j b = d.reg j b := by
  refine Dev.reg_setReg_ne d (fun hk => h ?_) v
  obtain ⟨rfl, rfl⟩ := ekey_inj hb ha hk
  rfl

/-- A count leaves an entry at another place. -/
theorem Dev.reg_addReg_other (d : Dev) {i a j b : Nat} (h : j * 256 + b ≠ i * 256 + a) (n : Nat) :
    (d.addReg i a n).reg j b = d.reg j b := Dev.reg_addReg_ne d h n

/-- Counting one leaves an entry at another place. -/
theorem Dev.reg_incReg_other (d : Dev) {i a j b : Nat} (h : j * 256 + b ≠ i * 256 + a) :
    (d.incReg i a).reg j b = d.reg j b := Dev.reg_addReg_ne d h 1

@[simp] theorem Dev.reg_incReg_self (d : Dev) (i a : Nat) : (d.incReg i a).reg i a = (d.reg i a + 1) % two64 :=
  Dev.reg_addReg_self d i a 1

theorem Dev.RegsOff.refl (l : List Nat) (d : Dev) : Dev.RegsOff l d d := fun _ _ _ _ => rfl

theorem Dev.RegsOff.trans {l : List Nat} {d e f : Dev} (h : Dev.RegsOff l d e) (k : Dev.RegsOff l e f) : Dev.RegsOff l d f :=
  fun i a ha hl => (k i a ha hl).trans (h i a ha hl)

theorem Dev.RegsOff.mono {l m : List Nat} {d e : Dev} (h : Dev.RegsOff l d e) (s : ∀ a ∈ l, a ∈ m) : Dev.RegsOff m d e :=
  fun i a ha hm => h i a ha (fun hl => hm (s a hl))

/-- Same listed values and the same manufacture record: every entry reads as before. -/
theorem Dev.RegsOff.of_regs {l : List Nat} {d e : Dev} (hr : e.regs = d.regs) (hm : e.mfg = d.mfg) : Dev.RegsOff l d e :=
  fun i a _ _ => Dev.reg_congr hr hm i a

theorem Dev.RegsOff.setReg {l : List Nat} (d : Dev) (i v : Nat) {a : Nat} (ha : a < 256) (hl : a ∈ l) :
    Dev.RegsOff l d (d.setReg i a v) := by
  intro j b hb hn
  refine Dev.reg_setReg_ne d (fun hk => ?_) v
  obtain ⟨-, rfl⟩ := ekey_inj hb ha hk
  exact hn hl

theorem Dev.RegsOff.addReg {l : List Nat} (d : Dev) (i n : Nat) {a : Nat} (ha : a < 256) (hl : a ∈ l) :
    Dev.RegsOff l d (d.addReg i a n) := Dev.RegsOff.setReg d i _ ha hl

theorem Dev.RegsOff.incReg {l : List Nat} (d : Dev) (i : Nat) {a : Nat} (ha : a < 256) (hl : a ∈ l) :
    Dev.RegsOff l d (d.incReg i a) := Dev.RegsOff.addReg d i 1 ha hl

theorem Dev.RegsOff.foldl {l : List Nat} {β : Type} {f : Dev → β → Dev} (hf : ∀ d b, Dev.RegsOff l d (f d b)) (xs : List β)
    (d : Dev) : Dev.RegsOff l d (xs.foldl f d) :=
  foldl_keeps (Dev.RegsOff l d) (fun e b h => h.trans (hf e b)) xs d (Dev.RegsOff.refl l d)

/-! Loops over engines. -/

/-- A change of every engine of a list holds at each of them, when the change always leaves what is claimed. -/
theorem Dev.eng_foldl_updEng_mem {P : Eng → Prop} {f : Eng → Eng} (hf : ∀ x, P (f x)) {l : List Nat} {k : Nat} (hk : k ∈ l)
    (d : Dev) : P ((l.foldl (fun d e => d.updEng e f) d).eng k) := by
  refine foldl_establishes (fun _ => True) (fun d => P (d.eng k)) hk (fun _ _ h => h) (fun b _ => ?_) (fun b x h => ?_) d trivial
  · simpa using hf _
  · by_cases hx : k = x
    · subst hx; simpa using hf _
    · rwa [Dev.eng_updEng_ne b hx]

/-- A change of every engine of a list leaves every other engine. -/
theorem Dev.eng_foldl_updEng_notMem (f : Eng → Eng) {l : List Nat} {k : Nat} (hk : k ∉ l) (d : Dev) :
    (l.foldl (fun d e => d.updEng e f) d).eng k = d.eng k := by
  induction l generalizing d with
  | nil => rfl
  | cons x t ih =>
    rw [List.foldl_cons, ih (fun h => hk (List.mem_cons_of_mem _ h)),
      Dev.eng_updEng_ne d (fun h => hk (by simp [h]))]

/-- A change of engines is a change of nothing else. -/
theorem Dev.foldl_updEng_frame (f : Eng → Eng) (l : List Nat) (d : Dev) :
    l.foldl (fun d e => d.updEng e f) d = { d with engs := (l.foldl (fun d e => d.updEng e f) d).engs } :=
  foldl_keeps (fun e : Dev => e = { d with engs := e.engs }) (fun e x h => by rw [h]; rfl) l d rfl

/-! What stopping streams, failing commands, raising events and sending notices can change. -/

/-- The sub-indices at which events, refusals and what leaves the ports are counted. -/
def noisySubs : List Nat := [0x0B, 0x0C, 0x0D, 0x0E, 0x15, 0x20]

/-- `e` is `d` but for what stops, events and notices write: contexts, sites, what left the part, the log, and counts. -/
structure StopOf (d e : Dev) : Prop where
  frame : e = { d with regs := e.regs, ctxs := e.ctxs, sites := e.sites, tx := e.tx, tele := e.tele }
  regs : Dev.RegsOff noisySubs d e

namespace StopOf

theorem refl (d : Dev) : StopOf d d := ⟨rfl, Dev.RegsOff.refl _ d⟩

theorem trans {a b c : Dev} (h : StopOf a b) (k : StopOf b c) : StopOf a c :=
  ⟨by rw [k.frame, h.frame], h.regs.trans k.regs⟩

theorem foldl {β : Type} {f : Dev → β → Dev} (hf : ∀ d b, StopOf d (f d b)) (l : List β) (d : Dev) : StopOf d (l.foldl f d) :=
  foldl_keeps (StopOf d) (fun e b h => h.trans (hf e b)) l d (refl d)

/-- An event writes no more than that. -/
theorem of_event {d e : Dev} (h : EventOf d e) : StopOf d e := by
  obtain ⟨hf, -, hr⟩ := h
  refine ⟨by rw [hf], fun i a ha hn => hr i a ha ?_⟩
  simp only [noisySubs, List.mem_cons, List.not_mem_nil, or_false, not_or] at hn
  simp [eventPlace, hn]

theorem raiseCtx (d : Dev) (code c : Nat) (fields : List Nat) : StopOf d (d.raiseCtx code c fields) :=
  of_event (EventOf.raise _ _ _ _ _ _ _)

theorem incReg (d : Dev) (i : Nat) {a : Nat} (ha : a < 256) (hl : a ∈ noisySubs) : StopOf d (d.incReg i a) :=
  ⟨rfl, Dev.RegsOff.incReg d i ha hl⟩

theorem out (d : Dev) (x : Out) : StopOf d (d.out x) := ⟨rfl, Dev.RegsOff.of_regs rfl rfl⟩

theorem updCtx (d : Dev) (c : Nat) (f : Ctx → Ctx) : StopOf d (d.updCtx c f) := ⟨rfl, Dev.RegsOff.of_regs rfl rfl⟩

theorem stopStream (d : Dev) (c i cause code seq op : Nat) (cmd : Option QCmd) :
    StopOf d (d.stopStream c i cause code seq op cmd) := by
  unfold Dev.stopStream
  split
  · exact refl d
  · exact updCtx _ _ _

theorem failCommand (d : Dev) (c i cause code seq op : Nat) (cmd : Option QCmd) :
    StopOf d (d.failCommand c i cause code seq op cmd) :=
  ((incReg d _ (by decide) (by decide)).trans (stopStream _ _ _ _ _ _ _ _)).trans (raiseCtx _ _ _ _)

theorem stopBare (d : Dev) (c i code : Nat) : StopOf d (d.stopBare c i code) :=
  (stopStream _ _ _ _ _ _ _ _).trans (raiseCtx _ _ _ _)

theorem stopCtx (d : Dev) (c code : Nat) : StopOf d (d.stopCtx c code) := foldl (fun d i => stopBare d c i code) _ d

theorem control (d : Dev) (h rank kind : Nat) (fields : List Nat) : StopOf d (d.control h rank kind fields) := by
  unfold Dev.control
  split
  · exact (incReg d _ (by decide) (by decide)).trans (out _ _)
  · exact out d _

theorem notice (d : Dev) (h kind : Nat) (cs : List Nat) : StopOf d (d.notice h kind cs) := by
  unfold Dev.notice
  split
  · exact refl d
  · split
    · exact refl d
    · exact foldl (fun d r => (incReg d _ (by decide) (by decide)).trans (control _ _ _ _ _)) _ d

theorem noticeAll (d : Dev) (kind : Nat) (cs : List Nat) : StopOf d (d.noticeAll kind cs) :=
  foldl (fun d (p : Nat × Handle) => notice d p.1 kind cs) d.net.handles d

end StopOf

end Sys2Proof.Machine

/-! Gradient chunks on their way from the network interface to staging: what a delivery, a refusal and the buffer's level
leave, and the run of a chunk's writes. -/
namespace Sys2Proof.Machine
open Sys2Proof

/-! Computations run one after the other. -/

/-- A computation that succeeds hands its answer and its state to the next one. -/
theorem State.runAct_bind {α β : Type} {s w : State} {a : Act α} {x : α} (h : s.runAct a = (.ok x, w)) (f : α → Act β) :
    s.runAct (a >>= f) = w.runAct (f x) := by
  have ha : (a ⟨s.mem, s.dev⟩).1 = .ok x := congrArg Prod.fst h
  obtain rfl : { s with mem := (a ⟨s.mem, s.dev⟩).2.mem, dev := (a ⟨s.mem, s.dev⟩).2.dev } = w := congrArg Prod.snd h
  have hb : (a >>= f) ⟨s.mem, s.dev⟩ = f x (a ⟨s.mem, s.dev⟩).2 := by
    change ExceptT.bindCont f (a ⟨s.mem, s.dev⟩).1 (a ⟨s.mem, s.dev⟩).2 = _
    rw [ha]
    rfl
  simp only [State.runAct, hb]

/-! Perturbation off. -/

/-- While perturbation is not ON no rule sees an opportunity. -/
theorem Dev.perturb_off {d : Dev} (h : d.fn 0x7000 ≠ 2) (kind target : Nat) : d.perturb kind target = ([], d) := by
  unfold Dev.perturb
  exact if_pos h

/-- While perturbation is not ON the reading of a chunk buffer meets no injected error. -/
theorem Dev.bufferErrors_off {d : Dev} (h : d.fn 0x7000 ≠ 2) (st : Nat) (k : Chunk) : d.bufferErrors st k = (false, d) := by
  unfold Dev.bufferErrors
  generalize List.range _ = l
  induction l with
  | nil => rfl
  | cons x t ih => rw [List.foldl_cons]; simpa only [Dev.perturb_off h, List.any_nil, Bool.or_false] using ih

/-! The level of a reassembly buffer (R494, R524): stacks and waiting chunks stay. -/

/-- `e` has the stacks and the waiting chunks of `d`, and its entries but the counts of frames and the high-water mark. -/
structure Dev.LevelOf (d e : Dev) : Prop where
  stks : e.stks = d.stks
  ready : e.net.ready = d.net.ready
  regs : Dev.RegsOff [0x0B, 0x0C] d e

theorem Dev.LevelOf.refl (d : Dev) : Dev.LevelOf d d := ⟨rfl, rfl, Dev.RegsOff.refl _ d⟩

theorem Dev.LevelOf.trans {a b c : Dev} (h : Dev.LevelOf a b) (k : Dev.LevelOf b c) : Dev.LevelOf a c :=
  ⟨k.stks.trans h.stks, k.ready.trans h.ready, h.regs.trans k.regs⟩

theorem Dev.LevelOf.foldl {β : Type} {f : Dev → β → Dev} (hf : ∀ d b, Dev.LevelOf d (f d b)) (l : List β) (d : Dev) :
    Dev.LevelOf d (l.foldl f d) :=
  foldl_keeps (Dev.LevelOf d) (fun e b h => h.trans (hf e b)) l d (Dev.LevelOf.refl d)

theorem Dev.LevelOf.sendFrame (d : Dev) (sub kind : Nat) (fields : List Nat) (bytes : Nat) :
    Dev.LevelOf d (d.sendFrame sub kind fields bytes) :=
  ⟨rfl, rfl, (Dev.RegsOff.incReg d _ (by decide) (by decide)).trans (Dev.RegsOff.of_regs rfl rfl)⟩

theorem Dev.LevelOf.pfcSent (d : Dev) (l : List Nat) : Dev.LevelOf d (d.updNet (fun x => { x with pfcSent := l })) :=
  ⟨rfl, rfl, Dev.RegsOff.of_regs rfl rfl⟩

/-- The frames of a pause or a release. -/
theorem Dev.LevelOf.sendFrames (d : Dev) (kind : Nat) (fields : List Nat) (bytes : Nat) (subs : List Nat) :
    Dev.LevelOf d (subs.foldl (fun d sub => d.sendFrame sub kind fields bytes) d) :=
  Dev.LevelOf.foldl (fun d sub => Dev.LevelOf.sendFrame d sub kind fields bytes) subs d

theorem Dev.LevelOf.bufferLevel (d : Dev) : Dev.LevelOf d d.bufferLevel := by
  unfold Dev.bufferLevel
  refine Dev.LevelOf.foldl (fun d die => ?_) _ d
  dsimp only
  have mark : Dev.LevelOf d (if d.reg 0x1100 0x0C < d.occupied die then d.setReg 0x1100 0x0C (d.occupied die) else d) := by
    split
    · exact ⟨rfl, rfl, Dev.RegsOff.setReg d _ _ (by decide) (by decide)⟩
    · exact Dev.LevelOf.refl d
  refine mark.trans ?_
  generalize (if d.reg 0x1100 0x0C < d.occupied die then d.setReg 0x1100 0x0C (d.occupied die) else d) = e
  split
  · exact Dev.LevelOf.refl e
  · split
    · exact (Dev.LevelOf.sendFrames _ _ _ _ _).trans (Dev.LevelOf.pfcSent _ _)
    · split
      · exact (Dev.LevelOf.sendFrames _ _ _ _ _).trans (Dev.LevelOf.pfcSent _ _)
      · exact Dev.LevelOf.refl e

/-! The chunk that the network interface holds for a place. -/

/-- Is a complete chunk bound for this place of staging? -/
def ReadyChunk.isAt (st c tensor q : Nat) (r : ReadyChunk) : Bool := r.stack = st && r.ctx = c && r.tensor = tensor && r.q = q

/-- A change of the held chunk that keeps its place is seen at that place. -/
theorem Dev.readyChunk_updReady (d : Dev) (st c tensor q : Nat) {f : ReadyChunk → ReadyChunk}
    (hf : ∀ r, (f r).isAt st c tensor q = r.isAt st c tensor q) :
    (d.updReady st c tensor q f).readyChunk st c tensor q = (d.readyChunk st c tensor q).map f := by
  let g : ReadyChunk → ReadyChunk := fun r => if r.isAt st c tensor q then f r else r
  have hg : ReadyChunk.isAt st c tensor q ∘ g = ReadyChunk.isAt st c tensor q := by
    funext r
    by_cases h : r.isAt st c tensor q = true <;> simp [g, h, hf]
  change (d.net.ready.map g).find? (ReadyChunk.isAt st c tensor q) = (d.net.ready.find? (ReadyChunk.isAt st c tensor q)).map f
  rw [List.find?_map, hg]
  cases h : d.net.ready.find? (ReadyChunk.isAt st c tensor q) with
  | none => rfl
  | some r => simp [g, List.find?_some h]

/-- A change of the held chunk leaves the stacks. -/
theorem Dev.stk_updReady (d : Dev) (st c tensor q : Nat) (f : ReadyChunk → ReadyChunk) : (d.updReady st c tensor q f).stk = d.stk :=
  rfl

/-- The network interface holds nothing for a place that it let go of. -/
theorem Dev.readyChunk_dropReady (d : Dev) (st c tensor q : Nat) : (d.dropReady st c tensor q).readyChunk st c tensor q = none := by
  unfold Dev.readyChunk Dev.dropReady
  rw [(Dev.LevelOf.bufferLevel _).ready]
  refine List.find?_eq_none.mpr (fun r hr => ?_)
  have hn := (List.mem_filter.mp hr).2
  rwa [Bool.not_eq_true', ← Bool.not_eq_true] at hn

/-- Letting go of a chunk leaves the stacks, and the entries but the counts of frames and the high-water mark. -/
theorem Dev.dropReady_frame (d : Dev) (st c tensor q : Nat) :
    (d.dropReady st c tensor q).stks = d.stks ∧ Dev.RegsOff [0x0B, 0x0C] d (d.dropReady st c tensor q) := by
  unfold Dev.dropReady
  generalize hn : d.updNet _ = e
  have level := Dev.LevelOf.bufferLevel e
  have hs : e.stks = d.stks := by rw [← hn]; rfl
  have hr : Dev.RegsOff [0x0B, 0x0C] d e := by rw [← hn]; exact Dev.RegsOff.of_regs rfl rfl
  exact ⟨level.stks.trans hs, hr.trans level.regs⟩

/-- The part once a held chunk has crossed from its die to the stack's (R14, R18). -/
def Dev.chunkCome (d : Dev) (st c tensor q : Nat) : Dev :=
  match d.readyChunk st c tensor q with
  | some r => d.crossOut r.die (st / 8) (2 * r.elems.length)
  | none => d

/-- The way from another die counts at the link's end, and nothing else. -/
theorem Dev.chunkCome_frame (d : Dev) (st c tensor q : Nat) :
    d.chunkCome st c tensor q = { d with regs := (d.chunkCome st c tensor q).regs } := by
  unfold Dev.chunkCome
  split
  · unfold Dev.crossOut
    split <;> rfl
  · rfl

section Deliver
variable {d : Dev} {st c tensor q : Nat} {els : List Nat} {bad : Bool}

/-- Is the chunk of a place in a buffer of its stack? -/
def Dev.chunkBuffered (d : Dev) (st c tensor q : Nat) : Bool :=
  (d.stk st).chunks.any (fun k => k.ctx = c && k.tensor = tensor && k.q = q)

/-- The STAGE job that is armed for a tensor of a context. -/
def Dev.armFor (d : Dev) (st c tensor : Nat) : Option Arm :=
  (d.stk st).arms.find? (fun a => a.j.ctx.val = c && a.j.r.tensor = tensor)

/-- Without a credit, or with the held chunk in a buffer, nothing is delivered (R288, R521). -/
theorem Dev.deliver_idle
    (h : d.stkReg st 0x08 = 0 ∨ (d.readyChunk st c tensor q).isSome = true ∧ d.chunkBuffered st c tensor q = true) :
    d.deliver st c tensor q els bad = d := by
  unfold Dev.deliver
  refine if_pos ?_
  simpa [Dev.chunkBuffered] using h

/-- A chunk put into a buffer of its stack; the network interface counts one that it holds as returned no longer. -/
def Dev.bufferChunk (d : Dev) (st : Nat) (k : Chunk) : Dev :=
  let e := d.updStk st (fun t => { t with chunks := t.chunks ++ [k] })
  if (d.readyChunk st k.ctx k.tensor k.q).isSome then e.updReady st k.ctx k.tensor k.q (fun r => { r with since := none }) else e

theorem Dev.bufferChunk_frame (d : Dev) (st : Nat) (k : Chunk) :
    d.bufferChunk st k = { d with stks := (d.bufferChunk st k).stks, net := (d.bufferChunk st k).net } := by
  unfold Dev.bufferChunk
  dsimp only
  split <;> rfl

theorem Dev.stk_bufferChunk (d : Dev) (st : Nat) (k : Chunk) :
    (d.bufferChunk st k).stk st = { d.stk st with chunks := (d.stk st).chunks ++ [k] } := by
  unfold Dev.bufferChunk
  dsimp only
  split
  · rw [Dev.stk_updReady, Dev.stk_updStk_self]
  · rw [Dev.stk_updStk_self]

theorem Dev.readyChunk_bufferChunk (d : Dev) (st : Nat) (k : Chunk) :
    (d.bufferChunk st k).readyChunk st k.ctx k.tensor k.q =
      (d.readyChunk st k.ctx k.tensor k.q).map (fun r => { r with since := none }) := by
  unfold Dev.bufferChunk
  dsimp only
  split
  · exact Dev.readyChunk_updReady _ _ _ _ _ (fun _ => rfl)
  · rename_i h
    rw [Option.not_isSome_iff_eq_none.mp h]
    exact Option.not_isSome_iff_eq_none.mp h

/-- What a delivery with a credit does, by the armed job of the tensor (R288, R291). -/
theorem Dev.deliver_going (hf : 0 < d.stkReg st 0x08)
    (hb : d.readyChunk st c tensor q = none ∨ d.chunkBuffered st c tensor q = false) :
    d.deliver st c tensor q els bad =
      let e := d.chunkCome st c tensor q
      match d.armFor st c tensor with
      | none => (e.incReg (0x3800 + st) 0x07).updReady st c tensor q (fun r => { r with since := some (r.since.getD d.now) })
      | some a =>
        if a.j.r.count ≤ q then ((e.incReg (0x3800 + st) 0x07).raiseCtx 0x8601 c [c, tensor, q]).dropReady st c tensor q
        else if (Tbl.look? q a.parts).isSome then (e.incReg (0x3800 + st) 0x07).dropReady st c tensor q
        else
          let f := (e.bufferChunk st ⟨c, tensor, q, els, bad⟩).setReg (0x3800 + st) 0x08 (d.stkReg st 0x08 - 1)
          f.setReg (0x3800 + st) 0x09 (min (f.stkReg st 0x09) (d.stkReg st 0x08 - 1)) := by
  have hgo : ¬(decide (d.stkReg st 0x08 = 0) || ((d.readyChunk st c tensor q).isSome && d.chunkBuffered st c tensor q)) = true := by
    rcases hb with hb | hb <;> simp [hb] <;> omega
  have harm : d.armFor st c tensor = (d.chunkCome st c tensor q).armFor st c tensor := by rw [d.chunkCome_frame]; rfl
  have hnow : d.now = (d.chunkCome st c tensor q).now := by rw [d.chunkCome_frame]
  have hheld : d.readyChunk st c tensor q = (d.chunkCome st c tensor q).readyChunk st c tensor q := by rw [d.chunkCome_frame]; rfl
  unfold Dev.deliver Dev.bufferChunk
  dsimp only
  rw [harm, hnow, ← hheld]
  exact if_neg hgo

/-- The way of a chunk leaves the stacks. -/
theorem Dev.stk_chunkCome (d : Dev) (st c tensor q : Nat) : (d.chunkCome st c tensor q).stk = d.stk := by
  rw [d.chunkCome_frame]; rfl

/-- The way of a chunk leaves it with the network interface. -/
theorem Dev.readyChunk_chunkCome (d : Dev) (st c tensor q : Nat) : (d.chunkCome st c tensor q).readyChunk = d.readyChunk := by
  rw [d.chunkCome_frame]; rfl

variable (hf : 0 < d.stkReg st 0x08) (hb : d.readyChunk st c tensor q = none ∨ d.chunkBuffered st c tensor q = false)
include hf hb

/-- A chunk of a tensor that is not armed is refused, counted, and goes on waiting (R291, R523). -/
theorem Dev.deliver_unarmed (ha : d.armFor st c tensor = none) :
    let t := d.deliver st c tensor q els bad
    t.stkReg st 0x07 = ((d.chunkCome st c tensor q).stkReg st 0x07 + 1) % 2 ^ 64 ∧ t.stk st = d.stk st ∧
      t.readyChunk st c tensor q =
        (d.readyChunk st c tensor q).map (fun r => { r with since := some (r.since.getD d.now) }) ∧
      (d.chunkCome st c tensor q).sameRegs t [(0x3800 + st, 0x07)] := by
  rw [Dev.deliver_going hf hb, ha]
  dsimp only
  refine ⟨Dev.reg_incReg_self _ _ _, ?_, ?_, fun i a h256 hp => ?_⟩
  · exact congrFun (d.stk_chunkCome st c tensor q) st
  · refine (Dev.readyChunk_updReady _ _ _ _ _ (f := fun r => { r with since := some (r.since.getD d.now) }) (fun _ => rfl)).trans ?_
    rw [← d.readyChunk_chunkCome st c tensor q]
    rfl
  · exact Dev.reg_setReg_place _ h256 (by decide) (by simpa using hp) _

/-- A chunk beyond the tensor's chunks, or staged already, is refused, counted and let go (R289, R291). -/
theorem Dev.deliver_refused {a : Arm} (ha : d.armFor st c tensor = some a) (hq : a.j.r.count ≤ q ∨ Tbl.look? q a.parts ≠ none) :
    let t := d.deliver st c tensor q els bad
    t.stkReg st 0x07 = ((d.chunkCome st c tensor q).stkReg st 0x07 + 1) % 2 ^ 64 ∧ t.stk st = d.stk st ∧
      t.readyChunk st c tensor q = none := by
  let counted := (d.chunkCome st c tensor q).incReg (0x3800 + st) 0x07
  obtain ⟨e, he, ht⟩ : ∃ e, StopOf counted e ∧ d.deliver st c tensor q els bad = e.dropReady st c tensor q := by
    rw [Dev.deliver_going hf hb, ha]
    dsimp only
    split
    · exact ⟨_, StopOf.raiseCtx _ _ _ _, rfl⟩
    · rename_i hlt
      rw [if_pos (Option.isSome_iff_ne_none.mpr (hq.resolve_left hlt))]
      exact ⟨_, StopOf.refl _, rfl⟩
  obtain ⟨dropStks, dropRegs⟩ := e.dropReady_frame st c tensor q
  rw [ht]
  refine ⟨?_, ?_, Dev.readyChunk_dropReady _ _ _ _ _⟩
  · calc (e.dropReady st c tensor q).reg (0x3800 + st) 0x07
      _ = e.reg (0x3800 + st) 0x07 := dropRegs _ _ (by decide) (by decide)
      _ = counted.reg (0x3800 + st) 0x07 := he.regs _ _ (by decide) (by decide)
      _ = _ := Dev.reg_incReg_self _ _ _
  · calc (e.dropReady st c tensor q).stk st
      _ = e.stk st := by rw [Dev.stk, dropStks]; rfl
      _ = counted.stk st := by rw [he.frame]; rfl
      _ = d.stk st := congrFun (d.stk_chunkCome st c tensor q) st

/-- A chunk of an armed tensor that is not yet staged takes a buffer and a credit (R288). -/
theorem Dev.deliver_buffered {a : Arm} (ha : d.armFor st c tensor = some a) (hq : q < a.j.r.count)
    (hp : Tbl.look? q a.parts = none) :
    let t := d.deliver st c tensor q els bad
    let free := d.stkReg st 0x08
    t.stk st = { d.stk st with chunks := (d.stk st).chunks ++ [⟨c, tensor, q, els, bad⟩] } ∧
      t.stkReg st 0x08 = free - 1 ∧ t.stkReg st 0x09 = min ((d.chunkCome st c tensor q).stkReg st 0x09) (free - 1) ∧
      t.readyChunk st c tensor q = (d.readyChunk st c tensor q).map (fun r => { r with since := none }) ∧
      (d.chunkCome st c tensor q).sameRegs t [(0x3800 + st, 0x08), (0x3800 + st, 0x09)] := by
  rw [Dev.deliver_going hf hb, ha]
  dsimp only
  rw [if_neg (by omega), if_neg (by simp [hp])]
  generalize hg : (d.chunkCome st c tensor q).bufferChunk st ⟨c, tensor, q, els, bad⟩ = g
  have regs : ∀ i b, g.reg i b = (d.chunkCome st c tensor q).reg i b := fun i b => by rw [← hg, Dev.bufferChunk_frame]; rfl
  refine ⟨?_, ?_, ?_, ?_, fun i b h256 hpl => ?_⟩
  · change g.stk st = _
    rw [← hg, Dev.stk_bufferChunk, Dev.stk_chunkCome]
  · rw [Dev.stkReg, Dev.reg_setReg_other _ (by omega), Dev.reg_setReg_self]
  · simp only [Dev.stkReg, Dev.reg_setReg_self]
    rw [Dev.reg_setReg_other _ (by omega), regs]
  · change g.readyChunk st c tensor q = _
    rw [← hg, ← d.readyChunk_chunkCome st c tensor q]
    exact Dev.readyChunk_bufferChunk _ _ _
  · simp only [List.mem_cons, List.not_mem_nil, or_false, not_or] at hpl
    rw [Dev.reg_setReg_place _ h256 (by decide) hpl.2, Dev.reg_setReg_place _ h256 (by decide) hpl.1, regs]

end Deliver

end Sys2Proof.Machine

/-! The staging of a buffered chunk, and the statement about gradient chunks. -/
namespace Sys2Proof.Machine
open Sys2Proof

/-- The last chunk of a tensor: the part as it is before the collectives of its context go on. -/
def Dev.lastStaged (d : Dev) (st : Nat) (k : Chunk) (a : Arm) : Dev :=
  let d := (d.freeBuffer st k).incReg (0x3800 + st) 0x06
  let d := (d.updStk st (fun t => { t with arms := t.arms.filter (fun x => x ≠ a) })).incReg (0x3800 + st) 0x03
  if a.j.r.sigEn then d.signal 13 a.j.r.sigObj false 1 else d

/-- With its last chunk the arm is gone, the job counted and its signal given (R293). -/
theorem Dev.lastStaged_spec (d : Dev) (st : Nat) (k : Chunk) (a : Arm) :
    let e := d.lastStaged st k a
    e.stkReg st 0x03 = (((d.freeBuffer st k).incReg (0x3800 + st) 0x06).stkReg st 0x03 + 1) % 2 ^ 64 ∧
      (∀ x ∈ (e.stk st).arms, x ≠ a) ∧
      e.syncQ = d.syncQ ++ (if a.j.r.sigEn then [⟨13, a.j.r.sigObj, false, 1, 0⟩] else []) := by
  have hq : ((d.freeBuffer st k).incReg (0x3800 + st) 0x06).syncQ = d.syncQ := rfl
  unfold Dev.lastStaged
  generalize (d.freeBuffer st k).incReg (0x3800 + st) 0x06 = counted at hq ⊢
  rw [← hq]
  have arms : ∀ x ∈ ((counted.updStk st (fun t => { t with arms := t.arms.filter (fun x => x ≠ a) })).stk st).arms, x ≠ a := by
    intro x hx
    rw [Dev.stk_updStk_self] at hx
    simpa using (List.mem_filter.mp hx).2
  dsimp only
  split
  · exact ⟨Dev.reg_incReg_self _ _ _, arms, rfl⟩
  · exact ⟨Dev.reg_incReg_self _ _ _, arms, (List.append_nil _).symm⟩

section Staging
variable {s : State} {st c tensor q : Nat} {k : Chunk} {a : Arm}

/-- What a chunk writes before the shard's partial, run to its end (R289, R290): its elements, its partial sum of squares, and
the partial's place. -/
structure Stages (s : State) (st : Nat) (a : Arm) (k : Chunk) (p : Nat) (w1 w2 w3 : State) : Prop where
  elems : s.runAct (vwrite ((rootUse k.ctx st 2 true).of a.desc) (a.desc.base + 32768 * k.q)
    (k.elems.flatMap (leBytes 2))) = (.ok (), w1)
  sums : w1.runAct (Act.num none (do
      let xs ← k.elems.mapM (toFp32 0x1)
      reduceLine add32 0x80000000 (← xs.mapM (fun x => mul32 x x)))) = (.ok p, w2)
  squares : w2.runAct (vwrite (rootUse k.ctx st 2 true) (a.j.r.aux + 4 * k.q) (leBytes 4 p)) = (.ok (), w3)

variable {p : Nat} {w1 w2 w3 : State}

/-- A chunk that is not the last one writes no more than its elements and its partial. -/
theorem Stages.runAct (h : Stages s st a k p w1 w2 w3) (hn : (Tbl.put k.q p a.parts).length ≠ a.j.r.count) :
    s.runAct (stageChunk st a k) = (.ok (Tbl.put k.q p a.parts), w3) := by
  unfold stageChunk
  rw [State.runAct_bind h.elems, State.runAct_bind h.sums, State.runAct_bind h.squares]
  dsimp only
  rw [if_neg hn]
  rfl

/-- The last chunk writes the shard's partial too (R293). -/
theorem Stages.runAct_last (h : Stages s st a k p w1 w2 w3) (hn : (Tbl.put k.q p a.parts).length = a.j.r.count)
    {shard : Nat} {w4 w5 : State}
    (h4 : w3.runAct (Act.num none (reduceLine add32 0x80000000 ((Tbl.put k.q p a.parts).map (·.2)))) = (.ok shard, w4))
    (h5 : w4.runAct (vwrite (rootUse k.ctx st 2 true) (a.j.r.aux + 4 * a.j.r.count) (leBytes 4 shard)) = (.ok (), w5)) :
    s.runAct (stageChunk st a k) = (.ok (Tbl.put k.q p a.parts), w5) := by
  unfold stageChunk
  rw [State.runAct_bind h.elems, State.runAct_bind h.sums, State.runAct_bind h.squares]
  dsimp only
  rw [if_pos hn, State.runAct_bind h4, State.runAct_bind h5]
  rfl

variable (hfn : s.dev.fn 0x7000 ≠ 2)
  (hk : (s.dev.stk st).chunks.find? (fun k => k.ctx = c && k.tensor = tensor && k.q = q) = some k)
  (ha : s.dev.armFor st c tensor = some a)
include hfn hk ha

/-- A buffered chunk with an uncorrectable word is lost to the buffer and not written (R272, R292). -/
theorem chunkStaged_bad (hb : k.bad = true) : chunkStaged st c tensor q s = s.onDev (fun d => d.chunkLost st k) := by
  unfold Dev.armFor at ha
  unfold chunkStaged
  simp only [hk, Dev.bufferErrors_off hfn, ha, hb, Bool.true_or, if_true]

section Good
variable (hb : k.bad = false) (hp : Tbl.look? q a.parts = none)
include hb hp

/-- A good chunk that falls in a range of an image waits, and is marked (R358). -/
theorem chunkStaged_held (hh : chunkHeld st a k s = true) : chunkStaged st c tensor q s =
    s.onDev (fun d => (d.updStk st (fun t => { t with
      arms := t.arms.map (fun x => if x = a then { a with hold := true } else x) })).holdEvent c) := by
  unfold Dev.armFor at ha
  unfold chunkStaged
  simp only [hk, Dev.bufferErrors_off hfn, ha, hb, hp, Bool.or_self, Bool.false_eq_true, if_false, Option.isSome_none, if_pos hh]

/-- A good chunk that is written frees its buffer and is counted; with its last chunk the arm ends (R289, R293). -/
theorem chunkStaged_written (hh : chunkHeld st a k s = false) {parts : Tbl Nat} {w : State}
    (hw : s.runAct (stageChunk st a k) = (.ok parts, w)) : chunkStaged st c tensor q s =
    (w.onDev (fun d =>
      let d := (d.freeBuffer st k).incReg (0x3800 + st) 0x06
      if parts.length = a.j.r.count then
        let d := (d.updStk st (fun t => { t with arms := t.arms.filter (fun x => x ≠ a) })).incReg (0x3800 + st) 0x03
        if a.j.r.sigEn then d.signal 13 a.j.r.sigObj false 1 else d
      else d.updStk st (fun t => { t with
        arms := t.arms.map (fun x => if x = a then { a with parts := parts, hold := false } else x) }))).chunkStaged st c tensor q := by
  unfold Dev.armFor at ha
  unfold chunkStaged
  simp only [hk, Dev.bufferErrors_off hfn, ha, hb, hp, Bool.or_self, Bool.false_eq_true, if_false, Option.isSome_none, hh, hw]

/-- A good chunk after which others are still to come. -/
theorem chunkStaged_more (hh : chunkHeld st a k s = false) (h : Stages s st a k p w1 w2 w3)
    (hn : (Tbl.put k.q p a.parts).length ≠ a.j.r.count) : chunkStaged st c tensor q s =
    ((w3.onDev (fun d => (d.freeBuffer st k).incReg (0x3800 + st) 0x06)).onDev (fun d => d.updStk st (fun t => { t with
      arms := t.arms.map (fun x => if x = a then { a with parts := Tbl.put k.q p a.parts, hold := false } else x) }))).chunkStaged
        st c tensor q := by
  rw [chunkStaged_written hfn hk ha hb hp hh (h.runAct hn)]
  simp only [if_neg hn]
  rfl

/-- The last good chunk of its tensor. -/
theorem chunkStaged_last (hh : chunkHeld st a k s = false) {parts : Tbl Nat} {w : State}
    (hw : s.runAct (stageChunk st a k) = (.ok parts, w)) (hn : parts.length = a.j.r.count) :
    chunkStaged st c tensor q s = (w.onDev (fun d => d.lastStaged st k a)).chunkStaged st c tensor q := by
  rw [chunkStaged_written hfn hk ha hb hp hh hw]
  simp only [if_pos hn]
  rfl

end Good
end Staging

theorem exec_chunkStaged (st : Fin 32) (c : Fin 1024) (tensor q : Nat) (s : State) :
    exec (.chunkStaged st c tensor q) s = .next (chunkStaged st.val c.val tensor q s) := rfl

/-- The event of a held chunk leaves the stacks. -/
theorem Dev.stk_holdEvent (d : Dev) (c : Nat) : (d.holdEvent c).stk = d.stk := by
  unfold Dev.holdEvent
  dsimp only
  split
  · split
    · rfl
    · rw [(StopOf.raiseCtx _ _ _ _).frame]
      rfl
  · rfl

/-- A delivery and the offer of a returned chunk are the same delivery to the staging unit. -/
theorem exec_delivers {s : State} {st : Fin 32} {c : Fin 1024} {tensor q : Nat} {els : List Nat} {bad : Bool} {i : Instr}
    {data : List Nat} {flag : Bool} {held : Option ReadyChunk} (hheld : s.dev.readyChunk st.val c.val tensor q = held)
    (hi : (i = .chunkDelivery st c tensor q els bad ∧ data = ((held.map (·.elems)).getD els).take 16384 ∧ flag = bad) ∨
      (i = .chunkReofferTimer st c tensor q ∧ flag = false ∧ ∃ r, held = some r ∧ r.since.isSome = true ∧ data = r.elems)) :
    exec i s = .next (s.onDev (fun d => d.deliver st.val c.val tensor q data flag)) := by
  rcases hi with ⟨rfl, rfl, rfl⟩ | ⟨rfl, rfl, r, rfl, hs, rfl⟩
  · change execChunkDelivery st c tensor q els flag s = _
    unfold execChunkDelivery State.onDev
    dsimp only
    rw [hheld]
    cases held <;> rfl
  · change execChunkReofferTimer st c tensor q s = _
    unfold execChunkReofferTimer State.onDev
    dsimp only
    rw [hheld]
    dsimp only
    rw [if_pos hs]

/-- The offer timer of a chunk that was not returned changes nothing. -/
theorem exec_chunkReofferTimer_idle {s : State} {st : Fin 32} {c : Fin 1024} {tensor q : Nat}
    (h : ∀ r, s.dev.readyChunk st.val c.val tensor q = some r → r.since = none) :
    exec (.chunkReofferTimer st c tensor q) s = .next s := by
  change execChunkReofferTimer st c tensor q s = _
  unfold execChunkReofferTimer State.onDev
  dsimp only
  cases hr : s.dev.readyChunk st.val c.val tensor q with
  | none => rfl
  | some r => simp [h r hr]

/-- The wait event of a returned chunk reports it, unless it has been reported (R523). -/
theorem exec_chunkWaitEvent_returned {s : State} {st : Fin 32} {c : Fin 1024} {tensor q : Nat} {r : ReadyChunk}
    (hr : s.dev.readyChunk st.val c.val tensor q = some r) (hs : r.since.isSome = true) :
    exec (.chunkWaitEvent st c tensor q) s = if r.reported then .next s else .next (s.onDev (fun d =>
      (d.updReady st.val c.val tensor q (fun r => { r with reported := true })).raiseCtx 0x8706 c.val [st.val, tensor, q])) := by
  change execChunkWaitEvent st c tensor q s = _
  unfold execChunkWaitEvent State.onDev
  cases hrep : r.reported <;> simp [hr, hs, hrep]

/-- Settles O24: a delivery by its three outcomes (buffered, refused, waiting), a staging by whether the chunk is bad, held,
written or the last. -/
theorem chunksStaged : Obligations.chunksStaged := by
  intro s st c tensor q els bad free arm held buffered come
  have hcome : come = s.dev.chunkCome st.val c.val tensor q := rfl
  clear_value come
  subst hcome
  refine ⟨fun i data flag hi => ?_, fun hr => ?_, fun k a hfn hk ha => ⟨fun hb => ?_, fun hb hp => ⟨fun hh => ?_, ?_⟩⟩,
    fun r hr hs => ⟨fun hrep => ?_, fun hrep => ?_⟩⟩
  · have run := exec_delivers rfl hi
    refine ⟨fun hidle => ?_, fun hf hb => ⟨fun a ha hq hp => ?_, fun a ha hq => ?_, fun ha => ?_⟩⟩
    · rw [run, State.onDev, Dev.deliver_idle hidle]
    · obtain ⟨h1, h2, h3, h4, h5⟩ := Dev.deliver_buffered (els := data) (bad := flag) hf hb ha hq hp
      exact ⟨_, run, h1, h2, h3, h4, h5, rfl, rfl, rfl⟩
    · obtain ⟨h1, h2, h3⟩ := Dev.deliver_refused (els := data) (bad := flag) hf hb ha hq
      exact ⟨_, run, h1, h2, h3, rfl, rfl, rfl⟩
    · obtain ⟨h1, h2, h3, h4⟩ := Dev.deliver_unarmed (els := data) (bad := flag) hf hb ha
      exact ⟨_, run, h1, h2, h3, h4, rfl, rfl, rfl⟩
  · exact exec_chunkReofferTimer_idle hr
  · rw [exec_chunkStaged, chunkStaged_bad hfn hk ha hb]
  · refine ⟨_, (exec_chunkStaged st c tensor q s).trans (congrArg _ (chunkStaged_held hfn hk ha hb hp hh)), ⟨rfl, rfl, rfl⟩, ?_, ?_⟩
    · simp [Dev.stk_holdEvent]
    · simp [Dev.stk_holdEvent]
  · intro p w1 w2 w3 hh u h1 h2 h3 parts freed
    have stages : Stages s st.val a k p w1 w2 w3 := ⟨h1, h2, h3⟩
    refine ⟨fun hn => ?_, fun hn shard w4 w5 h4 h5 => ⟨w5.onDev (fun d => d.lastStaged st.val k a), ?_, rfl, ?_⟩⟩
    · rw [exec_chunkStaged, chunkStaged_more hfn hk ha hb hp hh stages hn]
    · rw [exec_chunkStaged, chunkStaged_last hfn hk ha hb hp hh (stages.runAct_last hn h4 h5) hn]
    · exact w5.dev.lastStaged_spec st.val k a
  · rw [exec_chunkWaitEvent_returned hr hs, if_neg (by simp [hrep])]
  · rw [exec_chunkWaitEvent_returned hr hs, if_pos hrep]

end Sys2Proof.Machine

/-! Faults that spread: streams that stop, a partition's work abandoned, the device-wide fault, a partition out of service,
the start and the end of its reset. Each operation's effect is said once. -/
namespace Sys2Proof.Machine
open Sys2Proof

/-! Streams that stop without a stopping command (R398). -/

/-- Outside a list nothing is replaced. -/
theorem setAt_of_length_le {α : Type} {l : List α} {i : Nat} (h : l.length ≤ i) (v : α) : setAt l i v = l := by
  induction l generalizing i with
  | nil => rfl
  | cons x t ih => cases i with
    | zero => simp at h
    | succ n => simp [setAt, ih (by simpa using h)]

/-- A change of one stream is seen there, if it exists, and nowhere else. -/
theorem Dev.stream_updStream (d : Dev) (c i : Nat) (f : Stream → Stream) (b j : Nat) :
    (d.updStream c i f).stream b j =
      if b = c ∧ j = i ∧ i < (d.ctx c).streams.length then f (d.stream c i) else d.stream b j := by
  by_cases hb : b = c
  · subst hb
    unfold Dev.stream Dev.updStream
    rw [Dev.ctx_updCtx_self]
    by_cases hi : i < (d.ctx b).streams.length
    · by_cases hj : j = i
      · subst hj
        rw [if_pos ⟨rfl, rfl, hi⟩, setAt_getD_self hi]
      · rw [if_neg (by simp [hj]), setAt_getD_ne _ hj]
    · rw [if_neg (by simp [hi]), setAt_of_length_le (Nat.le_of_not_lt hi)]
  · rw [if_neg (by simp [hb])]
    simp only [Dev.stream, Dev.updStream, Dev.ctx_updCtx_ne d hb]

/-- A change of a stream leaves how many streams a context has. -/
theorem Dev.length_streams_updStream (d : Dev) (c i : Nat) (f : Stream → Stream) (b : Nat) :
    ((d.updStream c i f).ctx b).streams.length = (d.ctx b).streams.length := by
  by_cases hb : b = c
  · subst hb
    simp [Dev.updStream]
  · rw [Dev.updStream, Dev.ctx_updCtx_ne d hb]

/-- A stream is as before, or was running and is stopped with a reason code. -/
def Stops (code : Nat) (x y : Stream) : Prop := y = x ∨ (x.stopped = false ∧ y.stopped = true ∧ y.reason = code)

theorem Stops.trans {code : Nat} {x y z : Stream} (h : Stops code x y) (k : Stops code y z) : Stops code x z := by
  rcases h with rfl | ⟨hx, hy, hr⟩
  · exact k
  · rcases k with rfl | ⟨hy', -, -⟩
    · exact .inr ⟨hx, hy, hr⟩
    · simp [hy] at hy'

theorem Stops.stopped {code : Nat} {x y : Stream} (h : Stops code x y) (hx : x.stopped = true) : y.stopped = true := by
  rcases h with rfl | ⟨-, hy, -⟩
  · exact hx
  · exact hy

/-- A stream that ran and is stopped now shows the code. -/
theorem Stops.reason {code : Nat} {x y : Stream} (h : Stops code x y) (hx : x.stopped = false) (hy : y.stopped = true) :
    y.reason = code := by
  rcases h with rfl | ⟨-, -, hr⟩
  · simp [hx] at hy
  · exact hr

/-- `e` is `d` with streams stopped by a code, and what stops write beside. -/
structure StopsBy (code : Nat) (d e : Dev) : Prop where
  frame : StopOf d e
  stream : ∀ c i, Stops code (d.stream c i) (e.stream c i)
  length : ∀ c, (e.ctx c).streams.length = (d.ctx c).streams.length

namespace StopsBy
variable {code : Nat} {d e f : Dev}

/-- What leaves the contexts stops no stream. -/
theorem of_ctxs (h : StopOf d e) (hc : e.ctxs = d.ctxs) : StopsBy code d e := by
  have ctx : ∀ c, e.ctx c = d.ctx c := fun c => by rw [Dev.ctx, hc]; rfl
  exact ⟨h, fun c i => .inl (by rw [Dev.stream, ctx]; rfl), fun c => by rw [ctx]⟩

theorem refl (code : Nat) (d : Dev) : StopsBy code d d := of_ctxs (StopOf.refl d) rfl

theorem trans (h : StopsBy code d e) (k : StopsBy code e f) : StopsBy code d f :=
  ⟨h.frame.trans k.frame, fun c i => (h.stream c i).trans (k.stream c i), fun c => (k.length c).trans (h.length c)⟩

theorem foldl {β : Type} {g : Dev → β → Dev} (hg : ∀ d b, StopsBy code d (g d b)) (l : List β) (d : Dev) :
    StopsBy code d (l.foldl g d) :=
  foldl_keeps (StopsBy code d) (fun e b h => h.trans (hg e b)) l d (refl code d)

theorem event {d e : Dev} (h : EventOf d e) : StopsBy code d e := by
  refine of_ctxs (StopOf.of_event h) ?_
  rw [h.1]

theorem stopStream (d : Dev) (c i cause seq op : Nat) (cmd : Option QCmd) :
    StopsBy code d (d.stopStream c i cause code seq op cmd) := by
  refine ⟨StopOf.stopStream _ _ _ _ _ _ _ _, fun b j => ?_, fun b => ?_⟩
  · unfold Dev.stopStream
    split
    · exact .inl rfl
    · rename_i hs
      rw [Dev.stream_updStream]
      split
      · rename_i h
        obtain ⟨rfl, rfl, -⟩ := h
        exact .inr ⟨by simpa using hs, rfl, rfl⟩
      · exact .inl rfl
  · unfold Dev.stopStream
    split
    · rfl
    · exact Dev.length_streams_updStream _ _ _ _ _

theorem stopBare (d : Dev) (c i : Nat) : StopsBy code d (d.stopBare c i code) :=
  (stopStream d _ _ _ _ _ _).trans (event (EventOf.raise _ _ _ _ _ _ _))

theorem stopCtx (d : Dev) (c : Nat) : StopsBy code d (d.stopCtx c code) := foldl (fun d i => stopBare d c i) _ d

/-- The streams that a context has are as many as before. -/
theorem streamCount (h : StopsBy code d e) (c : Nat) : e.streamCount c = d.streamCount c := by
  rw [Dev.streamCount, Dev.ctxReg, h.frame.regs _ _ (by decide) (by decide)]
  rfl

end StopsBy

/-- A stream that exists stands stopped after its stop. -/
theorem Dev.stopped_stopBare {d : Dev} {c i : Nat} (h : i < (d.ctx c).streams.length) (code : Nat) :
    ((d.stopBare c i code).stream c i).stopped = true := by
  have event : StopsBy code (d.stopStream c i 2 code (d.stream c i).nextSeq 0 none) (d.stopBare c i code) :=
    StopsBy.event (EventOf.raise _ _ _ _ _ _ _)
  refine (event.stream c i).stopped ?_
  unfold Dev.stopStream
  split
  · assumption
  · rw [Dev.stream_updStream, if_pos ⟨rfl, rfl, h⟩]

/-- Every stream that a context has stands stopped after the context's stop. -/
theorem Dev.stopped_stopCtx {d : Dev} {c i : Nat} (hi : i < d.streamCount c) (h : i < (d.ctx c).streams.length) (code : Nat) :
    ((d.stopCtx c code).stream c i).stopped = true :=
  foldl_establishes (fun e => (e.ctx c).streams.length = (d.ctx c).streams.length) (fun e => (e.stream c i).stopped = true)
    (List.mem_range.mpr hi) (fun e j he => ((StopsBy.stopBare (code := code) e c j).length c).trans he)
    (fun e he => Dev.stopped_stopBare (by rw [he]; exact h) code)
    (fun e j he => ((StopsBy.stopBare e c j).stream c i).stopped he) d rfl

/-- Every stream of every context of a list stands stopped after the contexts' stops. -/
theorem Dev.stopped_foldl_stopCtx {d : Dev} {c i : Nat} {l : List Nat} (hc : c ∈ l) (hi : i < d.streamCount c)
    (h : i < (d.ctx c).streams.length) (code : Nat) :
    ((l.foldl (fun d c => d.stopCtx c code) d).stream c i).stopped = true :=
  foldl_establishes (StopsBy code d) (fun e => (e.stream c i).stopped = true) hc
    (fun e b he => he.trans (StopsBy.stopCtx e b))
    (fun e he => Dev.stopped_stopCtx (by rw [he.streamCount]; exact hi) (by rw [he.length]; exact h) code)
    (fun e b he => ((StopsBy.stopCtx e b).stream c i).stopped he) d (StopsBy.refl code d)

/-! Notices (R627) leave the contexts. -/

theorem Dev.control_ctxs (d : Dev) (h rank kind : Nat) (fields : List Nat) : (d.control h rank kind fields).ctxs = d.ctxs := by
  unfold Dev.control
  split <;> rfl

theorem Dev.notice_ctxs (d : Dev) (h kind : Nat) (cs : List Nat) : (d.notice h kind cs).ctxs = d.ctxs := by
  unfold Dev.notice
  split
  · rfl
  · split
    · rfl
    · refine foldl_keeps (fun e : Dev => e.ctxs = d.ctxs) (fun e r he => ?_) _ d rfl
      exact (Dev.control_ctxs _ _ _ _ _).trans he

theorem Dev.noticeAll_ctxs (d : Dev) (kind : Nat) (cs : List Nat) : (d.noticeAll kind cs).ctxs = d.ctxs :=
  foldl_keeps (fun e : Dev => e.ctxs = d.ctxs) (fun e (p : Nat × Handle) he => (Dev.notice_ctxs e p.1 kind cs).trans he)
    d.net.handles d rfl

/-! The floor (R584) and the device-wide fault (R632). -/

/-- Holding the floor writes power state and three entries. -/
theorem Dev.holdFloor_frame (d : Dev) : d.holdFloor = { d with regs := d.holdFloor.regs, pow := d.holdFloor.pow } ∧
    d.holdFloor.pow.floor = true ∧ Dev.RegsOff [0x04, 0x13, 0x14] d d.holdFloor := by
  unfold Dev.holdFloor
  dsimp only
  refine foldl_keeps
    (fun e : Dev => e = { d with regs := e.regs, pow := e.pow } ∧ e.pow.floor = true ∧ Dev.RegsOff [0x04, 0x13, 0x14] d e)
    (fun e p he => ?_) _ _ ⟨rfl, rfl, ?_⟩
  · obtain ⟨frame, floor, regs⟩ := he
    refine ⟨by rw [frame]; rfl, floor, regs.trans ?_⟩
    exact (Dev.RegsOff.setReg e _ _ (by decide) (by decide)).trans (Dev.RegsOff.setReg _ _ _ (by decide) (by decide))
  · exact Dev.RegsOff.trans (Dev.RegsOff.of_regs rfl rfl) (Dev.RegsOff.setReg _ _ _ (by decide) (by decide))

theorem Dev.holdFloor_ctxs (d : Dev) : d.holdFloor.ctxs = d.ctxs := by rw [d.holdFloor_frame.1]

/-- The sub-indices that a device-wide fault writes. -/
def deviceSubs : List Nat := [0x04, 0x05, 0x11, 0x13, 0x14] ++ noisySubs

/-- The part when the device-wide fault has stopped the streams of a list of contexts and sent its notices and its event. -/
def Dev.faultTold (d : Dev) (cause : Nat) (on : List Nat) : Dev :=
  ((on.foldl (fun d c => d.stopCtx c 0x0314) (d.setReg 0x5400 0x05 (cause <<< 4 + 1))).noticeAll 2 on).raiseDev 0x8101 [cause]

/-- The contexts that are not OFF. -/
def Dev.contextsOn (d : Dev) : List Nat := (List.range 1024).filter (fun c => d.ctxState c ≠ 0)

/-- A device-wide fault that stands goes on. -/
theorem State.deviceFault_standing {s : State} (h : bit (s.dev.reg 0x5400 0x05) 0 = true) (cause : Nat) : s.deviceFault cause = s :=
  if_pos h

/-- A device-wide fault stops streams, holds the floor, leaves the fabric and flags the tray. -/
theorem State.deviceFault_new {s : State} (h : bit (s.dev.reg 0x5400 0x05) 0 = false) (cause : Nat) : s.deviceFault cause =
    { s with
      dev := ((s.dev.faultTold cause s.dev.contextsOn).holdFloor).setReg 0x5400 0x11 1,
      persist := { s.persist with tray := true } } := by
  unfold State.deviceFault Dev.faultTold Dev.contextsOn
  rw [if_neg (by simp [h])]
  dsimp only [State.onDev]

/-- Notices and the event of the fault stop no stream. -/
theorem Dev.faultTold_notices (d : Dev) (cause : Nat) (on : List Nat) :
    StopsBy 0x0314 (on.foldl (fun d c => d.stopCtx c 0x0314) (d.setReg 0x5400 0x05 (cause <<< 4 + 1))) (d.faultTold cause on) := by
  unfold Dev.faultTold
  exact (StopsBy.of_ctxs (StopOf.noticeAll _ _ _) (Dev.noticeAll_ctxs _ _ _)).trans (StopsBy.event (EventOf.raise _ _ _ _ _ _ _))

theorem Dev.faultTold_stops (d : Dev) (cause : Nat) (on : List Nat) :
    StopsBy 0x0314 (d.setReg 0x5400 0x05 (cause <<< 4 + 1)) (d.faultTold cause on) :=
  (StopsBy.foldl (fun d c => StopsBy.stopCtx d c) on _).trans (d.faultTold_notices cause on)

/-- Every stream of the contexts of the list stands stopped. -/
theorem Dev.faultTold_stopped {d : Dev} {c i : Nat} {on : List Nat} (hm : c ∈ on) (hc : c < 1024) (hi : i < d.streamCount c)
    (h : i < (d.ctx c).streams.length) (cause : Nat) : ((d.faultTold cause on).stream c i).stopped = true := by
  have count : (d.setReg 0x5400 0x05 (cause <<< 4 + 1)).streamCount c = d.streamCount c := by
    unfold Dev.streamCount Dev.ctxReg
    rw [Dev.reg_setReg_other _ (by omega)]
  exact ((d.faultTold_notices cause on).stream c i).stopped
    (Dev.stopped_foldl_stopCtx hm (lt_of_lt_of_eq hi count.symm) h 0x0314)

/-- A device-wide fault leaves memories and queue, and the entries at every other sub-index. -/
theorem State.deviceFault_frame (s : State) (cause : Nat) : (s.deviceFault cause).mem = s.mem ∧
    (s.deviceFault cause).pending = s.pending ∧ Dev.RegsOff deviceSubs s.dev (s.deviceFault cause).dev := by
  cases h : bit (s.dev.reg 0x5400 0x05) 0 with
  | true => rw [s.deviceFault_standing h]; exact ⟨rfl, rfl, Dev.RegsOff.refl _ _⟩
  | false =>
    rw [s.deviceFault_new h]
    obtain ⟨-, -, floor⟩ := (s.dev.faultTold cause s.dev.contextsOn).holdFloor_frame
    refine ⟨rfl, rfl, (Dev.RegsOff.setReg s.dev 0x5400 (cause <<< 4 + 1) (a := 0x05) (by decide) (by decide)).trans ?_⟩
    refine ((s.dev.faultTold_stops cause s.dev.contextsOn).frame.regs.mono (by decide)).trans ?_
    exact (floor.mono (by decide)).trans (Dev.RegsOff.setReg _ _ _ (by decide) (by decide))

/-- A device-wide fault that begins shows its cause and flags the tray (R632). -/
theorem State.deviceFault_shown {s : State} (h : bit (s.dev.reg 0x5400 0x05) 0 = false) (cause : Nat) :
    (s.deviceFault cause).dev.reg 0x5400 0x05 = 16 * cause + 1 ∧ (s.deviceFault cause).dev.reg 0x5400 0x11 = 1 ∧
      (s.deviceFault cause).dev.pow.floor = true ∧ (s.deviceFault cause).persist = { s.persist with tray := true } := by
  rw [s.deviceFault_new h]
  obtain ⟨-, floor, regs⟩ := (s.dev.faultTold cause s.dev.contextsOn).holdFloor_frame
  refine ⟨?_, Dev.reg_setReg_self _ _ _ _, floor, rfl⟩
  rw [Dev.reg_setReg_other _ (by decide), regs _ _ (by decide) (by decide),
    (s.dev.faultTold_stops cause s.dev.contextsOn).frame.regs _ _ (by decide) (by decide), Dev.reg_setReg_self, Nat.shiftLeft_eq]
  omega

/-- A device-wide fault that begins stops every stream of every context that is not OFF (R632). -/
theorem State.deviceFault_stopped {s : State} (h : bit (s.dev.reg 0x5400 0x05) 0 = false) (cause : Nat) {c i : Nat} (hc : c < 1024)
    (ho : s.dev.ctxState c ≠ 0) (hi : i < s.dev.streamCount c) (hl : i < (s.dev.ctx c).streams.length) :
    ((s.deviceFault cause).dev.stream c i).stopped = true ∧
      ((s.dev.stream c i).stopped = false → ((s.deviceFault cause).dev.stream c i).reason = 0x0314) := by
  have same : (s.deviceFault cause).dev.stream c i = (s.dev.faultTold cause s.dev.contextsOn).stream c i := by
    rw [s.deviceFault_new h, Dev.stream, Dev.ctx, Dev.setReg_ctxs, Dev.holdFloor_ctxs]
    rfl
  have mem : c ∈ s.dev.contextsOn := List.mem_filter.mpr ⟨List.mem_range.mpr hc, by simpa using ho⟩
  have stopped := Dev.faultTold_stopped mem hc hi hl cause
  rw [same]
  exact ⟨stopped, fun hs => ((s.dev.faultTold_stops cause s.dev.contextsOn).stream c i).reason hs stopped⟩

/-- A device-wide fault that stands or begins is shown. -/
theorem State.deviceFault_bit (s : State) (cause : Nat) : bit ((s.deviceFault cause).dev.reg 0x5400 0x05) 0 = true := by
  cases h : bit (s.dev.reg 0x5400 0x05) 0 with
  | true => rwa [s.deviceFault_standing h]
  | false =>
    rw [(s.deviceFault_shown h cause).1]
    simp [bit]
    omega

end Sys2Proof.Machine

/-! The work of a partition abandoned, a partition out of service, and its reset from a hang to its end. -/
namespace Sys2Proof.Machine
open Sys2Proof

/-! The work of a partition is abandoned (R303, R369, R616). -/

/-- The root engines of a list of stacks abandon their work. -/
def Dev.abandonRoots (d : Dev) (l : List Nat) : Dev := l.foldl (fun d s => (d.abandonRoot s).restartShare s) d

theorem Dev.abandonRoots_frame (d : Dev) (l : List Nat) : d.abandonRoots l =
      { d with regs := (d.abandonRoots l).regs, stks := (d.abandonRoots l).stks, upds := (d.abandonRoots l).upds } ∧
    Dev.RegsOff [0x08] d (d.abandonRoots l) := by
  refine foldl_keeps (fun e : Dev => e = { d with regs := e.regs, stks := e.stks, upds := e.upds } ∧ Dev.RegsOff [0x08] d e)
    (fun e s he => ?_) l d ⟨rfl, Dev.RegsOff.refl _ d⟩
  obtain ⟨frame, regs⟩ := he
  refine ⟨by rw [frame]; rfl, regs.trans ?_⟩
  have root : Dev.RegsOff [0x08] (e.updStk s (fun k => { k with queue := [], arms := [], chunks := [], emits := [], xc := [] }))
    (e.abandonRoot s) := Dev.RegsOff.setReg _ _ _ (by decide) (by decide)
  exact (Dev.RegsOff.trans (Dev.RegsOff.of_regs rfl rfl) root).trans (Dev.RegsOff.of_regs rfl rfl)

/-- A stack whose root engine abandons its work has none left; every other stack is as before. -/
theorem Dev.stk_abandonRoot (d : Dev) (s k : Nat) : ((d.abandonRoot s).restartShare s).stk k =
    if k = s then { d.stk s with queue := [], arms := [], chunks := [], emits := [], xc := [] } else d.stk k := by
  change (d.updStk s (fun t => { t with queue := [], arms := [], chunks := [], emits := [], xc := [] })).stk k = _
  split
  · rename_i h
    rw [h, Dev.stk_updStk_self]
  · rename_i h
    exact Dev.stk_updStk_ne d h _

/-- A stack with no job, no armed STAGE job and no chunk. -/
def Stk.idle (k : Stk) : Prop := k.queue = [] ∧ k.arms = [] ∧ k.chunks = []

theorem Dev.abandonRoots_idle (d : Dev) {l : List Nat} {k : Nat} (hk : k ∈ l) : ((d.abandonRoots l).stk k).idle := by
  refine foldl_establishes (fun _ => True) (fun e : Dev => (e.stk k).idle) hk (fun _ _ h => h) (fun e _ => ?_) (fun e x h => ?_)
    d trivial
  · rw [Dev.stk_abandonRoot, if_pos rfl]
    exact ⟨rfl, rfl, rfl⟩
  · rw [Dev.stk_abandonRoot]
    split
    · exact ⟨rfl, rfl, rfl⟩
    · exact h

/-- An engine whose work is abandoned. -/
def Eng.abandoned (k : Eng) : Eng :=
  { k with
    jobs := [], vq := [], dq := [], shadow := none, active := none, opening := [], writeback := k.writeback,
    sets := k.sets.map (fun b => if b.st = 2 then ⟨0, Accum.empty⟩ else b) }

/-- The work of a partition is abandoned in three parts: scoreboards, engines, root engines. -/
theorem Dev.abandon_parts (d : Dev) (p : Nat) : ∃ e : Dev, e = { d with ctxs := e.ctxs } ∧
    d.abandon p = ((partEngs p).foldl (fun d e => d.updEng e Eng.abandoned) e).abandonRoots (partStks p) :=
  ⟨_, foldl_keeps (fun e : Dev => e = { d with ctxs := e.ctxs }) (fun e x he => by rw [he]; rfl) (d.partCmds p) d rfl, rfl⟩

/-- Abandoning the work of a partition writes its stacks' credits only. -/
theorem Dev.abandon_regs (d : Dev) (p : Nat) : Dev.RegsOff [0x08] d (d.abandon p) := by
  obtain ⟨e, he, ha⟩ := d.abandon_parts p
  have commands : Dev.RegsOff [0x08] d e := by rw [he]; exact Dev.RegsOff.of_regs rfl rfl
  have engines : Dev.RegsOff [0x08] e ((partEngs p).foldl (fun d e => d.updEng e Eng.abandoned) e) := by
    rw [Dev.foldl_updEng_frame]; exact Dev.RegsOff.of_regs rfl rfl
  rw [ha]
  exact (commands.trans engines).trans (Dev.abandonRoots_frame _ _).2

theorem Dev.abandon_eng (d : Dev) (p : Nat) : ∃ e : Dev, e.engs = d.engs ∧
    (d.abandon p).eng = ((partEngs p).foldl (fun d e => d.updEng e Eng.abandoned) e).eng := by
  obtain ⟨e, he, ha⟩ := d.abandon_parts p
  refine ⟨e, by rw [he], ?_⟩
  rw [ha, (Dev.abandonRoots_frame _ _).1]
  rfl

/-- An engine with no tile job, no vector command and no move. -/
def Eng.idle (k : Eng) : Prop := k.jobs = [] ∧ k.vq = [] ∧ k.dq = []

theorem Dev.abandon_eng_mem (d : Dev) {p k : Nat} (hk : k ∈ partEngs p) : ((d.abandon p).eng k).idle := by
  obtain ⟨e, -, ha⟩ := d.abandon_eng p
  rw [ha]
  exact Dev.eng_foldl_updEng_mem (P := Eng.idle) (fun _ => ⟨rfl, rfl, rfl⟩) hk e

theorem Dev.abandon_eng_notMem (d : Dev) {p k : Nat} (hk : k ∉ partEngs p) : (d.abandon p).eng k = d.eng k := by
  obtain ⟨e, he, ha⟩ := d.abandon_eng p
  rw [ha, Dev.eng_foldl_updEng_notMem _ hk, Dev.eng, he]
  rfl

theorem Dev.abandon_stk (d : Dev) {p k : Nat} (hk : k ∈ partStks p) : ((d.abandon p).stk k).idle := by
  obtain ⟨e, -, ha⟩ := d.abandon_parts p
  rw [ha]
  exact Dev.abandonRoots_idle _ hk

/-! A partition goes out of service (R631). -/

/-- The sub-indices that a partition going out of service writes. -/
def partitionSubs : List Nat := [0x08, 0x26] ++ deviceSubs

/-- The mark of a partition out of service, on a part that has abandoned its work. -/
def Dev.outMarked (d : Dev) (p : Nat) : Dev :=
  let e := { d with integ := { d.integ with resets := Tbl.del p d.integ.resets } }
  (e.setReg (0x3400 + p) 0x26 2).setReg 0x5400 0x04 (e.reg 0x5400 0x04 ||| 1 <<< p)

theorem Dev.outMarked_regs (d : Dev) (p : Nat) : Dev.RegsOff [0x04, 0x26] d (d.outMarked p) :=
  Dev.RegsOff.trans (e := { d with integ := { d.integ with resets := Tbl.del p d.integ.resets } }) (Dev.RegsOff.of_regs rfl rfl)
    ((Dev.RegsOff.setReg _ _ _ (by decide) (by decide)).trans (Dev.RegsOff.setReg _ _ _ (by decide) (by decide)))

/-- What going out of service can do: nothing to a partition that is out already; otherwise its mark, then what failing
commands and stopping suspects write, then the device-wide fault if it is the second one. -/
theorem State.partitionOut_cases (s : State) (p cause : Nat) (sus : List Nat) :
    (s.dev.service p = 2 ∧ s.partitionOut p cause sus = s) ∨
    ∃ e, StopOf ((s.dev.abandon p).outMarked p) e ∧
      (s.partitionOut p cause sus = { s with dev := e } ∨ s.partitionOut p cause sus = ({ s with dev := e } : State).deviceFault 1) := by
  by_cases h : s.dev.service p = 2
  · exact .inl ⟨h, if_pos h⟩
  · refine .inr ?_
    unfold State.partitionOut
    rw [if_neg h]
    have failed := StopOf.foldl (fun d (x : Nat × Nat × Issued) => StopOf.failCommand d x.1 x.2.1 2 0x030F x.2.2.seq x.2.2.op x.2.2.cmd)
      (s.dev.partIssued p) ((s.dev.abandon p).outMarked p)
    have told := (failed.trans (StopOf.foldl (fun d c => StopOf.stopCtx d c 0x030F) sus _)).trans
      (StopOf.of_event (EventOf.raise _ 0x8304 6 p none none [p, cause]))
    refine ⟨_, told, ?_⟩
    dsimp only
    split
    · exact .inr rfl
    · exact .inl rfl

/-- A partition that went out of service shows it; memories, queue and the entries at every other sub-index stay. -/
theorem State.partitionOut_spec (s : State) (p cause : Nat) (sus : List Nat) :
    (s.partitionOut p cause sus).dev.service p = 2 ∧ (s.partitionOut p cause sus).mem = s.mem ∧
      (s.partitionOut p cause sus).pending = s.pending ∧ Dev.RegsOff partitionSubs s.dev (s.partitionOut p cause sus).dev := by
  rcases s.partitionOut_cases p cause sus with ⟨h, he⟩ | ⟨e, he, ht⟩
  · rw [he]
    exact ⟨h, rfl, rfl, Dev.RegsOff.refl _ _⟩
  · have regs : Dev.RegsOff partitionSubs s.dev e :=
      (((s.dev.abandon_regs p).mono (by decide)).trans ((Dev.outMarked_regs _ p).mono (by decide))).trans (he.regs.mono (by decide))
    have service : e.reg (0x3400 + p) 0x26 = 2 := by
      rw [he.regs _ _ (by decide) (by decide), Dev.outMarked, Dev.reg_setReg_other _ (by omega), Dev.reg_setReg_self]
    rcases ht with ht | ht
    · rw [ht, Dev.service, Dev.partReg, service]
      exact ⟨rfl, rfl, rfl, regs⟩
    · obtain ⟨mem, pending, wide⟩ := ({ s with dev := e } : State).deviceFault_frame 1
      rw [ht, Dev.service, Dev.partReg, wide _ _ (by decide) (by decide), service]
      exact ⟨rfl, mem, pending, regs.trans (wide.mono (by decide))⟩

/-! The start of a partition's reset (R616) and the culprit (R626). -/

/-- The part when a reset shows its generation, its state and its cause, and is counted (R616, R634). -/
def Dev.resetShown (d : Dev) (p unit : Nat) : Dev :=
  (((d.setReg (0x3400 + p) 0x22 ((d.partReg p 0x22 + 1) % 16)).setReg (0x3400 + p) 0x26 1).setReg (0x3400 + p) 0x25 unit).incReg
    0x5400 0x09

/-- The part when a reset is marked as begun, before its notices. -/
def Dev.resetMarked (d : Dev) (p unit : Nat) : Dev :=
  let e := d.resetShown p unit
  let e := { e with integ := { e.integ with
    resets := Tbl.put p ⟨1, d.suspects p⟩ e.integ.resets,
    times := Tbl.upd [] p (fun l => l ++ [e.now]) e.integ.times } }
  e.setReg (0x3400 + p) 0x24 (min 255 (e.resetsInWindow p))

/-- A reset begins with its mark, its notices, and the work abandoned. -/
theorem Dev.resetStart_parts (d : Dev) (p unit : Nat) :
    ∃ e, StopOf (d.resetMarked p unit) e ∧ d.resetStart p unit = e.abandon p := by
  unfold Dev.resetStart Dev.resetMarked Dev.resetShown
  exact ⟨_, StopOf.foldl (fun d (q : Nat × Handle) => StopOf.notice d q.1 0 _) _ _, rfl⟩


/-- The sub-indices that the start of a reset writes. -/
def resetSubs : List Nat := [0x08, 0x09, 0x22, 0x24, 0x25, 0x26] ++ noisySubs

theorem Dev.resetShown_regs (d : Dev) (p unit : Nat) : Dev.RegsOff resetSubs d (d.resetShown p unit) :=
  (((Dev.RegsOff.setReg d _ _ (by decide) (by decide)).trans (Dev.RegsOff.setReg _ _ _ (by decide) (by decide))).trans
    (Dev.RegsOff.setReg _ _ _ (by decide) (by decide))).trans (Dev.RegsOff.incReg _ _ (by decide) (by decide))

/-- The entries of a reset's mark: the partition's state, generation and last cause, and the count of resets. -/
theorem Dev.resetShown_spec (d : Dev) (p unit : Nat) :
    let e := d.resetShown p unit
    e.reg (0x3400 + p) 0x26 = 1 ∧ e.reg (0x3400 + p) 0x22 = (d.partReg p 0x22 + 1) % 16 ∧ e.reg (0x3400 + p) 0x25 = unit ∧
      e.reg 0x5400 0x09 = (d.reg 0x5400 0x09 + 1) % 2 ^ 64 := by
  unfold Dev.resetShown
  refine ⟨?_, ?_, ?_, ?_⟩
  · rw [Dev.reg_incReg_other _ (by omega), Dev.reg_setReg_other _ (by omega), Dev.reg_setReg_self]
  · rw [Dev.reg_incReg_other _ (by omega), Dev.reg_setReg_other _ (by omega), Dev.reg_setReg_other _ (by omega), Dev.reg_setReg_self]
  · rw [Dev.reg_incReg_other _ (by omega), Dev.reg_setReg_self]
  · rw [Dev.reg_incReg_self, Dev.reg_setReg_other _ (by omega), Dev.reg_setReg_other _ (by omega), Dev.reg_setReg_other _ (by omega)]
    rfl

/-- What the mark of a reset writes beside its entries: the resets under way, their times, their count in the window. -/
theorem Dev.resetMarked_regs (d : Dev) (p unit : Nat) : Dev.RegsOff [0x24] (d.resetShown p unit) (d.resetMarked p unit) := by
  unfold Dev.resetMarked
  generalize d.resetShown p unit = e
  exact Dev.RegsOff.trans (e := { e with integ := { e.integ with
    resets := Tbl.put p ⟨1, d.suspects p⟩ e.integ.resets,
    times := Tbl.upd [] p (fun l => l ++ [e.now]) e.integ.times } }) (Dev.RegsOff.of_regs rfl rfl)
    (Dev.RegsOff.setReg _ _ _ (by decide) (by decide))

/-- A reset that starts shows itself, abandons the work of its partition, and leaves every other engine (R616). -/
theorem Dev.resetStart_spec (d : Dev) (p unit : Nat) :
    let e := d.resetStart p unit
    (e.reg (0x3400 + p) 0x26 = 1 ∧ e.reg (0x3400 + p) 0x22 = (d.partReg p 0x22 + 1) % 16 ∧ e.reg (0x3400 + p) 0x25 = unit ∧
      e.reg 0x5400 0x09 = (d.reg 0x5400 0x09 + 1) % 2 ^ 64) ∧
    (∀ k ∈ partEngs p, (e.eng k).idle) ∧ (∀ k ∈ partStks p, (e.stk k).idle) ∧ (∀ k, k ∉ partEngs p → e.eng k = d.eng k) ∧
    Dev.RegsOff resetSubs d e := by
  obtain ⟨f, hf, he⟩ := d.resetStart_parts p unit
  have regs : Dev.RegsOff (0x08 :: 0x24 :: noisySubs) (d.resetShown p unit) (f.abandon p) :=
    (((d.resetMarked_regs p unit).mono (by decide)).trans (hf.regs.mono (by decide))).trans ((f.abandon_regs p).mono (by decide))
  obtain ⟨service, generation, cause, count⟩ := d.resetShown_spec p unit
  intro e
  rw [show e = f.abandon p from he]
  refine ⟨⟨?_, ?_, ?_, ?_⟩, fun k hk => f.abandon_eng_mem hk, fun k hk => f.abandon_stk hk, fun k hk => ?_, ?_⟩
  · rw [regs _ _ (by decide) (by decide), service]
  · rw [regs _ _ (by decide) (by decide), generation]
  · rw [regs _ _ (by decide) (by decide), cause]
  · rw [regs _ _ (by decide) (by decide), count]
  · rw [f.abandon_eng_notMem hk, Dev.eng, hf.frame]
    rfl
  · exact (d.resetShown_regs p unit).trans (regs.mono (by decide))

/-- Naming the culprit writes its context's recovery state, and what its stop writes; engines stay (R626). -/
theorem Dev.culprit_spec (d : Dev) (p : Nat) :
    (d.culprit p).engs = d.engs ∧ Dev.RegsOff (0x28 :: noisySubs) d (d.culprit p) ∧
      ∀ c, Tbl.look? p d.integ.turn = some c → (d.ctx c).rep.replaying = true → (d.culprit p).ctxReg c 0x28 = 4 := by
  unfold Dev.culprit
  cases ht : Tbl.look? p d.integ.turn with
  | none => exact ⟨rfl, Dev.RegsOff.refl _ d, fun c hc => by cases hc⟩
  | some c =>
    dsimp only
    by_cases hr : (d.ctx c).rep.replaying = true
    · rw [if_neg (by simp [hr])]
      generalize hm : (d.updCtx c _).setReg (0x4000 + c) 0x28 4 = m
      have marked : Dev.RegsOff (0x28 :: noisySubs) d m := by
        rw [← hm]
        exact Dev.RegsOff.trans (Dev.RegsOff.of_regs rfl rfl) (Dev.RegsOff.setReg _ _ _ (by decide) (by decide))
      have told : StopOf m (((m.stopCtx c 0x0313).raiseCtx 0x8306 c [c, p]).incReg 0x5400 0x0B) :=
        ((StopOf.stopCtx _ _ _).trans (StopOf.raiseCtx _ _ _ _)).trans (StopOf.incReg _ _ (by decide) (by decide))
      generalize ((m.stopCtx c 0x0313).raiseCtx 0x8306 c [c, p]).incReg 0x5400 0x0B = t at told ⊢
      refine ⟨?_, ?_, fun b hb _ => ?_⟩
      · change t.engs = d.engs
        rw [told.frame, ← hm]
        rfl
      · exact (marked.trans (told.regs.mono (by decide))).trans (Dev.RegsOff.of_regs rfl rfl)
      · obtain rfl : c = b := by simpa using hb
        change t.reg (0x4000 + c) 0x28 = 4
        rw [told.regs _ _ (by decide) (by decide), ← hm, Dev.reg_setReg_self]
    · rw [if_pos (by simpa using hr)]
      refine ⟨rfl, Dev.RegsOff.refl _ d, fun b hb h => ?_⟩
      obtain rfl : c = b := by simpa using hb
      exact absurd h hr

/-! Hangs (R613 to R616). -/

/-- What is left when a partition's hang has started its reset. -/
def Dev.HangReset (d e : Dev) (p unit : Nat) : Prop :=
  e.service p = 1 ∧ e.partReg p 0x22 = (d.partReg p 0x22 + 1) % 16 ∧ e.partReg p 0x25 = unit ∧
    e.reg 0x5400 0x09 = (d.reg 0x5400 0x09 + 1) % 2 ^ 64 ∧
    (∀ k ∈ partEngs p, (e.eng k).idle) ∧ (∀ k ∈ partStks p, (e.stk k).idle) ∧ (∀ k, k ∉ partEngs p → e.eng k = d.eng k) ∧
    ∀ c, c < 1024 → Tbl.look? p d.integ.turn = some c → (d.ctx c).rep.replaying = true → e.ctxReg c 0x28 = 4

/-- A reset that starts after what an event writes, with the culprit named. -/
theorem Dev.hangReset {d r : Dev} (h : EventOf d r) (p unit : Nat) : d.HangReset ((r.culprit p).resetStart p unit) p unit := by
  obtain ⟨engs, regs, mark⟩ := r.culprit_spec p
  obtain ⟨⟨service, generation, cause, count⟩, engines, rootEngines, others, kept⟩ := (r.culprit p).resetStart_spec p unit
  have before : Dev.RegsOff (0x28 :: noisySubs) d (r.culprit p) := ((StopOf.of_event h).regs.mono (by decide)).trans regs
  have integ : r.integ = d.integ := by rw [h.1]
  have ctx : r.ctx = d.ctx := by rw [h.1]; rfl
  refine ⟨?_, ?_, cause, ?_, engines, rootEngines, fun k hk => ?_, fun c _ ht hr => ?_⟩
  · rw [Dev.service, Dev.partReg, service]
  · rw [Dev.partReg, generation, Dev.partReg, before _ _ (by decide) (by decide)]
    rfl
  · rw [count, before _ _ (by decide) (by decide)]
  · rw [others k hk, Dev.eng, engs, h.1]
    rfl
  · rw [Dev.ctxReg, kept _ _ (by decide) (by decide)]
    exact mark c (by rw [integ]; exact ht) (by rw [ctx]; exact hr)

/-- Outside its kinds, or in a partition that is not in service, a hang timeout does nothing. -/
theorem hangTimeout_none {kind unit : Nat} {d : Dev} (h : kind = 0 ∨ 7 < kind ∨ d.service (hangPart kind unit) ≠ 0) :
    hangTimeout kind unit d = d :=
  if_pos (by simpa [or_assoc] using h)

/-- A unit without work, or on the floor, does not hang. -/
theorem hangTimeout_idle {kind unit : Nat} {d : Dev} (h0 : 0 < kind) (h7 : kind < 7) (hs : d.service (hangPart kind unit) = 0)
    (h : d.hangCtx kind unit = none ∨ d.pow.floor = true) : hangTimeout kind unit d = d := by
  unfold hangTimeout
  dsimp only
  rw [if_neg (by simp [hs]; omega), if_neg (by omega)]
  rcases h with h | h
  · rw [h]
  · split
    · rfl
    · exact if_pos h

/-- The reset that a unit with work starts. -/
theorem hangTimeout_hung {kind unit : Nat} {d : Dev} (h0 : 0 < kind) (h7 : kind < 7) (hs : d.service (hangPart kind unit) = 0)
    (hw : d.hangCtx kind unit ≠ none) (hf : d.pow.floor = false) : ∃ r, EventOf d r ∧
      hangTimeout kind unit d = (r.culprit (hangPart kind unit)).resetStart (hangPart kind unit) (hangCause kind unit) := by
  obtain ⟨c, hc⟩ := Option.ne_none_iff_exists'.mp hw
  unfold hangTimeout
  dsimp only
  rw [if_neg (by simp [hs]; omega), if_neg (by omega), hc]
  dsimp only
  rw [if_neg (by simp [hf])]
  exact ⟨_, EventOf.raise _ _ _ _ _ _ _, rfl⟩

/-- The reset that an error of control state starts (R612). -/
theorem hangTimeout_control {unit : Nat} {d : Dev} (hs : d.service (hangPart 7 unit) = 0) :
    hangTimeout 7 unit d = (d.culprit (hangPart 7 unit)).resetStart (hangPart 7 unit) (hangCause 7 unit) := by
  unfold hangTimeout
  dsimp only
  rw [if_neg (by simp [hs]), if_pos rfl]


/-! The end of a partition's reset (R212, R616, R625, R630). -/

/-- The wipe of a die's secure bank writes its assignment, the keys and the wipe. -/
theorem Dev.wipeStart_frame (d : Dev) (die cause : Nat) :
    d.wipeStart die cause = { d with
      regs := (d.wipeStart die cause).regs, boot := (d.wipeStart die cause).boot, wiping := (d.wipeStart die cause).wiping } ∧
    (Tbl.look? die (d.wipeStart die cause).wiping).isSome = true := by
  unfold Dev.wipeStart
  dsimp only
  refine ⟨?_, by rw [Tbl.look?_put_self]; rfl⟩
  split <;> rfl

/-- An engine after the self-test: nothing in its bank sets, save areas and translation cache (R616). -/
def Eng.cleared (k : Eng) : Eng :=
  { k with
    sets := [⟨0, Accum.empty⟩, ⟨0, Accum.empty⟩], saves := [], opening := [], lastW := [], xc := [], vwins := [], staging := [],
    row := [], scA := ⟨none, 0⟩, scV := ⟨none, 0⟩, scD := ⟨none, 0⟩ }

/-- The part when a drained partition's engines and translation caches are cleared. -/
def Dev.selfTested (d : Dev) (p : Nat) (r : PReset) : Dev :=
  (partEngs p).foldl (fun d e => d.updEng e Eng.cleared)
    { d with integ := { d.integ with resets := Tbl.put p { r with phase := 2 } d.integ.resets }, xcP := Tbl.del p d.xcP }

theorem resetDrained_none {p : Nat} {d : Dev} (h : ∀ r, Tbl.look? p d.integ.resets = some r → r.phase ≠ 1) :
    resetDrained p d = d := by
  unfold resetDrained
  split
  · rfl
  · rename_i r hr
    exact if_pos (h r hr)

theorem resetDrained_some {p : Nat} {d : Dev} {r : PReset} (h : Tbl.look? p d.integ.resets = some r) (hp : r.phase = 1) :
    resetDrained p d = if p % 2 = 0 then (d.selfTested p r).wipeStart (p / 2) 4 else d.selfTested p r := by
  unfold resetDrained
  rw [h]
  dsimp only
  rw [if_neg (by simp [hp])]
  rfl

/-- Bank sets, save areas and translation cache of an engine are empty. -/
def Eng.selfTested (k : Eng) : Prop := k.sets = [⟨0, Accum.empty⟩, ⟨0, Accum.empty⟩] ∧ k.saves = [] ∧ k.xc = []

theorem Dev.selfTested_eng (d : Dev) {p : Nat} (r : PReset) (k : Nat) :
    (k ∈ partEngs p → ((d.selfTested p r).eng k).selfTested) ∧ (k ∉ partEngs p → (d.selfTested p r).eng k = d.eng k) :=
  ⟨fun hk => Dev.eng_foldl_updEng_mem (P := Eng.selfTested) (fun _ => ⟨rfl, rfl, rfl⟩) hk _,
    fun hk => Dev.eng_foldl_updEng_notMem _ hk _⟩

/-- What else the self-test writes: its reset is in the next phase, and the partition's translation cache is gone. -/
theorem Dev.selfTested_frame (d : Dev) (p : Nat) (r : PReset) :
    (d.selfTested p r).integ.resets = Tbl.put p { r with phase := 2 } d.integ.resets ∧
      (d.selfTested p r).xcP = Tbl.del p d.xcP ∧ (d.selfTested p r).wiping = d.wiping := by
  unfold Dev.selfTested
  rw [Dev.foldl_updEng_frame]
  exact ⟨rfl, rfl, rfl⟩

/-- What the drained reset of a partition leaves (R616). -/
theorem resetDrained_spec {p : Nat} {d : Dev} {r : PReset} (h : Tbl.look? p d.integ.resets = some r) (hp : r.phase = 1) :
    let e := resetDrained p d
    Tbl.look? p e.integ.resets = some { r with phase := 2 } ∧ Tbl.look? p e.xcP = none ∧
      (∀ k ∈ partEngs p, (e.eng k).selfTested) ∧
      (∀ k, k ∉ partEngs p → e.eng k = d.eng k) ∧
      (p % 2 = 0 → (Tbl.look? (p / 2) e.wiping).isSome = true) ∧ (p % 2 = 1 → e.wiping = d.wiping) := by
  obtain ⟨resets, cache, wiping⟩ := d.selfTested_frame p r
  have resets2 : Tbl.look? p (d.selfTested p r).integ.resets = some { r with phase := 2 } := by
    rw [resets, Tbl.look?_put_self]
  have cache2 : Tbl.look? p (d.selfTested p r).xcP = none := by rw [cache, Tbl.look?_del_self]
  rw [resetDrained_some h hp]
  split
  · rename_i even
    obtain ⟨frame, wiped⟩ := (d.selfTested p r).wipeStart_frame (p / 2) 4
    have engs : ((d.selfTested p r).wipeStart (p / 2) 4).eng = (d.selfTested p r).eng := by rw [frame]; rfl
    refine ⟨?_, ?_, fun k hk => ?_, fun k hk => ?_, fun _ => wiped, fun odd => by omega⟩
    · rw [frame]; exact resets2
    · rw [frame]; exact cache2
    · rw [engs]; exact (d.selfTested_eng r k).1 hk
    · rw [engs]; exact (d.selfTested_eng r k).2 hk
  · exact ⟨resets2, cache2, fun k hk => (d.selfTested_eng r k).1 hk, fun k hk => (d.selfTested_eng r k).2 hk,
      fun even => by omega, fun _ => wiping⟩

/-- What becomes of a suspect: nothing for the culprit; otherwise its streams stop and its recovery state is written, 5 where
replay is off for the device (R625). -/
theorem Dev.suspectAfter_cases (d : Dev) (p c : Nat) :
    (d.ctxReg c 0x28 = 4 ∧ d.suspectAfter p c = d) ∨
    d.ctxReg c 0x28 ≠ 4 ∧ ∃ e v, StopOf d e ∧
      d.suspectAfter p c = { e.setReg (0x4000 + c) 0x28 v with integ := (d.suspectAfter p c).integ } ∧
      (d.suspectAfter p c).integ.resets = d.integ.resets ∧ (d.reg 0x5400 0x0F % 2 = 0 → v = 5) := by
  by_cases h : d.ctxReg c 0x28 = 4
  · exact .inl ⟨h, if_pos h⟩
  · refine .inr ⟨h, ?_⟩
    have stop := StopOf.stopCtx d c 0x0310
    have resets : (d.stopCtx c 0x0310).integ.resets = d.integ.resets := by rw [stop.frame]
    unfold Dev.suspectAfter
    rw [if_neg h]
    dsimp only
    split
    · exact ⟨_, _, stop, rfl, resets, fun _ => rfl⟩
    · rename_i hon
      refine ⟨_, _, stop.trans (StopOf.updCtx _ _ _), rfl, resets, fun hoff => absurd ?_ hon⟩
      simp [stop.regs 0x5400 0x0F (by decide) (by decide), hoff]

theorem Dev.suspectAfter_regs (d : Dev) (p c : Nat) : Dev.RegsOff (0x28 :: noisySubs) d (d.suspectAfter p c) := by
  rcases d.suspectAfter_cases p c with ⟨-, h⟩ | ⟨-, e, v, stop, h, -⟩
  · rw [h]; exact Dev.RegsOff.refl _ d
  · rw [h]
    exact ((stop.regs.mono (by decide)).trans (Dev.RegsOff.setReg e _ _ (by decide) (by decide))).trans (Dev.RegsOff.of_regs rfl rfl)

theorem Dev.suspectAfter_resets (d : Dev) (p c : Nat) : (d.suspectAfter p c).integ.resets = d.integ.resets := by
  rcases d.suspectAfter_cases p c with ⟨-, h⟩ | ⟨-, e, v, -, -, h, -⟩
  · rw [h]
  · exact h

/-- The recovery state of a context after a suspect's turn: 5 at the suspect itself unless it is the culprit, else as before. -/
theorem Dev.ctxReg_suspectAfter {d : Dev} (hoff : d.reg 0x5400 0x0F % 2 = 0) (p c b : Nat) :
    (d.suspectAfter p c).ctxReg b 0x28 = if b = c ∧ d.ctxReg c 0x28 ≠ 4 then 5 else d.ctxReg b 0x28 := by
  rcases d.suspectAfter_cases p c with ⟨h4, h⟩ | ⟨hc, e, v, stop, h, -, hv⟩
  · rw [h, if_neg (by simp [h4])]
  · rw [h]
    change (e.setReg (0x4000 + c) 0x28 v).reg (0x4000 + b) 0x28 = _
    by_cases hb : b = c
    · rw [hb, Dev.reg_setReg_self, hv hoff, if_pos ⟨rfl, hc⟩]
    · rw [Dev.reg_setReg_other _ (by omega), stop.regs _ _ (by decide) (by decide), if_neg (by simp [hb])]
      rfl

/-- What a reset leaves that ends well: the partition in service, no reset under way, its event, and its suspects' turns. -/
def Dev.backMarked (d : Dev) (p : Nat) : Dev :=
  ({ d with integ := { d.integ with resets := Tbl.del p d.integ.resets } } : Dev).setReg (0x3400 + p) 0x26 0

theorem Dev.backMarked_regs (d : Dev) (p : Nat) : Dev.RegsOff [0x26] d (d.backMarked p) :=
  Dev.RegsOff.trans (e := { d with integ := { d.integ with resets := Tbl.del p d.integ.resets } }) (Dev.RegsOff.of_regs rfl rfl)
    (Dev.RegsOff.setReg _ _ _ (by decide) (by decide))

theorem resetComplete_none {p : Nat} {s : State} (h : ∀ r, Tbl.look? p s.dev.integ.resets = some r → r.phase ≠ 2) (ok : Bool) :
    resetComplete p ok s = s := by
  unfold resetComplete
  split
  · rfl
  · rename_i r hr
    exact if_pos (h r hr)

section Complete
variable {p : Nat} {s : State} {r : PReset} {ok : Bool} (hr : Tbl.look? p s.dev.integ.resets = some r) (hp : r.phase = 2)
include hr hp

/-- A failed self-test, or too many resets in the window, takes the partition out of service (R616, R630). -/
theorem resetComplete_out (h : ok = false ∨ s.dev.reg 0x5400 0x02 ≤ s.dev.resetsInWindow p) :
    ∃ cause, resetComplete p ok s = s.partitionOut p cause r.suspects := by
  unfold resetComplete
  rw [hr]
  dsimp only
  rw [if_neg (by simp [hp])]
  split
  · exact ⟨2, rfl⟩
  · rename_i hok
    rw [if_pos (h.resolve_left (by simpa using hok))]
    exact ⟨3, rfl⟩

/-- Otherwise the partition is back in service, and each suspect has its turn (R625). -/
theorem resetComplete_back (hok : ok = true) (h : s.dev.resetsInWindow p < s.dev.reg 0x5400 0x02) :
    ∃ e, StopOf (s.dev.backMarked p) e ∧
      resetComplete p ok s = { s with dev := r.suspects.foldl (fun d c => d.suspectAfter p c) e } := by
  unfold resetComplete
  rw [hr]
  dsimp only
  rw [if_neg (by simp [hp]), if_neg (by simp [hok]), if_neg (Nat.not_le_of_lt h)]
  exact ⟨_, StopOf.of_event (EventOf.raise _ _ _ _ _ _ _), rfl⟩

/-- What a reset leaves that ends well. -/
theorem resetComplete_back_spec (hok : ok = true) (h : s.dev.resetsInWindow p < s.dev.reg 0x5400 0x02) :
    let t := resetComplete p ok s
    s.sameStore t ∧ t.dev.service p = 0 ∧ Tbl.look? p t.dev.integ.resets = none ∧
      ∀ c ∈ r.suspects, c < 1024 → s.dev.ctxReg c 0x28 ≠ 4 → s.dev.reg 0x5400 0x0F % 2 = 0 → t.dev.ctxReg c 0x28 = 5 := by
  obtain ⟨e, stop, he⟩ := resetComplete_back hr hp hok h
  have before : Dev.RegsOff (0x26 :: noisySubs) s.dev e :=
    ((s.dev.backMarked_regs p).mono (by decide)).trans (stop.regs.mono (by decide))
  have after : Dev.RegsOff (0x28 :: noisySubs) e (r.suspects.foldl (fun d c => d.suspectAfter p c) e) :=
    Dev.RegsOff.foldl (fun d c => d.suspectAfter_regs p c) _ e
  have resets : (r.suspects.foldl (fun d c => d.suspectAfter p c) e).integ.resets = Tbl.del p s.dev.integ.resets :=
    foldl_keeps (fun d : Dev => d.integ.resets = Tbl.del p s.dev.integ.resets) (fun d c h => (d.suspectAfter_resets p c).trans h) _ e
      (by rw [stop.frame]; rfl)
  rw [he]
  refine ⟨⟨rfl, rfl, rfl⟩, ?_, ?_, fun c hc _ h4 hoff => ?_⟩
  · rw [Dev.service, Dev.partReg, after _ _ (by decide) (by decide), stop.regs _ _ (by decide) (by decide), Dev.backMarked,
      Dev.reg_setReg_self]
  · rw [resets, Tbl.look?_del_self]
  · have off : ∀ (d : Dev) b, d.reg 0x5400 0x0F % 2 = 0 → (d.suspectAfter p b).reg 0x5400 0x0F % 2 = 0 := fun d b h => by
      rw [d.suspectAfter_regs p b _ _ (by decide) (by decide), h]
    refine (foldl_establishes (fun d : Dev => d.reg 0x5400 0x0F % 2 = 0 ∧ d.ctxReg c 0x28 ≠ 4)
      (fun d : Dev => d.reg 0x5400 0x0F % 2 = 0 ∧ d.ctxReg c 0x28 = 5) hc (fun d b hd => ⟨off d b hd.1, ?_⟩)
      (fun d hd => ⟨off d c hd.1, ?_⟩) (fun d b hd => ⟨off d b hd.1, ?_⟩) e ⟨?_, ?_⟩).2
    · rw [Dev.ctxReg_suspectAfter hd.1]
      split
      · decide
      · exact hd.2
    · rw [Dev.ctxReg_suspectAfter hd.1, if_pos ⟨rfl, hd.2⟩]
    · rw [Dev.ctxReg_suspectAfter hd.1, hd.2]
      exact ite_self 5
    · rw [before _ _ (by decide) (by decide), hoff]
    · rw [Dev.ctxReg, before _ _ (by decide) (by decide)]
      exact h4

end Complete

end Sys2Proof.Machine

/-! Flit failures, and the statement about faults that spread. -/
namespace Sys2Proof.Machine
open Sys2Proof

/-! Flit failures (R15, R609). -/

/-- A flit whose replays all succeed but the failed ones only counts. -/
theorem flitFailure_replayed {kind unit fails : Nat} (h : fails < 8) (s : State) :
    flitFailure kind unit fails s = s.onDev (fun d => d.addReg 0x5400 0x06 (fails + 1)) := by
  unfold flitFailure
  dsimp only
  rw [if_pos h, Nat.min_eq_right (by omega)]

/-- The state of a lost hop before its consequences: eight replays and one lost hop are counted. -/
def State.hopLost (s : State) : State := s.onDev (fun d => (d.addReg 0x5400 0x06 8).incReg 0x5400 0x07)

theorem State.hopLost_spec (s : State) : s.hopLost.dev.reg 0x5400 0x06 = (s.dev.reg 0x5400 0x06 + 8) % 2 ^ 64 ∧
    s.hopLost.dev.reg 0x5400 0x07 = (s.dev.reg 0x5400 0x07 + 1) % 2 ^ 64 ∧ s.hopLost.dev.reg 0x5400 0x05 = s.dev.reg 0x5400 0x05 := by
  change ((s.dev.addReg 0x5400 0x06 8).incReg 0x5400 0x07).reg _ _ = _ ∧ ((s.dev.addReg 0x5400 0x06 8).incReg 0x5400 0x07).reg _ _ = _ ∧
    ((s.dev.addReg 0x5400 0x06 8).incReg 0x5400 0x07).reg _ _ = _
  refine ⟨?_, ?_, ?_⟩
  · rw [Dev.reg_incReg_other _ (by decide), Dev.reg_addReg_self]
    rfl
  · rw [Dev.reg_incReg_self, Dev.reg_addReg_other _ (by decide)]
    rfl
  · rw [Dev.reg_incReg_other _ (by decide), Dev.reg_addReg_other _ (by decide)]

/-- The eighth failure loses the hop: device-wide on the fabric and between dies, else the stack's partition. -/
theorem flitFailure_lost {kind unit fails : Nat} (h : 8 ≤ fails) (s : State) : flitFailure kind unit fails s =
    if kind = 0 then s.hopLost.deviceFault 2 else if kind = 1 then s.hopLost.deviceFault 3
    else s.hopLost.partitionOut (partOfStk (unit % 32)) 1 (s.hopLost.dev.suspects (partOfStk (unit % 32))) := by
  unfold flitFailure
  dsimp only
  rw [if_neg (by omega), Nat.min_eq_left (by omega)]
  rfl

/-- A lost hop of the fabric or between dies, whatever its cause. -/
theorem State.hopLost_wide (s : State) (cause : Nat) :
    let t := s.hopLost.deviceFault cause
    t.mem = s.mem ∧ t.pending = s.pending ∧ Dev.RegsOff deviceSubs s.hopLost.dev t.dev ∧ bit (t.dev.reg 0x5400 0x05) 0 = true ∧
      (bit (s.dev.reg 0x5400 0x05) 0 = false → t.persist.tray = true) := by
  obtain ⟨mem, pending, regs⟩ := s.hopLost.deviceFault_frame cause
  refine ⟨mem, pending, regs, s.hopLost.deviceFault_bit cause, fun h => ?_⟩
  rw [← s.hopLost_spec.2.2] at h
  rw [(State.deviceFault_shown h cause).2.2.2]

/-- What a lost hop leaves (R15, R609, R631, R632). -/
theorem flitFailure_lost_spec {kind unit fails : Nat} (h : 8 ≤ fails) (s : State) :
    let t := flitFailure kind unit fails s
    t.mem = s.mem ∧ t.pending = s.pending ∧ Dev.RegsOff partitionSubs s.hopLost.dev t.dev ∧
      (kind = 0 ∨ kind = 1 → bit (t.dev.reg 0x5400 0x05) 0 = true ∧ (bit (s.dev.reg 0x5400 0x05) 0 = false → t.persist.tray = true)) ∧
      (kind ≠ 0 → kind ≠ 1 → t.dev.service (partOfStk (unit % 32)) = 2) := by
  rw [flitFailure_lost h]
  split
  · rename_i h0
    obtain ⟨mem, pending, regs, flag, tray⟩ := s.hopLost_wide 2
    exact ⟨mem, pending, regs.mono (by decide), fun _ => ⟨flag, tray⟩, fun n => absurd h0 n⟩
  · split
    · rename_i h1
      obtain ⟨mem, pending, regs, flag, tray⟩ := s.hopLost_wide 3
      exact ⟨mem, pending, regs.mono (by decide), fun _ => ⟨flag, tray⟩, fun _ n => absurd h1 n⟩
    · rename_i h0 h1
      obtain ⟨service, mem, pending, regs⟩ := s.hopLost.partitionOut_spec (partOfStk (unit % 32)) 1
        (s.hopLost.dev.suspects (partOfStk (unit % 32)))
      exact ⟨mem, pending, regs, fun n => absurd n (by simp [h0, h1]), fun _ _ => service⟩

/-! What each of the commands runs. -/

theorem exec_flitCrcFailure (kind : Fin 3) (unit fails : Nat) (s : State) :
    exec (.flitCrcFailure kind unit fails) s = .next (flitFailure kind.val unit fails s) := rfl

theorem exec_partitionResetDrained (p : Fin 8) (s : State) :
    exec (.partitionResetDrained p) s = .next (s.onDev (resetDrained p.val)) := rfl

theorem exec_partitionResetComplete (p : Fin 8) (ok : Bool) (s : State) :
    exec (.partitionResetComplete p ok) s = .next (resetComplete p.val ok s) := rfl

theorem exec_deviceWideFault (cause : Nat) (s : State) : exec (.deviceWideFault cause) s = .next (deviceWide cause s) := rfl

theorem exec_hangTimeout (kind unit : Nat) (s : State) :
    exec (.hangTimeout kind unit) s = .next (s.onDev (hangTimeout kind unit)) := rfl

/-- A device-wide fault from outside is the fault of its cause. -/
theorem deviceWide_cause {cause : Nat} {s : State} (h2 : 2 ≤ cause) (h4 : cause ≤ 4) : deviceWide cause s = s.deviceFault cause :=
  if_neg (by simp; omega)

/-- Outside its causes, or while a device-wide fault stands, nothing happens. -/
theorem deviceWide_none {cause : Nat} {s : State} (h : cause = 0 ∨ 4 < cause ∨ bit (s.dev.reg 0x5400 0x05) 0 = true) :
    deviceWide cause s = s := by
  unfold deviceWide
  split
  · rfl
  · rename_i hn
    simp only [Bool.or_eq_true, decide_eq_true_eq, not_or] at hn
    exact State.deviceFault_standing ((h.resolve_left hn.1.1).resolve_left hn.1.2) cause

/-- Settles O44: each fault by what its operation is shown to leave. -/
theorem faultsSpread : Obligations.faultsSpread := by
  intro s
  refine ⟨fun kind unit fails => ⟨fun h => ?_, fun h => ?_⟩, fun kind unit => ?_,
    fun p => ⟨fun r hr hp => ?_, fun h => ?_, fun ok r hr hp => ?_, fun ok h => ?_⟩, fun cause h2 h4 hb => ?_, fun cause h => ?_⟩
  · rw [exec_flitCrcFailure, flitFailure_replayed h]
  · obtain ⟨mem, pending, regs, wide, out⟩ := flitFailure_lost_spec (kind := kind.val) (unit := unit) h s
    obtain ⟨replays, hops, -⟩ := s.hopLost_spec
    refine ⟨_, exec_flitCrcFailure kind unit fails s, mem, pending, ?_, ?_, fun hk => wide (by omega), fun hk => out (by omega) (by omega)⟩
    · rw [regs _ _ (by decide) (by decide), replays]
    · rw [regs _ _ (by decide) (by decide), hops]
  · intro p reset
    have still : hangTimeout kind unit s.dev = s.dev → exec (.hangTimeout kind unit) s = .next s := fun h =>
      by
      rw [exec_hangTimeout, State.onDev, h]
    have resets : (∃ r, EventOf s.dev r ∧ hangTimeout kind unit s.dev = (r.culprit p).resetStart p (hangCause kind unit)) →
        Runs (.hangTimeout kind unit) s reset := by
      rintro ⟨r, event, h⟩
      refine ⟨{ s with dev := (r.culprit p).resetStart p (hangCause kind unit) }, ?_, ⟨rfl, rfl, rfl⟩, Dev.hangReset event p _⟩
      rw [exec_hangTimeout, State.onDev, h]
    refine ⟨fun h => still (hangTimeout_none h), fun h0 h7 hs h => still (hangTimeout_idle h0 h7 hs h),
      fun h0 h7 hs hw hf => resets (hangTimeout_hung h0 h7 hs hw hf), fun h7 hs => resets ?_⟩
    subst h7
    exact ⟨s.dev, EventOf.refl s.dev, hangTimeout_control hs⟩
  · exact ⟨_, exec_partitionResetDrained p s, ⟨rfl, rfl, rfl⟩, resetDrained_spec hr hp⟩
  · rw [exec_partitionResetDrained, State.onDev, resetDrained_none h]
  · refine ⟨_, exec_partitionResetComplete p ok s, ?_⟩
    by_cases hok : ok = true ∧ s.dev.resetsInWindow p.val < s.dev.reg 0x5400 0x02
    · obtain ⟨⟨pending, persist, mem⟩, service, resets, suspects⟩ := resetComplete_back_spec hr hp hok.1 hok.2
      exact ⟨mem, pending, fun _ => ⟨service, persist, resets, suspects⟩,
        fun h => absurd hok (by rcases h with h | h <;> simp [h])⟩
    · have hout : ok = false ∨ s.dev.reg 0x5400 0x02 ≤ s.dev.resetsInWindow p.val := by
        rw [not_and_or, Bool.not_eq_true, Nat.not_lt] at hok
        exact hok
      obtain ⟨cause, hc⟩ := resetComplete_out hr hp hout
      obtain ⟨service, mem, pending, -⟩ := s.partitionOut_spec p.val cause r.suspects
      rw [hc]
      exact ⟨mem, pending, fun h => absurd h hok, fun _ => service⟩
  · rw [exec_partitionResetComplete, resetComplete_none h]
  · obtain ⟨mem, pending, -⟩ := s.deviceFault_frame cause
    obtain ⟨flag, shown, floor, tray⟩ := State.deviceFault_shown hb cause
    refine ⟨s.deviceFault cause, ?_, mem, pending, tray, flag, shown, floor,
      fun c i hc ho hi hl => State.deviceFault_stopped hb cause hc ho hi hl⟩
    rw [exec_deviceWideFault, deviceWide_cause h2 h4]
  · rw [exec_deviceWideFault, deviceWide_none h]

end Sys2Proof.Machine

/-! Integer passes and reductions (R47, R164, R177). -/
namespace Sys2Proof.Machine
open Sys2Proof

/-! A list cut into chunks. -/

/-- Cutting with fuel for the whole list loses nothing. -/
theorem chunksOf_go_flatten {α : Type} {n : Nat} (hn : 0 < n) (fuel : Nat) (l : List α) (h : l.length ≤ fuel) :
    (chunksOf.go n fuel l).flatten = l := by
  induction fuel generalizing l with
  | zero => rw [List.length_eq_zero_iff.mp (Nat.le_zero.mp h)]; rfl
  | succ fuel ih =>
    cases l with
    | nil => rfl
    | cons a t =>
      rw [chunksOf.go, List.flatten_cons, ih _ (by simp only [List.length_drop, List.length_cons] at *; omega),
        List.take_append_drop]
      simp

/-- The chunks of a list, one after the other, are the list. -/
theorem chunksOf_flatten {α : Type} {n : Nat} (hn : 0 < n) (l : List α) : (chunksOf n l).flatten = l :=
  chunksOf_go_flatten hn _ l le_rfl

/-- Whatever the fuel, no chunk is longer than n. -/
theorem length_le_of_mem_chunksOf_go {α : Type} {n : Nat} (fuel : Nat) (l : List α) :
    ∀ s ∈ chunksOf.go n fuel l, s.length ≤ n := by
  induction fuel generalizing l with
  | zero => simp [chunksOf.go]
  | succ fuel ih =>
    cases l with
    | nil => simp [chunksOf.go]
    | cons a t =>
      rw [chunksOf.go, List.forall_mem_cons]
      · exact ⟨List.length_take_le _ _, ih _⟩
      · simp

/-- No chunk is longer than n. -/
theorem length_le_of_mem_chunksOf {α : Type} {n : Nat} {l s : List α} (h : s ∈ chunksOf n l) : s.length ≤ n :=
  length_le_of_mem_chunksOf_go _ l s h

/-! Integer results narrowed to 32 bits (R47). -/

/-- Where overflow wraps, the result is kept modulo 2^w and nothing is counted. -/
@[simp] theorem narrowInt_wrap (w : Nat) (v : Int) : narrowInt w 1 v = pure (ofSigned w v) := rfl

/-- Where overflow saturates, a result in range is exact. -/
theorem narrowInt_exact {w : Nat} {v : Int} (lo : intMin w ≤ v) (hi : v ≤ intMax w) : narrowInt w 0 v = pure (ofSigned w v) := by
  have inRange : (v < intMin w || v > intMax w) = false := by simp [lo, hi]
  simp [narrowInt, inRange, lo, hi]

/-- A result above the range saturates to its upper bound, and is counted. -/
theorem narrowInt_above {w : Nat} {v : Int} (h : intMax w < v) (t : Tbl Nat) :
    narrowInt w 0 v t = (ofSigned w (intMax w), Tbl.upd 0 0x05 (· + 1) t) := by
  have clamped : min (max v (intMin w)) (intMax w) = intMax w := by omega
  have beyond : (v < intMin w || v > intMax w) = true := by simp [h]
  simp only [narrowInt, clamped, beyond]
  rfl

/-- A result below the range saturates to its lower bound, and is counted. -/
theorem narrowInt_below {w : Nat} {v : Int} (h : v < intMin w) (le : intMin w ≤ intMax w) (t : Tbl Nat) :
    narrowInt w 0 v t = (ofSigned w (intMin w), Tbl.upd 0 0x05 (· + 1) t) := by
  have clamped : min (max v (intMin w)) (intMax w) = intMin w := by omega
  have beyond : (v < intMin w || v > intMax w) = true := by simp [h]
  simp only [narrowInt, clamped, beyond]
  rfl

/-- Sum, difference and product on the integer path are the exact ones, narrowed (R164). -/
theorem vecInt_eq_narrowInt {op : Nat} {a b r : Int} (h : (op, r) ∈ [(0x21, a + b), (0x22, a - b), (0x23, a * b)]) (ovf : Nat) :
    vecInt op ovf a b = narrowInt 32 ovf r := by
  simp only [List.mem_cons, List.not_mem_nil, or_false] at h
  rcases h with ⟨rfl, rfl⟩ | ⟨rfl, rfl⟩ | ⟨rfl, rfl⟩ <;> rfl

/-! Wrapping sums along a line (R177). -/

/-- The two's-complement code of a sum is the sum of the codes modulo 2^32. -/
theorem ofSigned_add (x y : Int) : ofSigned 32 (x + y) = (ofSigned 32 x + ofSigned 32 y) % 2 ^ 32 := by
  simp only [ofSigned]
  omega

/-- A code read as a signed value has the code modulo 2^32. -/
theorem ofSigned_toSigned (a : Nat) : ofSigned 32 (toSigned 32 a) = a % 2 ^ 32 := by
  simp only [ofSigned, toSigned]
  split <;> omega

/-- A wrapping addition adds the codes modulo 2^32. -/
theorem addInt32_wrap (a b : Nat) : addInt32 1 a b = pure ((a + b) % 2 ^ 32) := by
  rw [addInt32, narrowInt_wrap, ofSigned_add, ofSigned_toSigned, ofSigned_toSigned, ← Nat.add_mod]

/-- The code of the sum of a line is the sum of its codes modulo 2^32. -/
theorem sum_map_ofSigned (xs : List Int) : (xs.map (ofSigned 32)).sum % 2 ^ 32 = ofSigned 32 xs.sum := by
  induction xs with
  | nil => rfl
  | cons x xs ih =>
    rw [List.map_cons, List.sum_cons, List.sum_cons, ofSigned_add, ← ih, Nat.add_mod_mod]

/-- The elements of a list of even length, added in pairs, sum to the list's sum. -/
theorem sum_pairs (n : Nat) (v : List Nat) (h : v.length = 2 * n) :
    ((List.range n).map (fun i => v.getD (2 * i) 0 + v.getD (2 * i + 1) 0)).sum = v.sum := by
  induction n generalizing v with
  | zero => simp [List.length_eq_zero_iff.mp h]
  | succ n ih =>
    obtain ⟨a, b, v, rfl⟩ : ∃ a b w, v = a :: b :: w := by
      match v, h with
      | a :: b :: w, _ => exact ⟨a, b, w, rfl⟩
    rw [List.range_succ_eq_map, List.map_cons, List.map_map, List.sum_cons, List.sum_cons, List.sum_cons, ← Nat.add_assoc,
      ← ih v (by simpa [Nat.mul_succ] using h)]
    rfl

/-- Values reduced modulo m before they are added have the same sum modulo m. -/
theorem sum_map_mod {α : Type} (m : Nat) (f : α → Nat) (l : List α) : (l.map (fun x => f x % m)).sum % m = (l.map f).sum % m := by
  rw [List.sum_nat_mod (l.map f), List.map_map]
  rfl

/-- A tree of wrapping additions is the sum modulo 2^32. -/
theorem treeM_addInt32_wrap (f : Nat) (v : List Nat) (h : v.length = 2 ^ (f + 1)) :
    treeM (addInt32 1) (f + 1) v = pure (v.sum % 2 ^ 32) := by
  have level : treeM (addInt32 1) (f + 1) v = treeM (addInt32 1) f
      ((List.range (2 ^ f)).map (fun i => (v.getD (2 * i) 0 + v.getD (2 * i + 1) 0) % 2 ^ 32)) := by
    have half : v.length / 2 = 2 ^ f := by rw [h, Nat.pow_succ]; omega
    simp only [treeM, addInt32_wrap, List.mapM_pure, pure_bind, half]
  have sums := sum_map_mod (2 ^ 32) (fun i => v.getD (2 * i) 0 + v.getD (2 * i + 1) 0) (List.range (2 ^ f))
  rw [sum_pairs _ v (by rw [h, Nat.pow_succ, Nat.mul_comm])] at sums
  rw [level]
  cases f with
  | zero => rw [← sums]; simp [treeM]
  | succ f => rw [treeM_addInt32_wrap f _ (by simp), sums]

/-- Wrapping additions in order are the sum modulo 2^32. -/
theorem foldlM_addInt32_wrap (x : Nat) (l : List Nat) :
    l.foldlM (addInt32 1) (x % 2 ^ 32) = pure ((x + l.sum) % 2 ^ 32) := by
  induction l generalizing x with
  | nil => rfl
  | cons b l ih => rw [List.foldlM_cons, addInt32_wrap, pure_bind, Nat.mod_add_mod, ih, List.sum_cons, Nat.add_assoc]

/-- A computation that counts nothing at any element of a list answers its map. -/
theorem mapM_eq_pure_map {α β : Type} {f : α → Num β} {g : α → β} {l : List α} (h : ∀ x ∈ l, f x = pure (g x)) :
    l.mapM f = pure (l.map g) := by
  induction l with
  | nil => rfl
  | cons x l ih =>
    rw [List.forall_mem_cons] at h
    rw [List.mapM_cons, h.1, ih h.2]
    rfl

/-- A wrapping sum along a line, whatever the tree order, is the sum of its codes modulo 2^32. -/
theorem reduceLine_addInt32_wrap (cs : List Nat) : reduceLine (addInt32 1) 0 cs = pure (cs.sum % 2 ^ 32) := by
  have segment : ∀ s ∈ chunksOf 64 cs,
      treeM (addInt32 1) 6 (s ++ List.replicate (64 - s.length) 0) = pure (s.sum % 2 ^ 32) := fun s hs => by
    have := length_le_of_mem_chunksOf hs
    rw [treeM_addInt32_wrap 5 _ (by simp; omega)]
    simp
  have total : ((chunksOf 64 cs).map List.sum).sum = cs.sum := by
    rw [← List.sum_flatten, chunksOf_flatten (by decide)]
  simp only [reduceLine, mapM_eq_pure_map segment, pure_bind]
  rw [← total, ← sum_map_mod]
  cases chunksOf 64 cs with
  | nil => rfl
  | cons s segs =>
    simp only [List.map_cons, foldlM_addInt32_wrap, List.sum_cons, Nat.mod_add_mod]

/-- Settles O13: element-wise operations are narrowed exact results, and the tree's wrapping additions keep the sum modulo 2^32. -/
theorem integersExact : Obligations.integersExact := by
  refine ⟨fun a b r op t h => ?_, fun f xs t hf => ?_⟩
  · have run := vecInt_eq_narrowInt h
    have lo : intMin 32 = -2 ^ 31 := rfl
    have hi : intMax 32 = 2 ^ 31 - 1 := rfl
    simp only [run]
    refine ⟨rfl, fun h1 h2 => ?_, fun h1 => ?_, fun h1 => ?_, rfl, rfl⟩
    · rw [narrowInt_exact (by omega) (by omega)]
      rfl
    · exact narrowInt_above (by omega) t
    · exact narrowInt_below (by omega) (by decide) t
  · constructor
    · simp only [redInt, hf, reduceLine_addInt32_wrap, sum_map_ofSigned]
      rfl
    · simp only [redInt, hf, narrowInt_wrap, List.mapM_pure, pure_bind, reduceLine_addInt32_wrap]
      rw [← sum_map_ofSigned, List.map_map]
      rfl

end Sys2Proof.Machine

/-! Submissions, drops and their reports (R386 to R389), and the statement about them. -/
namespace Sys2Proof.Machine
open Sys2Proof

/-! What a change of a stream, a count and an event leave of the contexts. -/

theorem Dev.otherCtxs_updStream (d : Dev) (c i : Nat) (f : Stream → Stream) : d.otherCtxs (d.updStream c i f) c :=
  fun _ hb => Dev.ctx_updCtx_ne d hb _

@[simp] theorem Dev.ctx_incReg (d : Dev) (j a : Nat) : (d.incReg j a).ctx = d.ctx := rfl
@[simp] theorem Dev.stream_incReg (d : Dev) (j a : Nat) : (d.incReg j a).stream = d.stream := rfl

/-- An event leaves every context. -/
theorem EventOf.ctx {d e : Dev} (h : EventOf d e) (c : Nat) : e.ctx c = d.ctx c := by rw [h.1]; rfl

theorem EventOf.stream {d e : Dev} (h : EventOf d e) (c i : Nat) : e.stream c i = d.stream c i := by
  rw [Dev.stream, h.ctx]; rfl

/-! Drops (R389). -/

/-- The report of drops starts a millisecond with none waiting, and leaves the counts of drops and the other contexts. -/
theorem Dev.dropEvent_spec {d : Dev} {c i : Nat} (h : i < (d.ctx c).streams.length) :
    let e := d.dropEvent c i
    e.stream c i = { d.stream c i with dropNum := 0, dropCause := 0, dropTimer := true } ∧ d.otherCtxs e c ∧
      e.ctxReg c 0x16 = d.ctxReg c 0x16 := by
  unfold Dev.dropEvent
  dsimp only
  generalize hr : d.raiseCtx _ _ _ = r
  have raised : EventOf d r := by rw [← hr]; exact EventOf.raise _ _ _ _ _ _ _
  refine ⟨?_, fun b hb => ?_, ?_⟩
  · rw [Dev.stream_updStream_self r (by rwa [raised.ctx]), raised.stream]
  · rw [Dev.otherCtxs_updStream r c i _ b hb, raised.ctx]
  · exact raised.2.2 _ _ (by decide) (by simp [eventPlace])

/-- A stream with one drop more. -/
def Stream.countDrop (x : Stream) (now cause : Nat) : Stream :=
  { x with
    dropped := (x.dropped + 1) % 2 ^ 32, dropNum := x.dropNum + 1, lastChange := now,
    dropCause := if x.dropNum = 0 then cause else x.dropCause }

/-- A drop counted in its stream and its context, before it is reported. -/
def Dev.dropCounted (d : Dev) (c i cause : Nat) : Dev :=
  (d.updStream c i (fun x => x.countDrop d.now cause)).incReg (0x4000 + c) 0x16

theorem Dev.dropCounted_spec {d : Dev} {c i : Nat} (h : i < (d.ctx c).streams.length) (cause : Nat) :
    let e := d.dropCounted c i cause
    e.stream c i = (d.stream c i).countDrop d.now cause ∧ d.otherCtxs e c ∧
      e.ctxReg c 0x16 = (d.ctxReg c 0x16 + 1) % 2 ^ 64 ∧ i < (e.ctx c).streams.length := by
  unfold Dev.dropCounted
  refine ⟨?_, fun b hb => ?_, Dev.reg_incReg_self _ _ _, ?_⟩
  · rw [Dev.stream_incReg, Dev.stream_updStream_self d h]
  · rw [Dev.ctx_incReg, Dev.otherCtxs_updStream d c i _ b hb]
  · rwa [Dev.ctx_incReg, Dev.length_streams_updStream]

/-- While a millisecond runs a drop waits; otherwise it is reported at once. -/
theorem Dev.dropWrite_eq {d : Dev} {c i : Nat} (h : i < (d.ctx c).streams.length) (cause : Nat) : d.dropWrite c i cause =
    if (d.stream c i).dropTimer then d.dropCounted c i cause else (d.dropCounted c i cause).dropEvent c i := by
  have timer : ((d.dropCounted c i cause).stream c i).dropTimer = (d.stream c i).dropTimer := by
    rw [(d.dropCounted_spec h cause).1]
    rfl
  rw [← timer]
  rfl

/-- What a dropped write leaves (R389). -/
theorem Dev.dropWrite_spec {d : Dev} {c i : Nat} (h : i < (d.ctx c).streams.length) (cause : Nat) :
    let e := d.dropWrite c i cause
    let x := d.stream c i
    let y := e.stream c i
    y.q = x.q ∧ y.expected = x.expected ∧ y.dropped = (x.dropped + 1) % 2 ^ 32 ∧ y.dropTimer = true ∧
      y.dropNum = (if x.dropTimer then x.dropNum + 1 else 0) ∧ e.ctxReg c 0x16 = (d.ctxReg c 0x16 + 1) % 2 ^ 64 ∧
      d.otherCtxs e c := by
  obtain ⟨counted, others, count, present⟩ := d.dropCounted_spec h cause
  rw [Dev.dropWrite_eq h]
  dsimp only
  split
  · rename_i timer
    rw [counted]
    exact ⟨rfl, rfl, rfl, timer, rfl, count, others⟩
  · obtain ⟨reported, others', count'⟩ := Dev.dropEvent_spec present
    rw [reported, counted, count', count]
    exact ⟨rfl, rfl, rfl, rfl, rfl, rfl, fun b hb => (others' b hb).trans (others b hb)⟩

/-! A write to a stream window (R386 to R388). -/

/-- No cause to drop a 64-byte aligned write, with the expected sequence, to a command slot of a stream of an ON context that is not
held, has room, and is the host's. -/
theorem Dev.dropCause_none {d : Dev} {h c i slot data : Nat} (state : d.ctxState c = 2) (held : d.ctxReg c 0x22 % 2 = 0)
    (owner : d.owner c = some h) (stream : i < d.streamCount c) (command : slot ≠ 63)
    (seq : bits data 47 32 = (d.stream c i).expected) (room : (d.stream c i).unissued < 256) :
    d.dropCause h c i slot 64 true data = 0 := by
  simp [Dev.dropCause, state, held, owner, Nat.not_le_of_lt stream, command, seq, Nat.not_le_of_lt room]

section Window
variable {s : State} {h off size data : Nat} {aligned : Bool} (hc : off / 16384 < 1024)
include hc

theorem State.windowWrite_accepted (attached : (s.dev.site h).phase = 4)
    (cause : s.dev.dropCause h (off / 16384) (off % 16384 / 4096) (off % 4096 / 64) size aligned data = 0) :
    s.windowWrite h off size aligned data = s.accept (off / 16384) (off % 16384 / 4096) data := by
  simp [State.windowWrite, Nat.not_le_of_lt hc, cause, attached]

theorem State.windowWrite_dropped
    (drop : s.dev.dropCause h (off / 16384) (off % 16384 / 4096) (off % 4096 / 64) size aligned data ≠ 0 ∨
      (s.dev.site h).phase ≠ 4) :
    ∃ cause, s.windowWrite h off size aligned data = s.onDev (fun d => d.dropWrite (off / 16384) (off % 16384 / 4096) cause) := by
  unfold State.windowWrite
  dsimp only
  rw [if_neg (Nat.not_le_of_lt hc)]
  split
  · rename_i accepted
    have away := drop.resolve_left (fun n => n accepted)
    exact ⟨2, by simp [away]⟩
  · rename_i refused
    exact ⟨_, if_pos (by simpa using refused)⟩

end Window

/-! An accepted command (R50, R387, R620). -/

/-- A command joins its stream's queue, and an update fence advances the stamps of the context. -/
def Dev.enqueue (d : Dev) (c i data : Nat) : Dev :=
  (d.updStream c i (fun x => { x with
    q := x.q ++ [⟨data % 2 ^ 512, d.stampNow c, false, (d.ctx c).rep.logHead⟩], expected := (x.expected + 1) % 65536,
    lastChange := d.now })).updCtx c (fun x => { x with fences := x.fences + (if data % 256 = 0x62 then 1 else 0) })

/-- An accepted command is queued, and then logged. -/
theorem State.accept_eq (s : State) (c i data : Nat) :
    s.accept c i data = ((s.onDev (fun d => d.enqueue c i data)).runAct (logCommand c i (data % 2 ^ 512))).2 := by
  have fence : opcodeOf data = data % 256 := rfl
  unfold State.accept Dev.enqueue State.onDev
  simp only [fence]
  split
  · rfl
  · simp only [Nat.add_zero, Dev.updStream, Dev.updCtx_updCtx]

/-- Where replay is disabled nothing is logged. -/
theorem logCommand_replayOff {s : State} {c : Nat} (h : s.dev.replayOn c = false) (i raw : Nat) :
    (s.runAct (logCommand c i raw)).2 = s := by
  have read : s.runAct Act.dev = (.ok s.dev, s) := rfl
  unfold logCommand
  rw [State.runAct_bind read, if_pos (by simp [h])]
  rfl

/-- What queueing leaves of its stream and of the other contexts. -/
theorem Dev.enqueue_spec {d : Dev} {c i : Nat} (h : i < (d.ctx c).streams.length) (data : Nat) :
    let e := d.enqueue c i data
    let x := d.stream c i
    d.otherCtxs e c ∧ (e.stream c i).q = x.q ++ [⟨data % 2 ^ 512, d.stampNow c, false, (d.ctx c).rep.logHead⟩] ∧
      (e.stream c i).expected = (x.expected + 1) % 65536 ∧ (e.stream c i).run = x.run := by
  have same : ∀ (e : Dev) (n : Nat), (e.updCtx c (fun x => { x with fences := x.fences + n })).stream c i = e.stream c i :=
    fun e n => by rw [Dev.stream, Dev.ctx_updCtx_self]; rfl
  unfold Dev.enqueue
  dsimp only
  rw [same, Dev.stream_updStream_self d h]
  refine ⟨fun b hb => ?_, rfl, rfl, rfl⟩
  rw [Dev.ctx_updCtx_ne _ hb, Dev.otherCtxs_updStream d c i _ b hb]

/-! What each of the commands runs. -/

/-- A submission whose link is free is the write to the window. -/
theorem exec_commandSubmit_free {s : State} {h : Fin 4} (free : (s.dev.site h.val).heldLink = false)
    (lock : s.dev.locked 13 h.val = true) (off size : Nat) (aligned : Bool) (data : Nat) :
    exec (.commandSubmit h off size aligned data) s = .next (s.windowWrite h.val off size aligned data) := by
  change Host.Outcome.next (s.hostSide h.val _ _) = _
  simp [State.hostSide, Dev.linkHolds, free, lock]

theorem exec_dropEventTimer (c : Fin 1024) (i : Fin 4) (s : State) : exec (.dropEventTimer c i) s =
    .next (s.onDev (fun d => if !(d.stream c.val i.val).dropTimer then d
      else if 0 < (d.stream c.val i.val).dropNum then d.dropEvent c.val i.val
      else d.updStream c.val i.val (fun t => { t with dropTimer := false }))) := rfl

/-- Settles O9: a write with no cause to drop is queued and logged, any other is counted and reported, and the timer reports the drops
that wait. -/
theorem submissionsTaken : Obligations.submissionsTaken := by
  refine ⟨?_, ?_, ?_⟩
  · intro s h off size data aligned c i hc attached free lock state held owner stream hsize haligned command seq room present entry taken
    subst hsize haligned
    have run : exec (.commandSubmit h off 64 true data) s = .next (taken.runAct (logCommand c i (data % 2 ^ 512))).2 := by
      rw [exec_commandSubmit_free free lock, State.windowWrite_accepted hc attached
        (Dev.dropCause_none state held owner stream command seq room), State.accept_eq]
      rfl
    refine ⟨fun _ => run, fun replayOff => ?_⟩
    rw [run, logCommand_replayOff (show taken.dev.replayOn c = false from replayOff)]
    exact ⟨rfl, s.dev.enqueue_spec present data⟩
  · intro s h off size data aligned c i hc free lock drop present
    obtain ⟨cause, run⟩ := State.windowWrite_dropped hc drop
    obtain ⟨q, expected, dropped, timer, num, count, others⟩ := s.dev.dropWrite_spec present cause
    exact ⟨_, (exec_commandSubmit_free free lock off size aligned data).trans (congrArg _ run), q, expected, dropped, timer, num, count,
      ⟨rfl, rfl, rfl⟩, others⟩
  · intro s c i present x
    rw [exec_dropEventTimer]
    refine ⟨fun timer num => ?_, fun timer num => ?_, fun timer => ?_⟩
    · obtain ⟨reported, others, -⟩ := Dev.dropEvent_spec present
      refine ⟨s.onDev (fun d => d.dropEvent c.val i.val), ?_, reported, others, rfl, rfl, rfl⟩
      rw [exec_dropEventTimer, State.onDev, if_neg (by simp [x, timer]), if_pos num]
      rfl
    · rw [State.onDev, if_neg (by simp [x, timer]), if_neg (by simp [x, num])]
      rfl
    · rw [State.onDev, if_pos (by simp [x, timer])]

end Sys2Proof.Machine

/-! NaN and infinite runs at the end of a pass (R69, R71, R73). -/
namespace Sys2Proof.Machine
open Sys2Proof

/-! A list of whole chunks and one chunk more. -/

theorem chunksOf_go_nil {α : Type} (n fuel : Nat) : chunksOf.go n fuel ([] : List α) = [] := by
  cases fuel <;> rfl

/-- A list that is not empty gives its first chunk, and then the chunks of the rest. -/
theorem chunksOf_go_succ {α : Type} (n fuel : Nat) {l : List α} (h : l ≠ []) :
    chunksOf.go n (fuel + 1) l = l.take n :: chunksOf.go n fuel (l.drop n) := by
  obtain ⟨x, t, rfl⟩ := List.exists_cons_of_ne_nil h
  rfl

/-- With fuel enough, one chunk behind q whole ones is a chunk of its own. -/
theorem chunksOf_go_append {α : Type} {n : Nat} (hn : 0 < n) {m : List α} (hm : m.length = n) (q : Nat) :
    ∀ {l : List α} {f g : Nat}, l.length = q * n → (l ++ m).length ≤ f → l.length ≤ g →
      chunksOf.go n f (l ++ m) = chunksOf.go n g l ++ [m] := by
  have ne (l : List α) (h : 0 < l.length) : l ≠ [] := List.ne_nil_of_length_pos h
  induction q with
  | zero =>
    intro l f g hl hf hg
    obtain rfl : l = [] := List.length_eq_zero_iff.mp (by simpa using hl)
    obtain ⟨f, rfl⟩ : ∃ k, f = k + 1 := ⟨f - 1, by simp at hf; omega⟩
    rw [List.nil_append, chunksOf_go_succ n f (ne m (by omega)), ← hm, List.take_length, List.drop_length, chunksOf_go_nil,
      chunksOf_go_nil]
    rfl
  | succ q ih =>
    intro l f g hl hf hg
    rw [Nat.succ_mul] at hl
    rw [List.length_append] at hf
    obtain ⟨f, rfl⟩ : ∃ k, f = k + 1 := ⟨f - 1, by omega⟩
    obtain ⟨g, rfl⟩ : ∃ k, g = k + 1 := ⟨g - 1, by omega⟩
    rw [chunksOf_go_succ n f (ne _ (by simp; omega)), chunksOf_go_succ n g (ne l (by omega)),
      List.take_append_of_le_length (by omega), List.drop_append_of_le_length (by omega),
      ih (g := g) (by simp; omega) (by simp; omega) (by simp; omega)]
    rfl

theorem chunksOf_append {α : Type} {n : Nat} (hn : 0 < n) {l m : List α} (hl : n ∣ l.length) (hm : m.length = n) :
    chunksOf n (l ++ m) = chunksOf n l ++ [m] := by
  obtain ⟨q, hq⟩ := hl
  exact chunksOf_go_append hn hm q (by rw [hq, Nat.mul_comm]) le_rfl le_rfl

/-! A pass is its runs in order. -/

/-- The class of a run does not depend on the places of its sum. -/
theorem runOf_cls (f g : Nat) (prs : List (Opnd × Opnd)) : (runOf f g prs).1 = (runOf 0 0 prs).1 := by
  unfold runOf
  dsimp only
  split <;> split <;> rfl

/-- What a run of a class that is not finite makes of the carry (R73). -/
structure RunCls.Rules (run : RunCls) (out : Nat → Num Nat) : Prop where
  nan : run.nan = true ∨ (run.pinf = true ∧ run.ninf = true) → ∀ c, out c = pure nan32
  pinf : run.nan = false → run.pinf = true → run.ninf = false → ∀ c, out c = add32 c fp32.infmag
  ninf : run.nan = false → run.pinf = false → run.ninf = true → ∀ c, out c = add32 c (packMag true fp32.infmag fp32)

/-- A pass takes its carry through its runs in order, each a step under the rules of its class. -/
theorem floatPass_runs (fp16 : Bool) (n : Nat) (sa sw : List (Option Nat)) :
    ∃ step : Nat → List (Opnd × Opnd) × Nat → Num Nat,
      (∀ a w, floatPass fp16 n a w sa sw = (chunksOf n (a.zip w)).zipIdx.foldlM step 0) ∧
      ∀ prs r, (runOf 0 0 prs).1.Rules (fun c => step c (prs, r)) := by
  refine ⟨_, fun a w => rfl, fun prs r => ?_⟩
  rw [← runOf_cls (if fp16 then 10 else 7) (27 - (if fp16 then 22 else 16) - Nat.log2 n)]
  dsimp only
  refine ⟨fun h c => ?_, fun h1 h2 h3 c => ?_, fun h1 h2 h3 c => ?_⟩
  · rw [if_pos (by simpa using h)]
  · rw [if_neg (by simp [h1, h3]), if_pos h2]
  · rw [if_neg (by simp [h1, h2]), if_neg (by simp [h2]), if_pos h3]

/-- Settles O59: a run more is one more step of the carry, and the step is that of the run's class. -/
theorem carriesTakeNan : Obligations.carriesTakeNan := by
  intro fp16 n a w a2 w2 sa sw hn hlen hdvd ha hw
  obtain ⟨step, pass, rules⟩ := floatPass_runs fp16 n sa sw
  have more : floatPass fp16 n (a ++ a2) (w ++ w2) sa sw =
      floatPass fp16 n a w sa sw >>= fun c => step c (a2.zip w2, (chunksOf n (a.zip w)).length) := by
    rw [pass, pass, List.zip_append hlen, chunksOf_append hn (by simpa [← hlen] using hdvd) (by simp [ha, hw]),
      List.zipIdx_append, List.foldlM_append]
    simp
  have last := rules (a2.zip w2) (chunksOf n (a.zip w)).length
  rw [more]
  exact ⟨fun h => bind_congr (last.nan h), fun h1 h2 h3 => bind_congr (last.pinf h1 h2 h3),
    fun h1 h2 h3 => bind_congr (last.ninf h1 h2 h3)⟩

end Sys2Proof.Machine

/-! Functions that an enable entry starts and stops (R675). -/
namespace Sys2Proof.Machine
open Sys2Proof

/-! A write of an enable entry, case by case. -/

section FnWrite
variable {s : State} {r : FnRule} {idx v : Nat}

theorem State.fnWrite_starts (hv : v % 2 = 1) (off : s.dev.fn idx = 0) (ok : r.check s = 0) :
    s.fnWrite r idx v = (0, s.fnStart r idx) := by simp [State.fnWrite, hv, off, ok]

theorem State.fnWrite_startRefused (hv : v % 2 = 1) (off : s.dev.fn idx = 0) (bad : r.check s ≠ 0) :
    s.fnWrite r idx v = (r.check s, s) := by simp [State.fnWrite, hv, off, bad]

theorem State.fnWrite_stops (hv : v % 2 = 0) (on : s.dev.fn idx = 2) (ok : r.refuse s = 0) :
    s.fnWrite r idx v = (0, r.stop ((s.onDev (fun d => d.setReg idx 0x01 0)).setFn idx 3)) := by simp [State.fnWrite, hv, on, ok]

theorem State.fnWrite_stopRefused (hv : v % 2 = 0) (on : s.dev.fn idx = 2) (bad : r.refuse s ≠ 0) :
    s.fnWrite r idx v = (r.refuse s, s) := by simp [State.fnWrite, hv, on, bad]

theorem State.fnWrite_staysOn (hv : v % 2 = 1) (on : s.dev.fn idx = 1 ∨ s.dev.fn idx = 2) :
    s.fnWrite r idx v = (0, s.onDev (fun d => d.setReg idx 0x01 1)) := by
  rcases on with on | on <;> simp [State.fnWrite, hv, on]

theorem State.fnWrite_staysOff (hv : v % 2 = 0) (off : s.dev.fn idx = 0) :
    s.fnWrite r idx v = (0, s.onDev (fun d => d.setReg idx 0x01 0)) := by simp [State.fnWrite, hv, off]

end FnWrite

/-- The commands that write an enable entry, each with its index and the rule of its function. -/
def enableRows (via : Via) (v : Nat) (n : Fin 24) (e : Fin 64) (k : Fin 32) (c : Fin 1024) (h : Fin 4) :
    List (Instr × Nat × FnRule) :=
  [(.portEnableWrite via n v, 0x2C00 + n.val, portRule n.val), (.engineEnableWrite via e v, 0x3000 + e.val, engRule e.val),
   (.rootEngineEnableWrite via k v, 0x3800 + k.val, rootRule k.val), (.contextEnableWrite via c v, 0x4000 + c.val, ctxRule c.val),
   (.siteEnableWrite via h v, 0x4800 + h.val, siteRule h.val), (.securingEnableWrite via v, 0x5800, secureRule),
   (.telemetryEnableWrite via v, 0x5C00, teleRule), (.perturbationEnableWrite via v, 0x7000, perturbRule)]

/-- Each of them, where it passes and meets no delayed write, is the write of R675 and its answer. -/
theorem exec_enableWrite {via : Via} {v : Nat} {n : Fin 24} {e : Fin 64} {k : Fin 32} {c : Fin 1024} {h : Fin 4} {i : Instr}
    {idx : Nat} {r : FnRule} (row : (i, idx, r) ∈ enableRows via v n e k c h) {s : State} (passes : s.passes via idx 1 v)
    (free : s.dev.busyIdx idx = false) :
    exec i s = .next ((s.fnWrite r idx v).2.replied via idx 1 (s.fnWrite r idx v).1) := by
  obtain ⟨avail, deaf, code⟩ := passes
  have run : exec i s = .next (s.dictWrite via idx 0x01 v (fun s => s.fnWrite r idx v)) := by
    simp only [enableRows, List.mem_cons, List.not_mem_nil, or_false] at row
    rcases row with ⟨rfl, rfl, rfl⟩ | ⟨rfl, rfl, rfl⟩ | ⟨rfl, rfl, rfl⟩ | ⟨rfl, rfl, rfl⟩ | ⟨rfl, rfl, rfl⟩ | ⟨rfl, rfl, rfl⟩ |
      ⟨rfl, rfl, rfl⟩ | ⟨rfl, rfl, rfl⟩
    case inr.inr.inr.inr.inl => exact congrArg _ (State.gated_free free)
    all_goals rfl
  rw [run, State.dictWrite_passed deaf avail code]
  rfl

/-! The state of a function. -/

theorem Dev.sameRegs_trans {a b c : Dev} {l : List (Nat × Nat)} (h : a.sameRegs b l) (k : b.sameRegs c l) : a.sameRegs c l :=
  fun i x hx hn => (k i x hx hn).trans (h i x hx hn)

theorem Dev.sameRegs_setReg (d : Dev) {i a : Nat} {l : List (Nat × Nat)} (ha : a < 256) (hl : (i, a) ∈ l) (v : Nat) :
    d.sameRegs (d.setReg i a v) l :=
  fun _ _ hb hn => Dev.reg_setReg_place d hb ha (fun h => hn (h ▸ hl)) v

theorem Dev.reg_latch (d : Dev) (t : Tbl Nat) (i a : Nat) : ({ d with latch := t } : Dev).reg i a = d.reg i a :=
  Dev.reg_congr rfl rfl i a

/-- The state that is set is the state that reads. -/
@[simp] theorem State.fn_setFn (s : State) (idx st : Nat) : (s.setFn idx st).dev.fn idx = st % 4 := by
  unfold State.setFn Dev.fn Dev.setField
  rw [State.onDev_dev, Dev.reg_setReg_self]
  simp only [setBits, Nat.shiftLeft_eq]
  omega

theorem State.sameRegs_setFn (s : State) (idx st : Nat) {l : List (Nat × Nat)} (hl : (idx, 0x02) ∈ l) :
    s.dev.sameRegs (s.setFn idx st).dev l := Dev.sameRegs_setReg s.dev (by decide) hl _

/-- The enable bit stays as the state changes. -/
theorem State.enable_setFn (s : State) (idx st : Nat) : (s.setFn idx st).dev.reg idx 0x01 = s.dev.reg idx 0x01 :=
  Dev.reg_setReg_place s.dev (by decide) (by decide) (by simp) _

@[simp] theorem State.latch_setFn (s : State) (idx st : Nat) : (s.setFn idx st).dev.latch = s.dev.latch := rfl

/-- What was latched for a function is gone. -/
def State.unlatched (s : State) (idx : Nat) : State := s.onDev (fun d => { d with latch := Tbl.del idx d.latch })

@[simp] theorem State.latch_unlatched (s : State) (idx : Nat) : Tbl.look 0 idx (s.unlatched idx).dev.latch = 0 := by
  simp [State.unlatched, Tbl.look, Tbl.look?_del_self]

theorem State.sameRegs_unlatched (s : State) (idx : Nat) (l : List (Nat × Nat)) : s.dev.sameRegs (s.unlatched idx).dev l :=
  fun i a _ _ => s.dev.reg_latch _ i a

/-- A started function reads enabled, and ON or STARTING as its rule says. -/
theorem State.fnStart_spec (s : State) {r : FnRule} (hs : r.start = id) (idx : Nat) :
    (s.fnStart r idx).dev.fn idx = (if r.atOnce then 2 else 1) ∧ (s.fnStart r idx).dev.reg idx 0x01 = 1 ∧
      s.dev.sameRegs (s.fnStart r idx).dev [(idx, 0x01), (idx, 0x02)] := by
  unfold State.fnStart
  rw [hs, id]
  refine ⟨?_, ?_, ?_⟩
  · rw [State.fn_setFn]
    split <;> rfl
  · rw [State.enable_setFn, State.onDev_dev, Dev.reg_setReg_self]
  · exact Dev.sameRegs_trans (Dev.sameRegs_setReg s.dev (by decide) (by simp) 1) (State.sameRegs_setFn _ _ _ (by simp))

/-- When STARTING has ended the function is ON, or STOPPING where a stop was latched. -/
theorem State.fnStarted_spec (s : State) {r : FnRule} (hs : r.stop = id) (idx : Nat) :
    (s.fnStarted r idx).dev.fn idx = (if Tbl.look 0 idx s.dev.latch = 1 then 3 else 2) ∧
      Tbl.look 0 idx (s.fnStarted r idx).dev.latch = 0 ∧ s.dev.sameRegs (s.fnStarted r idx).dev [(idx, 0x02)] := by
  have on : s.dev.sameRegs ((s.unlatched idx).setFn idx 2).dev [(idx, 0x02)] :=
    Dev.sameRegs_trans (s.sameRegs_unlatched idx _) (State.sameRegs_setFn _ _ _ (by simp))
  change let t := if _ then r.stop (((s.unlatched idx).setFn idx 2).setFn idx 3) else (s.unlatched idx).setFn idx 2
    t.dev.fn idx = _ ∧ Tbl.look 0 idx t.dev.latch = 0 ∧ s.dev.sameRegs t.dev _
  rw [hs]
  split
  · exact ⟨State.fn_setFn _ _ _, by simp, Dev.sameRegs_trans on (State.sameRegs_setFn _ _ _ (by simp))⟩
  · exact ⟨State.fn_setFn _ _ _, by simp, on⟩

/-- A function that has stopped. -/
def State.fnOff (s : State) (idx : Nat) : State := (s.unlatched idx).setFn idx 0

theorem State.fnStopped_plain {s : State} {idx : Nat} (h : Tbl.look 0 idx s.dev.latch ≠ 2) (r : FnRule) :
    s.fnStopped r idx = s.fnOff idx := if_neg h

theorem State.fnStopped_again {s : State} {r : FnRule} {idx : Nat} (h : Tbl.look 0 idx s.dev.latch = 2)
    (ok : r.check (s.fnOff idx) = 0) : s.fnStopped r idx = (s.fnOff idx).fnStart r idx := (if_pos h).trans (if_pos ok)

theorem State.fnStopped_barred {s : State} {r : FnRule} {idx : Nat} (h : Tbl.look 0 idx s.dev.latch = 2)
    (bad : r.check (s.fnOff idx) ≠ 0) : s.fnStopped r idx =
      (s.fnOff idx).onDev (fun d => (d.setReg idx 0x01 0).raiseDev 0x8104 [idx, r.check (s.fnOff idx)]) :=
  (if_pos h).trans (if_neg bad)

/-- A function whose new start its check bars stays OFF and is not enabled. -/
theorem State.fnStopped_barred_spec {s : State} {r : FnRule} {idx : Nat} (h : Tbl.look 0 idx s.dev.latch = 2)
    (bad : r.check (s.fnOff idx) ≠ 0) : (s.fnStopped r idx).dev.fn idx = 0 ∧ (s.fnStopped r idx).dev.reg idx 0x01 = 0 := by
  obtain ⟨-, -, regs⟩ :=
    EventOf.raise ((s.fnOff idx).dev.setReg idx 0x01 0) 0x8104 0 0 none none [idx, r.check (s.fnOff idx)]
  have state := (regs idx 0x02 (by decide) (by simp [eventPlace])).trans
    (Dev.reg_setReg_place (s.fnOff idx).dev (a := 0x01) (by decide) (by decide) (by simp) 0)
  have enable := (regs idx 0x01 (by decide) (by simp [eventPlace])).trans (Dev.reg_setReg_self _ _ _ _)
  rw [State.fnStopped_barred h bad]
  exact ⟨(congrArg (· % 4) state).trans (State.fn_setFn (s.unlatched idx) idx 0), enable⟩

/-- Settles O27: a write that passes is the write of R675 with its answer; the states end as the latch says. -/
theorem functionsSwitch : Obligations.functionsSwitch := by
  refine ⟨fun s via v n e k c h i idx r row passes free => ?_, fun s r idx hstart hstop => ⟨?_, ?_, fun h => ?_, fun h => ?_⟩⟩
  · rw [exec_enableWrite (n := n) (e := e) (k := k) (c := c) (h := h) row passes free]
    refine ⟨fun hv off => ⟨fun ok => ?_, fun bad => ?_⟩, fun hv on => ⟨fun ok => ?_, fun bad => ?_⟩, fun hv on => ?_, fun hv off => ?_⟩
    · rw [State.fnWrite_starts hv off ok]
    · rw [State.fnWrite_startRefused hv off bad]
    · rw [State.fnWrite_stops hv on ok]
    · rw [State.fnWrite_stopRefused hv on bad]
    · rw [State.fnWrite_staysOn hv on]
    · rw [State.fnWrite_staysOff hv off]
  · exact s.fnStart_spec hstart idx
  · exact s.fnStarted_spec hstop idx
  · rw [State.fnStopped_plain h]
    exact State.fn_setFn _ _ _
  · refine ⟨fun ok => ?_, fun bad => State.fnStopped_barred_spec h bad⟩
    rw [State.fnStopped_again h ok]
    exact ((s.fnOff idx).fnStart_spec hstart idx).1

end Sys2Proof.Machine

/-! The matrix array's units: computations that leave a part of the state, tile jobs, bank sets, and what charging and counting
leave of an engine. -/
namespace Sys2Proof.Machine
open Sys2Proof

/-! Computations: what they leave, what they answer, how they chain. -/

section Acts
variable {α β γ : Type}

/-- A computation leaves a part of what it can change as it was, whether it fails or not. -/
def Act.Leaves (g : Wd → γ) (a : Act α) : Prop := ∀ w, g (a w).2 = g w

theorem Act.bind_ok {a : Act α} {w w' : Wd} {x : α} (h : a w = (.ok x, w')) (f : α → Act β) : (a >>= f) w = f x w' := by
  change ExceptT.bindCont f (a w).1 (a w).2 = _
  rw [h]
  rfl

theorem Act.bind_error {a : Act α} {w w' : Wd} {e : Fail} (h : a w = (.error e, w')) (f : α → Act β) :
    (a >>= f) w = (.error e, w') := by
  change ExceptT.bindCont f (a w).1 (a w).2 = _
  rw [h]
  rfl

namespace Act.Leaves
variable {g : Wd → γ}

theorem pure (x : α) : Act.Leaves g (Pure.pure x : Act α) := fun _ => rfl

theorem refuse (code : Nat) : Act.Leaves g (Act.refuse code : Act α) := fun _ => rfl

theorem refuseIf (b : Bool) (code : Nat) : Act.Leaves g (Act.refuseIf b code) := by
  cases b <;> exact fun _ => rfl

theorem dev : Act.Leaves g Act.dev := fun _ => rfl

theorem eq {a : Act α} {w w' : Wd} {r : Except Fail α} (h : a.Leaves g) (run : a w = (r, w')) : g w' = g w := by
  simpa only [run] using h w

theorem bind {a : Act α} {f : α → Act β} (ha : a.Leaves g) (hf : ∀ x, (f x).Leaves g) : (a >>= f).Leaves g := by
  intro w
  rcases h : a w with ⟨r, w'⟩
  have left := ha.eq h
  cases r with
  | error e => rw [Act.bind_error h, left]
  | ok x => rw [Act.bind_ok h, hf x w', left]

end Act.Leaves

/-- Every answer of a computation is as P says. -/
def Act.Yields (P : α → Prop) (a : Act α) : Prop := ∀ w x w', a w = (.ok x, w') → P x

theorem Act.Yields.pure {P : α → Prop} {x : α} (h : P x) : Act.Yields P (Pure.pure x : Act α) := by
  intro w y w' hy
  obtain rfl : x = y := by
    injection congrArg Prod.fst hy
  exact h

theorem Act.Yields.bind {P : β → Prop} {a : Act α} {f : α → Act β} (hf : ∀ x, (f x).Yields P) : (a >>= f).Yields P := by
  intro w y w' hy
  rcases h : a w with ⟨r, v⟩
  cases r with
  | error e =>
    rw [Act.bind_error h] at hy
    cases hy
  | ok x =>
    rw [Act.bind_ok h] at hy
    exact hf x v y w' hy

theorem Act.refuseIf_true {b : Bool} (h : b = true) (code : Nat) (w : Wd) : Act.refuseIf b code w = (.error ⟨1, code, false, none⟩, w) := by
  rw [h]
  rfl

/-- The state with memories and part as a computation leaves them. -/
def State.atWd (s : State) (w : Wd) : State := { s with mem := w.mem, dev := w.dev }

@[simp] theorem State.atWd_mem (s : State) (w : Wd) : (s.atWd w).mem = w.mem := rfl
@[simp] theorem State.atWd_dev (s : State) (w : Wd) : (s.atWd w).dev = w.dev := rfl
@[simp] theorem State.atWd_persist (s : State) (w : Wd) : (s.atWd w).persist = s.persist := rfl
@[simp] theorem State.atWd_pending (s : State) (w : Wd) : (s.atWd w).pending = s.pending := rfl

theorem State.runAct_eq {s : State} {a : Act α} {r : Except Fail α} {w : Wd} (h : a ⟨s.mem, s.dev⟩ = (r, w)) :
    s.runAct a = (r, s.atWd w) := by
  unfold State.runAct
  rw [h]
  rfl

end Acts

/-! Numbers that count leave the engines. -/

theorem Dev.applyCounts_engs (d : Dev) (e : Option Nat) (t : Tbl Nat) : (d.applyCounts e t).engs = d.engs := by
  refine foldl_keeps (fun b : Dev => b.engs = d.engs) (fun b p hb => ?_) t d rfl
  obtain ⟨k, n⟩ := p
  dsimp only
  split
  · exact hb
  · split <;> exact hb

theorem Act.Leaves.num_engs {α : Type} (e : Option Nat) (m : Num α) : (Act.num e m).Leaves (fun w => w.dev.engs) :=
  fun w => w.dev.applyCounts_engs e _

/-- A pass that joins its accumulation leaves the engines. -/
theorem joinPass_engs (e : Nat) (j : TileJob) (a : Accum) : (joinPass e j a).Leaves (fun w => w.dev.engs) := by
  unfold joinPass
  refine Act.Leaves.bind (Act.Leaves.num_engs _ _) (fun bank => ?_)
  dsimp only
  split
  · exact Act.Leaves.bind (fun _ => rfl) (fun _ => Act.Leaves.pure _)
  · exact Act.Leaves.pure _

/-! Engines: what a change of the rest leaves of them. -/

section Engines
variable (d : Dev)

@[simp] theorem Dev.eng_addReg (i a n : Nat) : (d.addReg i a n).eng = d.eng := rfl
@[simp] theorem Dev.eng_incReg (i a : Nat) : (d.incReg i a).eng = d.eng := rfl
@[simp] theorem Dev.eng_updCtx (c : Nat) (f : Ctx → Ctx) : (d.updCtx c f).eng = d.eng := rfl
@[simp] theorem Dev.eng_markDone (c i seq : Nat) : (d.markDone c i seq).eng = d.eng := rfl
@[simp] theorem Dev.reg_updEng (e : Nat) (f : Eng → Eng) : (d.updEng e f).reg = d.reg := rfl

@[simp] theorem Dev.eng_portStalls (e m : Nat) : (d.portStalls e m).eng = d.eng := by
  have engs : (d.portStalls e m).engs = d.engs := by
    unfold Dev.portStalls Dev.draw
    refine foldl_keeps (fun b : Dev => b.engs = d.engs) (fun b p h => ?_) _ _ rfl
    exact h
  funext k
  rw [Dev.eng, engs, Dev.eng]

theorem Dev.otherEngs_updEng (e : Nat) (f : Eng → Eng) : d.otherEngs (d.updEng e f) e := fun _ h => Dev.eng_updEng_ne d h f

/-- A job that is done leaves its engine's queue. -/
@[simp] theorem Dev.eng_jobDone_self (e : Nat) (j : TileJob) : (d.jobDone e j).eng e = (d.eng e).dropJob j := by
  simp [Dev.jobDone]

theorem Dev.otherEngs_jobDone (e : Nat) (j : TileJob) : d.otherEngs (d.jobDone e j) e :=
  d.otherEngs_updEng e (fun k => k.dropJob j)

@[simp] theorem Dev.reg_jobDone (e : Nat) (j : TileJob) : (d.jobDone e j).reg = d.reg := rfl

end Engines

/-- `x` is `k` but for the virtual times of contexts and hosts (R458). -/
def Eng.Timed (k x : Eng) : Prop := x = { k with vt := x.vt, hvt := x.hvt }

theorem Eng.Timed.jobs {k x : Eng} (h : k.Timed x) : x.jobs = k.jobs := by
  unfold Eng.Timed at h
  rw [h]

theorem Eng.Timed.sets {k x : Eng} (h : k.Timed x) : x.sets = k.sets := by
  unfold Eng.Timed at h
  rw [h]

theorem Eng.Timed.opening {k x : Eng} (h : k.Timed x) : x.opening = k.opening := by
  unfold Eng.Timed at h
  rw [h]

/-- An engine becomes ready for a context: only virtual times change. -/
theorem Dev.becomesReady_timed (d : Dev) (e c : Nat) :
    (d.eng e).Timed ((d.becomesReady e c).eng e) ∧ d.otherEngs (d.becomesReady e c) e := by
  unfold Dev.becomesReady
  dsimp only
  split
  · exact ⟨rfl, fun _ _ => rfl⟩
  · refine ⟨?_, d.otherEngs_updEng e _⟩
    rw [Dev.eng_updEng_self]
    split <;> rfl

/-- Charging a unit writes virtual times of its engine, and time of the context alone among the entries (R449, R458). -/
theorem Dev.chargeUnit_timed (d : Dev) (e c ns : Nat) :
    (d.eng e).Timed ((d.chargeUnit e c ns).eng e) ∧ Dev.RegsOff [0x21] d (d.chargeUnit e c ns) := by
  have regs : Dev.RegsOff [0x21] d (d.addReg (0x4000 + c) 0x21 ns) := Dev.RegsOff.addReg d _ _ (by decide) (by decide)
  unfold Dev.chargeUnit Dev.chargeTime
  dsimp only
  rw [Dev.eng_updCtx, Dev.eng_updEng_self]
  split
  · refine ⟨?_, regs.trans (Dev.RegsOff.of_regs rfl rfl)⟩
    rw [Dev.eng_updEng_self]
    rfl
  · exact ⟨rfl, regs.trans (Dev.RegsOff.of_regs rfl rfl)⟩

/-! Jobs and sets of an engine. -/

/-- What a change makes of a job holds of every entry of that job. -/
theorem Eng.updJob_same {k : Eng} {j : TileJob} {f : TileJob → TileJob} {P : TileJob → Prop} (change : ∀ i, P (f i)) :
    ∀ i ∈ (k.updJob j f).jobs, i.same j = true → P i := by
  intro i hi same
  obtain ⟨i', -, rfl⟩ := List.mem_map.mp hi
  by_cases own : i'.same j = true
  · rw [if_pos own]
    exact change i'
  · rw [if_neg own] at same
    contradiction

/-- A bottom-bank set of an engine (R81). -/
def Eng.bankSet (k : Eng) (set : Nat) : BankSet := k.sets.getD set ⟨0, Accum.empty⟩

/-- A set that becomes FREE is opened by the pass fed behind it, if there is one (R87, R90). -/
theorem Eng.bankSet_freeSet {k : Eng} {set : Nat} (h : set < k.sets.length) :
    (k.freeSet set).bankSet set = (match k.opening.find? (fun p => p.1 = set) with
      | some p => ⟨1, p.2⟩
      | none => ⟨0, Accum.empty⟩) := by
  unfold Eng.freeSet
  cases k.opening.find? (fun p => p.1 = set) <;> exact setAt_getD_self h _ _

/-- Work on a job leaves its set OPEN with a bank, and changes the job (R127, R184). -/
def Eng.rebanked (k : Eng) (set : Nat) (a : Accum) (bank : List Nat) (j : TileJob) (f : TileJob → TileJob) : Eng :=
  { k with sets := setAt k.sets set ⟨1, { a with bank := bank }⟩ }.updJob j f

theorem Eng.bankSet_rebanked {k : Eng} {set : Nat} (h : set < k.sets.length) (a : Accum) (bank : List Nat) (j : TileJob)
    (f : TileJob → TileJob) : (k.rebanked set a bank j f).bankSet set = ⟨1, { a with bank := bank }⟩ := setAt_getD_self h _ _

@[simp] theorem Eng.freeSet_jobs (k : Eng) (set : Nat) : (k.freeSet set).jobs = k.jobs := by
  unfold Eng.freeSet
  split <;> rfl

@[simp] theorem Eng.dropJob_jobs (k : Eng) (j : TileJob) : (k.dropJob j).jobs = k.jobs.filter (fun i => !(i.same j)) := rfl

end Sys2Proof.Machine

/-! Drains, save areas, the tile check and the clock gate of an array (R87, R99, R127, R460, R461). -/
namespace Sys2Proof.Machine
open Sys2Proof

section SetsDrain
variable {s : State} {e set : Nat} {j : TileJob} {w : Wd}

/-- The job whose rows are written drains, and so does its set. -/
def Eng.draining (k : Eng) (set : Nat) (a : Accum) (j : TileJob) : Eng :=
  { k with sets := setAt k.sets set ⟨2, a⟩ }.updJob j (fun i => { i with ph := 3 })

theorem drainStart_written {dd : Desc} (dest : j.dd = some dd)
    (job : (s.dev.eng e).jobs.find? (fun j => j.ph = 2 && j.f.setNo = set && j.merged && j.checked) = some j)
    (rows : Act.work j.o.ctx.val e (drainRows e j dd ((s.dev.eng e).bankSet set).acc) ⟨s.mem, s.dev⟩ = (.ok (), w)) :
    drainStart e set s = (s.atWd w).onDev (fun d =>
      (d.updEng e (fun k => k.draining set ((s.dev.eng e).bankSet set).acc j)).portStalls e 0) := by
  unfold Eng.bankSet at rows
  simp only [drainStart, job, dest, State.runAct_eq rows]
  rfl

/-- A drain that ends frees its set, takes its job off the array, and counts no retired job. -/
theorem drainComplete_spec {d : Dev} (present : set < (d.eng e).sets.length)
    (job : (d.eng e).jobs.find? (fun j => j.ph = 3 && j.f.setNo = set) = some j) :
    let t := drainComplete e set d
    (t.eng e).bankSet set = (match (d.eng e).opening.find? (fun p => p.1 = set) with
      | some p => ⟨1, p.2⟩
      | none => ⟨0, Accum.empty⟩) ∧
    (t.eng e).jobs = (d.eng e).jobs.filter (fun i => !(i.same j)) ∧ t.engReg e 0x03 = d.engReg e 0x03 ∧ d.otherEngs t e := by
  have run : drainComplete e set d = (((d.draw.2.updEng e (fun k => k.freeSet set)).jobDone e j).addReg (0x3000 + e) 0x09
      (Config.drainStall d.draw.1)) := by
    simp only [drainComplete, job]
  have drawn : d.draw.2.eng = d.eng := rfl
  rw [run]
  refine ⟨?_, ?_, ?_, fun b hb => ?_⟩
  · rw [Dev.eng_addReg, Dev.eng_jobDone_self, Dev.eng_updEng_self, drawn]
    exact Eng.bankSet_freeSet present
  · rw [Dev.eng_addReg, Dev.eng_jobDone_self, Dev.eng_updEng_self, drawn, Eng.dropJob_jobs, Eng.freeSet_jobs]
  · rw [Dev.engReg, Dev.reg_addReg_other _ (by omega), Dev.reg_jobDone, Dev.reg_updEng]
    rfl
  · rw [Dev.eng_addReg, Dev.otherEngs_jobDone _ e j b hb, Dev.eng_updEng_ne _ hb, drawn]

/-- An OPEN set that nothing in flight uses, wanted or of a stopping context, is saved into a free area. -/
theorem setSave_spec {d : Dev} (present : set < (d.eng e).sets.length) (opened : ((d.eng e).bankSet set).st = 1)
    (unused : (d.eng e).jobs.any (fun j => (j.ph = 1 || j.ph = 2) && j.f.setNo = set) = false) (room : (d.eng e).saves.length < 8)
    (cause : (d.nextJob e = some j ∧ (d.eng e).needsSet j set = true ∧ j.o.ctx.val ≠ ((d.eng e).bankSet set).acc.ctx) ∨
      d.ctxState ((d.eng e).bankSet set).acc.ctx = 3) :
    let t := setSave e set d
    (t.eng e).sets.getD set ⟨1, Accum.empty⟩ = ⟨0, Accum.empty⟩ ∧
    (t.eng e).saves = (d.eng e).saves ++ [(set, ((d.eng e).bankSet set).acc)] ∧
    (t.eng e).jobs = (d.eng e).jobs ∧ t.engReg e 0x27 = (d.engReg e 0x27 + 1) % 2 ^ 64 ∧ d.otherEngs t e := by
  have run : setSave e set d = d.saveSet e set := by
    refine if_pos ?_
    rw [Bool.and_eq_true, Bool.and_eq_true, Bool.or_eq_true]
    refine ⟨⟨decide_eq_true opened, congrArg not unused⟩, cause.imp (fun ⟨next, needs, other⟩ => ?_) decide_eq_true⟩
    rw [next]
    exact (Bool.and_eq_true _ _).mpr ⟨needs, decide_eq_true other⟩
  have saved : d.saveSet e set = (d.updEng e (fun k => { k with
      saves := k.saves ++ [(set, ((d.eng e).bankSet set).acc)],
      sets := setAt k.sets set ⟨0, Accum.empty⟩ })).incReg (0x3000 + e) 0x27 := by
    refine if_neg ?_
    rw [Bool.or_eq_true, decide_eq_true_iff, decide_eq_true_iff, not_or, not_not, not_le]
    exact ⟨opened, room⟩
  rw [run, saved]
  refine ⟨?_, ?_, ?_, Dev.reg_incReg_self _ _ _, fun b hb => by rw [Dev.eng_incReg, Dev.eng_updEng_ne d hb]⟩ <;>
    rw [Dev.eng_incReg, Dev.eng_updEng_self]
  exact setAt_getD_self present _ _

/-- The saved accumulation of the next job's context returns to its free set. -/
theorem setRestore_spec {d : Dev} {a : Nat × Accum} (present : set < (d.eng e).sets.length) (free : ((d.eng e).bankSet set).st = 0)
    (next : d.nextJob e = some j) (joins : j.f.accumulate ≠ 0) (own : j.f.setNo = set)
    (saved : (d.eng e).saves.find? (fun p => p.1 = set && p.2.ctx = j.o.ctx.val) = some a) :
    let t := setRestore e set d
    (t.eng e).bankSet set = ⟨1, a.2⟩ ∧
    (t.eng e).saves = (d.eng e).saves.filter (fun p => !(p.1 = set && p.2.ctx = j.o.ctx.val)) ∧
    t.engReg e 0x28 = (d.engReg e 0x28 + 1) % 2 ^ 64 ∧ d.otherEngs t e := by
  have run : setRestore e set d = (d.updEng e (fun k => { k with
      saves := k.saves.filter (fun p => !(p.1 = set && p.2.ctx = j.o.ctx.val)),
      sets := setAt k.sets set ⟨1, a.2⟩ })).incReg (0x3000 + e) 0x28 := by
    simp only [setRestore, next]
    rw [if_neg (by simpa [joins, own, Eng.bankSet] using free), saved]
  rw [run]
  refine ⟨?_, ?_, Dev.reg_incReg_self _ _ _, fun b hb => by rw [Dev.eng_incReg, Dev.eng_updEng_ne d hb]⟩ <;>
    rw [Dev.eng_incReg, Dev.eng_updEng_self]
  exact setAt_getD_self present _ _

/-- The check of a sampled accumulation beside a FREE set leaves the bank that it answers, and marks the job. -/
theorem tileCheck_answered {bank : List Nat} (runs : s.dev.engRuns e = true)
    (job : (s.dev.eng e).jobs.find? (fun j => j.ph = 2 && j.merged && !j.checked) = some j) (own : j.f.setNo = set)
    (free : ((s.dev.eng e).bankSet (1 - set)).st = 0)
    (check : Act.work j.o.ctx.val e (checkAcc e j ((s.dev.eng e).bankSet set).acc) ⟨s.mem, s.dev⟩ = (.ok bank, w)) :
    tileCheck e s = (s.atWd w).onDev (fun d =>
      d.updEng e (fun k => k.rebanked set ((s.dev.eng e).bankSet set).acc bank j (fun i => { i with checked := true }))) := by
  subst own
  unfold Eng.bankSet at free check
  simp only [tileCheck, runs, job, free, State.runAct_eq check]
  rfl

end SetsDrain

/-- Settles O17: each command of a set is its one operation on the engine, and its frame. -/
theorem arraySetsDrain : Obligations.arraySetsDrain := by
  intro s e set j k b present
  refine ⟨fun dd w job dest rows room => ?_, fun job => ?_, fun opened unused room cause => ?_,
    fun a free next joins own saved => ?_, fun bank w runs job own free check room => ?_, fun idle => ?_, fun busy => ?_⟩
  · refine ⟨_, congrArg Host.Outcome.next (drainStart_written dest job rows), ?_, ?_, rfl, rfl, rfl⟩ <;>
      rw [State.onDev_dev, Dev.eng_portStalls, Dev.eng_updEng_self]
    · exact setAt_getD_self room _ _
    · exact Eng.updJob_same fun _ => rfl
  · obtain ⟨sets, jobs, count, others⟩ := drainComplete_spec present job
    exact ⟨_, rfl, sets, jobs, count, ⟨rfl, rfl, rfl⟩, others⟩
  · obtain ⟨sets, saves, jobs, count, others⟩ := setSave_spec present opened unused room cause
    exact ⟨_, rfl, sets, saves, jobs, count, ⟨rfl, rfl, rfl⟩, others⟩
  · obtain ⟨sets, saves, count, others⟩ := setRestore_spec present free next joins own saved
    exact ⟨_, rfl, sets, saves, count, ⟨rfl, rfl, rfl⟩, others⟩
  · refine ⟨_, congrArg Host.Outcome.next (tileCheck_answered runs job own free check), ?_, ?_, rfl, rfl, rfl⟩ <;>
      rw [State.onDev_dev, Dev.eng_updEng_self]
    · exact Eng.bankSet_rebanked room _ _ _ _
    · exact Eng.updJob_same fun _ => rfl
  · exact congrArg (fun d => Host.Outcome.next { s with dev := d }) (if_pos (List.isEmpty_iff.mpr idle))
  · exact congrArg (fun d => Host.Outcome.next { s with dev := d }) (if_neg (mt List.isEmpty_iff.mp busy))

end Sys2Proof.Machine

/-! Tile jobs from their issue to the merge of their accumulation (R82 to R98, R184, R405, R439). -/
namespace Sys2Proof.Machine
open Sys2Proof

/-! Issue. -/

/-- The header of a slot command is looked at only. -/
theorem slotHeader_leaves (o : Origin) (reserved : Nat) : (slotHeader o reserved).Leaves id := by
  unfold slotHeader
  refine Act.Leaves.bind (Act.Leaves.refuseIf _ _) (fun _ => Act.Leaves.bind Act.Leaves.dev (fun d => ?_))
  split
  · exact Act.Leaves.refuse _
  · dsimp only
    exact Act.Leaves.bind (Act.Leaves.refuseIf _ _) fun _ => Act.Leaves.bind (Act.Leaves.refuseIf _ _) fun _ =>
      Act.Leaves.bind (Act.Leaves.refuseIf _ _) fun _ => Act.Leaves.pure _

/-- A tile job as it joins its queue: the command's own, queued, its weights not loaded. -/
def TileJob.Fresh (j : TileJob) (o : Origin) (f : MtileF) : Prop := j.o = o ∧ j.f = f ∧ j.ph = 0 ∧ j.loaded = false

/-- Whatever MTILE's checks and descriptors are, the job that they let pass is fresh. -/
theorem mtileIssue_yields (o : Origin) (f : MtileF) : (mtileIssue o f).Yields (fun p => p.2.Fresh o f) := by
  unfold mtileIssue
  dsimp only
  refine .bind fun e => .bind fun _ => .bind fun _ => .bind fun _ => .bind fun wd => .bind fun ad => ?_
  -- with a destination descriptor or without one, with its area or without one
  split <;> refine .bind fun dd => .bind fun _ => .bind fun wh => .bind fun ah => ?_
  all_goals split <;> refine .bind fun dh => .bind fun _ => .bind fun _ => .bind fun d => ?_
  -- no accumulation is held, or one is
  all_goals
    split
    · exact .bind fun _ => .bind fun _ => .pure ⟨rfl, rfl, rfl, rfl⟩
    · exact .bind fun _ => .bind fun _ => .bind fun _ => .bind fun _ => .pure ⟨rfl, rfl, rfl, rfl⟩

/-- A job that passes its checks stands last in its engine's queue. -/
theorem mtileQueue_joins {o : Origin} {f : MtileF} {w0 w : Wd} {e : Nat} {j : TileJob} (h : mtileIssue o f w0 = (.ok (e, j), w)) :
    mtileQueue o f w0 = (.ok false, ⟨w.mem, (w.dev.becomesReady e o.ctx.val).updEng e (fun k => { k with jobs := k.jobs ++ [j] })⟩) := by
  unfold mtileQueue
  rw [Act.bind_ok h]
  rfl

/-- A count that is zero or too large, or a drain field of 3 (R93). -/
def badCounts (f : MtileF) : Prop :=
  f.kCount = 0 ∨ 128 < f.kCount ∨ f.nCount = 0 ∨ 512 < f.nCount ∨ f.mCount = 0 ∨ 256 < f.mCount ∨ f.drain = 3

/-- Behind a sound header, a bad count refuses the job with 0x0301 and nothing has changed. -/
theorem mtileQueue_refused {o : Origin} {f : MtileF} {w0 w : Wd} {e : Nat} (header : slotHeader o f.reserved w0 = (.ok e, w))
    (bad : badCounts f) : mtileQueue o f w0 = (.error ⟨1, 0x0301, false, none⟩, w0) := by
  obtain rfl : w = w0 := (slotHeader_leaves o f.reserved).eq header
  have counts : (f.kCount = 0 || f.kCount > 128 || f.nCount = 0 || f.nCount > 512 || f.mCount = 0 || f.mCount > 256 ||
      f.drain = 3 : Bool) = true := by
    simpa [badCounts, or_assoc] using bad
  unfold mtileQueue mtileIssue
  exact Act.bind_error ((Act.bind_ok header _).trans (Act.bind_error (Act.refuseIf_true counts _ _) _)) _

/-! A refusal's mark on its stream (R398). -/

/-- The time of a stream's last change has no part in what a held wait gives back. -/
theorem Stream.unheld_lastChange (x : Stream) (t : Nat) : ({ x with lastChange := t } : Stream).unheld.run = x.unheld.run := by
  unfold Stream.unheld
  split <;> rfl

/-- A stream that runs is stopped by a command's refusal or failure, with its cause and its code. -/
theorem Dev.stream_failCommand {d : Dev} {c i : Nat} (present : i < (d.ctx c).streams.length) (runs : (d.stream c i).stopped = false)
    (cause code seq op : Nat) (cmd : Option QCmd) : (d.failCommand c i cause code seq op cmd).stream c i =
      { (d.stream c i).unheld with
        stopped := true, cause := cause, reason := code, stopSeq := seq, stopOp := op, stopCmd := cmd, waitMet := false,
        lastChange := d.now } := by
  have told := EventOf.raise ((d.incReg (0x4000 + c) 0x15).stopStream c i cause code seq op cmd) 0x8202 2 c (some c) none
    [c, i, seq, op, code]
  refine (told.stream c i).trans ?_
  rw [Dev.stopStream, if_neg (by simp [runs]), Dev.stream_updStream_self _ (by simpa using present)]
  rfl

/-- A refused command leaves the scoreboard as it found it, with no wait held at its head, and stops its stream. -/
theorem State.stream_refused {s : State} {o : Origin} (fit : fits o s.dev)
    (runs : (s.dev.stream o.ctx.val o.stream.val).stopped = false) (op input code : Nat) (cmd cmd' : Option QCmd) :
    let d := (s.board o op input cmd).dev.updStream o.ctx.val o.stream.val (fun t => { t with run := t.run.filter (fun e => e.seq ≠ o.seq) })
    let y := (d.failCommand o.ctx.val o.stream.val 1 code o.seq op cmd').stream o.ctx.val o.stream.val
    y.stopped = true ∧ y.cause = 1 ∧ y.reason = code ∧ y.run = (s.dev.stream o.ctx.val o.stream.val).unheld.run := by
  obtain ⟨present, free⟩ := fit
  intro d y
  have stream : d.stream o.ctx.val o.stream.val = { s.dev.stream o.ctx.val o.stream.val with lastChange := s.dev.now } := by
    have others : (s.dev.stream o.ctx.val o.stream.val).run.filter (fun e => e.seq ≠ o.seq) =
        (s.dev.stream o.ctx.val o.stream.val).run := List.filter_eq_self.mpr fun e he => by simpa using free e he
    have own : [issuedOf o op input cmd].filter (fun e => e.seq ≠ o.seq) = [] := by simp [issuedOf]
    simp only [d, State.board, State.onDev_dev, Dev.updStream_updStream _ present, Dev.stream_updStream_self _ present,
      List.filter_append, others, own, List.append_nil]
  have length : o.stream.val < (d.ctx o.ctx.val).streams.length := by
    simpa [d, State.board, Dev.length_streams_updStream] using present
  have stop := Dev.stream_failCommand length (by rw [stream]; exact runs) 1 code o.seq op cmd'
  refine ⟨?_, ?_, ?_, ?_⟩ <;> simp only [y, stop, stream]
  exact Stream.unheld_lastChange _ _

/-! Weights, feed, retirement, merge. -/

section Commands
variable {s : State} {e : Nat} {j : TileJob} {w : Wd}

/-- The weights of a job stand in the shadow registers, and the job alone is loaded (R61, R95). -/
def Eng.shadowed (k : Eng) (j : TileJob) (els : List (List El)) : Eng :=
  let k := { k with
    shadow := some ⟨j.o.ctx.val, mtWkey j.f, els⟩,
    jobs := k.jobs.map (fun (i : TileJob) => ({ i with loaded := false } : TileJob)) }
  k.updJob j (fun i => { i with loaded := true })

theorem Eng.loaded_shadowed (k : Eng) (j : TileJob) (els : List (List El)) : ∀ i ∈ (k.shadowed j els).jobs, i.loaded = i.same j := by
  intro _ hi
  obtain ⟨i, mem, rfl⟩ := List.mem_map.mp hi
  have unloaded : i.loaded = false := by
    obtain ⟨_, -, rfl⟩ := List.mem_map.mp mem
    rfl
  by_cases own : i.same j = true
  · rw [if_pos own]
    exact own.symm
  · rw [if_neg own, unloaded]
    exact (Bool.eq_false_iff.mpr own).symm

theorem weightLoad_read {els : List (List El)} (runs : s.dev.engRuns e = true) (next : s.dev.nextJob e = some j)
    (loads : j.f.wKeep ≠ 1) (fresh : j.loaded = false) (read : readWeights e j ⟨s.mem, s.dev⟩ = (.ok els, w)) :
    weightLoad e s = (s.atWd w).onDev (fun d => d.updEng e (fun k => k.shadowed j els)) := by
  simp only [weightLoad, runs, next, loads, fresh, State.runAct_eq read]
  rfl

/-- What is counted when a feed has computed its pass: the array's grant, the cycles waited and stalled, the ports' stalls (R98,
R102). -/
def Dev.fedCounted (d : Dev) (e c waited stalled : Nat) : Dev :=
  let g := d.grantUnit e c (d.eng e).scA
  (((g.2.updEng e (fun k => { k with scA := g.1 })).addReg (0x3000 + e) 0x08 waited).addReg (0x3000 + e) 0x09 stalled).portStalls e 0

theorem feedStart_fed (runs : s.dev.engRuns e = true) (next : s.dev.nextJob e = some j) (may : (s.dev.eng e).mayFeed j = true)
    (feed : Act.work j.o.ctx.val e (feedJob e j) ⟨s.mem, s.dev⟩ = (.ok (), w)) (waited stalled : Nat) :
    feedStart e waited stalled s = (s.atWd w).onDev (fun d => d.fedCounted e j.o.ctx.val waited stalled) := by
  simp only [feedStart, runs, next, may, State.runAct_eq feed, Bool.not_true, Bool.false_eq_true, if_false]
  rfl

/-- The merge of a retired accumulation leaves the merged bank in its set, marks the job, and is charged to its context. -/
theorem runnerMerge_merged {bank : List Nat} (runs : s.dev.engRuns e = true)
    (job : (s.dev.eng e).jobs.find? (fun j => j.ph = 2 && !j.merged) = some j)
    (merge : Act.work j.o.ctx.val e (mergeAll e j.o.ctx.val ((s.dev.eng e).bankSet j.f.setNo).acc) ⟨s.mem, s.dev⟩ = (.ok bank, w))
    (ns : Nat) : runnerMerge e ns s = (s.atWd w).onDev (fun d => (d.chargeUnit e j.o.ctx.val ns).updEng e (fun k =>
      k.rebanked j.f.setNo ((s.dev.eng e).bankSet j.f.setNo).acc bank j (fun i => { i with merged := true }))) := by
  unfold Eng.bankSet at merge
  simp only [runnerMerge, runs, job, State.runAct_eq merge]
  rfl

/-- What the engine counts and is charged when a job retires, before the job's drain field is looked at (R102, R458). -/
def Dev.retireCounted (d : Dev) (e c ns : Nat) : Dev :=
  ((d.chargeUnit e c ns).updEng e (fun k => { k with scA := { k.scA with ran := k.scA.ran + ns } })).incReg (0x3000 + e) 0x03

/-- What a retired job leaves of its set and its queue, as its drain field says (R84, R87). -/
def Dev.retired (d : Dev) (e : Nat) (j : TileJob) (a : Accum) : Dev :=
  if j.f.drain = 0 then (d.updEng e (fun k => { k with sets := setAt k.sets j.f.setNo ⟨1, a⟩ })).jobDone e j
  else if j.f.drain = 2 then (d.updEng e (fun k => k.freeSet j.f.setNo)).jobDone e j
  else
    let run := a.passes.any PassRec.carries
    let smp := a.sampled && a.passes.length ≤ 512
    d.updEng e (fun k => { k with sets := setAt k.sets j.f.setNo ⟨1, { a with sampled := smp }⟩ }.updJob j
      (fun i => { i with ph := 2, carry := [], merged := !run, checked := !smp }))

theorem jobRetire_joined {a : Accum} (job : (s.dev.eng e).jobs.find? (fun j => j.ph = 1) = some j)
    (ahead : (s.dev.eng e).jobs.any (fun i => i.ph = 2 && i.f.setNo = j.f.setNo) = false)
    (opened : ((s.dev.eng e).bankSet j.f.setNo).st = 1) (own : ((s.dev.eng e).bankSet j.f.setNo).acc.ctx = j.o.ctx.val)
    (join : joinPass e j ((s.dev.eng e).bankSet j.f.setNo).acc ⟨s.mem, s.dev⟩ = (.ok a, w)) (ns : Nat) :
    jobRetire e ns s = (s.atWd w).onDev (fun d => (d.retireCounted e j.o.ctx.val ns).retired e j a) := by
  unfold Eng.bankSet at opened own join
  simp only [jobRetire, job, opened, own, ahead, State.runAct_eq join, ne_eq, not_true_eq_false, decide_false, Bool.or_self,
    Bool.false_eq_true, if_false]
  rfl

/-- What is counted at a retirement: one more retired job, times, and nothing else of the engine. -/
theorem Dev.retireCounted_spec (d : Dev) (e c ns : Nat) : let t := d.retireCounted e c ns
    (t.eng e).jobs = (d.eng e).jobs ∧ (t.eng e).sets = (d.eng e).sets ∧ (t.eng e).opening = (d.eng e).opening ∧
      t.engReg e 0x03 = (d.engReg e 0x03 + 1) % 2 ^ 64 := by
  obtain ⟨timed, regs⟩ := d.chargeUnit_timed e c ns
  unfold Dev.retireCounted
  dsimp only
  rw [Dev.eng_incReg, Dev.eng_updEng_self]
  refine ⟨timed.jobs, timed.sets, timed.opening, ?_⟩
  rw [Dev.engReg, Dev.reg_incReg_self, Dev.reg_updEng, regs _ _ (by decide) (by decide)]
  rfl

/-- Where the accumulation stays OPEN, or is set free, the job leaves the queue; where it awaits its drain, the job stands
retired. -/
theorem Dev.retired_spec {d : Dev} (present : j.f.setNo < (d.eng e).sets.length) (a : Accum) : let t := d.retired e j a
    t.engReg e 0x03 = d.engReg e 0x03 ∧
    (j.f.drain = 0 → (t.eng e).bankSet j.f.setNo = ⟨1, a⟩ ∧ (t.eng e).jobs = (d.eng e).jobs.filter (fun i => !(i.same j))) ∧
    (j.f.drain = 2 → (t.eng e).bankSet j.f.setNo = (match (d.eng e).opening.find? (fun p => p.1 = j.f.setNo) with
        | some p => ⟨1, p.2⟩
        | none => ⟨0, Accum.empty⟩) ∧ (t.eng e).jobs = (d.eng e).jobs.filter (fun i => !(i.same j))) ∧
    (j.f.drain ≠ 0 → j.f.drain ≠ 2 → ((t.eng e).bankSet j.f.setNo).st = 1 ∧ ((t.eng e).bankSet j.f.setNo).acc.bank = a.bank ∧
      ∀ i ∈ (t.eng e).jobs, i.same j = true → i.ph = 2) := by
  unfold Dev.retired
  refine ⟨?_, fun keep => ?_, fun free => ?_, fun h0 h2 => ?_⟩
  · split
    · rfl
    · split <;> rfl
  · rw [if_pos keep, Dev.eng_jobDone_self, Dev.eng_updEng_self]
    exact ⟨setAt_getD_self present _ _, rfl⟩
  · rw [if_neg (by omega), if_pos free, Dev.eng_jobDone_self, Dev.eng_updEng_self, Eng.dropJob_jobs, Eng.freeSet_jobs]
    exact ⟨Eng.bankSet_freeSet present, rfl⟩
  · rw [if_neg h0, if_neg h2]
    dsimp only
    rw [Dev.eng_updEng_self]
    have set : (setAt (d.eng e).sets j.f.setNo ⟨1, { a with sampled := a.sampled && decide (a.passes.length ≤ 512) }⟩).getD
      j.f.setNo ⟨0, Accum.empty⟩ = _ := setAt_getD_self present _ _
    exact ⟨congrArg BankSet.st set, congrArg (fun b => b.acc.bank) set, Eng.updJob_same fun _ => rfl⟩

end Commands

/-- Settles O16: MTILE joins its queue or is refused, and each command of the array is its one operation on the engine. -/
theorem tileJobsRun : Obligations.tileJobsRun := by
  refine ⟨fun s o f fit => ⟨fun e j w issue => ?_, fun e w header runs bad => ?_⟩,
    fun s e j => ⟨fun runs next loads fresh els w read => ?_, fun waited stalled w runs next may feed => ?_,
      fun ns a w job present ahead opened own join => ?_, fun bank w ns runs job present merge => ?_⟩⟩
  · obtain ⟨origin, fields, queued, unloaded⟩ := mtileIssue_yields o f _ _ _ issue
    obtain ⟨timed, others⟩ := w.dev.becomesReady_timed e o.ctx.val
    refine ⟨_, congrArg Host.Outcome.next (State.issueCmd_runs (State.runAct_eq (mtileQueue_joins issue))), ?_, origin, fields, queued,
      unloaded, fun b hb => ?_, rfl, rfl, rfl⟩ <;> rw [State.atWd_dev]
    · rw [Dev.eng_updEng_self]
      exact congrArg (· ++ [j]) timed.jobs
    · rw [Dev.eng_updEng_ne _ hb, others b hb]
  · have stop := State.issueCmd_refused (State.runAct_eq (mtileQueue_refused header bad)) rfl
    obtain ⟨stopped, cause, reason, run⟩ := State.stream_refused fit runs 0x10 (s.dev.slotInput o) 0x0301
      (cmdOf o 0x10 f.reserved (mtileFields f)) (cmdOf o 0x10 f.reserved (mtileFields f))
    exact ⟨_, congrArg Host.Outcome.next stop, stopped, cause, reason, run, rfl, rfl, rfl⟩
  · refine ⟨_, congrArg Host.Outcome.next (weightLoad_read runs next loads fresh read), ?_, ?_, ?_, rfl, rfl, rfl⟩ <;>
      rw [State.onDev_dev, Dev.eng_updEng_self]
    · rfl
    · exact Eng.loaded_shadowed _ _ _
    · rfl
  · exact ⟨_, congrArg Host.Outcome.next (feedStart_fed runs next may feed waited stalled), rfl, rfl, rfl, rfl⟩
  · have engs : w.dev.eng = s.dev.eng := by
      funext b
      rw [Dev.eng, Dev.eng, (joinPass_engs e j _).eq join]
    obtain ⟨jobs, sets, opening, count⟩ := w.dev.retireCounted_spec e j.o.ctx.val ns
    obtain ⟨same, keep, free, await⟩ := Dev.retired_spec (d := w.dev.retireCounted e j.o.ctx.val ns) (j := j) (e := e)
      (by rw [sets, engs]; exact present) a
    rw [jobs, engs] at keep free
    rw [opening, engs] at free
    refine ⟨_, congrArg Host.Outcome.next (jobRetire_joined job ahead opened own join ns), rfl, rfl, rfl, same.trans count, keep, ?_, await⟩
    rw [engs]
    exact free
  · obtain ⟨timed, -⟩ := w.dev.chargeUnit_timed e j.o.ctx.val ns
    refine ⟨_, congrArg Host.Outcome.next (runnerMerge_merged runs job merge ns), ?_, ?_, rfl, rfl, rfl⟩ <;>
      rw [State.onDev_dev, Dev.eng_updEng_self]
    · exact Eng.bankSet_rebanked (lt_of_lt_of_eq present (congrArg List.length timed.sets.symm)) _ _ _ _
    · exact Eng.updJob_same fun _ => rfl

end Sys2Proof.Machine

/-! The list of jobs that RJOBS forwards, and the norm of a step: their issue, their wait, their end (R321, R413). -/
namespace Sys2Proof.Machine
open Sys2Proof

/-! A refusal behind a sound header. -/

/-- A check that does not refuse lets the command go on. -/
theorem Act.refuseIf_false {b : Bool} (h : b = false) (code : Nat) (w : Wd) : Act.refuseIf b code w = (.ok (), w) := by
  rw [h]
  rfl

/-- A sound header with no reserved bit set passes, and nothing has changed. -/
theorem plainHeader_sound {o : Origin} {w : Wd} (sound : plain o w.dev) : plainHeader o 0 w = (.ok (), w) := by
  obtain ⟨slot, owned⟩ := sound
  have signal : (o.sigEn && !(w.dev.ownsObj o.ctx.val o.sigObj)) = false := by
    cases h : o.sigEn <;> simp [owned, h]
  unfold plainHeader
  exact (Act.bind_ok (Act.refuseIf_false (by simp [slot]) _ _) _).trans (Act.refuseIf_false signal _ _)

/-- The stream that a refused command stops names the command. -/
theorem State.stopSeq_refused {s : State} {o : Origin} (present : o.stream.val < (s.dev.ctx o.ctx.val).streams.length)
    (runs : (s.dev.stream o.ctx.val o.stream.val).stopped = false) (op input code : Nat) (cmd cmd' : Option QCmd) :
    let d := (s.board o op input cmd).dev.updStream o.ctx.val o.stream.val (fun t => { t with run := t.run.filter (fun e => e.seq ≠ o.seq) })
    ((d.failCommand o.ctx.val o.stream.val 1 code o.seq op cmd').stream o.ctx.val o.stream.val).stopSeq = o.seq := by
  intro d
  have length : o.stream.val < (d.ctx o.ctx.val).streams.length := by
    simpa [d, State.board, Dev.length_streams_updStream] using present
  have running : (d.stream o.ctx.val o.stream.val).stopped = false := by
    simp only [d, State.board, State.onDev_dev, Dev.updStream_updStream _ present, Dev.stream_updStream_self _ present, runs]
  rw [Dev.stream_failCommand length running]

/-! RJOBS. -/

section Forwarding
variable {s : State} {o : Origin} {list count reserved : Nat} {w : Wd}

/-- A count that no list has refuses RJOBS behind a sound header, and nothing has changed (R412). -/
theorem rjobs_refused (sound : plain o w.dev) (aligned : list % 64 = 0) (bad : count = 0 ∨ 65535 < count) :
    rjobs o list count 0 w = (.error ⟨1, 0x0201, false, none⟩, w) := by
  have header : plainHeader o (0 + list % 64) w = (.ok (), w) := by
    rw [aligned]
    exact plainHeader_sound sound
  unfold rjobs
  exact (Act.bind_ok header _).trans (Act.bind_error (Act.refuseIf_true (by simpa using bad) _ _) _)

/-- RJOBS that forwards its whole list leaves what the forwarding leaves, and awaits its completion (R413). -/
theorem exec_rjobs_forwarded (run : rjobs o list count reserved (s.atUnit o 0x60 (s.rjobsInput o.ctx.val list)
      (cmdOf o 0x60 reserved (rjobsFields list count))) = (.ok true, w)) :
    exec (.rjobs o list count reserved) s =
      .next ((s.atWd w).onDev (fun d => d.markDone o.ctx.val o.stream.val o.seq)) :=
  congrArg Host.Outcome.next (State.issueCmd_done (State.runAct_eq run))

end Forwarding

/-! UNORM. -/

section Norm
variable {s : State} {c : Nat} {r : NormRun} {w : Wd}

/-- A second norm of a context goes back to the head of its stream. -/
theorem runNorm_second {o : Origin} (under : (s.dev.upd o.ctx.val).norm.isSome = true) (list table handle control reserved : Nat) :
    runNorm o list table handle control reserved s = s.onDev (fun d => d.updStream o.ctx.val o.stream.val (fun t =>
      { t with q := (cmdOf o 0x61 reserved (unormFields list table handle control)).toList ++ t.q })) :=
  if_pos under

/-- A first norm whose checks pass is tried at once. -/
theorem runNorm_first {o : Origin} {list table handle control reserved : Nat} (first : (s.dev.upd o.ctx.val).norm = none)
    (run : unorm o list table handle control reserved (s.atUnit o 0x61 15
      (cmdOf o 0x61 reserved (unormFields list table handle control))) = (.ok false, w)) :
    runNorm o list table handle control reserved s = (s.atWd w).tryNorm o.ctx.val := by
  unfold runNorm
  rw [if_neg (by simp [first])]
  exact congrArg (State.tryNorm · o.ctx.val) (State.issueCmd_runs (State.runAct_eq run))

/-- While an encoding of its step is left, a norm under way waits (step 1 of R136). -/
theorem State.tryNorm_waits (under : (s.dev.upd c).norm = some r) (left : s.dev.encodingsLeft c r.o.stamp = true) :
    s.tryNorm c = s := by
  simp only [State.tryNorm, under, left, Bool.or_true, Bool.true_or, if_true]

/-- With no encoding left, and room at its handle, a norm under way enters its collective (R321, R505). -/
theorem State.tryNorm_enters {x : Handle} (under : (s.dev.upd c).norm = some r) (ended : s.dev.encodingsLeft c r.o.stamp = false)
    (outside : s.dev.normIn r = false) (handle : s.dev.handle? r.handle = some x) (room : x.colls.length < 16)
    (enter : normEnter c r ⟨s.mem, s.dev⟩ = (.ok (), w)) : s.tryNorm c = s.atWd w := by
  simp [State.tryNorm, under, ended, outside, handle, room, State.runAct_eq enter]

variable {x : Handle} {k : Coll} (under : (s.dev.upd c).norm = some r) (handle : s.dev.handle? r.handle = some x)
  (entered : x.colls.find? (fun k => k.op = 0x61 && k.o = r.o) = some k)
include under handle entered

/-- A norm whose collective fails, fails with it (R324). -/
theorem normComplete_failed (rows marks : List Nat) :
    normComplete c false rows marks s = s.onDev (fun d => d.failColl r.handle k.seq 0x0705 x.rank) := by
  simp only [normComplete, under, handle, entered, Bool.not_false, if_true]

/-- A norm that has the rows of all members, and can write what they give, is done and no longer under way (R321). -/
theorem normComplete_finished {rows marks : List Nat} (all : rows.length = 32 * (x.n - 1))
    (finish : normFinish c r (rows.take (32 * x.rank) ++ r.row ++ rows.drop (32 * x.rank))
      ((if (s.dev.ctx c).policy.jobWide then marks.foldl (· ||| ·) r.marks else r.marks) % 2 ^ 4096) x.epoch
      ⟨s.mem, (s.dev.updHandle r.handle (fun x => { x with
          colls := x.colls.filter (fun q => q.seq ≠ k.seq), rx := x.rx.filter (fun m => m.seq ≠ k.seq) })).updUpd c
            (fun u => { u with norm := none })⟩ = (.ok (), w)) :
    normComplete c true rows marks s = (s.atWd w).onDev (fun d => d.markDone c r.o.stream.val r.o.seq) := by
  simp only [normComplete, under, handle, entered, all, Bool.not_true, Bool.false_eq_true, if_false, ne_eq, not_true_eq_false]
  rw [State.runAct_eq finish]
  rfl

end Norm

/-- Settles O20: RJOBS by its issue, UNORM by its first and its second issue, the norm's end by its collective. -/
theorem normAndJobs : Obligations.normAndJobs := by
  refine ⟨fun s o list count reserved fit => ⟨fun w run => ?_, fun sound clear aligned bad runs => ?_⟩,
    fun s o list table handle control reserved _ => ⟨fun under => ?_, fun first w r run under => ⟨fun left => ?_, ?_⟩, ?_⟩⟩
  · exact ⟨_, exec_rjobs_forwarded run, rfl, rfl, rfl, rfl⟩
  · subst clear
    have stop := State.issueCmd_refused (s := s) (o := o) (op := 0x60) (input := s.rjobsInput o.ctx.val list)
      (cmd := cmdOf o 0x60 0 (rjobsFields list count)) (State.runAct_eq (rjobs_refused sound aligned bad)) rfl
    obtain ⟨stopped, cause, reason, -⟩ := State.stream_refused fit runs 0x60 (s.rjobsInput o.ctx.val list) 0x0201
      (cmdOf o 0x60 0 (rjobsFields list count)) (cmdOf o 0x60 0 (rjobsFields list count))
    exact ⟨_, congrArg Host.Outcome.next stop, stopped, cause, reason, State.stopSeq_refused fit.1 runs _ _ _ _ _, rfl, rfl, rfl⟩
  · exact congrArg Host.Outcome.next (runNorm_second under list table handle control reserved)
  · have waits := (runNorm_first first run).trans (State.tryNorm_waits (s := s.atWd w) under left)
    exact ⟨_, congrArg Host.Outcome.next waits, rfl, rfl, rfl, rfl⟩
  · intro x w' ended outside present room enter
    have enters := (runNorm_first first run).trans (State.tryNorm_enters (s := s.atWd w) under ended outside present room enter)
    exact ⟨_, congrArg Host.Outcome.next enters, rfl, rfl, rfl, rfl⟩
  · intro r x k rows marks w under present entered all finish
    exact ⟨⟨_, congrArg Host.Outcome.next (normComplete_finished under present entered all finish), rfl, rfl, rfl, rfl⟩,
      ⟨_, congrArg Host.Outcome.next (normComplete_failed under present entered rows marks), rfl, rfl, rfl, rfl⟩⟩

end Sys2Proof.Machine

/-! A vector command at its engine: it runs whole, or joins the end of the engine's queue (R395, R406, R439). -/
namespace Sys2Proof.Machine
open Sys2Proof

section Vector
variable {s : State} {o : Origin} {f : VecF} {op e : Nat} {x : VecCmd} {w0 w w' : Wd}

/-- Each of the twenty vector commands is the common vector command at its opcode. -/
theorem exec_vecRows {i : Instr} (row : (i, op) ∈ vecRows o f) (s : State) : exec i s = .next (runVec op o f s) := by
  have rows : ∀ p ∈ vecRows o f, exec p.1 s = .next (runVec p.2 o f s) := by
    simp only [vecRows, List.forall_mem_cons]
    exact ⟨rfl, rfl, rfl, rfl, rfl, rfl, rfl, rfl, rfl, rfl, rfl, rfl, rfl, rfl, rfl, rfl, rfl, rfl, rfl, rfl, nofun⟩
  exact rows _ row

/-- Does an issued command run at once: its engine runs, and none waits in the engine's queue (R395)? -/
def Dev.vecFree (d : Dev) (e : Nat) : Bool := d.engRuns e && (d.eng e).vq.isEmpty

/-- An issued command runs on a free engine, and joins the queue of another. -/
theorem vecWhole_issued (issue : vecIssue op o f w0 = (.ok (e, x), w)) : vecWhole op o f w0 =
    if w.dev.vecFree e then (Act.work o.ctx.val e (vecRun e x) >>= fun _ => pure true : Act Bool) w
    else (Act.upd (fun d => d.updEng e (fun k => { k with vq := k.vq ++ [x] })) >>= fun _ => pure false : Act Bool) w := by
  unfold vecWhole
  rw [Act.bind_ok issue]
  refine (Act.bind_ok (rfl : Act.dev w = (.ok w.dev, w)) _).trans ?_
  exact apply_ite (fun a : Act Bool => a w) _ _ _

/-- On a free engine an issued command leaves what its run leaves, and is done. -/
theorem vecWhole_runs (issue : vecIssue op o f w0 = (.ok (e, x), w)) (free : w.dev.vecFree e = true)
    (run : Act.work o.ctx.val e (vecRun e x) w = (.ok (), w')) : vecWhole op o f w0 = (.ok true, w') := by
  rw [vecWhole_issued issue, if_pos free, Act.bind_ok run]
  rfl

/-- On an engine that is not free an issued command joins the end of the engine's queue. -/
theorem vecWhole_joins (issue : vecIssue op o f w0 = (.ok (e, x), w)) (busy : w.dev.vecFree e = false) :
    vecWhole op o f w0 = (.ok false, ⟨w.mem, w.dev.updEng e (fun k => { k with vq := k.vq ++ [x] })⟩) := by
  rw [vecWhole_issued issue, if_neg (Bool.eq_false_iff.mp busy)]
  rfl

/-- A vector command that runs whole leaves what its computation leaves, and awaits its completion. -/
theorem runVec_done (run : vecWhole op o f (s.atUnit o op (s.dev.slotInput o) (cmdOf o op f.reserved (vecFields op f))) =
      (.ok true, w)) : runVec op o f s = (s.atWd w).onDev (fun d => d.markDone o.ctx.val o.stream.val o.seq) :=
  State.issueCmd_done (State.runAct_eq run)

/-- A vector command that waits leaves what its computation leaves, and its entry stays open. -/
theorem runVec_waits (run : vecWhole op o f (s.atUnit o op (s.dev.slotInput o) (cmdOf o op f.reserved (vecFields op f))) =
      (.ok false, w)) : runVec op o f s = s.atWd w :=
  State.issueCmd_runs (State.runAct_eq run)

end Vector

/-- Settles O12: every vector command is the common one, which runs whole on a free engine and joins the queue of another. -/
theorem vectorCommandsRun : Obligations.vectorCommandsRun := by
  intro s o f i op e x w row _ issue
  have start := exec_vecRows row s
  refine ⟨fun w' runs empty run => ?_, fun held => ?_⟩
  · have free : w.dev.vecFree e = true := by simp [Dev.vecFree, runs, empty]
    rw [runVec_done (vecWhole_runs issue free run)] at start
    exact ⟨_, start, rfl, rfl, rfl, rfl⟩
  · have busy : w.dev.vecFree e = false := by simpa [Dev.vecFree, imp_iff_not_or] using held
    rw [runVec_waits (vecWhole_joins issue busy)] at start
    refine ⟨_, start, rfl, rfl, rfl, ?_, w.dev.otherEngs_updEng e _⟩
    rw [State.atWd_dev, Dev.eng_updEng_self]

end Sys2Proof.Machine

/-! One cycle of an arbiter, and the statement about grants (R215 to R217, R220, R221, R225, R226). -/
namespace Sys2Proof.Machine
open Sys2Proof

/-! What an arbiter does in a cycle. -/

/-- The requests that a cycle sees: those queued, a cycle older, then those held and those presented. -/
def Arb.requests (a : Arb) (presented : List Nat) : List (Nat × Nat) :=
  a.queue.map (fun q => (q.1, q.2 + 1)) ++ (a.held ++ presented).map (fun i => (i, 0))

theorem Arb.inputs_requests (a : Arb) (presented : List Nat) :
    (a.requests presented).map (·.1) = a.queue.map (·.1) ++ a.held ++ presented := by
  simp [Arb.requests, Function.comp_def]

/-- May an input be granted in a cycle that sees requests of the inputs `all`: none withholds it, and it is not the input 3 of a
port whose limit is reached while a lower input waits (R220, R221)? -/
def Arb.may (a : Arb) (all : List Nat) (limit : Nat) (blocked : List Nat) (i : Nat) : Bool :=
  !(blocked.contains i) &&
    !((decide (limit < 64) && all.any (fun j => decide (j < 3)) && decide (limit ≤ (a.window.filter id).length)) && decide (i = 3))

/-- The highest input that a predicate admits among requests, as an arbiter finds it (R215). -/
def highest (may : Nat → Bool) (l : List (Nat × Nat)) : Option Nat :=
  l.foldl (fun b q => if may q.1 then some (max (b.getD 0) q.1) else b) none

theorem highest_concat (may : Nat → Bool) (l : List (Nat × Nat)) (q : Nat × Nat) :
    highest may (l ++ [q]) = if may q.1 then some (max ((highest may l).getD 0) q.1) else highest may l := by
  simp [highest]

/-- None is found exactly where none is admitted. -/
theorem highest_none {may : Nat → Bool} {l : List (Nat × Nat)} (h : highest may l = none) : ∀ q ∈ l, may q.1 = false := by
  induction l using List.reverseRecOn with
  | nil => simp
  | append_singleton l q ih =>
    rw [highest_concat] at h
    split at h
    · cases h
    · rename_i hq
      intro r hr
      rcases List.mem_append.mp hr with hr | hr
      · exact ih h r hr
      · simpa [List.mem_singleton.mp hr] using hq

/-- What is found is admitted, requested, and not below any other that is admitted. -/
theorem highest_some {may : Nat → Bool} {l : List (Nat × Nat)} {m : Nat} (h : highest may l = some m) :
    may m = true ∧ m ∈ l.map (·.1) ∧ ∀ q ∈ l, may q.1 = true → q.1 ≤ m := by
  induction l using List.reverseRecOn generalizing m with
  | nil => cases h
  | append_singleton l q ih =>
    rw [highest_concat] at h
    simp only [List.map_append, List.map_cons, List.map_nil, List.mem_append, List.mem_singleton, or_imp, forall_and, forall_eq]
    split at h
    · rename_i hq
      cases hb : highest may l with
      | none =>
        obtain rfl : q.1 = m := by simpa [hb] using h
        exact ⟨hq, .inr rfl, fun r hr hm => by simp [highest_none hb r hr] at hm, fun _ => le_rfl⟩
      | some b =>
        obtain ⟨admitted, listed, top⟩ := ih hb
        obtain rfl : max b q.1 = m := by simpa [hb] using h
        refine ⟨?_, ?_, fun r hr hm => (top r hr hm).trans (le_max_left _ _), fun _ => le_max_right _ _⟩
        · rcases max_choice b q.1 with e | e <;> rw [e] <;> assumption
        · rcases max_choice b q.1 with e | e <;> rw [e]
          · exact .inl listed
          · exact .inr rfl
    · rename_i hq
      obtain ⟨admitted, listed, top⟩ := ih h
      exact ⟨admitted, .inl listed, top, fun hm => absurd hm hq⟩

/-- Requests that were not granted, put into the pending queues of four an input, the rest held (R216, R217). -/
def enqueued (l : List (Nat × Nat)) : List (Nat × Nat) × List Nat :=
  l.foldl (fun acc q =>
    if (acc.1.filter (fun r => r.1 = q.1)).length < 4 then (acc.1 ++ [q], acc.2) else (acc.1, acc.2 ++ [q.1])) ([], [])

theorem enqueued_concat (l : List (Nat × Nat)) (q : Nat × Nat) : enqueued (l ++ [q]) =
    if ((enqueued l).1.filter (fun r => r.1 = q.1)).length < 4 then ((enqueued l).1 ++ [q], (enqueued l).2)
    else ((enqueued l).1, (enqueued l).2 ++ [q.1]) := by
  simp only [enqueued, List.foldl_append]
  rfl

/-- Every request is queued or held, and no pending queue holds more than four. -/
theorem enqueued_spec (l : List (Nat × Nat)) :
    ((enqueued l).1.map (·.1) ++ (enqueued l).2).Perm (l.map (·.1)) ∧
      ∀ i, ((enqueued l).1.filter (fun q => q.1 = i)).length ≤ 4 := by
  induction l using List.reverseRecOn with
  | nil => simp [enqueued]
  | append_singleton l q ih =>
    obtain ⟨all, four⟩ := ih
    rw [enqueued_concat]
    split
    · rename_i room
      constructor
      · simp only [List.map_append, List.append_assoc]
        exact (List.perm_append_comm.append_left _).trans (by simpa [← List.append_assoc] using all.append_right [q.1])
      · intro i
        by_cases hi : q.1 = i
        · subst hi
          simpa using room
        · simpa [hi] using four i
    · refine ⟨?_, four⟩
      simpa [← List.append_assoc] using all.append_right [q.1]

/-- The request that a cycle grants: the first of the highest input that may be granted (R215). -/
def Arb.winner (a : Arb) (presented : List Nat) (limit : Nat) (blocked : List Nat) : Option (Nat × Nat) :=
  (highest (a.may ((a.requests presented).map (·.1)) limit blocked) (a.requests presented)).bind
    (fun i => (a.requests presented).find? (fun q => q.1 = i))

/-- The requests that wait after a cycle. -/
def Arb.losers (a : Arb) (presented : List Nat) (limit : Nat) (blocked : List Nat) : List (Nat × Nat) :=
  match a.winner presented limit blocked with
  | some g => (a.requests presented).erase g
  | none => a.requests presented

/-- A cycle in the words above. -/
theorem arbCycle_eq (a : Arb) (presented : List Nat) (limit : Nat) (blocked : List Nat) :
    arbCycle a presented limit blocked =
      ({ a with
          queue := (enqueued (a.losers presented limit blocked)).1, held := (enqueued (a.losers presented limit blocked)).2,
          window := (a.window ++ [decide ((a.winner presented limit blocked).map (·.1) = some 3)]).drop (a.window.length + 1 - 64),
          last := (a.winner presented limit blocked).map (·.1) },
        a.winner presented limit blocked, !(enqueued (a.losers presented limit blocked)).2.isEmpty) := by
  have any : ((a.requests presented).map (·.1)).any (fun j => decide (j < 3)) = (a.requests presented).any (fun q => decide (q.1 < 3)) := by
    simp [List.any_map, Function.comp_def]
  have won : a.winner presented limit blocked = (arbCycle a presented limit blocked).2.1 := by
    unfold Arb.winner Arb.may highest
    rw [any]
    rfl
  have top : decide ((a.winner presented limit blocked).map (·.1) = some 3) =
      (match a.winner presented limit blocked with | some g => g.1 == 3 | none => false) := by
    cases a.winner presented limit blocked with
    | none => rfl
    | some g => simp [Bool.beq_eq_decide_eq]
  unfold Arb.losers
  rw [top, won]
  rfl

/-- With nothing admitted nothing is granted, and every request waits. -/
theorem Arb.winner_none {a : Arb} {presented : List Nat} {limit : Nat} {blocked : List Nat}
    (none_may : ∀ i ∈ (a.requests presented).map (·.1), a.may ((a.requests presented).map (·.1)) limit blocked i = false) :
    a.winner presented limit blocked = none := by
  unfold Arb.winner
  cases h : highest _ (a.requests presented) with
  | none => rfl
  | some m =>
    obtain ⟨admitted, listed, -⟩ := highest_some h
    rw [none_may m listed] at admitted
    cases admitted

/-- With one admitted, one of the highest admitted input is granted. -/
theorem Arb.winner_some {a : Arb} {presented : List Nat} {limit : Nat} {blocked : List Nat} {i : Nat}
    (listed : i ∈ (a.requests presented).map (·.1)) (admitted : a.may ((a.requests presented).map (·.1)) limit blocked i = true) :
    ∃ g ∈ a.requests presented, a.winner presented limit blocked = some g ∧
      a.may ((a.requests presented).map (·.1)) limit blocked g.1 = true ∧
      ∀ j ∈ (a.requests presented).map (·.1), a.may ((a.requests presented).map (·.1)) limit blocked j = true → j ≤ g.1 := by
  obtain ⟨q, hq, rfl⟩ := List.mem_map.mp listed
  unfold Arb.winner
  cases h : highest (a.may ((a.requests presented).map (·.1)) limit blocked) (a.requests presented) with
  | none => simp [highest_none h q hq] at admitted
  | some m =>
    obtain ⟨may, found, top⟩ := highest_some h
    obtain ⟨r, hr, rfl⟩ := List.mem_map.mp found
    obtain ⟨g, hg⟩ := Option.isSome_iff_exists.mp (List.find?_isSome.mpr ⟨r, hr, by simp⟩ :
      ((a.requests presented).find? (fun q => decide (q.1 = r.1))).isSome)
    have same : g.1 = r.1 := by simpa using List.find?_some hg
    refine ⟨g, List.mem_of_find?_eq_some hg, hg, same ▸ may, fun j hj mj => ?_⟩
    obtain ⟨p, hp, rfl⟩ := List.mem_map.mp hj
    exact same ▸ top p hp mj

/-! The places of arbiters. -/

theorem placeRow_port (place : Nat) : placeRow place = 1 ↔ 1 ≤ place ∧ place ≤ 32 := by
  unfold placeRow
  repeat' split
  all_goals omega

theorem placeRow_link (place : Nat) : placeRow place = 3 ↔ 65 ≤ place ∧ place ≤ 76 := by
  unfold placeRow
  repeat' split
  all_goals omega

/-- The inputs that a full opposite end withholds (R221). -/
theorem Dev.contains_linkFull (d : Dev) (place i : Nat) : (d.linkFull place).contains i = true ↔
    65 ≤ place ∧ place ≤ 76 ∧ (i = 0 ∨ (2 ≤ i ∧ i ≤ 5)) ∧ 256 ≤ (Tbl.look Arb.reset (oppositeEnd place) d.arbs).replies := by
  unfold Dev.linkFull
  split
  · rename_i h
    obtain ⟨row, full⟩ : placeRow place = 3 ∧ _ := by simpa using h
    obtain ⟨lo, hi⟩ := (placeRow_link place).mp row
    simp only [List.contains_iff_mem, List.mem_filter, List.mem_range, asksReply, Bool.or_eq_true, Bool.and_eq_true,
      beq_iff_eq, decide_eq_true_eq]
    omega
  · rename_i h
    simp only [placeRow_link, Bool.and_eq_true, decide_eq_true_eq] at h
    simp only [List.contains_nil, Bool.false_eq_true, false_iff]
    omega

/-! A grant. -/

/-- The arbiter of a place at its next cycle. -/
def Dev.arbAt (d : Dev) (place idx : Nat) : Arb := (Tbl.look Arb.reset place d.arbs).tick (d.reg idx 0x38)

/-- The limit of grants to input 3 in force at a place: 64, which limits nothing, but at a TSV port (R220, R226). -/
def Dev.limitAt (d : Dev) (place idx : Nat) : Nat := if placeRow place = 1 then (d.arbAt place idx).limit else 64

/-- The part once an arbiter has passed a cycle, its held requests counted. -/
def Dev.cycled (d : Dev) (place idx b : Nat) (k : Arb) : Dev :=
  let e := { d with arbs := Tbl.put place k d.arbs }
  if !k.held.isEmpty then e.incReg idx (b + 1) else e

/-- A grant counted: its number, the replies that it makes outstanding, the longest wait (R219, R221, R223). -/
def Dev.grantCounted (d : Dev) (place idx b : Nat) (g : Nat × Nat) : Dev :=
  let e := (if place = 0 then d else d.incReg idx b).linkReplies place g.1
  if e.reg idx (b + 2) < g.2 then (e.setReg idx (b + 2) g.2).setReg idx (b + 3) g.1 else e

/-- The part once an arbiter has passed a cycle with this winner. -/
def Dev.arbitrated (d : Dev) (place idx b : Nat) (k : Arb) : Option (Nat × Nat) → Dev
  | none => d.cycled place idx b k
  | some g => (d.cycled place idx b k).grantCounted place idx b g

/-- The request that a place grants in its next cycle. -/
def Dev.winnerAt (d : Dev) (place idx : Nat) (presented : List Nat) : Option (Nat × Nat) :=
  (d.arbAt place idx).winner presented (d.limitAt place idx) (d.linkFull place)

/-- The arbiter of a place after its next cycle. -/
def Dev.arbNext (d : Dev) (place idx : Nat) (presented : List Nat) : Arb :=
  (arbCycle (d.arbAt place idx) presented (d.limitAt place idx) (d.linkFull place)).1

/-- Without forced losses and with perturbation off, a place passes one cycle, and its grant is counted. -/
theorem arbiterGrant_quiet {d : Dev} {place idx b : Nat} (entry : placeEntry place = some (idx, b)) (off : d.fn 0x7000 ≠ 2)
    (fair : (Tbl.look Arb.reset place d.arbs).lose = []) (presented : List Nat) :
    arbiterGrant place presented d = d.arbitrated place idx b (d.arbNext place idx presented) (d.winnerAt place idx presented) := by
  have won : d.winnerAt place idx presented =
      (arbCycle (d.arbAt place idx) presented (d.limitAt place idx) (d.linkFull place)).2.1 := by
    rw [arbCycle_eq]
    rfl
  rw [won]
  unfold arbiterGrant Dev.arbNext Dev.limitAt Dev.arbAt Dev.arbitrated Dev.cycled
  rw [entry]
  generalize Tbl.look Arb.reset place d.arbs = a at fair ⊢
  obtain ⟨queue, held, window, last, _, limit, cycle, replies⟩ := a
  subst fair
  simp only [Arb.tick, List.filter_nil, List.map_nil, List.nil_append, Dev.perturb_off off]
  generalize won : arbCycle _ presented _ (d.linkFull place) = r
  have counted : r.2.2 = !r.1.held.isEmpty := by rw [← won]; rfl
  have keeps : r.1.lose = [] := by rw [← won]; rfl
  obtain ⟨⟨queue, held, window, last, _, limit, cycle, replies⟩, g, _⟩ := r
  dsimp only at counted keeps
  subst counted keeps
  cases g <;> rfl

/-- An arbiter without its count of outstanding replies, which grants elsewhere may change. -/
def Arb.quiet (a : Arb) : Arb := { a with replies := 0 }

theorem Arb.of_quiet {a b : Arb} (h : a.quiet = b.quiet) :
    a.queue = b.queue ∧ a.held = b.held ∧ a.window = b.window ∧ a.last = b.last := by
  injection h with queue held window last
  exact ⟨queue, held, window, last⟩

/-- Replies counted change the number outstanding at an end, and nothing else of any arbiter or entry. -/
theorem Dev.linkReplies_spec (d : Dev) (place input p : Nat) :
    (Tbl.look Arb.reset p (d.linkReplies place input).arbs).quiet = (Tbl.look Arb.reset p d.arbs).quiet ∧
      (d.linkReplies place input).reg = d.reg := by
  have upd (q : Nat) (f : Arb → Arb) (hf : ∀ a, (f a).quiet = a.quiet) :
      (Tbl.look Arb.reset p (Tbl.upd Arb.reset q f d.arbs)).quiet = (Tbl.look Arb.reset p d.arbs).quiet := by
    by_cases h : p = q
    · rw [h, Tbl.look_upd_self, hf]
    · rw [Tbl.look_upd_ne _ h]
  unfold Dev.linkReplies
  split
  · exact ⟨rfl, rfl⟩
  · split
    · exact ⟨upd place (fun a => { a with replies := a.replies - 1 }) (fun _ => rfl), rfl⟩
    · split
      · exact ⟨upd (oppositeEnd place) (fun a => { a with replies := a.replies + 1 }) (fun _ => rfl), rfl⟩
      · exact ⟨rfl, rfl⟩

section Counts
variable (d : Dev) (place idx b : Nat) (k : Arb) (g : Nat × Nat)

/-- After a cycle the place holds its arbiter's next state. -/
theorem Dev.arbs_cycled : Tbl.look Arb.reset place (d.cycled place idx b k).arbs = k := by
  unfold Dev.cycled
  split <;> simp

/-- A cycle counts when requests are held, and counts nothing else. -/
theorem Dev.reg_cycled_held : (d.cycled place idx b k).reg idx (b + 1) =
    if k.held = [] then d.reg idx (b + 1) else (d.reg idx (b + 1) + 1) % 2 ^ 64 := by
  unfold Dev.cycled
  by_cases h : k.held = []
  · simp [h]; rfl
  · simp [h]; rfl

theorem Dev.reg_cycled_other {a : Nat} (h : a ≠ b + 1) : (d.cycled place idx b k).reg idx a = d.reg idx a := by
  unfold Dev.cycled
  dsimp only
  split
  · exact Dev.reg_incReg_other _ (by omega)
  · rfl

/-- With nothing held a cycle leaves every entry. -/
theorem Dev.regs_cycled (h : k.held = []) : (d.cycled place idx b k).regs = d.regs := by
  simp [Dev.cycled, h]

/-- A grant counted leaves the requests of every arbiter. -/
theorem Dev.arbs_grantCounted (p : Nat) : (Tbl.look Arb.reset p (d.grantCounted place idx b g).arbs).quiet =
    (Tbl.look Arb.reset p d.arbs).quiet := by
  have e : (Tbl.look Arb.reset p ((if place = 0 then d else d.incReg idx b).linkReplies place g.1).arbs).quiet =
      (Tbl.look Arb.reset p d.arbs).quiet := by
    rw [(Dev.linkReplies_spec _ place g.1 p).1]
    split <;> rfl
  unfold Dev.grantCounted
  dsimp only
  generalize (if place = 0 then d else d.incReg idx b).linkReplies place g.1 = x at e ⊢
  split <;> exact e

/-- A grant counted: its number but at the sync-object unit, the held cycles as before, a longest wait that does not fall. -/
theorem Dev.reg_grantCounted :
    (place ≠ 0 → (d.grantCounted place idx b g).reg idx b = (d.reg idx b + 1) % 2 ^ 64) ∧
    (d.grantCounted place idx b g).reg idx (b + 1) = d.reg idx (b + 1) ∧
    d.reg idx (b + 2) ≤ (d.grantCounted place idx b g).reg idx (b + 2) := by
  have regs (a : Nat) : ((if place = 0 then d else d.incReg idx b).linkReplies place g.1).reg idx a =
      if place ≠ 0 ∧ a = b then (d.reg idx b + 1) % 2 ^ 64 else d.reg idx a := by
    rw [(Dev.linkReplies_spec _ place g.1 0).2]
    by_cases hp : place = 0
    · simp [hp]
    · by_cases ha : a = b
      · subst ha; simp [hp, two64]
      · simpa [hp, ha] using Dev.reg_incReg_other d (i := idx) (a := b) (j := idx) (b := a) (by omega)
  unfold Dev.grantCounted
  dsimp only
  generalize (if place = 0 then d else d.incReg idx b).linkReplies place g.1 = e at regs ⊢
  have num := regs b
  have held := regs (b + 1)
  have longest := regs (b + 2)
  simp only [and_true, Nat.add_eq_left, OfNat.ofNat_ne_zero, and_false, if_false, one_ne_zero] at num held longest
  by_cases longer : e.reg idx (b + 2) < g.2
  · rw [if_pos longer]
    rw [Dev.reg_setReg_other _ (by omega), Dev.reg_setReg_other _ (by omega), Dev.reg_setReg_other _ (by omega),
      Dev.reg_setReg_other _ (by omega), Dev.reg_setReg_other _ (by omega), Dev.reg_setReg_self]
    exact ⟨fun hp => by rw [num, if_pos hp], held, by omega⟩
  · rw [if_neg longer]
    exact ⟨fun hp => by rw [num, if_pos hp], held, longest.ge⟩

/-- What a place holds and counts after a cycle: its requests, the cycles with held ones, its grants. -/
theorem Dev.arbitrated_spec (won : Option (Nat × Nat)) : let t := d.arbitrated place idx b k won
    (Tbl.look Arb.reset place t.arbs).quiet = k.quiet ∧
    t.reg idx (b + 1) = (if k.held = [] then d.reg idx (b + 1) else (d.reg idx (b + 1) + 1) % 2 ^ 64) ∧
    (won = none → t.reg idx b = d.reg idx b ∧ (k.held = [] → t.regs = d.regs)) ∧
    (won ≠ none → (place ≠ 0 → t.reg idx b = (d.reg idx b + 1) % 2 ^ 64) ∧ d.reg idx (b + 2) ≤ t.reg idx (b + 2)) := by
  cases won with
  | none =>
    exact ⟨congrArg Arb.quiet (d.arbs_cycled place idx b k), d.reg_cycled_held place idx b k,
      fun _ => ⟨d.reg_cycled_other place idx b k (by omega), d.regs_cycled place idx b k⟩, fun h => absurd rfl h⟩
  | some g =>
    obtain ⟨number, held, longest⟩ := (d.cycled place idx b k).reg_grantCounted place idx b g
    rw [d.reg_cycled_other place idx b k (by omega)] at number longest
    exact ⟨((d.cycled place idx b k).arbs_grantCounted place idx b g place).trans (congrArg Arb.quiet (d.arbs_cycled place idx b k)),
      held.trans (d.reg_cycled_held place idx b k), nofun, fun _ => ⟨number, longest⟩⟩

end Counts

/-- Which inputs an arbiter bars, in the words of R220 and R221. -/
theorem Dev.may_eq_false {d : Dev} {place idx : Nat} {presented : List Nat} {i : Nat} :
    let a := Tbl.look Arb.reset place d.arbs
    let all := a.queue.map (·.1) ++ a.held ++ presented
    let limit := if a.cycle % 64 = 0 then d.reg idx 0x38 else a.limit
    (d.arbAt place idx).may all (d.limitAt place idx) (d.linkFull place) i = false ↔
      (1 ≤ place ∧ place ≤ 32 ∧ i = 3 ∧ (∃ j ∈ all, j < 3) ∧ limit < 64 ∧ limit ≤ (a.window.filter id).length) ∨
      (65 ≤ place ∧ place ≤ 76 ∧ (i = 0 ∨ (2 ≤ i ∧ i ≤ 5)) ∧
        256 ≤ (Tbl.look Arb.reset (oppositeEnd place) d.arbs).replies) := by
  intro a all limit
  have full := d.contains_linkFull place i
  have port : d.limitAt place idx = if 1 ≤ place ∧ place ≤ 32 then limit else 64 := by
    unfold Dev.limitAt
    simp only [placeRow_port]
    rfl
  have window : (d.arbAt place idx).window = a.window := rfl
  unfold Arb.may
  rw [port, window, Bool.and_eq_false_iff, Bool.not_eq_false', Bool.not_eq_false', or_comm, full]
  refine or_congr ?_ Iff.rfl
  simp only [Bool.and_eq_true, decide_eq_true_eq, List.any_eq_true]
  by_cases row : 1 ≤ place ∧ place ≤ 32
  · rw [if_pos row]
    tauto
  · rw [if_neg row]
    exact ⟨fun h => absurd h.1.1.1 (lt_irrefl _), fun h => absurd ⟨h.1, h.2.1⟩ row⟩

/-- The values of a list without one element are the values of the list without the value of that element. -/
theorem map_erase_perm {α β : Type} [BEq α] [LawfulBEq α] [BEq β] [LawfulBEq β] {f : α → β} {l : List α} {x : α} (h : x ∈ l) :
    ((l.erase x).map f).Perm ((l.map f).erase (f x)) := by
  simpa using (((List.perm_cons_erase h).map f).erase (f x)).symm

/-- A cycle seen through its winner: what it notes, that no pending queue holds more than four, and that all others wait. -/
theorem Dev.arbNext_spec (d : Dev) (place idx : Nat) (presented : List Nat) : let k := d.arbNext place idx presented
    let all := ((d.arbAt place idx).requests presented).map (·.1)
    k.last = (d.winnerAt place idx presented).map (·.1) ∧ k.window.getLast? = some (decide (k.last = some 3)) ∧
      (∀ i, (k.queue.filter (fun q => q.1 = i)).length ≤ 4) ∧
      (d.winnerAt place idx presented = none → (k.queue.map (·.1) ++ k.held).Perm all) ∧
      ∀ g ∈ (d.arbAt place idx).requests presented, d.winnerAt place idx presented = some g →
        (k.queue.map (·.1) ++ k.held).Perm (all.erase g.1) := by
  unfold Dev.arbNext Dev.winnerAt
  rw [arbCycle_eq]
  unfold Arb.losers
  refine ⟨rfl, ?_, (enqueued_spec _).2, fun lost => ?_, fun g listed won => ?_⟩
  · dsimp only
    rw [List.getLast?_drop, if_neg (by simp), List.getLast?_concat]
  · rw [lost]
    exact (enqueued_spec _).1
  · rw [won]
    exact (enqueued_spec _).1.trans (map_erase_perm listed)

/-- Settles O37: a cycle has a winner where a request is not barred, and everything that does not win waits. -/
theorem arbitersGrant : Obligations.arbitersGrant := by
  intro s place presented idx b entry off at_ a all limit barred fair
  have inputs : ((s.dev.arbAt place idx).requests presented).map (·.1) = all := Arb.inputs_requests _ _
  have may (i : Nat) : (s.dev.arbAt place idx).may all (s.dev.limitAt place idx) (s.dev.linkFull place) i = false ↔ barred i :=
    Dev.may_eq_false
  have none_won (none_may : ∀ i ∈ all, barred i) : s.dev.winnerAt place idx presented = none :=
    Arb.winner_none (fun i hi => by rw [inputs] at hi ⊢; exact (may i).mpr (none_may i hi))
  obtain ⟨lastN, windowN, four, allWait, othersWait⟩ := s.dev.arbNext_spec place idx presented
  obtain ⟨same, heldCount, lost, granted⟩ := s.dev.arbitrated_spec place idx b (s.dev.arbNext place idx presented)
    (s.dev.winnerAt place idx presented)
  rw [← arbiterGrant_quiet entry off fair presented] at same heldCount lost granted
  rw [inputs] at allWait othersWait
  refine ⟨s.onDev (arbiterGrant place presented), rfl, ?_⟩
  beta_reduce
  intro k
  obtain ⟨queue, held, window, last⟩ : k.queue = _ ∧ k.held = _ ∧ k.window = _ ∧ k.last = _ := Arb.of_quiet same
  rw [queue, held, window, last]
  refine ⟨⟨rfl, rfl, rfl⟩, fun none_asks => ?_, windowN, four, heldCount, fun none_may => ?_, fun i hi open_ => ?_⟩
  · have h := none_won (by simp [none_asks])
    have empty := allWait h
    rw [none_asks, List.perm_nil, List.append_eq_nil_iff] at empty
    exact (lost h).2 empty.2
  · have h := none_won none_may
    exact ⟨by rw [lastN, h]; rfl, allWait h, (lost h).1⟩
  · have admits (j : Nat) : (s.dev.arbAt place idx).may all (s.dev.limitAt place idx) (s.dev.linkFull place) j = true ↔ ¬ barred j := by
      rw [← may, Bool.not_eq_false]
    obtain ⟨g, listed, h, free, top⟩ := Arb.winner_some (inputs ▸ hi) (inputs.symm ▸ (admits i).mpr open_)
    rw [inputs] at free top
    have won : s.dev.winnerAt place idx presented = some g := h
    obtain ⟨number, longest⟩ := granted (by simp [won])
    exact ⟨g.1, inputs ▸ List.mem_map_of_mem listed, (admits _).mp free, by rw [lastN, won]; rfl,
      fun j hj oj => top j hj ((admits j).mpr oj), othersWait g listed won, number, longest⟩

end Sys2Proof.Machine

/-! Invalidations of cached translations by a host, and the statement about table writes (R251). -/
namespace Sys2Proof.Machine
open Sys2Proof

/-- A host that invalidates translations of a context without an owner is not refused: no other host owns it (R251). -/
theorem exec_translationInvalidate_unowned {s : State} {via : Via} {v : Nat} (passes : s.passes via 0x2800 0x02 v)
    (unowned : s.dev.owner (bits v 61 52) = none) : exec (.translationInvalidate via v) s =
      .next ((s.onDev (fun d => d.dropXlat (fun x => x.inRange (bits v 61 52) (bits v 63 62) (bits v 51 16 * 65536)))).replied
        via 0x2800 0x02 0) := by
  obtain ⟨avail, heard, code⟩ := passes
  have accepted : invalidate via v s =
      (0, s.onDev (fun d => d.dropXlat (fun x => x.inRange (bits v 61 52) (bits v 63 62) (bits v 51 16 * 65536)))) := by
    simp [invalidate, unowned]
  refine congrArg Host.Outcome.next ?_
  rw [State.dictWrite_passed heard avail code, accepted]
  rfl

/-- A part that serves its dictionary, with an active link to host 1; no context has an owner. -/
def unownedPart : State :=
  State.reset.onDev (fun d => ({ d with boot := { d.boot with reset := false } }.setReg 0x6000 0x02 10).updSite 1
    (fun x => { x with link := 3 }))

/-- Refutes O34: host 1 invalidates context 0, which nobody owns. The statement has every host but the owner answered 0x0508; the
device answers 0, since R251 refuses a host only where another host owns the context. -/
theorem not_memoryTablesWritten : ¬ Obligations.memoryTablesWritten := by
  intro h
  have passes : unownedPart.passes (.mailbox 1) 0x2800 0x02 0 := by decide
  have unowned : unownedPart.dev.owner 0 = none := by decide
  obtain ⟨-, -, invalidations, -⟩ := h unownedPart (.mailbox 1)
  have refused := (invalidations 0 passes).1 1 rfl (by rw [show bits 0 61 52 = 0 from rfl, unowned]; nofun)
  have accepted := exec_translationInvalidate_unowned passes unowned
  have same := congrArg (fun t => t.dev.tx) (Host.Outcome.next.inj (refused.symm.trans accepted))
  exact absurd same (by decide)

end Sys2Proof.Machine

/-! The sync-object unit: which operation is granted, what an application changes, which waits it ends, and the statement about it
(R215, R225, R394, R426, R427, R433, R434). -/
namespace Sys2Proof.Machine
open Sys2Proof

/-! The operation that is granted. -/

/-- One more operation at the end of a queue is picked only over lower inputs (R215). -/
theorem pickSync_concat (q : List SyncOp) (x : SyncOp) : pickSync [] (q ++ [x]) = match pickSync [] q with
    | none => some x
    | some b => if b.input < x.input then some x else some b := by
  unfold pickSync
  rw [List.foldl_append]
  generalize q.foldl _ none = best
  cases best <;> rfl

/-- What is picked stands behind lower inputs only, and before none that is higher (R215). -/
theorem pickSync_some {q : List SyncOp} {op : SyncOp} (h : pickSync [] q = some op) :
    ∃ a b, q = a ++ op :: b ∧ (∀ x ∈ a, x.input < op.input) ∧ ∀ x ∈ b, x.input ≤ op.input := by
  induction q using List.reverseRecOn generalizing op with
  | nil => cases h
  | append_singleton q x ih =>
    rw [pickSync_concat] at h
    cases hq : pickSync [] q with
    | none =>
      have empty : q = [] := by
        cases q using List.reverseRecOn with
        | nil => rfl
        | append_singleton q y =>
          rw [pickSync_concat] at hq
          revert hq
          cases pickSync [] q with
          | none => nofun
          | some b => dsimp only; split <;> nofun
      obtain rfl : x = op := by simpa [hq] using h
      exact ⟨[], [], by simp [empty], nofun, nofun⟩
    | some p =>
      obtain ⟨a, b, rfl, before, after⟩ := ih hq
      simp only [hq] at h
      split at h
      · rename_i higher
        obtain rfl : x = op := by simpa using h
        refine ⟨a ++ p :: b, [], by simp, fun y hy => ?_, nofun⟩
        rcases List.mem_append.mp hy with hy | hy
        · exact (before y hy).trans higher
        · rcases List.mem_cons.mp hy with rfl | hy
          · exact higher
          · exact (after y hy).trans_lt higher
      · rename_i lower
        obtain rfl : p = op := by simpa using h
        refine ⟨a, b ++ [x], by simp, before, fun y hy => ?_⟩
        rcases List.mem_append.mp hy with hy | hy
        · exact after y hy
        · rw [List.mem_singleton.mp hy]
          exact Nat.le_of_not_lt lower

/-! Tables. -/

@[simp] theorem Tbl.look_del_self {α : Type} (dflt : α) (k : Nat) (t : Tbl α) : Tbl.look dflt k (Tbl.del k t) = dflt := by
  simp [Tbl.look, Tbl.look?_del_self]

/-- A key that is not listed reads as the default. -/
theorem Tbl.look_of_not_listed {α : Type} (dflt : α) {k : Nat} {t : Tbl α} (h : ∀ p ∈ t, p.1 ≠ k) : Tbl.look dflt k t = dflt := by
  induction t with
  | nil => rfl
  | cons p t ih =>
    have := ih (fun q hq => h q (List.mem_cons_of_mem _ hq))
    simpa [Tbl.look, Tbl.look?, h p (by simp)] using this

/-- A table with every entry changed alike, where the default stays as it is. -/
theorem Tbl.look_map {α : Type} {dflt : α} {f : α → α} (h : f dflt = dflt) (k : Nat) (t : Tbl α) :
    Tbl.look dflt k (t.map (fun p => (p.1, f p.2))) = f (Tbl.look dflt k t) := by
  induction t with
  | nil => exact h.symm
  | cons p t ih =>
    by_cases hk : p.1 = k
    · simp [Tbl.look, Tbl.look?, hk]
    · simpa [Tbl.look, Tbl.look?, hk] using ih

/-! Waits that end. -/

/-- Does a stream's wait on an object end when its counter reads v (R394)? -/
def Stream.endsAt (x : Stream) (y v : Nat) : Bool := x.waiting && !x.waitMet && x.waitObj == y && decide (x.waitVal ≤ v)

/-- A stream whose registered wait ends: the SWAIT that held it is done. -/
def Stream.waitEnded (x : Stream) (now : Nat) : Stream :=
  { x with waiting := false, waitMet := false, lastChange := now,
           run := x.run.map (fun e => if e.op = 0x02 && e.status = 0 then { e with status := 1 } else e) }

/-- A stream after its object's counter reads v. -/
def Stream.seen (x : Stream) (y v now : Nat) : Stream := if x.endsAt y v then x.waitEnded now else x

/-- A wait ends once. -/
theorem Stream.seen_seen (x : Stream) (y v now : Nat) : (x.seen y v now).seen y v now = x.seen y v now := by
  unfold Stream.seen
  split
  · exact if_neg (by simp [Stream.endsAt, Stream.waitEnded])
  · rfl

/-- The wait of one stream, compared with the counter's value. -/
def Dev.compareAt (d : Dev) (y v c i : Nat) : Dev :=
  if (d.stream c i).endsAt y v then (d.updStream c i (fun x => x.waitEnded d.now)).countIssue c i else d

@[simp] theorem Ctx.schedIssued_streams (x : Ctx) (i : Nat) : (x.schedIssued i).streams = x.streams := by
  unfold Ctx.schedIssued
  split
  · rfl
  · split
    · rfl
    · dsimp only
      split <;> rfl

@[simp] theorem Dev.stream_countIssue (d : Dev) (c i : Nat) : (d.countIssue c i).stream = d.stream := by
  funext b j
  unfold Dev.countIssue Dev.stream
  by_cases h : b = c
  · rw [h, Dev.ctx_updCtx_self, Ctx.schedIssued_streams]
    rfl
  · rw [Dev.ctx_updCtx_ne _ h]
    rfl

/-- A comparison is seen at its stream, and at no other. -/
theorem Dev.stream_compareAt (d : Dev) (y v c i b j : Nat) : (d.compareAt y v c i).stream b j =
    if b = c ∧ j = i then (d.stream c i).seen y v d.now else d.stream b j := by
  unfold Dev.compareAt Stream.seen
  split
  · rename_i ends
    have listed : i < (d.ctx c).streams.length := by
      by_contra absent
      have reset : d.stream c i = Stream.reset := List.getD_eq_default _ _ (Nat.le_of_not_lt absent)
      rw [reset] at ends
      simp [Stream.reset, Stream.endsAt] at ends
    rw [Dev.stream_countIssue, Dev.stream_updStream]
    simp only [listed, and_true]
  · split
    · rename_i same
      rw [same.1, same.2]
    · rfl

/-- What the end of waits can change: the contexts, which stream issued last, and the count of issued commands. -/
structure Dev.WaitsOf (d e : Dev) : Prop where
  frame : e = { d with regs := e.regs, ctxs := e.ctxs, lastIssue := e.lastIssue }
  regs : Dev.RegsOff [0x91] d e

theorem Dev.WaitsOf.refl (d : Dev) : Dev.WaitsOf d d := ⟨rfl, Dev.RegsOff.refl _ d⟩

theorem Dev.WaitsOf.trans {a b c : Dev} (h : Dev.WaitsOf a b) (k : Dev.WaitsOf b c) : Dev.WaitsOf a c :=
  ⟨by rw [k.frame, h.frame], h.regs.trans k.regs⟩

theorem Dev.WaitsOf.now {d e : Dev} (h : Dev.WaitsOf d e) : e.now = d.now := by rw [h.frame]

theorem Dev.WaitsOf.compareAt (d : Dev) (y v c i : Nat) : Dev.WaitsOf d (d.compareAt y v c i) := by
  unfold Dev.compareAt
  split
  · refine ⟨rfl, ?_⟩
    exact ((Dev.RegsOff.of_regs rfl rfl).trans (Dev.RegsOff.incReg _ _ (by decide) (by decide))).trans (Dev.RegsOff.of_regs rfl rfl)
  · exact Dev.WaitsOf.refl d

theorem Stream.seen_reset (y v now : Nat) : Stream.reset.seen y v now = Stream.reset := by
  simp [Stream.seen, Stream.endsAt, Stream.reset]

/-- The waits of the streams at a list of places, compared with the counter's value. -/
def Dev.compareAll (d : Dev) (y v : Nat) (l : List (Nat × Nat)) : Dev := l.foldl (fun d p => d.compareAt y v p.1 p.2) d

/-- The comparisons are seen at their places, and at no other stream. -/
theorem Dev.compareAll_spec (y v : Nat) (l : List (Nat × Nat)) (d : Dev) : Dev.WaitsOf d (d.compareAll y v l) ∧
    ∀ b j, (d.compareAll y v l).stream b j = if (b, j) ∈ l then (d.stream b j).seen y v d.now else d.stream b j := by
  induction l generalizing d with
  | nil => exact ⟨Dev.WaitsOf.refl d, fun b j => by simp [Dev.compareAll]⟩
  | cons p l ih =>
    obtain ⟨waits, streams⟩ := ih (d.compareAt y v p.1 p.2)
    have first := Dev.WaitsOf.compareAt d y v p.1 p.2
    refine ⟨first.trans waits, fun b j => ?_⟩
    change ((d.compareAt y v p.1 p.2).compareAll y v l).stream b j = _
    rw [streams, first.now, d.stream_compareAt]
    by_cases here : b = p.1 ∧ j = p.2
    · obtain ⟨rfl, rfl⟩ := here
      simp [Stream.seen_seen]
    · have other : (b, j) ≠ p := fun h => here ⟨congrArg Prod.fst h, congrArg Prod.snd h⟩
      simp [here, other]

/-- The places of the streams of the listed contexts. -/
def Dev.streamPlaces (d : Dev) : List (Nat × Nat) := d.ctxs.flatMap (fun p => (List.range 4).map (fun i => (p.1, i)))

/-- Every stream's wait is compared when those at the listed places are. -/
theorem Dev.stream_compareAll (d : Dev) (y v : Nat) {c i : Nat} (h : i < 4) :
    (d.compareAll y v d.streamPlaces).stream c i = (d.stream c i).seen y v d.now := by
  rw [(d.compareAll_spec y v d.streamPlaces).2]
  split
  · rfl
  · rename_i unlisted
    have reset : d.stream c i = Stream.reset := by
      have ctx : d.ctx c = Ctx.reset := Tbl.look_of_not_listed _ (fun p hp hk => unlisted (List.mem_flatMap.mpr
        ⟨p, hp, List.mem_map.mpr ⟨i, List.mem_range.mpr h, by rw [hk]⟩⟩))
      rw [Dev.stream, ctx]
      exact List.getD_replicate Stream.reset h
    rw [reset, Stream.seen_reset]

/-- A job of a root engine after its object's counter reads v (R427). -/
def RJob.seen (r : RJob) (y v : Nat) : RJob :=
  if r.j.r.waitEn && r.j.r.waitObj = y && decide (r.j.r.waitVal ≤ v) then { r with released := true } else r

/-- The waiters of an object that are released: streams by their places, jobs by their queues. -/
theorem Dev.releaseWaiters_eq (d : Dev) (y : Nat) : d.releaseWaiters y =
    let e := d.compareAll y (d.counter y) d.streamPlaces
    { e with stks := e.stks.map (fun p => (p.1, { p.2 with queue := p.2.queue.map (fun r => r.seen y (d.counter y)) })) } := by
  unfold Dev.releaseWaiters Dev.compareAll Dev.streamPlaces
  simp only [List.foldl_flatMap, List.foldl_map]
  rfl

/-- The end of waits: counters and queued operations stay, every wait on the object is compared (R394, R427). -/
theorem Dev.releaseWaiters_spec (d : Dev) (y : Nat) : let e := d.releaseWaiters y
    e.counter = d.counter ∧ e.syncQ = d.syncQ ∧ Dev.RegsOff [0x91] d e ∧
    (∀ c i, i < 4 → e.stream c i = (d.stream c i).seen y (d.counter y) d.now) ∧
    ∀ st, (e.stk st).queue = (d.stk st).queue.map (fun r => r.seen y (d.counter y)) := by
  obtain ⟨frame, regs⟩ := (d.compareAll_spec y (d.counter y) d.streamPlaces).1
  rw [Dev.releaseWaiters_eq]
  refine ⟨?_, ?_, regs, fun c i hi => d.stream_compareAll y (d.counter y) hi, fun st => ?_⟩
  · rw [frame]; rfl
  · rw [frame]
  · have stks : (d.compareAll y (d.counter y) d.streamPlaces).stks = d.stks := by rw [frame]
    dsimp only [Dev.stk]
    rw [stks]
    exact congrArg Stk.queue (Tbl.look_map (f := fun k : Stk => { k with queue := k.queue.map (fun r => r.seen y (d.counter y)) })
      rfl st d.stks)

/-! An application. -/

/-- A counter set. -/
def Dev.setCounter (d : Dev) (y n : Nat) : Dev := { d with sync := if n = 0 then Tbl.del y d.sync else Tbl.put y n d.sync }

@[simp] theorem Dev.counter_setCounter_self (d : Dev) (y n : Nat) : (d.setCounter y n).counter y = n := by
  unfold Dev.counter Dev.setCounter
  by_cases zero : n = 0
  · simp [zero]
  · simp [zero]

theorem Dev.counter_setCounter_ne (d : Dev) {y z : Nat} (h : z ≠ y) (n : Nat) : (d.setCounter y n).counter z = d.counter z := by
  unfold Dev.counter Dev.setCounter
  by_cases zero : n = 0
  · simp [zero, Tbl.look, Tbl.look?_del_ne h]
  · simp [zero, Tbl.look_put_ne _ h]

/-- The event of a notify block (R433, R434). -/
def Dev.notified (d : Dev) (y new : Nat) : Dev :=
  let b := d.block (y / 64)
  if bit b 31 && bit b 29 then d.raiseCtx 0x8208 (bits b 9 0) [y, new] else d

theorem EventOf.notified (d : Dev) (y new : Nat) : EventOf d (d.notified y new) := by
  unfold Dev.notified
  dsimp only
  split
  · exact EventOf.raise _ _ _ _ _ _ _
  · exact EventOf.refl _

/-- An operation applied: its counter, every wait on it, and nothing else of any stream, object or queue (R426, R427, R433,
R434). -/
theorem Dev.applySync_spec (d : Dev) (y : Nat) (isSet : Bool) (v : Nat) :
    let new := if isSet then v % 2 ^ 64 else (d.counter y + v) % 2 ^ 64
    let e := d.applySync y isSet v
    e.counter y = new ∧ (∀ z, z ≠ y → e.counter z = d.counter z) ∧ e.syncQ = d.syncQ ∧
    Dev.RegsOff (0x91 :: noisySubs) d e ∧ (∀ c i, i < 4 → e.stream c i = (d.stream c i).seen y new d.now) ∧
    ∀ st, (e.stk st).queue = (d.stk st).queue.map (fun r => r.seen y new) := by
  intro new e
  obtain ⟨counters, ops, regs, streams, jobs⟩ := (d.setCounter y new).releaseWaiters_spec y
  rw [Dev.counter_setCounter_self] at streams jobs
  have event : EventOf ((d.setCounter y new).releaseWaiters y) e := EventOf.notified _ _ _
  have after : e.counter = (d.setCounter y new).counter := by rw [← counters, event.1]; rfl
  refine ⟨?_, fun z hz => ?_, ?_, ?_, fun c i hi => ?_, fun st => ?_⟩
  · rw [after, Dev.counter_setCounter_self]
  · rw [after, Dev.counter_setCounter_ne d hz]
  · rw [event.1]; exact ops
  · have set : Dev.RegsOff [0x91] d (d.setCounter y new) := Dev.RegsOff.of_regs rfl rfl
    exact ((set.trans regs).mono (by simp)).trans ((StopOf.of_event event).regs.mono (fun a ha => List.mem_cons_of_mem _ ha))
  · rw [event.stream, streams c i hi]; rfl
  · exact (congrArg (fun x : Dev => (x.stk st).queue) event.1).trans (jobs st)

/-! A grant. -/

/-- A grant counted: its number, and the longest wait (R223, R225). -/
theorem Dev.countSync_spec (d : Dev) (o : SyncOp) :
    d.countSync o = { d with regs := (d.countSync o).regs } ∧
      (d.countSync o).reg 0x4C00 0x30 = (d.reg 0x4C00 0x30 + 1) % 2 ^ 64 := by
  have one : (d.incReg 0x4C00 0x30).reg 0x4C00 0x30 = (d.reg 0x4C00 0x30 + 1) % 2 ^ 64 := Dev.reg_incReg_self d _ _
  unfold Dev.countSync
  dsimp only
  split
  · exact ⟨rfl, by rw [Dev.reg_setReg_other _ (by decide), Dev.reg_setReg_other _ (by decide), one]⟩
  · exact ⟨rfl, one⟩

/-- The part as a granted operation finds it: off the queue, what waits a cycle older, held ones counted (R216, R217). -/
def Dev.syncTaken (d : Dev) (op : SyncOp) : Dev :=
  let rest := d.syncQ.erase op
  let e := if rest.zipIdx.any (fun p => heldSync rest p.2 p.1) then d.incReg 0x4C00 0x31 else d
  { e with syncQ := ageSync rest }

theorem Dev.syncTaken_spec (d : Dev) (op : SyncOp) :
    d.syncTaken op = { d with regs := (d.syncTaken op).regs, syncQ := ageSync (d.syncQ.erase op) } ∧
      (d.syncTaken op).reg 0x4C00 0x30 = d.reg 0x4C00 0x30 := by
  unfold Dev.syncTaken
  dsimp only
  split
  · refine ⟨rfl, ?_⟩
    exact (Dev.reg_congr rfl rfl _ _).trans (Dev.reg_incReg_other d (by decide))
  · exact ⟨rfl, rfl⟩

/-- An operation taken and counted: objects, streams and jobs are as before. -/
theorem Dev.countSync_syncTaken (d : Dev) (op : SyncOp) : let e := (d.syncTaken op).countSync op
    e.syncQ = ageSync (d.syncQ.erase op) ∧ e.reg 0x4C00 0x30 = (d.reg 0x4C00 0x30 + 1) % 2 ^ 64 ∧
    e.counter = d.counter ∧ e.stream = d.stream ∧ e.stk = d.stk ∧ e.now = d.now := by
  obtain ⟨taken, before⟩ := d.syncTaken_spec op
  obtain ⟨counted, number⟩ := (d.syncTaken op).countSync_spec op
  intro e
  have frame : e = { d with regs := e.regs, syncQ := ageSync (d.syncQ.erase op) } := by
    rw [show e = _ from counted, taken]
  refine ⟨by rw [frame], by rw [number, before], ?_⟩
  rw [frame]
  exact ⟨rfl, rfl, rfl, rfl⟩

/-- Without forced losses and with perturbation off, the operation next in turn is taken, counted and applied. -/
theorem Dev.grantSync_quiet {d : Dev} {op : SyncOp} (next : d.nextSync = some op) (off : d.fn 0x7000 ≠ 2)
    (fair : (Tbl.look Arb.reset 0 d.arbs).lose = []) :
    d.grantSync = ((d.syncTaken op).countSync op).applySync op.obj op.set op.value := by
  have asked : d.syncQ.isEmpty = false := by
    cases h : d.syncQ with
    | nil => rw [Dev.nextSync, h] at next; cases next
    | cons x q => rfl
  have first : pickSync [] d.syncQ = some op := next
  unfold Dev.grantSync Dev.syncTaken
  generalize (Tbl.look Arb.reset 0 d.arbs).lose = lose at fair ⊢
  subst fair
  rw [asked]
  simp only [List.filter_nil, List.map_nil, Dev.perturb_off off]
  generalize pickSync [] d.syncQ = won at first ⊢
  subst first
  rfl

/-- Settles O7: the granted operation is taken off, counted and applied; what is granted is what is picked first among the highest. -/
theorem syncUnitApplies : Obligations.syncUnitApplies := by
  refine ⟨fun s op next off fair => ?_, fun s => ⟨fun op next => pickSync_some next, fun empty => ?_⟩⟩
  · obtain ⟨queue, number, counters, stream, stk, now⟩ := s.dev.countSync_syncTaken op
    obtain ⟨own, others, ops, regs, streams, jobs⟩ :=
      ((s.dev.syncTaken op).countSync op).applySync_spec op.obj op.set op.value
    rw [← Dev.grantSync_quiet next off fair] at own others ops regs streams jobs
    rw [counters] at own others streams jobs
    rw [stream, now] at streams
    rw [stk] at jobs
    exact ⟨_, rfl, own, others, ops.trans queue, ⟨rfl, rfl, rfl⟩, (regs _ _ (by decide) (by decide)).trans number, streams, jobs⟩
  · have idle : s.dev.grantSync = s.dev := by simp [Dev.grantSync, empty]
    exact congrArg (fun d => Host.Outcome.next { s with dev := d }) idle

end Sys2Proof.Machine

/-! The life of a root engine's job: its receipt, its run and its end, and the statement about them (R216, R217, R279, R282, R283,
R285, R358). -/
namespace Sys2Proof.Machine
open Sys2Proof

section RootJob
variable {s : State} {st : Nat} {j : JobIn} {ty : Nat} {writes : RJob → Act (List (Nat × Nat))} {run : RJob → Act JobEnd} {r : RJob}

/-! The run of a job, case by case. -/

/-- The job as it stands in its queue once it has started. -/
def RJob.going (r : RJob) : RJob := { r with started := true, jobHold := false }

/-- The part once a job has started. -/
def State.jobStarted (s : State) (st : Nat) (r : RJob) : State :=
  s.onDev (fun d => d.updStk st (fun k => { k with queue := k.queue.map (fun x => if x = r then r.going else x) }))

theorem rootJob_otherType (h : j.r.ty ≠ ty) :
    rootJob ty st j writes run s = s.onDev (fun d => d.incReg (0x3800 + st) 0x04) := by
  simp [rootJob, h]

section Received
variable (type : j.r.ty = ty) (queued : (s.dev.receiveJob st j).waitingJob st j = some r)
include type queued

theorem rootJob_waits (barred : (s.dev.receiveJob st j).mayStart st r = false) :
    rootJob ty st j writes run s = s.onDev (fun d => d.receiveJob st j) := by
  simp [rootJob, type, queued, barred]

section MayStart
variable (free : (s.dev.receiveJob st j).mayStart st r = true)
include free

theorem rootJob_badOperands {f : Fail} {w : State}
    (checks : (s.onDev (fun d => d.receiveJob st j)).runAct (do jobOk r; writes r) = (.error f, w)) :
    rootJob ty st j writes run s = w.onDev (fun d => d.jobFailed st r f) := by
  simp [rootJob, type, queued, free, checks]

section Checked
variable {rs : List (Nat × Nat)} {w : State}
  (checks : (s.onDev (fun d => d.receiveJob st j)).runAct (do jobOk r; writes r) = (.ok rs, w))
include checks

theorem rootJob_held (meets : (s.dev.receiveJob st j).unstreamed j.ctx.val st rs = true) :
    rootJob ty st j writes run s = (s.onDev (fun d => d.receiveJob st j)).onDev (fun d => d.holdJob st r) := by
  simp [rootJob, type, queued, free, checks, meets]

/-- A job that runs leaves what its run leaves, and ends as its run says. -/
theorem rootJob_runs (clear : (s.dev.receiveJob st j).unstreamed j.ctx.val st rs = false) {e : Except Fail JobEnd} {w' : State}
    (ran : ((s.onDev (fun d => d.receiveJob st j)).jobStarted st r).runAct (run r.going) = (e, w')) :
    rootJob ty st j writes run s = match e with
      | .error f => w'.onDev (fun d => d.jobFailed st r.going f)
      | .ok .over => w'.onDev (fun d => d.jobRetired st r.going)
      | .ok .stays => w' := by
  unfold RJob.going State.jobStarted at ran
  simp only [rootJob, type, ne_eq, not_true_eq_false, if_false, State.onDev_dev, queued, free, Bool.not_true, Bool.false_eq_true,
    checks, clear]
  unfold RJob.going at ran ⊢
  rw [ran]
  rcases e with f | e
  · rfl
  · cases e <;> rfl

end Checked
end MayStart
end Received
end RootJob

/-! Which command runs which job. -/

/-- The commands that present a job, each with its type, the ranges it writes and its run. -/
def jobRows (st : Fin 32) (j : JobIn) : List (Instr × Nat × (RJob → Act (List (Nat × Nat))) × (RJob → Act JobEnd)) :=
  [(.stage st j, 1, stageWrites st.val, stageRun st.val), (.compress st j, 2, compressWrites st.val, compressRun st.val),
    (.update st j, 3, updateWrites st.val, updateRun st.val), (.copy st j, 4, dstWrites st.val, copyRun st.val),
    (.convert st j, 5, dstWrites st.val, convertRun st.val), (.streamOut st j, 6, noWrites, streamOutRun st.val)]

/-- While no RJOBS waits, with room for a STAGE and a count of a STREAM_OUT, each of the commands is the common job. -/
theorem exec_jobRows {s : State} {st : Fin 32} {j : JobIn} {i : Instr} {ty : Nat} {writes : RJob → Act (List (Nat × Nat))}
    {run : RJob → Act JobEnd} (none_waits : s.dev.fwd = []) (row : (i, ty, writes, run) ∈ jobRows st j)
    (room : ty = 1 → (s.dev.stk st.val).arms.length < 8) (count : ty = 6 → j.r.count ≠ 0) :
    exec i s = .next (rootJob ty st.val j writes run s) := by
  have forwarded : s.forwarded = s := by simp [State.forwarded, none_waits]
  simp only [jobRows, List.mem_cons, List.not_mem_nil, or_false] at row
  rcases row with ⟨rfl, rfl, rfl, rfl⟩ | ⟨rfl, rfl, rfl, rfl⟩ | ⟨rfl, rfl, rfl, rfl⟩ | ⟨rfl, rfl, rfl, rfl⟩ |
    ⟨rfl, rfl, rfl, rfl⟩ | ⟨rfl, rfl, rfl, rfl⟩
  · change Host.Outcome.next (if 8 ≤ (s.forwarded.dev.stk st.val).arms.length then _ else _) = _
    rw [forwarded, if_neg (Nat.not_le.mpr (room rfl))]
  · exact congrArg (fun t => Host.Outcome.next (rootJob 2 st.val j _ _ t)) forwarded
  · exact congrArg (fun t => Host.Outcome.next (rootJob 3 st.val j _ _ t)) forwarded
  · exact congrArg (fun t => Host.Outcome.next (rootJob 4 st.val j _ _ t)) forwarded
  · exact congrArg (fun t => Host.Outcome.next (rootJob 5 st.val j _ _ t)) forwarded
  · change Host.Outcome.next (if (decide (j.r.ty = 6) && decide (j.r.count = 0)) = true then _ else _) = _
    rw [forwarded, if_neg (by simp [count rfl])]

/-! The receipt and the end of a job. -/

section Ends
variable {d : Dev} {st : Nat} {j : JobIn}

theorem Dev.receiveJob_malformed (absent : d.waitingJob st j = none) (bad : jobCode j.r st ≠ 0) :
    d.receiveJob st j = d.incReg (0x3800 + st) 0x04 := by
  simp [Dev.receiveJob, absent, bad]

theorem Dev.receiveJob_full (absent : d.waitingJob st j = none) (good : jobCode j.r st = 0) (full : d.intakeRoom st = false) :
    d.receiveJob st j = d := by
  simp [Dev.receiveJob, absent, good, full]

theorem Dev.receiveJob_queued (absent : d.waitingJob st j = none) (good : jobCode j.r st = 0) (room : d.intakeRoom st = true) :
    d.receiveJob st j = d.queueJob st j := by
  simp [Dev.receiveJob, absent, good, room]

end Ends

section Retire
variable (d : Dev) (st : Nat) (r : RJob)

/-- The part once a job has left its queue. -/
def Dev.jobGone : Dev := d.updStk st (fun k => { k with queue := k.queue.erase r })

theorem Dev.stk_jobGone : (d.jobGone st r).stk st = { d.stk st with queue := (d.stk st).queue.erase r } := Dev.stk_updStk_self d st _

/-- A job that retires leaves its queue, is counted, and gives its signal (R283). -/
theorem Dev.jobRetired_spec : let e := d.jobRetired st r
    e.stk st = { d.stk st with queue := (d.stk st).queue.erase r } ∧ e.stkReg st 0x03 = (d.stkReg st 0x03 + 1) % 2 ^ 64 ∧
      e.syncQ = d.syncQ ++ (if r.j.r.sigEn then [⟨13, r.j.r.sigObj, false, 1, 0⟩] else []) := by
  have stk := d.stk_jobGone st r
  have counted : ((d.jobGone st r).incReg (0x3800 + st) 0x03).reg (0x3800 + st) 0x03 = (d.stkReg st 0x03 + 1) % 2 ^ 64 :=
    Dev.reg_incReg_self _ _ _
  have ends : d.jobRetired st r = if r.j.r.sigEn then ((d.jobGone st r).incReg (0x3800 + st) 0x03).signal 13 r.j.r.sigObj false 1
    else (d.jobGone st r).incReg (0x3800 + st) 0x03 := rfl
  rw [ends]
  split
  · exact ⟨stk, counted, rfl⟩
  · exact ⟨stk, counted, (List.append_nil _).symm⟩

/-- A job that fails without poison leaves its queue without a signal, and the fence of its context will fail (R285, R304, R344). -/
theorem Dev.jobFailed_spec {f : Fail} (clean : f.poison = false) : let e := d.jobFailed st r f
    e.stk st = { d.stk st with queue := (d.stk st).queue.erase r } ∧
      e.stkReg st 0x04 = (if f.cause = 1 ∧ (f.code ∈ [0x0401, 0x0601, 0x0603] ∨ (f.code = 0x0402 ∧ r.j.r.ty ≠ 3)) then
        (d.stkReg st 0x04 + 1) % 2 ^ 64 else d.stkReg st 0x04) ∧
      e.syncQ = d.syncQ ∧ (e.upd r.j.ctx.val).rootFailed = true := by
  let q := (d.jobGone st r).updUpd r.j.ctx.val (fun u => { u with rootFailed := true })
  have stk : q.stk st = _ := d.stk_jobGone st r
  have fence : (q.upd r.j.ctx.val).rootFailed = true := congrArg Upd.rootFailed (Dev.upd_updUpd_self _ _ _)
  have ends : d.jobFailed st r f = if f.cause = 1 && ([0x0401, 0x0601, 0x0603].contains f.code || (f.code = 0x0402 && r.j.r.ty ≠ 3))
      then q.incReg (0x3800 + st) 0x04 else q := by
    simp only [Dev.jobFailed, clean, Bool.false_eq_true, if_false]
    rfl
  rw [ends]
  by_cases counts : f.cause = 1 ∧ (f.code ∈ [0x0401, 0x0601, 0x0603] ∨ (f.code = 0x0402 ∧ r.j.r.ty ≠ 3))
  · rw [if_pos counts, if_pos (by simpa using counts)]
    exact ⟨stk, Dev.reg_incReg_self q _ _, rfl, fence⟩
  · rw [if_neg counts, if_neg (by simpa using counts)]
    exact ⟨stk, rfl, rfl, fence⟩

end Retire

/-- Settles O22: each command is the common job, and a job is received, held, run and ended case by case. -/
theorem rootJobsRun : Obligations.rootJobsRun := by
  refine ⟨fun s st j i ty writes run none_waits row room count => ?_, fun d st j => ⟨?_, ?_, ?_, ?_, ?_⟩⟩
  · rw [exec_jobRows none_waits row room count]
    refine ⟨fun other => congrArg _ (rootJob_otherType other), fun type => ?_⟩
    intro a
    refine ⟨fun r queued barred => congrArg _ (rootJob_waits type queued barred),
      fun r f w queued free checks => congrArg _ (rootJob_badOperands type queued free checks),
      fun r rs w queued free checks => ⟨fun meets => congrArg _ (rootJob_held type queued free checks meets), fun clear => ?_⟩⟩
    intro go b
    exact ⟨fun w' ran => congrArg _ (rootJob_runs type queued free checks clear ran),
      fun w' ran => congrArg _ (rootJob_runs type queued free checks clear ran),
      fun f w' ran => congrArg _ (rootJob_runs type queued free checks clear ran)⟩
  · exact fun absent good full => Dev.receiveJob_full absent good full
  · intro absent good room
    rw [Dev.receiveJob_queued absent good room]
    refine ⟨_, Dev.stk_updStk_self _ _ _, rfl, rfl, by simp, fun b other => Dev.stk_updStk_ne _ other _⟩
  · exact fun absent bad => Dev.receiveJob_malformed absent bad
  · exact fun r => d.jobRetired_spec st.val r
  · exact fun r f clean => d.jobFailed_spec st.val r clean

end Sys2Proof.Machine

/-! The memories' own upkeep: write-backs, scrubs, wipes, refreshes, retraining and marked lanes, and the statement about them
(R205, R207, R210, R212, R214, R258, R261 to R264, R713). -/
namespace Sys2Proof.Machine
open Sys2Proof

/-! Reads that meet no error. -/

/-- A read of a scratchpad range without a stored error, perturbation off, changes nothing (R203). -/
theorem spadGet_clean {w : Wd} {e off n : Nat} (off' : w.dev.fn 0x7000 ≠ 2)
    (clean : ∀ p ∈ w.mem.spadErr, ¬(spadKey e (off / 8 * 8) ≤ p.1 * 8 ∧ p.1 * 8 < spadKey e (off + n))) (port : Nat) :
    (spadGet e off n port w).2 = w := by
  have quiet : spadPerturb e off n w = ((), w) := by
    unfold spadPerturb
    rw [if_pos]
    simp only [Bool.or_eq_true, decide_eq_true_eq]
    exact .inl off'
  have none_dirty : w.dirtyWords e off n = [] := by
    unfold Wd.dirtyWords
    rw [List.map_eq_nil_iff, List.filter_eq_nil_iff]
    simpa using clean
  change (bind (m := Mm) (spadPerturb e off n) _ w).2 = w
  simp only [bind, StateT.bind, quiet, get, getThe, MonadStateOf.get, StateT.get, pure, StateT.pure, none_dirty]
  rfl

/-- A read of a range of a stack without a stored error, perturbation off, changes nothing (R257). -/
theorem hbmGet_clean {w : Wd} {s off n : Nat} (off' : w.dev.fn 0x7000 ≠ 2)
    (clean : ∀ p ∈ w.mem.hbmErr, ¬(hbmKey s (off / 64 * 64) ≤ p.1 * 64 ∧ p.1 * 64 < hbmKey s (off + n))) (input : Nat)
    (ctx : Option Nat) : (hbmGet s off n input ctx w).2 = w := by
  have none_dirty : w.dirtyLines s off n = [] := by
    unfold Wd.dirtyLines
    rw [if_neg (show ¬ w.dev.reg 0x7000 0x02 % 4 = 2 from off'), List.map_eq_nil_iff, List.filter_eq_nil_iff]
    simpa using clean
  unfold hbmGet hbmGetAt
  simp only [bind, StateT.bind, get, getThe, MonadStateOf.get, StateT.get, pure, StateT.pure, none_dirty]
  rfl

/-- A computation that changes nothing leaves the state. -/
theorem State.runMm_same {α : Type} {s : State} {m : Mm α} (h : (m ⟨s.mem, s.dev⟩).2 = ⟨s.mem, s.dev⟩) : (s.runMm m).2 = s := by
  unfold State.runMm
  dsimp only
  rw [h]

/-! Write-backs and scrubs (R205, R207). -/

section Scratchpad
variable {s : State} {e bank : Nat}

theorem spadWriteback_none (h : (s.dev.eng e).writeback.find? (fun w => wordBank w = (e, bank)) = none) :
    spadWriteback e bank s = s := by
  simp only [spadWriteback, h]

theorem spadWriteback_some {w : Nat} (h : (s.dev.eng e).writeback.find? (fun w => wordBank w = (e, bank)) = some w) :
    spadWriteback e bank s = { s with
      mem := if bit (Tbl.look 0 w s.mem.spadErr) 72 then s.mem else { s.mem with spadErr := Tbl.del w s.mem.spadErr }
      dev := s.dev.updEng e (fun k => { k with writeback := k.writeback.erase w }) } := by
  simp only [spadWriteback, h]

/-- The line that the scrub of a bank reads next, as an offset of its scratchpad. -/
def Dev.scrubAt (d : Dev) (e bank : Nat) : Nat := bank * Config.bankBytes + Tbl.look 0 bank (d.eng e).scrubLine * 2048

/-- The scrub of a bank moved on from a line, one of 384. -/
def Dev.scrubbed (d : Dev) (e bank line : Nat) : Dev :=
  d.updEng e (fun k => { k with scrubLine := Tbl.put bank ((line + 1) % 384) k.scrubLine })

/-- A scrub of a line without an error moves on, and changes nothing else. -/
theorem scrubLine_clean (off : s.dev.fn 0x7000 ≠ 2) (clean : ∀ p ∈ s.mem.spadErr,
      ¬(spadKey e (s.dev.scrubAt e bank / 8 * 8) ≤ p.1 * 8 ∧ p.1 * 8 < spadKey e (s.dev.scrubAt e bank + 2048))) :
    scrubLine e bank [] s = s.onDev (fun d => d.scrubbed e bank (Tbl.look 0 bank (s.dev.eng e).scrubLine)) := by
  have read := State.runMm_same (s := s) (spadGet_clean (w := ⟨s.mem, s.dev⟩) off clean 6)
  change ((s.runMm (spadGet e (s.dev.scrubAt e bank) 2048 6)).2).onDev
    (fun d => d.scrubbed e bank (Tbl.look 0 bank (s.dev.eng e).scrubLine)) = _
  rw [read]

end Scratchpad

/-! Wipes (R210, R212 to R214, R713). -/

/-- The end of stalls touches scoreboards and the list of what stalls, nothing else. -/
theorem Dev.endStalls_frame (d : Dev) (die : Nat) :
    d.endStalls die = { d with ctxs := (d.endStalls die).ctxs, stalled := (d.endStalls die).stalled } := by
  unfold Dev.endStalls
  exact foldl_keeps (fun e : Dev => e = { d with ctxs := e.ctxs, stalled := e.stalled }) (fun e q h => by rw [h]; rfl) _ _ rfl

/-- A sealed context's loss is shown, and no wipe and no other entry but counts changes (R713). -/
theorem Dev.sealedLoss_spec (d : Dev) (c die cause : Nat) : let e := d.sealedLoss c die cause
    e.wiping = d.wiping ∧ Dev.RegsOff (0x28 :: noisySubs) d e ∧ e.ctxReg c 0x28 = 5 := by
  have stops := StopOf.stopCtx d c 0x0B0B
  have event := StopOf.raiseCtx ((d.stopCtx c 0x0B0B).setReg (0x4000 + c) 0x28 5) 0x8B06 c [c, die, cause]
  refine ⟨?_, ?_, ?_⟩
  · refine (congrArg Dev.wiping event.frame).trans ?_
    rw [Dev.setReg_wiping, stops.frame]
  · exact ((stops.regs.mono (fun _ h => List.mem_cons_of_mem _ h)).trans (Dev.RegsOff.setReg _ _ _ (by decide) (by decide))).trans
      (event.regs.mono (fun _ h => List.mem_cons_of_mem _ h))
  · exact (event.regs _ _ (by decide) (by decide)).trans (Dev.reg_setReg_self _ _ _ _)

/-- The wipe of a die's secure bank counted and told (R214). -/
def Dev.wipeCounted (d : Dev) (die cause : Nat) : Dev :=
  let e := ({ d with wiping := Tbl.del die d.wiping } : Dev).endStalls die
  (e.setReg (0x3000 + 16 * die) 0x23 ((e.engReg (16 * die) 0x23 + 1) % 2 ^ 32)).raiseDev 0x8B01 [die, cause]

theorem Dev.wipeCounted_spec (d : Dev) (die cause : Nat) : let e := d.wipeCounted die cause
    Tbl.look? die e.wiping = none ∧ e.engReg (16 * die) 0x23 = (d.engReg (16 * die) 0x23 + 1) % 2 ^ 32 := by
  have ended := ({ d with wiping := Tbl.del die d.wiping } : Dev).endStalls_frame die
  unfold Dev.wipeCounted
  generalize ({ d with wiping := Tbl.del die d.wiping } : Dev).endStalls die = e at ended ⊢
  have event := StopOf.of_event (EventOf.raise (e.setReg (0x3000 + 16 * die) 0x23 ((e.engReg (16 * die) 0x23 + 1) % 2 ^ 32))
    0x8B01 0 0 none none [die, cause])
  have counted : e.engReg (16 * die) 0x23 = d.engReg (16 * die) 0x23 := by rw [ended]; rfl
  constructor
  · refine (congrArg (fun x : Dev => Tbl.look? die x.wiping) event.frame).trans ?_
    dsimp only
    rw [Dev.setReg_wiping, ended]
    exact Tbl.look?_del_self _ _
  · refine (event.regs _ _ (by decide) (by decide)).trans ?_
    rw [Dev.reg_setReg_self, counted]

/-- The part after a wipe: counted, and a former holder's loss shown unless it released the bank itself (R713). -/
def Dev.wipeEnded (d : Dev) (die cause : Nat) : Option Nat → Dev
  | some c => if cause ≠ 3 then (d.wipeCounted die cause).sealedLoss c die cause else d.wipeCounted die cause
  | none => d.wipeCounted die cause

theorem Dev.wipeEnded_spec (d : Dev) (die cause : Nat) (holder : Option Nat) : let e := d.wipeEnded die cause holder
    Tbl.look? die e.wiping = none ∧ e.engReg (16 * die) 0x23 = (d.engReg (16 * die) 0x23 + 1) % 2 ^ 32 ∧
      ∀ c, holder = some c → cause ≠ 3 → e.ctxReg c 0x28 = 5 := by
  obtain ⟨gone, counted⟩ := d.wipeCounted_spec die cause
  cases holder with
  | none => exact ⟨gone, counted, nofun⟩
  | some c =>
    by_cases released : cause = 3
    · exact ⟨by simpa [Dev.wipeEnded, released] using gone, by simpa [Dev.wipeEnded, released] using counted,
        fun _ _ h => absurd released h⟩
    · obtain ⟨wipes, regs, lost⟩ := (d.wipeCounted die cause).sealedLoss_spec c die cause
      have ended : d.wipeEnded die cause (some c) = (d.wipeCounted die cause).sealedLoss c die cause := if_pos released
      rw [ended]
      refine ⟨by rw [wipes]; exact gone, (regs _ _ (by decide) (by decide)).trans counted, fun b hb _ => ?_⟩
      rwa [← Option.some.inj hb]

/-- How many bytes a wipe zeroes: the whole bank, but the Gardener's 64 KiB of die 0 from cause 3 on (R212). -/
def wipeBytes (die cause : Nat) : Nat := if die = 0 ∧ 3 ≤ cause then Config.bankBytes - 65536 else Config.bankBytes

section Wipe
variable {s : State} {die cause : Nat} {holder : Option Nat}

theorem wipeComplete_none (h : Tbl.look? die s.dev.wiping = none) : wipeComplete die s = s := by
  simp only [wipeComplete, h]

/-- A wipe that ends zeroes the bank, and is counted. -/
theorem wipeComplete_some (h : Tbl.look? die s.dev.wiping = some (cause, holder)) : wipeComplete die s = { s with
    mem := s.mem.zeroSpad (16 * die) (31 * Config.bankBytes) (wipeBytes die cause), dev := s.dev.wipeEnded die cause holder } := by
  have bytes : wipeBytes die cause = if decide (die = 0) && decide (3 ≤ cause) then Config.bankBytes - 65536 else Config.bankBytes := by
    simp [wipeBytes]
  rw [bytes]
  simp only [wipeComplete, h]
  cases holder <;> rfl

/-- The zeroed bytes read 0. -/
theorem Store.cellByte_zeroSpad_inside (m : Store) {e off n k : Nat} (h : k < n) :
    cellByte (m.zeroSpad e off n).spad (spadKey e off + k) = 0 := by
  rw [Store.zeroSpad, cellByte_cellsZero, if_neg (by omega)]

/-- Every other byte reads as before. -/
theorem Store.cellByte_zeroSpad_outside (m : Store) {e off n k : Nat} (h : k < spadKey e off ∨ spadKey e off + n ≤ k) :
    cellByte (m.zeroSpad e off n).spad k = cellByte m.spad k := by
  rw [Store.zeroSpad, cellByte_cellsZero, if_pos h]

end Wipe

/-! Patrol scrubs (R261, R264). -/

section Patrol
variable {s : State} {st pc : Nat}

theorem patrol_none (h : s.dev.reg 0x2800 0x04 = 0 ∨ s.dev.service (partOfStk st) = 1) : patrol st pc [] s = s := by
  unfold patrol
  rw [if_pos (by simpa using h)]

/-- The line that a pseudo-channel's patrol reads next, as an offset of its stack. -/
def Dev.patrolAt (d : Dev) (st pc : Nat) : Nat := pcLine pc (Tbl.look 0 pc (d.stk st).scrub % 2 ^ 24)

/-- A pseudo-channel moved on by a line; the last to complete a pass completes the stack's, which is counted. -/
def Dev.patrolled (d : Dev) (st pc : Nat) : Dev :=
  let n := Tbl.look 0 pc (d.stk st).scrub
  let passes := fun (k : Stk) => (List.range 64).foldl (fun a q => min a (Tbl.look 0 q k.scrub / 2 ^ 24)) (n + 1)
  let e := d.updStk st (fun k => { k with scrub := Tbl.put pc (n + 1) k.scrub })
  if passes (d.stk st) < passes (e.stk st) then e.incReg (0x3800 + st) 0x45 else e

/-- The pseudo-channel's own count of lines moved on by one. -/
def Dev.patrolNext (d : Dev) (st pc : Nat) : Dev :=
  d.updStk st (fun k => { k with scrub := Tbl.put pc (Tbl.look 0 pc (d.stk st).scrub + 1) k.scrub })

theorem Dev.patrolled_cases (d : Dev) (st pc : Nat) :
    d.patrolled st pc = (d.patrolNext st pc).incReg (0x3800 + st) 0x45 ∨ d.patrolled st pc = d.patrolNext st pc := by
  unfold Dev.patrolled
  dsimp only
  split
  · exact .inl rfl
  · exact .inr rfl

theorem Dev.patrolled_spec (d : Dev) (st pc : Nat) : let e := d.patrolled st pc
    (e.stk st).scrub = Tbl.put pc (Tbl.look 0 pc (d.stk st).scrub + 1) (d.stk st).scrub ∧ d.sameRegs e [(0x3800 + st, 0x45)] := by
  have next : ((d.patrolNext st pc).stk st).scrub = Tbl.put pc (Tbl.look 0 pc (d.stk st).scrub + 1) (d.stk st).scrub := by
    rw [Dev.patrolNext, Dev.stk_updStk_self]
  rcases d.patrolled_cases st pc with passed | more
  · rw [passed]
    exact ⟨next, (d.patrolNext st pc).sameRegs_setReg (by decide) (by simp) _⟩
  · rw [more]
    exact ⟨next, fun _ _ _ _ => rfl⟩

/-- A patrol of a line without an error moves its pseudo-channel on, and changes nothing else. -/
theorem patrol_clean (on : s.dev.reg 0x2800 0x04 ≠ 0) (serves : s.dev.service (partOfStk st) ≠ 1) (off : s.dev.fn 0x7000 ≠ 2)
    (clean : ∀ p ∈ s.mem.hbmErr, ¬(hbmKey st (s.dev.patrolAt st pc / 64 * 64) ≤ p.1 * 64 ∧
      p.1 * 64 < hbmKey st (s.dev.patrolAt st pc + 64))) :
    patrol st pc [] s = s.onDev (fun d => d.patrolled st pc) := by
  have read := State.runMm_same (s := s) (hbmGet_clean (w := ⟨s.mem, s.dev⟩) off clean 3 none)
  have runs : ¬(decide (s.dev.reg 0x2800 0x04 = 0) || decide (s.dev.service (partOfStk st) = 1)) = true := by simp [on, serves]
  unfold patrol
  rw [if_neg runs]
  change State.onDev (s.runMm (hbmGet st (s.dev.patrolAt st pc) 64 3 none)).2 _ = _
  rw [read]
  unfold State.onDev Dev.patrolled
  rfl

end Patrol

/-! Refresh and retraining (R262 to R264). -/

section Refresh
variable (d : Dev) (st pc sid bank : Nat)

/-- The refreshes that a bank owes, and those pulled in for it (R262). -/
def Dev.owed : Nat := Tbl.look 0 (bankKey pc sid bank) (d.stk st).postponed

@[inherit_doc Dev.owed] def Dev.early : Nat := Tbl.look 0 (bankKey pc sid bank) (d.stk st).ahead

/-- An idle bank takes every refresh that it owes, and one more is pulled in, up to eight. -/
theorem refresh_idle : let e := refresh st pc sid bank false d
    e.owed st pc sid bank = 0 ∧ e.early st pc sid bank = min 8 (d.early st pc sid bank + 1) := by
  simp [refresh, Dev.owed, Dev.early]

/-- A busy bank postpones a refresh, up to eight, unless one was pulled in for it. -/
theorem refresh_busy : let e := refresh st pc sid bank true d
    (d.early st pc sid bank = 0 → e.owed st pc sid bank = min 8 (d.owed st pc sid bank + 1) ∧ e.early st pc sid bank = 0) ∧
    (0 < d.early st pc sid bank → e.owed st pc sid bank = d.owed st pc sid bank ∧
      e.early st pc sid bank = d.early st pc sid bank - 1) := by
  unfold refresh Dev.owed Dev.early
  generalize bankKey pc sid bank = key
  simp only [Dev.stk_updStk_self, Bool.not_true, Bool.false_eq_true, if_false]
  refine ⟨fun none_early => ?_, fun some_early => ?_⟩
  · simp [none_early]
  · by_cases one : Tbl.look 0 key (d.stk st).ahead = 1
    · simp [one]
    · have more : 1 < Tbl.look 0 key (d.stk st).ahead := by omega
      simp [more]

/-- A bank that owes eight refreshes takes one. -/
theorem refreshForced_due (due : 8 ≤ d.owed st pc sid bank) : let e := refreshForced st pc sid bank d
    e.owed st pc sid bank = 7 ∧ e.early st pc sid bank = d.early st pc sid bank ∧ e.regs = d.regs := by
  have taken : refreshForced st pc sid bank d =
      d.updStk st (fun k => { k with postponed := Tbl.put (bankKey pc sid bank) 7 k.postponed }) := if_neg (Nat.not_lt.mpr due)
  rw [taken]
  simp [Dev.owed, Dev.early]

/-- A bank that owes fewer is forced to nothing. -/
theorem refreshForced_early (early : d.owed st pc sid bank < 8) : refreshForced st pc sid bank d = d := if_pos early

/-- A retraining is counted, and its time taken. -/
theorem retrain_spec : let e := retrain st pc d
    e.stkReg st 0x43 = (d.stkReg st 0x43 + 1) % 2 ^ 64 ∧ Tbl.look? pc (e.stk st).lastTrain = some d.now ∧
      d.sameRegs e [(0x3800 + st, 0x43)] := by
  have counted : (d.incReg (0x3800 + st) 0x43).reg (0x3800 + st) 0x43 = (d.reg (0x3800 + st) 0x43 + 1) % 2 ^ 64 :=
    Dev.reg_incReg_self _ _ _
  refine ⟨counted, ?_, d.sameRegs_setReg (by decide) (by simp) _⟩
  unfold retrain
  dsimp only
  rw [Dev.stk_updStk_self]
  exact Tbl.look?_put_self _ _ _

end Refresh

/-! Marked lanes (R258). -/

/-- A written entry is listed. -/
theorem Tbl.mem_put {α : Type} (k : Nat) (v : α) (t : Tbl α) : (k, v) ∈ Tbl.put k v t := by
  induction t with
  | nil => simp [Tbl.put]
  | cons p t ih =>
    unfold Tbl.put
    split
    · simp
    · split
      · simp
      · exact List.mem_cons_of_mem _ ih

/-- A written entry adds at most one to those with a property. -/
theorem Tbl.length_filter_put {α : Type} (f : Nat × α → Bool) (k : Nat) (v : α) (t : Tbl α) :
    ((Tbl.put k v t).filter f).length ≤ (t.filter f).length + 1 := by
  simp only [← List.countP_eq_length_filter]
  have one (p : Nat × α) : (if f p = true then 1 else 0) ≤ 1 := by split <;> omega
  induction t with
  | nil =>
    simp only [Tbl.put, List.countP_cons, List.countP_nil]
    exact Nat.add_le_add_left (one _) 0
  | cons p t ih =>
    obtain ⟨j, w⟩ := p
    have := one (k, v)
    unfold Tbl.put
    split
    · rw [List.countP_cons]
      omega
    · split
      · simp only [List.countP_cons]
        omega
      · simp only [List.countP_cons]
        omega

section Lanes
variable {s : State} {st pc lane : Nat}

/-- A lane put among the marked ones of a stack. -/
def Dev.laneMarked (d : Dev) (st pc lane : Nat) : Dev :=
  d.updStk st (fun k => { k with marked := Tbl.put (pc * 36 + lane) 1 k.marked })

theorem Dev.markedOf_laneMarked (d : Dev) (bound : lane < 36) :
    ((d.laneMarked st pc lane).markedOf st pc).contains lane = true ∧
      ((d.laneMarked st pc lane).markedOf st pc).length ≤ (d.markedOf st pc).length + 1 := by
  unfold Dev.markedOf Dev.laneMarked
  rw [Dev.stk_updStk_self]
  constructor
  · rw [List.contains_iff_mem]
    refine List.mem_map.mpr ⟨(pc * 36 + lane, 1), List.mem_filter.mpr ⟨Tbl.mem_put _ _ _, ?_⟩, ?_⟩
    · simp only [Bool.and_eq_true, decide_eq_true_eq, and_true]
      omega
    · dsimp only
      omega
  · rw [List.length_map, List.length_map]
    exact Tbl.length_filter_put _ _ _ _

/-- May a lane be marked: sixteen corrections of this second stand against it, and it is not marked yet? -/
def Dev.laneDue (d : Dev) (st pc lane : Nat) : Prop :=
  (d.stk st).laneSec = d.now / 1000000000 ∧ 16 ≤ Tbl.look 0 (pc * 36 + lane) (d.stk st).laneCnt ∧
    (d.markedOf st pc).contains lane = false

theorem laneMark_early (early : ¬ s.dev.laneDue st pc lane) : laneMark st pc lane s = s := by
  unfold laneMark
  refine if_pos ?_
  simp only [Bool.or_eq_true, decide_eq_true_eq]
  by_contra none_bars
  simp only [not_or, Nat.not_lt, Bool.not_eq_true, ne_eq, not_not] at none_bars
  exact early ⟨none_bars.1.1, none_bars.1.2, none_bars.2⟩

/-- A lane that is due and not the fifth of its pseudo-channel is marked and shown, and nothing else but the event changes. -/
theorem laneMark_due (due : s.dev.laneDue st pc lane) (few : (s.dev.markedOf st pc).length < 4) (bound : lane < 36) :
    laneMark st pc lane s = s.onDev (fun d =>
      let e := (d.raise 0x8503 5 st none none [st, pc, lane]).laneMarked st pc lane
      e.setReg (0x3800 + st) 0x42 (e.laneEntry st)) := by
  obtain ⟨second, sixteen, unmarked⟩ := due
  have event := (EventOf.raise s.dev 0x8503 5 st none none [st, pc, lane]).1
  have marked : (s.dev.raise 0x8503 5 st none none [st, pc, lane]).markedOf st pc = s.dev.markedOf st pc := by rw [event]; rfl
  have fifth := ((s.dev.raise 0x8503 5 st none none [st, pc, lane]).markedOf_laneMarked (st := st) (pc := pc) bound).2
  rw [marked] at fifth
  unfold laneMark
  rw [unmarked, if_neg (by simp [second, sixteen])]
  exact if_neg (by change ¬ 5 ≤ (((s.dev.raise 0x8503 5 st none none [st, pc, lane]).laneMarked st pc lane).markedOf st pc).length; omega)

end Lanes

/-- LANE_MARK of a due lane with up to four marked in its pseudo-channel: the lane is marked and shown, the partition serves on. -/
theorem runs_laneMark {s : State} {st : Fin 32} {pc : Fin 64} {lane : Fin 36} (due : s.dev.laneDue st.val pc.val lane.val)
    (few : (s.dev.markedOf st.val pc.val).length < 4) : Runs (.laneMark st pc lane) s (fun t =>
      (t.dev.markedOf st.val pc.val).contains lane.val = true ∧ t.dev.stkReg st.val 0x42 = t.dev.laneEntry st.val ∧
      t.dev.service (partOfStk st.val) = s.dev.service (partOfStk st.val) ∧ s.sameStore t) := by
  refine ⟨_, congrArg Host.Outcome.next (laneMark_due due few lane.isLt), ?_, ?_, ?_, rfl, rfl, rfl⟩
  · exact (Dev.markedOf_laneMarked _ lane.isLt).1
  · exact Dev.reg_setReg_self _ _ _ _
  · have event := StopOf.of_event (EventOf.raise s.dev 0x8503 5 st.val none none [st.val, pc.val, lane.val])
    exact congrArg (· % 4) ((Dev.reg_setReg_other _ (by omega) _).trans (event.regs _ _ (by decide) (by decide)))

@[simp] theorem Dev.incReg_stk (d : Dev) (i a st : Nat) : (d.incReg i a).stk st = d.stk st := by
  rw [Dev.stk, Dev.incReg_stks, Dev.stk]

/-- RETRAINING, and RETRAINING_FORCED, which counts once more. -/
theorem runs_retraining (s : State) (st : Fin 32) (pc : Fin 64) {i : Instr} {n : Nat}
    (listed : (i, n) ∈ [(Instr.retraining st pc, 0), (Instr.retrainingForced st pc, 1)]) : Runs i s (fun t =>
      t.dev.stkReg st.val 0x43 = (s.dev.stkReg st.val 0x43 + 1) % 2 ^ 64 ∧
      (n = 1 → t.dev.stkReg st.val 0x44 = (s.dev.stkReg st.val 0x44 + 1) % 2 ^ 64) ∧
      Tbl.look? pc.val (t.dev.stk st.val).lastTrain = some s.dev.now ∧
      s.dev.sameRegs t.dev ((0x3800 + st.val, 0x43) :: (if n = 1 then [(0x3800 + st.val, 0x44)] else [])) ∧ s.sameStore t) := by
  obtain ⟨counted, time, others⟩ := retrain_spec s.dev st.val pc.val
  simp only [List.mem_cons, List.not_mem_nil, or_false] at listed
  rcases listed with ⟨rfl, rfl⟩ | ⟨rfl, rfl⟩
  · exact ⟨_, rfl, counted, nofun, time, others, rfl, rfl, rfl⟩
  · have unforced : (retrain st.val pc.val s.dev).stkReg st.val 0x44 = s.dev.stkReg st.val 0x44 :=
      others _ _ (by decide) (by simp)
    refine ⟨_, rfl, ?_, fun _ => ?_, ?_, ?_, s.onDev_pending _, s.onDev_persist _, s.onDev_mem _⟩
    · exact (Dev.reg_setReg_other _ (by omega) _).trans counted
    · rw [← unforced]
      exact Dev.reg_incReg_self _ _ _
    · rw [State.onDev_dev, Dev.incReg_stk]
      exact time
    · exact Dev.sameRegs_trans
        (fun j a bound elsewhere => others j a bound fun h => elsewhere (List.mem_append_left [(0x3800 + st.val, 0x44)] h))
        (Dev.sameRegs_setReg (retrain st.val pc.val s.dev) (by decide) (List.mem_cons_of_mem _ (List.mem_singleton_self _)) _)

/-- A patrol scrub, forced or not, is one read. -/
theorem exec_patrols {s : State} {st : Fin 32} {pc : Fin 64} {i : Instr}
    (listed : i ∈ [Instr.patrolScrubRead st pc [], Instr.patrolScrubForced st pc []]) :
    exec i s = .next (patrol st.val pc.val [] s) := by
  simp only [List.mem_cons, List.not_mem_nil, or_false] at listed
  rcases listed with rfl | rfl <;> rfl

/-- SCRUB_FORCED of a line without an error: the scrub, its count, and the stall. -/
theorem exec_scrubForced_clean {s : State} {e : Fin 64} {bank : Fin 32} (off : s.dev.fn 0x7000 ≠ 2)
    (clean : ∀ p ∈ s.mem.spadErr, ¬(spadKey e.val (s.dev.scrubAt e.val bank.val / 8 * 8) ≤ p.1 * 8 ∧
      p.1 * 8 < spadKey e.val (s.dev.scrubAt e.val bank.val + 2048))) :
    exec (.scrubForced e bank []) s =
      .next (s.onDev (fun d => ((d.scrubbed e.val bank.val (Tbl.look 0 bank.val (s.dev.eng e.val).scrubLine)).incReg
        (0x3000 + e.val) 0x20).portStalls e.val 2)) := by
  change Host.Outcome.next ((scrubLine e.val bank.val [] s).onDev _) = _
  rw [scrubLine_clean off clean]
  rfl

/-- Settles O36: each of the memories' own commands by the case that its rule names. -/
theorem memoriesMaintained : Obligations.memoriesMaintained := by
  refine ⟨fun s e bank => ⟨fun w oldest => ?_, fun absent => ?_, fun off clean => ⟨?_, ?_⟩, fun die cause holder wiping => ?_,
    fun die idle => ?_⟩, fun s st pc => ⟨fun i listed => ⟨fun barred => ?_, fun on serves off clean => ?_⟩,
    fun sid bank => ⟨?_, ?_, fun due => ?_, fun early => ?_⟩, fun i n => runs_retraining s st pc,
    fun lane => ⟨fun early => ?_, runs_laneMark⟩⟩⟩
  · refine ⟨_, congrArg Host.Outcome.next (spadWriteback_some oldest), fun good => ?_, ?_, ?_, ?_, rfl⟩
    · simp only [good, Bool.false_eq_true, if_false]
      exact Tbl.look?_del_self _ _
    · dsimp only
      split <;> rfl
    · dsimp only
      split <;> rfl
    · exact congrArg Eng.writeback (Dev.eng_updEng_self _ _ _)
  · exact congrArg Host.Outcome.next (spadWriteback_none absent)
  · exact congrArg Host.Outcome.next (scrubLine_clean off clean)
  · exact exec_scrubForced_clean off clean
  · obtain ⟨gone, counted, lost⟩ := s.dev.wipeEnded_spec die.val cause holder
    exact ⟨_, congrArg Host.Outcome.next (wipeComplete_some wiping), fun k inside => Store.cellByte_zeroSpad_inside _ inside,
      fun k outside => Store.cellByte_zeroSpad_outside _ outside, rfl, rfl, rfl, gone, counted, lost⟩
  · exact congrArg Host.Outcome.next (wipeComplete_none idle)
  · rw [exec_patrols listed, patrol_none barred]
  · obtain ⟨moved, others⟩ := s.dev.patrolled_spec st.val pc.val
    refine ⟨s.onDev (fun d => d.patrolled st.val pc.val),
      (exec_patrols listed).trans (congrArg Host.Outcome.next (patrol_clean on serves off clean)),
      ⟨s.onDev_pending _, s.onDev_persist _, s.onDev_mem _⟩, ?_, ?_⟩
    all_goals rw [s.onDev_dev]
    · exact moved
    · exact others
  · obtain ⟨owes_none, pulled⟩ := refresh_idle s.dev st.val pc.val sid.val bank.val
    exact ⟨_, rfl, owes_none, pulled, ⟨rfl, rfl, rfl⟩, rfl⟩
  · exact ⟨_, rfl, ⟨rfl, rfl, rfl⟩, rfl, refresh_busy s.dev st.val pc.val sid.val bank.val⟩
  · obtain ⟨taken, kept, regs⟩ := refreshForced_due s.dev st.val pc.val sid.val bank.val due
    exact ⟨_, rfl, taken, kept, ⟨rfl, rfl, rfl⟩, regs⟩
  · exact congrArg (fun d => Host.Outcome.next { s with dev := d }) (refreshForced_early s.dev st.val pc.val sid.val bank.val early)
  · exact congrArg Host.Outcome.next (laneMark_early early)

end Sys2Proof.Machine

namespace Sys2Proof.Machine
open Sys2Proof

/-! The primitives of a computation keep the form: they read, change the part, fail, or run a computation inside. -/

section Primitives
variable {α β γ : Type}

theorem Act.Keeps.refuseIf {b : Bool} {code : Nat} : (Act.refuseIf b code).Keeps := .ite (.refuse _) (.pure _)

theorem Act.Keeps.num {e : Option Nat} {m : Num α} : (Act.num e m).Keeps := fun _ h => h

theorem Act.Keeps.stage {u : Using} {x : Staged} : (Act.stage u x).Keeps := by
  unfold Act.stage
  split
  · exact .upd _
  · exact .upd _
  · exact .pure _

theorem Act.Keeps.unstage {e : Nat} : (Act.unstage e).Keeps := .upd _

theorem Act.Keeps.peek {m : Act α} : m.peek.Keeps := fun _ h => h

/-- A changed code changes no memory. -/
theorem Act.Keeps.recode {m : Act α} {old new : Nat} (hm : m.Keeps) : (m.recode old new).Keeps := by
  intro w h
  have left := hm w h
  unfold Act.recode
  split
  · next run => rwa [run] at left
  · exact left

/-- What the part becomes says nothing of the memories. -/
theorem Wd.mem_wf_mk {m : Store} (h : m.wf) (d : Dev) : (⟨m, d⟩ : Wd).mem.wf := h

theorem Act.Keeps.work {c e : Nat} {m : Act α} (hm : m.Keeps) : (Act.work c e m).Keeps :=
  fun w h => Wd.mem_wf_mk (hm w h) _

theorem Act.Keeps.map {f : α → β} {m : Act α} (hm : m.Keeps) : (f <$> m).Keeps := .bind hm fun _ => .pure _

/-- A choice whose two branches go on alike: each branch keeps the form, and what follows does. -/
theorem Act.Keeps.joinIte {c : Prop} [Decidable c] {a b : Act α} {k : α → Act β} (ha : a.Keeps) (hb : b.Keeps)
    (hk : ∀ x, (k x).Keeps) : Act.Keeps (if c then a >>= k else b >>= k) := .ite (.bind ha hk) (.bind hb hk)

/-- A computation that is made on a condition only, and what follows in either case. -/
theorem Act.Keeps.joinWhen {c : Prop} [Decidable c] {a : Act PUnit} {k : PUnit → Act β} (ha : a.Keeps)
    (hk : ∀ x, (k x).Keeps) : Act.Keeps (if c then a >>= k else k ⟨⟩) := .ite (.bind ha hk) (hk _)

/-- A fold keeps the form when its step does. -/
theorem Act.Keeps.foldlM {f : β → α → Act β} (hf : ∀ b a, (f b a).Keeps) {l : List α} :
    ∀ {b : β}, (l.foldlM f b).Keeps := by
  induction l with
  | nil => exact .pure _
  | cons a l ih => exact .bind (hf _ a) fun _ => ih

/-- A computation for each element of a list keeps the form when each one does. -/
theorem Act.Keeps.mapM {f : α → Act β} (hf : ∀ a, (f a).Keeps) {l : List α} : (l.mapM f).Keeps := by
  induction l with
  | nil =>
    rw [List.mapM_nil]
    exact .pure _
  | cons a l ih =>
    rw [List.mapM_cons]
    exact .bind (hf a) fun _ => .bind ih fun _ => .pure _

/-- A computation made for each element of a list keeps the form when each one does. -/
theorem Act.Keeps.forM {f : α → Act PUnit} (hf : ∀ a, (f a).Keeps) {l : List α} : Act.Keeps (l.forM f) := by
  induction l with
  | nil => exact .pure _
  | cons a l ih => exact .bind (hf a) fun _ => ih

end Primitives

/-! The model's computations keep the form of the memories: each is built of the primitives and of computations that keep
it, so its proof names, in the order of its definition, why each part does. -/

/-! Translated memory. -/

theorem locate_keeps {u : Using} {write : Bool} {va n : Nat} : (locate u write va n).Keeps :=
  pieces_keeps _ _ _ _ _

theorem vreadNat_keeps {u : Using} {va n : Nat} : (vreadNat u va n).Keeps :=
  .bind (vread_keeps _ _ _) fun _ => .pure _

/-! Operands and runs of a descriptor. -/

theorem readDesc_keeps {u : Using} {va : Nat} : (readDesc u va).Keeps :=
  .bind vreadNat_keeps fun _ => .bind .refuseIf fun _ => .pure _

theorem readRun_keeps {u : Using} {fmt base p n : Nat} : (readRun u fmt base p n).Keeps :=
  .bind (vread_keeps _ _ _) fun _ => .pure _

theorem readPos_keeps {u : Using} {fmt base : Nat} {ps : List Nat} : (readPos u fmt base ps).Keeps :=
  .bind (.mapM (fun _ => readRun_keeps)) fun _ => .pure _

theorem writeRun_keeps {u : Using} {fmt base p : Nat} {cs : List Nat} {pad : Nat} :
    (writeRun u fmt base p cs pad).Keeps :=
  .ite (vwrite_keeps _ _ _) (.bind readRun_keeps fun _ => (vwrite_keeps _ _ _))

theorem writePos_keeps {u : Using} {fmt base : Nat} {ps cs : List Nat} {pad : Nat → Nat} :
    (writePos u fmt base ps cs pad).Keeps :=
  .bind (.foldlM (fun _ _ => .bind writeRun_keeps fun _ => .pure _)) fun _ => .pure _

theorem readCoords_keeps {u : Using} {d : Desc} {cs : List (List Nat)} : (readCoords u d cs).Keeps :=
  readPos_keeps

theorem writeCoords_keeps {u : Using} {d : Desc} {cs : List (List Nat)} {codes : List Nat} :
    (writeCoords u d cs codes).Keeps :=
  writePos_keeps

theorem readScales_keeps {u : Using} {d : Desc} {ps : List Nat} : (readScales u d ps).Keeps :=
  .bind readPos_keeps fun _ => .pure _

/-! Precision areas. -/

theorem readArea_keeps {u : Using} {d : Desc} {role : Option Bool} : (readArea u d role).Keeps :=
  .ite (.pure _) (.bind vreadNat_keeps fun _ => .bind .refuseIf fun _ => .pure _)

theorem readEntry_keeps {u : Using} {h : PrecH} {t : Nat} : (readEntry u h t).Keeps :=
  .bind vreadNat_keeps fun _ => .pure _

theorem readRunners_keeps {u : Using} {h : PrecH} {t : Nat} : (readRunners u h t).Keeps :=
  .bind readEntry_keeps fun _ => .ite (.pure _) (.bind (vread_keeps _ _ _) fun _ => .bind .stage fun _ => .pure _)

theorem readBase_keeps {u : Using} {d : Desc} {cs : List (List Nat)} : (readBase u d cs).Keeps :=
  .bind readCoords_keeps fun _ => .ite (.bind readScales_keeps fun _ => .pure _) (.pure _)

theorem readWiden_keeps {u : Using} {d : Desc} {h : PrecH} {t rung : Nat} {cs : List (List Nat)} :
    (readWiden u d h t rung cs).Keeps :=
  .bind readPos_keeps fun _ => .bind readPos_keeps fun _ => .bind .stage fun _ => .pure _

theorem readEls_keeps {u : Using} {d : Desc} {h : Option PrecH} {cs : List (List Nat)} :
    (readEls u d h cs).Keeps := by
  unfold readEls
  split
  · exact readBase_keeps
  · exact .bind (.mapM (fun _ => .bind readEntry_keeps fun _ => .pure _)) fun _ => .joinIte (.pure _) readBase_keeps
      (fun _ => .bind (.forIn _ (fun _ _ => .ite (.bind readWiden_keeps fun _ => .pure _) (.pure _)) _) fun _ =>
      .pure _)

theorem liftOf_keeps {u : Using} {layer : Nat} : (liftOf u layer).Keeps :=
  .bind .dev fun _ => by
    split
    · exact .pure _
    · exact .bind vreadNat_keeps fun _ => .pure _

theorem charge_keeps {u : Using} {layer step tiles troubled run failed : Nat} :
    (charge u layer step tiles troubled run failed).Keeps :=
  .bind .dev fun _ => by
    split
    · exact .upd _
    · exact .bind vreadNat_keeps fun _ => (vwrite_keeps _ _ _)

theorem writeBase_keeps {p : Prod} {bl : List (List Val)} {enc : TileEnc} : (writeBase p bl enc).Keeps :=
  .bind writeCoords_keeps fun _ => .ite writePos_keeps (.pure _)

theorem writeWiden_keeps {p : Prod} {h : PrecH} {t : Nat} {bl : List (List Val)} {enc : TileEnc} :
    (writeWiden p h t bl enc).Keeps :=
  .bind writePos_keeps fun _ => .ite writePos_keeps (.pure _)

theorem produceFlat_keeps {p : Prod} {vs : List Val} : (produceFlat p vs).Keeps :=
  .ite (.pure _) (.bind writeBase_keeps fun _ => .upd _)

theorem rotated_keeps {p : Prod} {h : PrecH} {vs : List Val} : (rotated p h vs).Keeps :=
  .ite (.pure _) (.bind (.mapM (fun _ => .bind .num fun _ => .bind (.upd _) fun _ => .pure _)) fun _ => .pure _)

theorem writeCopies_keeps {p : Prod} {h : PrecH} {src t : Nat} {vs : List Val} : (writeCopies p h src t vs).Keeps :=
  .bind .dev fun _ => .ite (.pure _) (.ite (.ite (.bind (.upd _) fun _ => .upd _) (.upd _)) (.bind .num fun _ =>
    writePos_keeps))

theorem produceTile_keeps {p : Prod} {h : PrecH} {t : Nat} {vs : List Val} : (produceTile p h t vs).Keeps :=
  .bind rotated_keeps fun _ => .bind liftOf_keeps fun _ => by
    split
    extract_lets
    split
    split
    exact .joinIte writeBase_keeps writeWiden_keeps fun _ => by
      beta_reduce
      extract_lets -underBinder rest
      have hrest : ∀ y, Act.Keeps (rest y) := fun _ => .bind (vwrite_keeps _ _ _) fun _ => .bind (.upd _) fun _ =>
        .joinWhen charge_keeps fun _ => .bind writeCopies_keeps fun _ => .pure _
      exact .ite (.bind .dev fun _ => .bind (.upd _) fun _ => .bind (vwrite_keeps _ _ _) fun _ => .bind (.upd _)
        fun _ => hrest ⟨⟩) (hrest ⟨⟩)

theorem produce_keeps {p : Prod} {vs : List Val} : (produce p vs).Keeps := by
  unfold produce
  split
  · exact produceFlat_keeps
  · exact .bind (.forIn _ (fun _ _ => .bind produceTile_keeps fun _ => .ite (.pure _) (.pure _)) _) fun _ => .ite
      (.upd _) (.pure _)

/-! Commands of streams. -/

theorem plainHeader_keeps {o : Origin} {reserved : Nat} : (plainHeader o reserved).Keeps :=
  .bind .refuseIf fun _ => .bind .dev fun _ => .refuseIf

theorem slotHeader_keeps {o : Origin} {reserved : Nat} : (slotHeader o reserved).Keeps :=
  .bind .refuseIf fun _ => .bind .dev fun _ => by
    split
    · exact .refuse _
    · exact .bind .refuseIf fun _ => .bind .refuseIf fun _ => .bind .refuseIf fun _ => .pure _

theorem logCommand_keeps {c i raw : Nat} : (logCommand c i raw).Keeps :=
  .bind .dev fun _ => .ite (.pure _) (.ite (.upd _) (.bind (vwrite_keeps _ _ _) fun _ => .upd _))

/-! Vector commands. -/

theorem vecSource_keeps {u : Using} {e va : Nat} : (vecSource u e va).Keeps :=
  .bind readDesc_keeps fun _ => .bind .refuseIf fun _ => .bind readArea_keeps fun _ => .pure _

theorem vecIssue_keeps {op : Nat} {o : Origin} {f : VecF} : (vecIssue op o f).Keeps :=
  .bind slotHeader_keeps fun _ => .bind .refuseIf fun _ => .joinIte (.map vecSource_keeps) (.pure _) (fun _ =>
    .joinIte (.map vecSource_keeps) (.pure _) (fun _ => .joinIte (.map vecSource_keeps) (.pure _) (fun _ => .bind
    readDesc_keeps fun _ => .joinIte (.map readDesc_keeps) (.pure _) (fun _ => .bind .refuseIf fun _ => .bind
    .refuseIf fun _ => .bind .refuseIf fun _ => .bind .refuseIf fun _ => .joinIte (.pure _) readArea_keeps (fun _ =>
    .bind .refuseIf fun _ => .pure _)))))

theorem readLines_keeps {u : Using} {s : Option (Desc × Option PrecH)} {cs : List (List Nat)} :
    (readLines u s cs).Keeps := by
  unfold readLines
  split
  · exact .pure _
  · exact readEls_keeps

theorem softmaxLines_keeps {e : Nat} {u : Using} {x : VecCmd} {src : Option Desc} {keys : List (List Nat)} :
    (softmaxLines e u x src keys).Keeps :=
  .bind .dev fun _ => .bind readLines_keeps fun _ => .bind .num fun _ => .bind (.upd _) fun _ => .pure _

theorem tileVals_keeps {e : Nat} {x : VecCmd} {cs : List (List Nat)} : (tileVals e x cs).Keeps :=
  .ite (.bind readLines_keeps fun _ => .ite (.pure _) (.bind .num fun _ => .pure _)) (.ite (.bind readLines_keeps
    fun _ => .ite (.bind .num fun _ => .pure _) (.bind .num fun _ => .pure _)) (.ite (.bind softmaxLines_keeps
    fun _ => .pure _) (.ite (.bind readLines_keeps fun _ => .bind .num fun _ => .ite (.bind .num fun _ => .pure _)
    (.pure _)) (.bind readLines_keeps fun _ => .bind readLines_keeps fun _ => .bind readLines_keeps fun _ => .ite
    (.bind .num fun _ => .pure _) (.bind .num fun _ => .pure _)))))

theorem vecWin_keeps {e : Nat} {x : VecCmd} : (vecWin e x).Keeps :=
  .bind readLines_keeps fun _ => .bind .num fun _ => .bind (vwrite_keeps _ _ _) fun _ => .upd _

theorem vecTile_keeps {e : Nat} {x : VecCmd} : (vecTile e x).Keeps :=
  .ite vecWin_keeps (.bind .unstage fun _ => .bind tileVals_keeps fun _ => .bind .dev fun _ => .joinWhen .stage fun _ =>
    .bind produce_keeps fun _ => by
      cases x.p with
      | none => exact .upd _
      | some _ => exact .bind .num fun _ => .bind writeCoords_keeps fun _ => .upd _)

theorem vecRun_keeps {e : Nat} {x : VecCmd} : (vecRun e x).Keeps :=
  .bind (.forIn _ (fun _ _ => .bind vecTile_keeps fun _ => .pure _) _) fun _ => .upd _

theorem vecWhole_keeps {op : Nat} {o : Origin} {f : VecF} : (vecWhole op o f).Keeps :=
  .bind vecIssue_keeps fun _ => .bind .dev fun _ => .ite (.bind (.work vecRun_keeps) fun _ => .pure _) (.bind (.upd _)
    fun _ => .pure _)

/-! Queues of the engines. -/

theorem vecQueue_keeps {op : Nat} {o : Origin} {f : VecF} : (vecQueue op o f).Keeps :=
  .bind vecIssue_keeps fun _ => .bind (.upd _) fun _ => .pure _

/-! Array commands. -/

theorem mtileIssue_keeps {o : Origin} {f : MtileF} : (mtileIssue o f).Keeps :=
  .bind slotHeader_keeps fun _ => .bind .refuseIf fun _ => .bind .refuseIf fun _ => .bind .refuseIf fun _ => .bind
    readDesc_keeps fun _ => .bind readDesc_keeps fun _ => .joinIte (.map readDesc_keeps) (.pure _) fun dd => .bind
    .refuseIf fun _ => .bind readArea_keeps fun _ => .bind readArea_keeps fun _ => by
    extract_lets -underBinder rest
    have hrest : ∀ y, Act.Keeps (rest y) := fun _ => .bind .refuseIf fun _ => .bind .refuseIf fun _ => .bind .dev
      fun _ => by
        dsimp only
        split
        · exact .bind .refuseIf fun _ => .bind .refuseIf fun _ => .pure _
        · exact .bind .refuseIf fun _ => .bind .refuseIf fun _ => .bind .refuseIf fun _ => .bind .refuseIf fun _ =>
            .pure _
    cases dd with
    | none => exact .bind (.pure _) fun _ => hrest _
    | some _ => exact .bind readArea_keeps fun _ => hrest _

theorem mtileQueue_keeps {o : Origin} {f : MtileF} : (mtileQueue o f).Keeps :=
  .bind mtileIssue_keeps fun _ => .bind (.upd _) fun _ => .pure _

theorem readOpd_keeps {u : Using} {d : Desc} {h : Option PrecH} {kd xd k0 kc x0 xc : Nat} :
    (readOpd u d h kd xd k0 kc x0 xc).Keeps :=
  .bind readEls_keeps fun _ => .pure _

theorem opdRunners_keeps {u : Using} {d : Desc} {h : Option PrecH} {ts : List Nat} {k0 kc x0 xc : Nat} :
    (opdRunners u d h ts k0 kc x0 xc).Keeps := by
  unfold opdRunners
  split
  · exact .pure _
  · exact .bind (.mapM (fun _ => .bind readRunners_keeps fun _ => .pure _)) fun _ => .pure _

theorem opdRecord_keeps {u : Using} {d : Desc} {h : Option PrecH} {kd xd k0 kc x0 xc : Nat} :
    (opdRecord u d h kd xd k0 kc x0 xc).Keeps := by
  unfold opdRecord
  split
  · exact .pure _
  · exact .bind (.mapM (fun _ => .bind readEntry_keeps fun _ => .ite (.bind .peek fun _ => .pure _) (.bind (.pure _)
      fun _ => .pure _))) fun _ => .pure _

theorem readWeights_keeps {e : Nat} {j : TileJob} : (readWeights e j).Keeps :=
  readOpd_keeps

theorem stripChecked_keeps {u : Using} {pol : Policy} {d : Desc} {h : Option PrecH} {act : Bool}
    {layer step kd xd k0 x0 : Nat} : (stripChecked u pol d h act layer step kd xd k0 x0).Keeps :=
  .bind .dev fun _ => by
    split
    · exact .pure _
    · exact .bind vreadNat_keeps fun _ => .ite (.pure _) (.pure _)

theorem sampleOf_keeps {e : Nat} {j : TileJob} : (sampleOf e j).Keeps :=
  .bind .dev fun _ => by
    extract_lets -underBinder c pol layer
    clear_value layer
    cases layer with
    | none => exact .pure _
    | some _ => exact .ite (.pure _) (.bind stripChecked_keeps fun _ => .bind stripChecked_keeps fun _ => .pure _)

theorem feedJob_keeps {e : Nat} {j : TileJob} : (feedJob e j).Keeps :=
  .bind .dev fun _ => by
    extract_lets -underBinder k s acc rest
    have hrest : ∀ y, Act.Keeps (rest y) := fun _ => .bind .unstage fun _ => .bind opdRecord_keeps fun _ =>
      .bind opdRecord_keeps fun _ => .joinWhen (.fail2 _) fun _ => by
        beta_reduce
        extract_lets -underBinder keepHere fed
        have hfed : ∀ y, Act.Keeps (fed y) := fun _ => .joinWhen (.upd _) fun _ => .bind readOpd_keeps fun _ =>
          .bind .num fun _ => .joinIte sampleOf_keeps (.pure _) fun _ => .upd _
        have hkept : ∀ a, Act.Keeps (if keepHere = true then pure a >>= fed else readWeights e j >>= fed) :=
          fun _ => .joinIte (.pure _) readWeights_keeps hfed
        cases k.shadow with
        | none => cases k.active with
          | none => exact .bind readWeights_keeps hfed
          | some a => exact hkept _
        | some t => cases k.active with
          | none => exact .joinIte (.pure _) readWeights_keeps hfed
          | some a => exact .ite (.bind (.pure _) hfed) (hkept _)
    clear_value rest acc
    cases acc with
    | none => exact .joinWhen (.fail2 _) hrest
    | some _ => exact .joinWhen (.fail2 _) fun _ => .joinWhen (.fail2 _) fun _ => .joinWhen (.fail2 _) hrest

theorem joinPass_keeps {e : Nat} {j : TileJob} {a : Accum} : (joinPass e j a).Keeps :=
  .bind .num fun _ => .ite (.bind (.upd _) fun _ => .pure _) (.pure _)

theorem opdValues_keeps {e : Nat} {d : Desc} {els : List (List El)} : (opdValues e d els).Keeps :=
  .num

theorem mergeOne_keeps {e : Nat} {f : MtileF} {wRun aRun : List (Nat × Nat × Nat)} {wv av : List (List Nat)}
    {bank : List Nat} : (mergeOne e f wRun aRun wv av bank).Keeps :=
  .bind .num fun _ => .bind (.upd _) fun _ => .pure _

theorem mergeAll_keeps {e c : Nat} {a : Accum} : (mergeAll e c a).Keeps :=
  .bind .unstage fun _ => .foldlM (fun _ _ => .bind opdRunners_keeps fun _ => .bind opdRunners_keeps fun _ => .bind
    readOpd_keeps fun _ => .bind readOpd_keeps fun _ => .bind opdValues_keeps fun _ => .bind opdValues_keeps fun _ =>
    mergeOne_keeps)

theorem drainVals_keeps {e : Nat} {j : TileJob} {d : Desc} {a : Accum} : (drainVals e j d a).Keeps :=
  .joinIte (.mapM (fun _ => vreadNat_keeps)) (.pure _) (fun _ => .bind (.mapM (fun _ => .mapM (fun _ => .ite (.bind
    .num fun _ => .pure _) (.bind (.pure _) fun _ => .pure _)))) fun _ => .pure _)

theorem drainRows_keeps {e : Nat} {j : TileJob} {d : Desc} {a : Accum} : (drainRows e j d a).Keeps :=
  .bind drainVals_keeps fun _ => .bind .dev fun _ => .bind (.upd _) fun _ => by
    extract_lets
    split
    · exact .bind (.mapM (fun _ => produceFlat_keeps)) fun _ => .pure _
    · exact produce_keeps

theorem readCopies_keeps {u : Using} {pol : Policy} {d : Desc} {h : PrecH} {kd xd k0 kc x0 xc : Nat} :
    (readCopies u pol d h kd xd k0 kc x0 xc).Keeps :=
  .bind .dev fun _ => .mapM (fun _ => .mapM (fun _ => .ite (.pure _) (.bind vreadNat_keeps fun _ => .bind
    vreadNat_keeps fun _ => .pure _)))

theorem refOpd_keeps {u : Using} {pol : Policy} {d : Desc} {h : Option PrecH} {kd xd k0 kc x0 xc : Nat} :
    (refOpd u pol d h kd xd k0 kc x0 xc).Keeps := by
  unfold refOpd
  split
  · exact .bind (.map readCopies_keeps) fun _ => .bind .stage fun _ => .pure _
  · exact .bind (.map readOpd_keeps) fun _ => .bind .stage fun _ => .pure _

theorem rerun_keeps {e c : Nat} {passes : List PassRec} {interval : PassRec → Nat}
    {opds : PassRec → Act ((List (List El) × Nat) × (List (List El) × Nat))} (hopds : ∀ p, (opds p).Keeps) :
    (rerun e c passes interval opds).Keeps :=
  .bind (.foldlM fun _ _ => .bind (hopds _) fun _ => .bind (.upd _) fun _ => .bind .num fun _ => .bind .num fun _ =>
    .pure _) fun _ => .pure _

theorem reencode_keeps {e : Nat} {u : Using} {pol : Policy} {d : Desc} {h : PrecH} {t rung : Nat} :
    (reencode e u pol d h t rung).Keeps :=
  .bind .dev fun _ => .bind vreadNat_keeps fun _ => .bind (.mapM (fun _ => vreadNat_keeps)) fun _ => .bind .num
    fun _ => .bind .num fun _ => .bind .stage fun _ => .pure _

theorem repeatOpd_keeps {e : Nat} {u : Using} {pol : Policy} {maxLift : Nat} {d : Desc} {h : Option PrecH}
    {rungs : List (Nat × Nat)} {kd xd k0 kc x0 xc : Nat} :
    (repeatOpd e u pol maxLift d h rungs kd xd k0 kc x0 xc).Keeps := by
  unfold repeatOpd
  split
  · exact .bind (.mapM (fun _ => reencode_keeps)) fun _ => .pure _
  · exact .bind readOpd_keeps fun _ => .pure _

theorem repeatAcc_keeps {e c : Nat} {pol : Policy} {maxLift : Nat} {a : Accum} : (repeatAcc e c pol maxLift a).Keeps
    :=
  .bind (.mapM (fun _ => .bind repeatOpd_keeps fun _ => .bind repeatOpd_keeps fun _ => .pure _)) fun _ => .bind
    (.foldlM (fun _ _ => .bind (.upd _) fun _ => .bind .num fun _ => .bind .num fun _ => .pure _)) fun _ => .foldlM
    (fun _ _ => .ite (.pure _) (.bind opdValues_keeps fun _ => .bind opdValues_keeps fun _ => mergeOne_keeps))

theorem checkAcc_keeps {e : Nat} {j : TileJob} {a : Accum} : (checkAcc e j a).Keeps :=
  .bind .dev fun _ => .bind .unstage fun _ => .bind (rerun_keeps fun _ => .bind refOpd_keeps fun _ =>
    .bind refOpd_keeps fun _ => .pure _) fun _ => .bind .num fun _ => by
    split
    · exact .bind (.upd _) fun _ => .pure _
    · exact .bind (.upd _) fun _ => .bind charge_keeps fun _ => .ite (.pure _) (.bind liftOf_keeps fun _ =>
        .ite (.bind (.upd _) fun _ => .pure _) repeatAcc_keeps)

/-! Jobs of the root engines. -/

/-- By induction on the fuel. -/
theorem forwardRange_keeps {c s : Nat} {write : Bool} : ∀ {fuel va n : Nat}, (forwardRange c s write fuel va n).Keeps
  | 0, _, _ => .pure _
  | _ + 1, _, _ => .ite (.pure _) (.bind (leafOf_keeps _ _) fun _ => .bind (.upd _) fun _ =>
    .bind (translate_keeps _ _ _) fun _ => forwardRange_keeps)

theorem jobDescs_keeps {c : Nat} {r : JobRec} : (jobDescs c r).Keeps :=
  .mapM (fun _ => readDesc_keeps)

theorem jobAreas_keeps {c : Nat} {r : JobRec} {ds : List Desc} : (jobAreas c r ds).Keeps :=
  .bind (.forIn _ (fun _ _ => .bind readArea_keeps fun _ => by
    split
    · exact .pure _
    · exact .ite (.bind .refuseIf fun _ => .bind (.forIn _ (fun _ _ => .bind forwardRange_keeps fun _ => .pure _) _)
        fun _ => .pure _) (.pure _))
    _) fun _ => .pure _

theorem refuseJob_keeps {s : Nat} {b : Bool} {code : Nat} : (refuseJob s b code).Keeps :=
  .ite (.bind (.upd _) fun _ => .refuse _) (.pure _)

theorem forwardJob_keeps {c : Fin 1024} {stamp : Nat} {r : JobRec} : (forwardJob c stamp r).Keeps :=
  .bind refuseJob_keeps fun _ => .bind jobDescs_keeps fun _ => .bind refuseJob_keeps fun _ => .bind jobAreas_keeps
    fun _ => .bind .dev fun _ => .bind .refuseIf fun _ => .bind .refuseIf fun _ => .bind (.forIn _ (fun _ _ => .bind
    (.forIn _ (fun _ _ => .bind forwardRange_keeps fun _ => .pure _) _) fun _ => .pure _) _) fun _ => .joinWhen
    forwardRange_keeps (fun _ => .ite (.bind forwardRange_keeps fun _ => .bind forwardRange_keeps fun _ => .upd _)
    (.upd _))

/-- By induction on the number of records. -/
theorem forwardFrom_keeps {o : Origin} {list : Nat} : ∀ {n i : Nat}, (forwardFrom o list n i).Keeps
  | 0, _ => .pure _
  | _ + 1, _ => .bind vreadNat_keeps fun _ => .bind .dev fun _ => .ite (.pure _)
    (.bind forwardJob_keeps fun _ => forwardFrom_keeps)

theorem rjobs_keeps {o : Origin} {list count reserved : Nat} : (rjobs o list count reserved).Keeps :=
  .bind plainHeader_keeps fun _ => .bind .refuseIf fun _ => .bind forwardFrom_keeps fun _ => by
    split
    · exact .pure _
    · exact .bind (.upd _) fun _ => .pure _

theorem undoAppend_keeps {c s : Nat} {rec_ : List Nat} : (undoAppend c s rec_).Keeps :=
  .bind .dev fun _ => .ite (.pure _) (.joinIte (.pure _) vreadNat_keeps (fun _ => .ite (.upd _) (.bind
    (vwrite_keeps _ _ _) fun _ => .upd _)))

theorem stackRuns_keeps {u : Using} {write : Bool} {xs : List (Nat × Nat)} : (stackRuns u write xs).Keeps :=
  .bind (.forIn _ (fun _ _ => .bind locate_keeps fun _ => .pure _) _) fun _ => .pure _

theorem jobOk_keeps {r : RJob} : (jobOk r).Keeps :=
  .bind jobDescs_keeps fun _ => .bind .refuseIf fun _ => jobAreas_keeps

theorem noWrites_keeps {r : RJob} : (noWrites r).Keeps := .pure _

theorem stageRun_keeps {s : Nat} {r : RJob} : (stageRun s r).Keeps :=
  .bind .dev fun _ => .bind .refuseIf fun _ => .bind readDesc_keeps fun _ => .bind (.upd _) fun _ => .bind (.upd _)
    fun _ => .pure _

theorem stageWrites_keeps {s : Nat} {r : RJob} : (stageWrites s r).Keeps :=
  .bind readDesc_keeps fun _ => stackRuns_keeps

theorem compressRun_keeps {s : Nat} {r : RJob} : (compressRun s r).Keeps :=
  .bind readDesc_keeps fun _ => .joinIte (.map readDesc_keeps) (.pure _) fun res => .bind readBase_keeps fun _ => .bind
    .num fun _ => .bind .dev fun _ => by
    extract_lets -underBinder key seen rest
    have hrest : ∀ y, Act.Keeps (rest y) := fun _ => by
      unfold rest
      extract_lets -underBinder sign now was compressed
      have hcompressed : ∀ y, Act.Keeps (compressed y) := fun _ => .joinWhen (.upd _) fun _ => .bind .num fun _ => by
        cases res with
        | none => exact .joinWhen (.upd _) fun _ => .bind (.upd _) fun _ => .pure _
        | some _ =>
          exact .bind (.forIn _ (fun _ _ => .bind undoAppend_keeps fun _ => .pure _) _) fun _ => .bind
            produceFlat_keeps fun _ => .joinWhen (.upd _) fun _ => .bind (.upd _) fun _ => .pure _
      cases res with
      | none => exact .bind (.pure _) hcompressed
      | some _ => exact .bind readBase_keeps fun _ => .bind .num fun _ => .bind (.pure _) hcompressed
    split
    · exact .bind .peek fun _ => hrest _
    · exact .bind (.pure _) fun _ => hrest _

theorem compressWrites_keeps {s : Nat} {r : RJob} : (compressWrites s r).Keeps :=
  .ite (.pure _) (.bind readDesc_keeps fun _ => stackRuns_keeps)

theorem masterValues_keeps {u : Using} {d : Desc} {cs : List (List Nat)} : (masterValues u d cs).Keeps :=
  .bind readCoords_keeps fun _ => .ite (.pure _) (.bind .num fun _ => .pure _)

theorem copyValues_keeps {s : Nat} {r : RJob} {dst : Desc} {h : Option PrecH} {fmt : Nat} {vs : List (List Nat × Nat)}
    : (copyValues s r dst h fmt vs).Keeps :=
  .bind .dev fun _ => produce_keeps

theorem copyRun_keeps {s : Nat} {r : RJob} : (copyRun s r).Keeps :=
  .bind readDesc_keeps fun _ => .bind readDesc_keeps fun _ => .bind readArea_keeps fun _ => .bind masterValues_keeps
    fun _ => .bind copyValues_keeps fun _ => .bind (.upd _) fun _ => .pure _

theorem dstExtents_keeps {u : Using} {d : Desc} : (dstExtents u d).Keeps :=
  .bind readArea_keeps fun _ => .pure _

theorem dstWrites_keeps {s : Nat} {r : RJob} : (dstWrites s r).Keeps :=
  .bind readDesc_keeps fun _ => .bind dstExtents_keeps fun _ => stackRuns_keeps

theorem convertRun_keeps {s : Nat} {r : RJob} : (convertRun s r).Keeps :=
  .bind readDesc_keeps fun _ => .bind readDesc_keeps fun _ => .bind readArea_keeps fun _ => .bind readArea_keeps
    fun _ => .bind readEls_keeps fun _ => .bind .dev fun _ => .joinIte (.pure _) .num (fun _ => .bind produce_keeps
    fun _ => .bind (.upd _) fun _ => .pure _)

theorem regionBytes_keeps {u : Using} {x : Desc} {n : Nat} : (regionBytes u x n).Keeps :=
  .bind (.mapM (fun _ => (vread_keeps _ _ _))) fun _ => .pure _

theorem streamOutRun_keeps {s : Nat} {r : RJob} : (streamOutRun s r).Keeps :=
  .bind readDesc_keeps fun _ => .bind regionBytes_keeps fun _ => .bind (.upd _) fun _ => .pure _

/-! Collectives. -/

theorem writeBits_keeps {u : Using} {d : Desc} {cs : List (List Nat)} {codes keys scales : List Nat} :
    (writeBits u d cs codes keys scales).Keeps :=
  .bind writeCoords_keeps fun _ => .ite writePos_keeps (.pure _)

theorem jobHandle_keeps {c h : Nat} : (jobHandle c h).Keeps :=
  .bind .dev fun _ => by
    split
    · exact .ite (.pure _) (.refuse _)
    · exact .refuse _

theorem floatValues_keeps {c : Nat} {s : Desc} : (floatValues c s).Keeps :=
  .bind readBase_keeps fun _ => .num

theorem localTop_keeps {c rank k : Nat} {s : Desc} : (localTop c rank k s).Keeps :=
  .bind readBase_keeps fun _ => .ite (.bind (.pure _) fun _ => .pure _) (.bind .num fun _ => .pure _)

theorem ownValues_keeps {op : Nat} {f : CollF} {c rank : Nat} {s : Desc} {cs : List ChunkRun} :
    (ownValues op f c rank s cs).Keeps := by
  unfold ownValues
  split
  · exact .bind floatValues_keeps fun _ => .pure _
  · exact .bind floatValues_keeps fun _ => .pure _
  · exact .mapM (fun _ => .ite (.pure _) (.bind readCoords_keeps fun _ => .ite (.bind readPos_keeps fun _ => .pure _)
      (.bind (.pure _) fun _ => .pure _)))
  · exact .mapM (fun _ => .ite (.pure _) (.bind readCoords_keeps fun _ => .ite (.bind readPos_keeps fun _ => .pure _)
      (.bind (.pure _) fun _ => .pure _)))
  · exact .bind localTop_keeps fun _ => .pure _
  · exact .bind vreadNat_keeps fun _ => .pure _

theorem collEnter_keeps {op : Nat} {o : Origin} {f : CollF} : (collEnter op o f).Keeps :=
  .bind plainHeader_keeps fun _ => .bind jobHandle_keeps fun _ => .bind .refuseIf fun _ => .joinIte (.map
    readDesc_keeps) (.pure _) (fun _ => .bind .refuseIf fun _ => .joinIte (.map readDesc_keeps) (.pure _) (fun _ =>
    .joinIte (.map readDesc_keeps) (.pure _) (fun _ => .bind .refuseIf fun _ => .bind (.forIn _ (fun _ _ => .bind
    readArea_keeps fun _ => .bind .refuseIf fun _ => .pure _) _) fun _ => by
    extract_lets
    split
    · exact .bind ownValues_keeps fun _ => .bind .dev fun _ => .bind (.upd _) fun _ => .pure _
    · exact .bind (.pure _) fun _ => .bind .dev fun _ => .bind (.upd _) fun _ => .pure _)))

theorem Coll.noteGradient_keeps {c : Coll} {wire n : Nat} {codes : List Nat} :
    (Coll.noteGradient c wire n codes).Keeps :=
  .ite (.upd _) (.pure _)

theorem Coll.finish_keeps {c : Coll} {x : Handle} {k : ChunkRun} {acc : List Nat} : (Coll.finish c x k acc).Keeps :=
  .bind .dev fun _ => by
    extract_lets
    split
    · exact .num
    · exact .pure _
    · exact .ite (.bind .num fun _ => .bind Coll.noteGradient_keeps fun _ => .pure _) (.bind readArea_keeps fun _ => by
        split
        · exact .bind (.pure _) fun _ => .bind .num fun _ => .pure _
        · exact .bind rotated_keeps fun _ => .bind (.pure _) fun _ => .bind .num fun _ => .pure _)

theorem Coll.deliver_keeps {c : Coll} {x : Handle} {k : ChunkRun} {res : List Nat} :
    (Coll.deliver c x k res).Keeps := by
  unfold Coll.deliver
  extract_lets
  split
  · exact .bind writeCoords_keeps fun _ => writeCoords_keeps
  · exact (vwrite_keeps _ _ _)
  · exact writeBits_keeps
  · exact .ite (.bind .num fun _ => .upd _) (.bind (.pure _) fun _ => .upd _)

theorem stepChunk_keeps {h : Nat} {c : Coll} {k : ChunkRun} : (stepChunk h c k).Keeps :=
  .bind .dev fun _ => by
    split
    · exact .pure _
    · exact .ite (.ite (.pure _) (by
        split
        · split
          · exact .pure _
          · exact .bind (.upd _) fun _ => .bind .num fun _ => .pure _
        · split
          · exact .bind .num fun _ => .bind (.upd _) fun _ => .pure _
          · exact .bind Coll.finish_keeps fun _ => .pure _))
        (.ite (.ite (.pure _) (.ite (.pure _) (by
        split
        · exact .pure _
        · split
          · exact .pure _
          · exact .bind (.upd _) fun _ => .pure _)))
        (.ite (.bind Coll.deliver_keeps fun _ => .ite (.bind (.forIn _ (fun _ _ => .bind (.upd _) fun _ => .pure _) _)
        fun _ => .pure _) (.pure _)) (.pure _)))

/-- By induction on the fuel. -/
theorem runChunk_keeps {h : Nat} {c : Coll} : ∀ {n : Nat} {k : ChunkRun}, (runChunk h c n k).Keeps
  | 0, _ => .pure _
  | _ + 1, _ => .bind stepChunk_keeps fun _ => by
    split
    · exact .pure _
    · exact runChunk_keeps

/-! Blocks and updates. -/

theorem readBlock_keeps {c va : Nat} {own : Option Nat} : (readBlock c va own).Keeps :=
  .bind vreadNat_keeps fun _ => .bind .refuseIf fun _ => .bind (.upd _) fun _ => .bind (.mapM (fun _ =>
    readDesc_keeps)) fun _ => .bind (.mapM (fun _ => readDesc_keeps)) fun _ => .joinIte (.mapM (fun _ =>
    readDesc_keeps)) (.pure _) (fun _ => .bind readDesc_keeps fun _ => .bind (.forIn _ (fun _ _ => .bind
    readArea_keeps fun _ => .pure _) _) fun _ => .bind .refuseIf fun _ => .bind .refuseIf fun _ => .pure _)

theorem updateEls_keeps {s : Nat} {r : RJob} {b : UBlock} {k : UConst} {slot t : Nat} {pos gpos idx : List Nat}
    {dst : Option (Desc × Option PrecH)} : (updateEls s r b k slot t pos gpos idx dst).Keeps :=
  .bind readBase_keeps fun _ => .bind .num fun _ => .bind (.bind readBase_keeps fun _ => .num) fun _ => .joinIte
    (.bind readBase_keeps fun _ => .num) (.pure _) (fun _ => .bind masterValues_keeps fun _ => .bind (.pure _)
    fun _ => .bind .num fun _ => .bind .num fun _ => .bind .num fun _ => .bind .dev fun _ => .bind produceFlat_keeps
    fun _ => .joinWhen produceFlat_keeps (fun _ => .bind .num fun _ => .bind writeCoords_keeps fun _ => by
    split
    · exact .bind copyValues_keeps fun _ => .pure _
    · exact .pure _))

theorem writeHalf_keeps {c s va raw u : Nat} : (writeHalf c s va raw u).Keeps :=
  .bind undoAppend_keeps fun _ => (vwrite_keeps _ _ _)

theorem updateOperands_keeps {s : Nat} {r : RJob} : (updateOperands s r).Keeps :=
  .bind readBlock_keeps fun _ => .bind .refuseIf fun _ => by
    extract_lets -underBinder k1
    have hk1 : ∀ y, Act.Keeps (k1 y) := fun _ => .joinIte (.map readDesc_keeps) (.pure _) (fun _ => .bind .refuseIf
      fun _ => .bind .refuseIf fun _ => .bind vreadNat_keeps fun _ => .bind .refuseIf fun _ => by
      split
      · exact .ite (.bind (.pure _) fun _ => .pure _) (.bind readCoords_keeps fun _ => .pure _)
      · exact .bind (.pure _) fun _ => .pure _)
    exact .ite (.bind (.pure _) fun _ => hk1 _) (.bind readDesc_keeps fun _ => .bind readArea_keeps fun _ => .bind
      (.pure _) fun _ => hk1 _)

theorem updateRun_keeps {s : Nat} {r : RJob} : (updateRun s r).Keeps :=
  .bind updateOperands_keeps fun _ => .ite (.bind (.upd _) fun _ => .pure _) (.bind .num fun _ => .ite (.bind
    vreadNat_keeps fun _ => .bind (.ite (.pure _) undoAppend_keeps) fun _ => .bind updateEls_keeps fun _ => .bind
    writeHalf_keeps fun _ => .bind (.upd _) fun _ => .pure _) (.bind .refuseIf fun _ => .bind (.ite (.pure _)
    undoAppend_keeps) fun _ => .bind (.forIn _ (fun _ _ => .bind vreadNat_keeps fun _ => .bind updateEls_keeps
    fun _ => .bind writeHalf_keeps fun _ => .pure _) _) fun _ => .bind (.upd _) fun _ => .pure _))

theorem updateWrites_keeps {s : Nat} {r : RJob} : (updateWrites s r).Keeps :=
  .bind .dev fun _ => by
    split
    · exact .pure _
    · exact .ite (.pure _) (.bind updateOperands_keeps fun _ => .ite (.pure _) (.ite (.bind (.pure _) fun _ =>
        stackRuns_keeps) (.bind vreadNat_keeps fun _ => .bind (.pure _) fun _ => stackRuns_keeps)))

/-! Images of contexts. -/

theorem entryItems_keeps {c u : Nat} {e : MEnt} : (entryItems c u e).Keeps := by
  unfold entryItems
  extract_lets
  split
  · exact .bind readBlock_keeps fun _ => .bind (.mapM (fun _ => .bind vreadNat_keeps fun _ => .pure _)) fun _ =>
      .pure _
  · exact .bind readDesc_keeps fun _ => .pure _
  · exact .bind readDesc_keeps fun _ => .bind readArea_keeps fun _ => .pure _

theorem readManifest_keeps {c va n : Nat} : (readManifest c va n).Keeps :=
  .bind (vread_keeps _ _ _) fun _ => .pure _

theorem entryPlaced_keeps {c : Nat} {e : MEnt} : (entryPlaced c e).Keeps :=
  .ite (.bind readBlock_keeps fun _ => .bind (.bind stackRuns_keeps fun _ => .pure _) fun _ => .ite (.bind
    readDesc_keeps fun _ => .bind dstExtents_keeps fun _ => .bind stackRuns_keeps fun _ => .pure _) (.pure _)) (.bind
    entryItems_keeps fun _ => .bind stackRuns_keeps fun _ => .pure _)

theorem imageRanges_keeps {c u : Nat} {es : List MEnt} : (imageRanges c u es).Keeps :=
  .bind (.forIn _ (fun _ _ => .bind (.forIn _ (fun _ _ => .ite (.bind entryItems_keeps fun _ => .bind (.forIn _
    (fun _ _ => .bind stackRuns_keeps fun _ => .pure _) _) fun _ => .pure _) (.pure _)) _) fun _ => .pure _) _)
    fun _ => .pure _

theorem sopen_keeps {o : Origin} {f : SnapF} : (sopen o f).Keeps :=
  .bind plainHeader_keeps fun _ => .bind .dev fun _ => .bind .refuseIf fun _ => .bind .refuseIf fun _ => .bind
    .refuseIf fun _ => .bind .refuseIf fun _ => .bind readManifest_keeps fun _ => .bind .refuseIf fun _ => .bind
    (.recode (.bind (.forM fun _ => entryPlaced_keeps) fun _ => imageRanges_keeps)) fun _ => .bind .refuseIf
    fun _ => .bind (.upd _) fun _ => .bind (vwrite_keeps _ _ _) fun _ => .pure _

theorem sclose_keeps {o : Origin} {reserved : Nat} : (sclose o reserved).Keeps :=
  .bind plainHeader_keeps fun _ => .bind .dev fun _ => by
    split
    · exact .pure _
    · exact .ite (.bind (.upd _) fun _ => .pure _) (.bind (.upd _) fun _ => .ite (.bind (vwrite_keeps _ _ _) fun _ =>
        .pure _) (.pure _))

theorem captureItems_keeps {c rec_ u : Nat} : (captureItems c rec_ u).Keeps :=
  .bind .dev fun _ => .bind (vread_keeps _ _ _) fun _ => .pure _

theorem readSrt_keeps {c va : Nat} : (readSrt c va).Keeps :=
  .bind (vread_keeps _ _ _) fun _ => .bind .refuseIf fun _ => .bind (.forIn _ (fun _ _ => .bind
    (translate_keeps _ _ _) fun _ => .bind (leafOf_keeps _ _) fun _ => .bind .refuseIf fun _ => .pure _) _) fun _ =>
    .pure _

theorem writeReplicas_keeps {c : Nat} {vas : List Nat} {rec_ : Nat} : (writeReplicas c vas rec_).Keeps :=
  .bind (.forIn _ (fun _ _ => .bind (vwrite_keeps _ _ _) fun _ => .pure _) _) fun _ => .pure _

/-- By induction on the ranges. -/
theorem writeItem_keeps {u : Using} : ∀ {xs : List (Nat × Nat)} {bs : List Nat}, (writeItem u xs bs).Keeps
  | [], _ => .pure _
  | _ :: _, _ => .bind (vwrite_keeps _ _ _) fun _ => writeItem_keeps

theorem restoreItems_keeps {c u : Nat} {es : List MEnt} {data : List SData} {which : List Nat} :
    (restoreItems c u es data which).Keeps :=
  .bind (.forIn _ (fun _ _ => .joinIte entryItems_keeps (.pure _) fun _ => .bind (.forIn _ (fun _ _ => by
    dsimp only
    split
    · exact .bind writeItem_keeps fun _ => .pure _
    · exact .pure _) _) fun _ => .pure _) _) fun _ => .pure _

theorem restoreAreas_keeps {c : Nat} {es : List MEnt} {data : List SData} : (restoreAreas c es data).Keeps :=
  .bind (.forIn _ (fun _ _ => by
    have hput : ∀ (found : Option SData) (u : Using) (va : Nat), Act.Keeps (match found with
        | some g => vwrite u va g.bytes
        | none => (pure () : Act Unit)) := by
      rintro (_ | g) u va
      · exact .pure _
      · exact vwrite_keeps _ _ _
    exact .ite (.bind (hput _ _ _) fun _ => .bind (hput _ _ _) fun _ => .pure _) (.pure _)) _) fun _ => .pure _

theorem zeroHalves_keeps {c u : Nat} {e : MEnt} : (zeroHalves c u e).Keeps :=
  .bind readBlock_keeps fun _ => .bind (.forIn _ (fun _ _ => .bind vreadNat_keeps fun _ => .ite (.bind
    (vwrite_keeps _ _ _) fun _ => .pure _) (.pure _)) _) fun _ => .pure _

theorem copyCurrent_keeps {c u stack obj copy aux : Nat} {rows : Option (List Nat)} :
    (copyCurrent c u stack obj copy aux rows).Keeps :=
  .bind readBlock_keeps fun _ => .bind readDesc_keeps fun _ => .bind readArea_keeps fun _ => .bind .dev fun _ => .bind
    (.forIn _ (fun _ _ => .bind vreadNat_keeps fun _ => .bind masterValues_keeps fun _ => .bind copyValues_keeps
    fun _ => .pure _) _) fun _ => .pure _

theorem restoreImage_keeps {c : Nat} {f : SnapF} {es : List MEnt} {u : Nat} {ps : List ImgPart} :
    (restoreImage c f es u ps).Keeps :=
  .bind readSrt_keeps fun _ => .bind writeReplicas_keeps fun _ => .bind .dev fun _ => .joinWhen (vwrite_keeps _ _ _)
    (fun _ => .bind (.upd _) fun _ => .bind restoreAreas_keeps fun _ => .bind restoreItems_keeps fun _ => .bind
    restoreItems_keeps fun _ => .bind restoreItems_keeps fun _ => .bind (.forIn _ (fun _ _ => .ite (.bind
    zeroHalves_keeps fun _ => .pure _) (.pure _)) _) fun _ => .bind (.forIn _ (fun _ _ => .ite (.bind
    copyCurrent_keeps fun _ => .pure _) (.pure _)) _) fun _ => .upd _)

theorem srestore_keeps {o : Origin} {f : SnapF} {all : List (Nat × List ImgPart)} : (srestore o f all).Keeps :=
  .bind plainHeader_keeps fun _ => .bind .dev fun _ => .bind .refuseIf fun _ => .bind .refuseIf fun _ => by
    extract_lets
    split
    · exact .refuse _
    · exact .bind readManifest_keeps fun _ => .bind .refuseIf fun _ => by
        split
        · exact .bind (.upd _) fun _ => .fail2 _
        · exact .bind restoreImage_keeps fun _ => .pure _

/-! Schedules of contexts. -/

theorem readSched_keeps {c : Nat} : (readSched c).Keeps :=
  .bind .dev fun _ => .bind (vread_keeps _ _ _) fun _ => .ite (.pure _) (.bind (vread_keeps _ _ _) fun _ => .ite
    (.pure _) (.pure _))

theorem loadSched_keeps {c : Nat} : (loadSched c).Keeps :=
  .bind .dev fun _ => .ite (.upd _) (.bind readSched_keeps fun _ => .upd _)

theorem capturePoint_keeps {c : Nat} {rec_ : Option (Nat × Nat)} {logAt : Nat} : (capturePoint c rec_ logAt).Keeps :=
  .bind .dev fun _ => .bind (.mapM (fun _ => .bind vreadNat_keeps fun _ => .pure _)) fun _ => .pure _

/-! Handles and staged chunks. -/

theorem stageChunk_keeps {st : Nat} {a : Arm} {k : Chunk} : (stageChunk st a k).Keeps :=
  .bind (vwrite_keeps _ _ _) fun _ => .bind .num fun _ => .bind (vwrite_keeps _ _ _) fun _ => .ite (.bind .num
    fun _ => .bind (vwrite_keeps _ _ _) fun _ => .pure _) (.pure _)

theorem readMembers_keeps {c va job : Nat} : (readMembers c va job).Keeps :=
  .bind vreadNat_keeps fun _ => .bind .refuseIf fun _ => .bind (vread_keeps _ _ _) fun _ => .bind .refuseIf fun _ =>
    .pure _

theorem ownHandle_keeps {c h : Nat} {job : Bool} : (ownHandle c h job).Keeps :=
  .bind .dev fun _ => by
    split
    · exact .ite (.pure _) (.refuse _)
    · exact .refuse _

theorem newEpoch_keeps {c : Nat} {f : HandleF} : (newEpoch c f).Keeps :=
  .bind ownHandle_keeps fun _ => .bind readMembers_keeps fun _ => .bind .refuseIf fun _ => .upd _

theorem chandle_keeps {action : Nat} {o : Origin} {f : HandleF} : (chandle action o f).Keeps :=
  .bind plainHeader_keeps fun _ => .bind .refuseIf fun _ => .bind .dev fun _ => .ite (.bind .refuseIf fun _ => .ite
    (.bind readMembers_keeps fun _ => .bind (.upd _) fun _ => .pure _) (.bind vreadNat_keeps fun _ => .bind .refuseIf
    fun _ => .bind (.upd _) fun _ => .pure _)) (.ite (.bind ownHandle_keeps fun _ => .bind (.upd _) fun _ => .pure _)
    (.ite (.bind newEpoch_keeps fun _ => .pure _) (.bind ownHandle_keeps fun _ => .bind (vread_keeps _ _ _) fun _ =>
    .bind (.upd _) fun _ => .pure _)))

/-! Moves. -/

theorem moveIssue_keeps {op : Nat} {o : Origin} {f : MoveF} : (moveIssue op o f).Keeps :=
  .bind slotHeader_keeps fun _ => .bind readDesc_keeps fun _ => .bind readDesc_keeps fun _ => .bind readArea_keeps
    fun _ => .bind readArea_keeps fun _ => .ite (.bind (.pure _) fun _ => .bind .refuseIf fun _ => .pure _) (.bind
    readDesc_keeps fun _ => .bind readArea_keeps fun _ => .bind (.pure _) fun _ => .bind .refuseIf fun _ => .pure _)

theorem movePlan_keeps {e : Nat} {x : MoveCmd} : (movePlan e x).Keeps := by
  unfold movePlan
  split
  · exact .pure _
  · exact .pure _
  · exact .bind readCoords_keeps fun _ => .bind .refuseIf fun _ => .pure _

theorem moveUnit_keeps {e : Nat} {x : MoveCmd} {prs : List (List Nat × List Nat)} : (moveUnit e x prs).Keeps :=
  .bind readCoords_keeps fun _ => .joinIte readScales_keeps (.pure _) (fun _ => .bind writeCoords_keeps fun _ => .ite
    writePos_keeps (.pure _))

theorem moveRun_keeps {e : Nat} {x : MoveCmd} : (moveRun e x).Keeps :=
  .bind movePlan_keeps fun _ => .bind (.forIn _ (fun _ _ => .bind moveUnit_keeps fun _ => .pure _) _) fun _ => .pure _

theorem moveWhole_keeps {op : Nat} {o : Origin} {f : MoveF} : (moveWhole op o f).Keeps :=
  .bind moveIssue_keeps fun _ => .bind .dev fun _ => .ite (.bind moveRun_keeps fun _ => .pure _) (.bind (.upd _)
    fun _ => .pure _)

theorem moveQueue_keeps {op : Nat} {o : Origin} {f : MoveF} : (moveQueue op o f).Keeps :=
  .bind moveIssue_keeps fun _ => .bind (.upd _) fun _ => .pure _

/-! Norms and fences. -/

theorem readNormList_keeps {c list n : Nat} : (readNormList c list n).Keeps :=
  .bind (vread_keeps _ _ _) fun _ => .bind .refuseIf fun _ => .mapM (fun _ => .bind (.recode (.recode (.recode
    readBlock_keeps))) fun _ => .pure _)

theorem normRow_keeps {c list n : Nat} {contributor : Bool} : (normRow c list n contributor).Keeps :=
  .ite (.pure _) (.bind readNormList_keeps fun _ => .bind (.mapM (fun _ => .bind vreadNat_keeps fun _ => .bind .num
    fun _ => .pure _)) fun _ => .num)

theorem normMarks_keeps {c s : Nat} : (normMarks c s).Keeps :=
  .bind .dev fun _ => .foldlM (fun _ _ => .bind (vread_keeps _ _ _) fun _ => .pure _)

theorem normEnter_keeps {c : Nat} {r : NormRun} : (normEnter c r).Keeps :=
  .bind normRow_keeps fun _ => .bind normMarks_keeps fun _ => .bind jobHandle_keeps fun _ => .upd _

theorem unorm_keeps {o : Origin} {list table handle control reserved : Nat} :
    (unorm o list table handle control reserved).Keeps :=
  .bind plainHeader_keeps fun _ => .bind .refuseIf fun _ => .bind .dev fun _ => .bind .refuseIf fun _ => .bind
    jobHandle_keeps fun _ => .bind readSrt_keeps fun _ => .bind readNormList_keeps fun _ => .bind vreadNat_keeps
    fun _ => .bind .refuseIf fun _ => .bind (.upd _) fun _ => .pure _

theorem widenLayers_keeps {c s marks : Nat} : (widenLayers c s marks).Keeps :=
  .bind .dev fun _ => .bind (.forIn _ (fun _ _ => .bind vreadNat_keeps fun _ => .ite (.bind (vwrite_keeps _ _ _)
    fun _ => .bind (.upd _) fun _ => .pure _) (.pure _)) _) fun _ => .pure _

theorem normFinish_keeps {c : Nat} {r : NormRun} {t : List Nat} {marks epoch : Nat} :
    (normFinish c r t marks epoch).Keeps :=
  .bind readSrt_keeps fun _ => .bind vreadNat_keeps fun _ => .bind .num fun _ => .bind widenLayers_keeps fun _ =>
    .bind writeReplicas_keeps fun _ => .upd _

theorem watchEntry_keeps {c stamp e : Nat} {zero sat : Bool} : (watchEntry c stamp e zero sat).Keeps :=
  .bind .dev fun _ => .bind (.upd _) fun _ => .pure _

theorem watches_keeps {c stamp : Nat} : (watches c stamp).Keeps :=
  .bind .dev fun _ => .ite (.pure _) (.bind (.forIn _ (fun _ _ => .bind vreadNat_keeps fun _ => by
    split
    · exact .pure _
    · exact .bind watchEntry_keeps fun _ => .bind (vwrite_keeps _ _ _) fun _ => .pure _)
    _) fun _ => .pure _)

theorem fenceCommit_keeps {o : Origin} {table : Nat} : (fenceCommit o table).Keeps :=
  .bind watches_keeps fun _ => .bind readSrt_keeps fun _ => .bind vreadNat_keeps fun _ => .bind writeReplicas_keeps
    fun _ => .bind (.upd _) fun _ => .pure _

theorem ufence_keeps {o : Origin} {table reserved : Nat} : (ufence o table reserved).Keeps :=
  .bind plainHeader_keeps fun _ => .bind .dev fun _ => .bind .refuseIf fun _ => .bind readSrt_keeps fun _ => .bind
    (.upd _) fun _ => .pure _

/-! Synchronisation. -/

theorem swait_keeps {o : Origin} {obj timeout value reserved : Nat} : (swait o obj timeout value reserved).Keeps :=
  .bind plainHeader_keeps fun _ => .bind .dev fun _ => .bind .refuseIf fun _ => .ite (.pure _) (.bind (.upd _)
    fun _ => .pure _)

theorem ssignal_keeps {isSet : Bool} {o : Origin} {obj value reserved : Nat} :
    (ssignal isSet o obj value reserved).Keeps :=
  .bind plainHeader_keeps fun _ => .bind .dev fun _ => .bind .refuseIf fun _ => .bind (.upd _) fun _ => .pure _

theorem sremote_keeps {o : Origin} {obj rank handle value reserved : Nat} :
    (sremote o obj rank handle value reserved).Keeps :=
  .bind plainHeader_keeps fun _ => .bind .dev fun _ => by
    split
    · exact .fail2 _
    · exact .bind .refuseIf fun _ => .ite (.fail2 _) (.ite (.bind (.upd _) fun _ => .ite (.pure _) (.fail2 _)) (.bind
        (.upd _) fun _ => .pure _))

theorem sfence_keeps {o : Origin} {addr value reserved : Nat} : (sfence o addr value reserved).Keeps :=
  .bind plainHeader_keeps fun _ => .bind .dev fun _ => by
    split
    · exact .ite (.pure _) (.bind (.upd _) fun _ => .pure _)
    · exact .pure _

theorem hphase_keeps {o : Origin} {lead duration cls parts reserved : Nat} :
    (hphase o lead duration cls parts reserved).Keeps :=
  .bind plainHeader_keeps fun _ => .bind .refuseIf fun _ => .bind (.upd _) fun _ => .pure _

theorem hcancel_keeps {o : Origin} {reserved : Nat} : (hcancel o reserved).Keeps :=
  .bind plainHeader_keeps fun _ => .bind (.upd _) fun _ => .pure _

theorem refuseOp_keeps {code : Nat} : (refuseOp code).Keeps :=
  .refuse _

/-! Rollback and replay. -/

theorem undoOne_keeps {c s : Nat} {r : List Nat} : (undoOne c s r).Keeps := by
  unfold undoOne
  extract_lets
  split
  · exact .bind (vwrite_keeps _ _ _) fun _ => (vwrite_keeps _ _ _)
  · exact (vwrite_keeps _ _ _)
  · exact .pure _

theorem redoCopy_keeps {c s v : Nat} {r : List Nat} : (redoCopy c s v r).Keeps := by
  unfold redoCopy
  split
  · exact copyCurrent_keeps
  · exact .bind readDesc_keeps fun _ => .bind readCoords_keeps fun _ => copyCurrent_keeps
  · exact .pure _

theorem restoreCaptures_keeps {c : Nat} {v : Point} : (restoreCaptures c v).Keeps :=
  .bind (.upd _) fun _ => by
    extract_lets -underBinder rest
    have hrest : ∀ y, Act.Keeps (rest y) := fun _ => .bind .dev fun _ => .bind (.forIn _ (fun _ _ =>
      .bind (vread_keeps _ _ _) fun _ => .bind (vwrite_keeps _ _ _) fun _ => .pure _) _) fun _ => .pure _
    split
    · exact hrest ⟨⟩
    · exact .bind readSrt_keeps fun _ => .bind writeReplicas_keeps fun _ => hrest ⟨⟩

theorem rollback_keeps {c : Nat} {v : Point} : (rollback c v).Keeps :=
  .bind .dev fun _ => .bind (.forIn _ (fun _ _ => .bind (.forIn _ (fun _ _ => .bind undoOne_keeps fun _ => .pure _) _)
    fun _ => .pure _) _) fun _ => .bind restoreCaptures_keeps fun _ => .bind (.forIn _ (fun _ _ => .bind (.forIn _
    (fun _ _ => .bind redoCopy_keeps fun _ => .pure _) _) fun _ => .pure _) _) fun _ => .upd _

theorem replayLog_keeps {c : Nat} {v : Point} : (replayLog c v).Keeps :=
  .bind .dev fun _ => .bind (.mapM (fun _ => .bind vreadNat_keeps fun _ => .pure _)) fun _ => .upd _

/-! Dumps. -/

theorem writeDpa_keeps {dpa : Nat} {bs : List Nat} : (writeDpa dpa bs).Keeps :=
  .bind (.forIn _ (fun _ _ => by
    dsimp only
    split
    · split
      · exact .bind (hbmPut_keeps _ _ _ _ _) fun _ => .pure _
      · exact .pure _
    · exact .pure _) _) fun _ => .pure _

/-! States whose memories stand in canonical form. -/

/-- The memories of a state stand in canonical form. -/
def State.Canon (s : State) : Prop := s.mem.wf

namespace State.Canon
variable {s t : State}

theorem onDev (h : s.Canon) {f : Dev → Dev} : (s.onDev f).Canon := h

/-- What waits, what survives a reset and the part say nothing of the memories. -/
theorem mk (h : s.Canon) {q : List Instr} {p : Persist} {d : Dev} : (State.mk q p s.mem d).Canon := h

theorem ofMem {m : Store} (h : m.wf) {q : List Instr} {p : Persist} {d : Dev} : (State.mk q p m d).Canon := h

theorem act {α : Type} {a : Act α} (ha : a.Keeps) (h : s.Canon) : (s.runAct a).2.Canon := State.runAct_wf ha h

theorem mm {α : Type} {m : Mm α} (hm : m.Keeps) (h : s.Canon) : (s.runMm m).2.Canon := State.runMm_wf hm h

theorem ite {c : Prop} [Decidable c] (hs : s.Canon) (ht : t.Canon) : (if c then s else t).Canon := by
  split <;> assumption

/-- A choice of two answers with a state each. -/
theorem iteSnd {α : Type} {c : Prop} [Decidable c] {p q : α × State} (hp : p.2.Canon) (hq : q.2.Canon) :
    (if c then p else q).2.Canon := by
  split <;> assumption

theorem foldl {β : Type} {f : State → β → State} (hf : ∀ s b, s.Canon → (f s b).Canon) {l : List β} (h : s.Canon) :
    (l.foldl f s).Canon := foldl_keeps State.Canon hf l s h

end State.Canon

/-- What a function does where it starts and where it stops keeps the form. -/
structure FnRule.Keeps (r : FnRule) : Prop where
  start : ∀ s, s.Canon → (r.start s).Canon
  stop : ∀ s, s.Canon → (r.stop s).Canon

/-! The model's functions of states keep the form: a function changes the part, or runs a computation that keeps the form,
or names others that do. `f_canon` says it of the function `f`. -/

/-! Transactions of hosts and writes of the dictionary. -/

theorem State.hostSide_canon {s : State} {h : Nat} {i : Instr} {k : State → State} (hs : s.Canon)
    (hk : ∀ s, s.Canon → (k s).Canon) : (State.hostSide s h i k).Canon :=
  .ite (.mk hs) (hk _ hs)

theorem idle_canon {s : State} (hs : s.Canon) : (idle s).Canon :=
  .mk hs

theorem State.dictWrite_canon {s : State} {via : Via} {idx sub v : Nat} {eff : State → WR} (hs : s.Canon)
    (heff : ∀ s, s.Canon → (eff s).2.Canon) : (State.dictWrite s via idx sub v eff).Canon :=
  .ite (.onDev hs) (.onDev (.iteSnd hs (heff _ hs)))

theorem State.gated_canon {s : State} {via : Via} {idx sub v : Nat} {k : State → State} (hs : s.Canon)
    (hk : ∀ s, s.Canon → (k s).Canon) : (State.gated s via idx sub v k).Canon :=
  .ite (.onDev hs) (hk _ hs)

theorem State.setFn_canon {s : State} {idx st : Nat} (hs : s.Canon) : (State.setFn s idx st).Canon :=
  .onDev hs

theorem State.fnStart_canon {s : State} {r : FnRule} {idx : Nat} (hs : s.Canon) (hr : r.Keeps) :
    (s.fnStart r idx).Canon :=
  hr.start _ (State.setFn_canon (.onDev hs))

theorem State.fnWrite_canon {s : State} {r : FnRule} {idx v : Nat} (hs : s.Canon) (hr : r.Keeps) :
    (s.fnWrite r idx v).2.Canon := by
  rcases s.fnWrite_cases r idx v with ⟨_, -, run⟩ | ⟨-, -, -, run⟩ | ⟨-, -, -, run⟩ | ⟨_, run⟩ <;> rw [run]
  · exact hs
  · exact State.fnStart_canon hs hr
  · exact hr.stop _ (State.setFn_canon (.onDev hs))
  · exact .onDev hs

theorem State.fnStarted_canon {s : State} {r : FnRule} {idx : Nat} (hs : s.Canon) (hr : r.Keeps) :
    (State.fnStarted s r idx).Canon :=
  .ite (hr.stop _ (State.setFn_canon (State.setFn_canon (.onDev hs)))) (State.setFn_canon (.onDev hs))

theorem State.fnStopped_canon {s : State} {r : FnRule} {idx : Nat} (hs : s.Canon) (hr : r.Keeps) :
    (State.fnStopped s r idx).Canon :=
  .ite (.ite (State.fnStart_canon (State.setFn_canon (.onDev hs)) hr) (.onDev (State.setFn_canon (.onDev hs))))
    (State.setFn_canon (.onDev hs))

/-! Commands of streams. -/

theorem State.board_canon {s : State} {o : Origin} {op input : Nat} {cmd : Option QCmd} (hs : s.Canon) :
    (State.board s o op input cmd).Canon :=
  .onDev hs

theorem State.issueCmd_canon {s : State} {o : Origin} {op input : Nat} {cmd : Option QCmd} {m : Act Bool}
    (hs : s.Canon) (hm : m.Keeps) : (State.issueCmd s o op input cmd m).Canon := by
  unfold State.issueCmd
  extract_lets c i r
  have hr : r.2.Canon := .act hm (State.board_canon hs)
  split
  · exact .onDev hr
  · exact hr
  · exact .ite (.onDev hr) (.onDev hr)

theorem State.accept_canon {s : State} {c i data : Nat} (hs : s.Canon) : (State.accept s c i data).Canon :=
  .act logCommand_keeps (.onDev hs)

/-! Vector commands and their boundaries. -/

theorem runVec_canon {op : Nat} {o : Origin} {f : VecF} {s : State} (hs : s.Canon) : (runVec op o f s).Canon :=
  State.issueCmd_canon hs vecWhole_keeps

theorem vectorBoundary_canon {e ns busy stalled : Nat} {s : State} (hs : s.Canon) :
    (vectorBoundary e ns busy stalled s).Canon := by
  unfold vectorBoundary
  extract_lets +onlyGivenNames k s' k merging
  have hs' : s'.Canon := .onDev hs
  exact .ite hs' (by
    split
    · exact .onDev hs'
    · split
      extract_lets +onlyGivenNames s''
      have hs'' : s''.Canon := .onDev hs'
      split
      · exact hs''
      · extract_lets drop r
        have hr : r.2.Canon := .act (.work vecTile_keeps) hs''
        split <;> exact .onDev hr)

/-! Array commands. -/

theorem weightLoad_canon {e : Nat} {s : State} (hs : s.Canon) : (weightLoad e s).Canon :=
  .ite hs (by
    split
    · exact hs
    · exact .ite hs (by
        extract_lets r
        have hr : r.2.Canon := .act readWeights_keeps hs
        split <;> exact .onDev hr))

theorem feedStart_canon {e waited stalled : Nat} {s : State} (hs : s.Canon) : (feedStart e waited stalled s).Canon :=
  .ite hs (by
    split
    · exact hs
    · exact .ite hs (by
        extract_lets r
        have hr : r.2.Canon := .act (.work feedJob_keeps) hs
        split <;> exact .onDev hr))

theorem jobRetire_canon {e ns : Nat} {s : State} (hs : s.Canon) : (jobRetire e ns s).Canon := by
  unfold jobRetire
  extract_lets +onlyGivenNames k
  split
  · exact hs
  · extract_lets +onlyGivenNames st behind
    exact .ite hs (by
      extract_lets r
      have hr : r.2.Canon := .act joinPass_keeps hs
      split <;> exact .onDev hr)

theorem runnerMerge_canon {e ns : Nat} {s : State} (hs : s.Canon) : (runnerMerge e ns s).Canon := by
  unfold runnerMerge
  extract_lets +onlyGivenNames k
  exact .ite hs (by
    split
    · exact hs
    · extract_lets st r r'
      have hr : r.2.Canon := .act (.work mergeAll_keeps) hs
      have hr' : r'.2.Canon := .onDev hr
      split <;> exact .onDev hr')

theorem drainStart_canon {e set : Nat} {s : State} (hs : s.Canon) : (drainStart e set s).Canon := by
  unfold drainStart
  extract_lets +onlyGivenNames k
  split
  · exact hs
  · extract_lets +onlyGivenNames st
    split
    · exact hs
    · extract_lets r
      have hr : r.2.Canon := .act (.work drainRows_keeps) hs
      split <;> exact .onDev hr

theorem tileCheck_canon {e : Nat} {s : State} (hs : s.Canon) : (tileCheck e s).Canon := by
  unfold tileCheck
  extract_lets +onlyGivenNames k
  exact .ite hs (by
    split
    · exact hs
    · extract_lets +onlyGivenNames other ost
      exact .ite hs (by
        extract_lets st r r2
        have hr : r.2.Canon := .act (.work checkAcc_keeps) hs
        have hr2 : r2.Canon := .onDev hr
        split <;> exact .onDev hr2))

/-! Faults. -/

theorem State.deviceFault_canon {s : State} {cause : Nat} (hs : s.Canon) : (State.deviceFault s cause).Canon :=
  .ite hs (.mk (.onDev hs))

theorem State.partitionOut_canon {s : State} {p cause : Nat} {sus : List Nat} (hs : s.Canon) :
    (State.partitionOut s p cause sus).Canon :=
  .ite hs (.ite (State.deviceFault_canon (.onDev hs)) (.onDev hs))

/-! The memories' own commands. -/

theorem spadWriteback_canon {e bank : Nat} {s : State} (hs : s.Canon) : (spadWriteback e bank s).Canon := by
  unfold spadWriteback
  split
  · exact hs
  · refine .ofMem ?_
    split <;> exact hs

theorem scrubLine_canon {e bank : Nat} {ups : List (Nat × Nat)} {s : State} (hs : s.Canon) :
    (scrubLine e bank ups s).Canon :=
  .onDev (.mm (spadGet_keeps _ _ _ _) (.ofMem (Store.upsetWords_wf hs _ _ _)))

theorem wipeComplete_canon {die : Nat} {s : State} (hs : s.Canon) : (wipeComplete die s).Canon := by
  unfold wipeComplete
  split
  · exact hs
  · exact .onDev (.ofMem (Store.zeroSpad_wf hs _ _ _))

theorem Store.upsetLine_wf {m : Store} (hm : m.wf) {st off : Nat} {ups : List (Nat × Nat)} :
    (m.upsetLine st off ups).wf := by
  unfold Store.upsetLine
  dsimp only
  split
  · exact hm
  · exact Store.corrupt_wf hm _ _

theorem hbmRequest_canon {st input : Nat} {write : Bool} {off len data : Nat} {ctx : Option Nat}
    {ups : List (Nat × Nat)} {s : State} (hs : s.Canon) : (hbmRequest st input write off len data ctx ups s).Canon :=
  .ite hs (.ite (.onDev (.mm (hbmPut_keeps _ _ _ _ _) (.ofMem (Store.upsetLine_wf hs))))
    (.onDev (.mm (hbmGet_keeps _ _ _ _ _) (.ofMem (Store.upsetLine_wf hs)))))

theorem State.windowWrite_canon {s : State} {h off size : Nat} {aligned : Bool} {data : Nat} (hs : s.Canon) :
    (State.windowWrite s h off size aligned data).Canon :=
  .ite hs (.ite (.onDev hs) (State.accept_canon hs))

theorem hostAccess_canon {h : Nat} {write : Bool} {dpa len data : Nat} {s : State} (hs : s.Canon) :
    (hostAccess h write dpa len data s).Canon :=
  .ite hs (.ite (.ite (State.windowWrite_canon hs) (.onDev hs)) (by
    split
    · exact .ite hs (.ite (.ite (.onDev (.mm (hbmPut_keeps _ _ _ _ _) (.onDev hs))) (.mm (hbmPut_keeps _ _ _ _ _)
        (.onDev hs))) (.onDev (.mm (hbmGet_keeps _ _ _ _ _) (.onDev hs))))
    · exact .onDev hs))

theorem hbmWriteback_canon {st line : Nat} {s : State} (hs : s.Canon) : (hbmWriteback st line s).Canon :=
  .ite hs (.ofMem (by split <;> exact hs))

theorem State.markLane_canon {s : State} {st pc lane cause : Nat} (hs : s.Canon) :
    (State.markLane s st pc lane cause).Canon :=
  .ite (State.partitionOut_canon (.onDev hs)) (.onDev hs)

theorem laneMark_canon {st pc lane : Nat} {s : State} (hs : s.Canon) : (laneMark st pc lane s).Canon :=
  .ite hs (State.markLane_canon (.onDev hs))

theorem patrol_canon {st pc : Nat} {ups : List (Nat × Nat)} {s : State} (hs : s.Canon) : (patrol st pc ups s).Canon :=
  .ite hs (.onDev (.mm (hbmGet_keeps _ _ _ _ _) (.ofMem (Store.upsetLine_wf hs))))

theorem invalidate_canon {via : Via} {v : Nat} {s : State} (hs : s.Canon) : (invalidate via v s).2.Canon :=
  .iteSnd hs (.onDev hs)

theorem slabTableWrite_canon {table : Nat} {s : State} (hs : s.Canon) : (slabTableWrite table s).2.Canon :=
  .iteSnd hs (.onDev (.ofMem (foldl_keeps Store.wf (fun _ q hm => Store.zeroSlab_wf hm q.1 q.2) _ _ hs)))

theorem bankGrantWrite_canon {e v : Nat} {s : State} (hs : s.Canon) : (bankGrantWrite e v s).2.Canon :=
  .onDev (.ofMem (foldl_keeps Store.wf (fun _ _ hm => Store.zeroSpad_wf hm e _ _) _ _ hs))

/-! Jobs of the root engines. -/

theorem State.forwarded_canon {s : State} (hs : s.Canon) : (State.forwarded s).Canon :=
  .ite hs (.foldl (fun _ _ h1 => by
    extract_lets +onlyGivenNames c i
    exact .ite h1 (by
      extract_lets r
      have hr : r.2.Canon := .act forwardFrom_keeps h1
      split <;> exact .onDev hr))
    (.onDev hs))

theorem rootJob_canon {ty s : Nat} {j : JobIn} {writes : RJob → Act (List (Nat × Nat))} {run : RJob → Act JobEnd}
    {st : State} (hwrites : ∀ r, (writes r).Keeps) (hrun : ∀ r, (run r).Keeps) (hs : st.Canon) :
    (rootJob ty s j writes run st).Canon :=
  .ite (.onDev hs) (by
    extract_lets +onlyGivenNames st
    have hst : st.Canon := .onDev hs
    split
    · exact hst
    · exact .ite hst (by
        extract_lets +onlyGivenNames w
        have hw : w.2.Canon := .act (.bind jobOk_keeps fun _ => hwrites _) hst
        split
        · exact .onDev hw
        · exact .ite (.onDev hst) (by
            extract_lets go st' e
            have hst' : st'.Canon := .onDev hst
            have he : e.2.Canon := .act (hrun _) hst'
            split
            · exact .onDev he
            · exact .onDev he
            · exact he)))

theorem streamIn_canon {s : Nat} {j : JobIn} {data : List Nat} {st : State} (hs : st.Canon) :
    (streamIn s j data st).Canon := by
  unfold streamIn
  extract_lets +onlyGivenNames st
  have hst : st.Canon := .ite hs (.onDev hs)
  split
  · exact hst
  · exact .ite hst (by
      extract_lets +onlyGivenNames bs go w
      have hw : w.2.Canon := .act (.bind readDesc_keeps fun _ => .bind stackRuns_keeps fun _ => .pure _) hst
      split
      · exact .onDev hw
      · exact .ite (.onDev hst) (by
          extract_lets +onlyGivenNames e
          have he : e.2.Canon := .act (vwrite_keeps _ _ _) hst
          split
          · exact .onDev he
          · exact .ite (.onDev (.onDev he)) (.onDev he)))

/-! Collectives. -/

theorem State.moveColl_canon {s : State} {h seq : Nat} (hs : s.Canon) : (State.moveColl s h seq).Canon := by
  unfold State.moveColl
  split
  · exact hs
  · split
    · exact hs
    · exact .ite hs (by
        extract_lets r
        have hr : r.2.Canon := .act (.mapM (fun _ => runChunk_keeps)) hs
        split
        · exact .onDev hr
        · exact .ite (.onDev hr) (.onDev hr))

theorem State.moveHandle_canon {s : State} {h : Nat} (hs : s.Canon) : (State.moveHandle s h).Canon := by
  unfold State.moveHandle
  split
  · exact hs
  · exact .foldl (fun _ _ h1 => State.moveColl_canon h1) hs

theorem State.issueColl_canon {s : State} {o : Origin} {op : Nat} {f : CollF} {cmd : Option QCmd} (hs : s.Canon) :
    (State.issueColl s o op f cmd).Canon := by
  unfold State.issueColl
  extract_lets +onlyGivenNames full
  exact .ite (.onDev hs) (by
    extract_lets s' s''
    have hs' : s'.Canon := State.issueCmd_canon hs (.bind collEnter_keeps fun _ => .pure _)
    have hs'' : s''.Canon := .onDev hs'
    split
    · exact hs''
    · split
      · exact hs''
      · exact State.moveColl_canon (.onDev hs''))

theorem runColl_canon {op : Nat} {o : Origin} {f : CollF} {s : State} (hs : s.Canon) : (runColl op o f s).Canon :=
  State.issueColl_canon hs

/-! Images of contexts. -/

theorem State.writeStatus_canon {s : State} {c : Nat} (hs : s.Canon) : (State.writeStatus s c).Canon := by
  unfold State.writeStatus
  split
  · exact hs
  · exact .act (vwrite_keeps _ _ _) hs

theorem State.closeSecure_canon {s : State} {c : Nat} (hs : s.Canon) : (State.closeSecure s c).Canon :=
  State.writeStatus_canon (.onDev (.onDev hs))

theorem State.afterImage_canon {s : State} {c : Nat} (hs : s.Canon) : (State.afterImage s c).Canon :=
  .ite (State.closeSecure_canon hs) (State.writeStatus_canon hs)

theorem State.imageCapture_canon {s : State} {c rec_ u : Nat} (hs : s.Canon) : (State.imageCapture s c rec_ u).Canon
    := by
  unfold State.imageCapture
  split
  · exact hs
  · exact .ite hs (.ite (State.writeStatus_canon (.onDev hs)) (.ite hs (.ite hs (by
      extract_lets slot r
      have hr : r.2.Canon := .act (.bind captureItems_keeps fun _ => .bind (hbmPut_keeps _ _ _ _ _).act fun _ =>
        .pure _) hs
      split <;> exact .onDev hr))))

theorem State.imageStart_canon {s : State} {c : Nat} (hs : s.Canon) : (State.imageStart s c).Canon := by
  unfold State.imageStart
  split
  · exact hs
  · split
    · exact hs
    · extract_lets +onlyGivenNames s'
      have hs' : s'.Canon := .onDev hs
      exact .ite hs' (by
        extract_lets +onlyGivenNames r
        have hr : r.2.Canon := .act (.bind readManifest_keeps fun _ => .bind imageRanges_keeps fun _ => .pure _) hs'
        split
        · exact .onDev hr
        · exact State.writeStatus_canon (.onDev (.ite (.mk (.onDev hr)) (.onDev hr))))

theorem streamShare_canon {st c : Nat} {s : State} (hs : s.Canon) : (streamShare st c s).Canon := by
  unfold streamShare
  split
  · exact hs
  · split
    · exact hs
    · refine .ite hs ?_
      extract_lets out bad r
      have hr : r.2.Canon := .mm (.bind (.forIn _ (fun _ _ => .bind (hbmGetAt_keeps _ _ _ _ _) fun _ => .pure _) _)
        fun _ => .pure _) hs
      split
      · exact State.afterImage_canon (.onDev hr)
      · exact .onDev hr

theorem State.commitPart_canon {s : State} {c kind p : Nat} {g : ImgPart} (hs : s.Canon) :
    (State.commitPart s c kind p g).Canon :=
  .onDev (.mk hs)

theorem State.failTarget_canon {s : State} {c kind port status : Nat} (hs : s.Canon) :
    (State.failTarget s c kind port status).Canon :=
  State.afterImage_canon (.onDev hs)

theorem snapshotFlush_canon {c port status : Nat} {s : State} (hs : s.Canon) : (snapshotFlush c port status s).Canon
    := by
  unfold snapshotFlush
  split
  · exact hs
  · exact .ite hs (.ite (State.failTarget_canon hs) (State.commitPart_canon (.onDev hs)))

theorem networkHeaderAck_canon {c : Nat} {ok : Bool} {s : State} (hs : s.Canon) : (networkHeaderAck c ok s).Canon := by
  unfold networkHeaderAck
  split
  · exact hs
  · extract_lets due
    exact .ite hs (.ite (State.failTarget_canon hs) (by
      split
      · exact State.commitPart_canon hs
      · exact hs))

theorem imageComplete_canon {c target : Nat} {s : State} (hs : s.Canon) : (imageComplete c target s).Canon := by
  unfold imageComplete
  split
  · exact hs
  · split
    · exact hs
    · exact .ite hs (State.afterImage_canon (.onDev hs))

/-! Contexts and their resources. -/

theorem State.replayPoint_canon {s : State} {c : Nat} {rec_ : Option (Nat × Nat)} {logAt : Nat} (hs : s.Canon) :
    (State.replayPoint s c rec_ logAt).Canon :=
  .ite hs (by
    extract_lets s' r
    have hs' : s'.Canon := .onDev hs
    have hr : r.2.Canon := .act capturePoint_keeps hs'
    split
    · exact .onDev hr
    · exact hr)

theorem State.restPoint_canon {s : State} {c : Nat} (hs : s.Canon) : (State.restPoint s c).Canon :=
  .ite (State.replayPoint_canon hs) hs

theorem ownerWrite_canon {via : Via} {c v : Nat} {s : State} (hs : s.Canon) : (ownerWrite via c v s).2.Canon :=
  .iteSnd (.onDev hs) hs

theorem ctxStart_canon {c : Nat} {s : State} (hs : s.Canon) : (ctxStart c s).Canon :=
  State.restPoint_canon (.act loadSched_keeps (.onDev hs))

theorem ctxRule_keeps {c : Nat} : (ctxRule c).Keeps := ⟨fun _ => ctxStart_canon, fun _ h => h⟩

theorem ctxEnable_canon {c v : Nat} {s : State} (hs : s.Canon) : (ctxEnable c v s).2.Canon :=
  State.fnWrite_canon hs ctxRule_keeps

theorem blockWrite_canon {via : Via} {v : Nat} {s : State} (hs : s.Canon) : (blockWrite via v s).2.Canon := by
  have stored : ∀ f, (s.onDev f).Canon := fun _ => .onDev hs
  unfold blockWrite
  extract_lets +onlyGivenNames d b c e held holder foreign
  split
  · exact hs
  split
  · split
    · exact hs
    · dsimp only
      exact stored _
  · split
    · exact hs
    · dsimp only
      exact stored _

theorem contextStop_canon {c : Nat} {s : State} (hs : s.Canon) : (contextStop c s).Canon :=
  .ite hs (.ite (.onDev hs) (.ite (.onDev (State.setFn_canon (.onDev (.onDev hs)))) (State.fnStopped_canon (.onDev
    (.onDev hs)) ctxRule_keeps)))

theorem State.reclaim_canon {s : State} {c : Nat} (hs : s.Canon) : (State.reclaim s c).Canon := by
  unfold State.reclaim
  extract_lets +onlyGivenNames held
  split
  · exact .onDev hs
  · exact contextStop_canon (State.setFn_canon (.onDev hs))
  · exact .ite (contextStop_canon (.onDev hs)) hs
  · exact hs

theorem bedWrite_canon {via : Via} {b v : Nat} {s : State} (hs : s.Canon) : (bedWrite via b v s).2.Canon := by
  have stored : ∀ f, (s.onDev f).Canon := fun _ => .onDev hs
  unfold bedWrite
  extract_lets +onlyGivenNames d mask hosts old names all byHost ungranted
  split
  · exact hs
  · dsimp only
    exact stored _

theorem splitWrite_canon {g v : Nat} {s : State} (hs : s.Canon) : (splitWrite g v s).2.Canon :=
  .iteSnd hs (.onDev hs)

theorem attachEval_canon {c v : Nat} {s : State} (hs : s.Canon) : (attachEval c v s).2.Canon :=
  .iteSnd hs (.onDev hs)

/-! Chunks, handles and packets. -/

theorem State.chunkStaged_canon {s : State} {st c tensor q : Nat} (hs : s.Canon) :
    (State.chunkStaged s st c tensor q).Canon :=
  .foldl (fun _ _ h1 => State.moveHandle_canon h1) (.onDev hs)

theorem chunkStaged_canon {st c tensor q : Nat} {s : State} (hs : s.Canon) : (chunkStaged st c tensor q s).Canon := by
  unfold chunkStaged
  split
  · exact hs
  · extract_lets +onlyGivenNames hit s'
    have hs' : s'.Canon := .mk hs
    split
    · exact .onDev hs'
    · exact .ite (.onDev hs') (.ite (.onDev hs') (by
        extract_lets +onlyGivenNames put
        exact .ite (.onDev hs') (by
          extract_lets +onlyGivenNames r
          have hr : r.2.Canon := .act stageChunk_keeps hs'
          split
          · exact .onDev hr
          · exact State.chunkStaged_canon (.onDev hr))))

theorem emissionAccepted_canon {st waited : Nat} {s : State} (hs : s.Canon) : (emissionAccepted st waited s).Canon := by
  unfold emissionAccepted
  split
  · exact hs
  · split
    · exact hs
    · split
      · exact hs
      · exact State.moveColl_canon (.onDev hs)

theorem runHandle_canon {action : Nat} {o : Origin} {f : HandleF} {s : State} (hs : s.Canon) :
    (runHandle action o f s).Canon :=
  State.issueCmd_canon hs chandle_keeps

theorem packetReceive_canon {sub : Nat} {p : PacketF} {s : State} (hs : s.Canon) : (packetReceive sub p s).Canon := by
  unfold packetReceive
  split
  extract_lets s'
  have hs' : s'.Canon := .mk hs
  exact .ite hs' (by
    split
    · exact hs'
    · exact .ite hs' (.ite (.onDev hs') (State.moveHandle_canon (.onDev hs'))))

theorem storageAck_canon {h seq status : Nat} {s : State} (hs : s.Canon) : (storageAck h seq status s).Canon := by
  unfold storageAck
  split
  · exact hs
  · exact .ite hs (by
      split
      · exact .onDev hs
      · exact .onDev hs
      · exact .ite (State.failTarget_canon (.onDev hs)) (.onDev hs))

theorem portRule_keeps {n : Nat} : (portRule n).Keeps := ⟨fun _ h => h, fun _ h => .onDev h⟩

theorem State.portStarted_canon {s : State} {n : Nat} (hs : s.Canon) : (State.portStarted s n).Canon :=
  .onDev (State.fnStarted_canon hs portRule_keeps)

theorem State.portStopped_canon {s : State} {n : Nat} (hs : s.Canon) : (State.portStopped s n).Canon :=
  State.fnStopped_canon (.onDev hs) portRule_keeps

theorem linkState_canon {n k : Nat} {up : Bool} {lanes : Nat} {s : State} (hs : s.Canon) :
    (linkState n k up lanes s).Canon :=
  .ite hs (.ite (State.portStarted_canon (.onDev hs)) (.onDev hs))

/-! Moves. -/

theorem runMove_canon {op : Nat} {o : Origin} {f : MoveF} {s : State} (hs : s.Canon) : (runMove op o f s).Canon :=
  State.issueCmd_canon hs moveWhole_keeps

theorem moveBoundary_canon {e ns : Nat} {s : State} (hs : s.Canon) : (moveBoundary e ns s).Canon := by
  unfold moveBoundary
  extract_lets +onlyGivenNames k s'
  have hs' : s'.Canon := .onDev hs
  exact .ite hs' (by
    extract_lets +onlyGivenNames k
    split
    · exact .onDev hs'
    · split
      extract_lets +onlyGivenNames s''
      have hs'' : s''.Canon := .onDev hs'
      split
      · exact hs''
      · extract_lets r drop
        have hr : r.2.Canon := .act (.bind movePlan_keeps fun _ => by
          split
          · exact .bind moveUnit_keeps fun _ => .pure _
          · exact .pure _)
          hs''
        split <;> exact .onDev hr)

/-! Norms and fences. -/

theorem State.tryNorm_canon {s : State} {c : Nat} (hs : s.Canon) : (State.tryNorm s c).Canon := by
  unfold State.tryNorm
  split
  · exact hs
  · extract_lets +onlyGivenNames room
    exact .ite hs (by
      extract_lets e
      have he : e.2.Canon := .act normEnter_keeps hs
      split
      · exact he
      · exact .onDev he)

theorem runNorm_canon {o : Origin} {list table handle control reserved : Nat} {s : State} (hs : s.Canon) :
    (runNorm o list table handle control reserved s).Canon :=
  .ite (.onDev hs) (State.tryNorm_canon (State.issueCmd_canon hs unorm_keeps))

theorem normComplete_canon {c : Nat} {ok : Bool} {rows marks : List Nat} {s : State} (hs : s.Canon) :
    (normComplete c ok rows marks s).Canon := by
  unfold normComplete
  split
  · exact hs
  · split
    · exact hs
    · split
      · exact hs
      · exact .ite (.onDev hs) (.ite hs (by
          extract_lets t all s' e
          have hs' : s'.Canon := .onDev hs
          have he : e.2.Canon := .act normFinish_keeps hs'
          split <;> exact .onDev he))

theorem State.tryFence_canon {s : State} {c : Nat} (hs : s.Canon) : (State.tryFence s c).Canon := by
  unfold State.tryFence
  split
  · exact hs
  · exact .ite hs (.ite (.onDev hs) (by
      extract_lets +onlyGivenNames pos e
      have he : e.2.Canon := .act fenceCommit_keeps hs
      split
      · exact .onDev he
      · exact .onDev (.ite (State.replayPoint_canon (.onDev (.onDev (.ite (State.imageCapture_canon he) he)))) (.onDev
          (.ite (State.imageCapture_canon he) he)))))

theorem State.fenceSignalled_canon {s : State} {c : Nat} (hs : s.Canon) : (State.fenceSignalled s c).Canon :=
  .onDev (State.imageStart_canon hs)

/-! Issue and completion. -/

theorem State.holdHead_canon {s : State} {o : Origin} {cmd : Option QCmd} (hs : s.Canon) :
    (State.holdHead s o cmd).Canon :=
  .onDev hs

theorem State.issuePlain_canon {s : State} {o : Origin} {q : QCmd} (hs : s.Canon) : (State.issuePlain s o q).Canon := by
  unfold State.issuePlain
  extract_lets +onlyGivenNames raw op run
  have hrun : ∀ m, Act.Keeps m → (run m).Canon := fun _ hm => State.issueCmd_canon hs hm
  clear_value op run
  split
  · exact hrun _ (.bind plainHeader_keeps fun _ => .pure _)
  · exact hrun _ swait_keeps
  · exact hrun _ ssignal_keeps
  · exact State.issueCmd_canon hs sremote_keeps
  · exact hrun _ sfence_keeps
  · exact hrun _ hphase_keeps
  · exact hrun _ hcancel_keeps
  · exact hrun _ refuseOp_keeps

theorem State.issueUnit_canon {s : State} {o : Origin} {q : QCmd} (hs : s.Canon) : (State.issueUnit s o q).Canon := by
  unfold State.issueUnit
  extract_lets +onlyGivenNames raw op c
  clear_value op
  split
  · exact State.issueCmd_canon hs rjobs_keeps
  · exact State.tryNorm_canon (State.issueCmd_canon hs unorm_keeps)
  · exact State.tryFence_canon (State.issueCmd_canon hs ufence_keeps)
  · exact State.issueCmd_canon hs sopen_keeps
  · exact State.issueCmd_canon hs sclose_keeps
  · exact State.issueCmd_canon hs srestore_keeps
  · exact State.issueCmd_canon hs (.ite refuseOp_keeps chandle_keeps)
  · exact State.issueColl_canon hs

theorem State.issueTo_canon {s : State} {o : Origin} {q : QCmd} (hs : s.Canon) : (State.issueTo s o q).Canon :=
  .ite (State.issueCmd_canon hs mtileQueue_keeps) (.ite (State.issueCmd_canon hs vecQueue_keeps) (.ite
    (State.issueCmd_canon hs moveQueue_keeps) (.ite (State.issueUnit_canon hs) (State.issuePlain_canon hs))))

theorem State.reloadSched_canon {s : State} {c : Nat} (hs : s.Canon) : (State.reloadSched s c).Canon :=
  .ite (.act loadSched_keeps hs) hs

theorem State.issued_canon {s : State} {c i : Nat} (hs : s.Canon) : (State.issued s c i).Canon :=
  State.reloadSched_canon (.onDev hs)

theorem State.issueHead_canon {s : State} {c i : Nat} (hs : s.Canon) : (State.issueHead s c i).Canon := by
  unfold State.issueHead
  split
  · exact hs
  · exact .ite (State.issueTo_canon (.onDev hs)) (State.issued_canon (State.issueTo_canon (.onDev hs)))

theorem commandIssue_canon {s : State} (hs : s.Canon) : (commandIssue s).Canon := by
  unfold commandIssue
  extract_lets s'
  have hs' : s'.Canon := .foldl (fun _ _ h1 => State.reloadSched_canon h1) hs
  split
  · exact State.issueHead_canon hs'
  · exact hs'

theorem commandComplete_canon {c i seq : Nat} {accepted : Bool} {s : State} (hs : s.Canon) :
    (commandComplete c i seq accepted s).Canon := by
  unfold commandComplete
  extract_lets s' s''
  have hs' : s'.Canon := State.tryFence_canon (State.tryNorm_canon (State.forwarded_canon hs))
  have hs'' : s''.Canon := by
    unfold s''
    split
    · exact .ite (State.fenceSignalled_canon (.onDev hs')) (.onDev hs')
    · exact hs'
  exact State.restPoint_canon (.onDev (State.tryNorm_canon hs''))

theorem streamCtl_canon {v c : Nat} {s : State} (hs : s.Canon) : (streamCtl v c s).2.Canon :=
  .iteSnd hs (.onDev hs)

theorem streamWrite_canon {via : Via} {c i action : Nat} {s : State} (hs : s.Canon) :
    (streamWrite via c i action s).Canon :=
  State.dictWrite_canon hs (fun _ h1 => streamCtl_canon h1)

/-! Failures, resets and replay. -/

theorem flitFailure_canon {kind unit fails : Nat} {s : State} (hs : s.Canon) : (flitFailure kind unit fails s).Canon
    :=
  .ite (.onDev hs) (.ite (State.deviceFault_canon (.onDev (.onDev hs))) (.ite (State.deviceFault_canon (.onDev (.onDev
    hs))) (State.partitionOut_canon (.onDev (.onDev hs)))))

theorem resetComplete_canon {p : Nat} {ok : Bool} {s : State} (hs : s.Canon) : (resetComplete p ok s).Canon := by
  unfold resetComplete
  split
  · exact hs
  · exact .ite hs (.ite (State.partitionOut_canon hs) (.ite (State.partitionOut_canon hs) (.onDev hs)))

theorem replayStart_canon {p : Nat} {s : State} (hs : s.Canon) : (replayStart p s).Canon := by
  unfold replayStart
  refine .ite hs ?_
  split
  · exact hs
  extract_lets +onlyGivenNames s' rep
  have hs' : s'.Canon := .onDev hs
  split
  · exact .onDev hs'
  extract_lets onward r
  have hr : r.2.Canon := .act (.ite (.bind rollback_keeps fun _ => replayLog_keeps) replayLog_keeps) hs'
  split <;> exact .onDev hr

theorem rollbackControl_canon {c v : Nat} {s : State} (hs : s.Canon) : (rollbackControl c v s).2.Canon := by
  unfold rollbackControl
  extract_lets +onlyGivenNames d rep u
  split
  · exact hs
  · refine .iteSnd hs ?_
    extract_lets held suspect s' r
    have hs' : s'.Canon := .ite hs (.onDev hs)
    have hr : r.2.Canon := .act rollback_keeps hs'
    split <;> exact .onDev hr

theorem deviceWide_canon {cause : Nat} {s : State} (hs : s.Canon) : (deviceWide cause s).Canon :=
  .ite hs (State.deviceFault_canon hs)

/-! Host sites. -/

theorem State.reclaimSite_canon {s : State} {h cause : Nat} (hs : s.Canon) : (State.reclaimSite s h cause).Canon :=
  .foldl (fun _ _ h1 => State.reclaim_canon h1) (.onDev hs)

theorem State.detach_canon {s : State} {h cause : Nat} (hs : s.Canon) : (State.detach s h cause).Canon :=
  .ite (State.reclaimSite_canon (.onDev (.ite (.foldl (fun _ _ h1 => State.reclaim_canon h1) (.onDev hs)) (.onDev
    hs)))) (.onDev (.ite (.foldl (fun _ _ h1 => State.reclaim_canon h1) (.onDev hs)) (.onDev hs)))

theorem detachWrite_canon {h cause : Nat} {s : State} (hs : s.Canon) : (detachWrite h cause s).Canon :=
  .ite hs (.ite (.onDev hs) (State.detach_canon (.onDev hs)))

theorem linkLoss_canon {h cause : Nat} {s : State} (hs : s.Canon) : (linkLoss h cause s).Canon :=
  .ite hs (.onDev (.ite (State.detach_canon (.onDev hs)) (.ite (.onDev hs) (.onDev (.onDev hs)))))

theorem attach_canon {h ringBase ringCtl key : Nat} {regs : List (Nat × Nat)} {s : State} (hs : s.Canon) :
    (attach h ringBase ringCtl key regs s).Canon := by
  unfold attach
  refine .ite hs ?_
  extract_lets s' x reason s''
  have hs' : s'.Canon := .onDev hs
  have hs'' : s''.Canon := .onDev hs'
  exact .ite (.onDev hs') (.ite (.onDev hs') (.ite (.onDev hs') (.ite (.onDev hs')
    (.ite hs'' (State.reclaimSite_canon hs'')))))

theorem siteWrite_canon {h : Nat} {f : Dev → Dev} {s : State} (hs : s.Canon) : (siteWrite h f s).Canon :=
  .onDev hs

/-! Telemetry. -/

theorem harvestComplete_canon {s : State} (hs : s.Canon) : (harvestComplete s).Canon :=
  .ite hs (.ite (.onDev (.onDev hs)) (.onDev (.mm writeDpa_keeps (.onDev hs))))

theorem dumpComplete_canon {s : State} (hs : s.Canon) : (dumpComplete s).Canon := by
  unfold dumpComplete
  split
  · exact hs
  · exact .onDev (.mm writeDpa_keeps hs)

theorem nextTick_canon {v : Nat} {s : State} (hs : s.Canon) : (nextTick v s).2.Canon :=
  .iteSnd hs (.onDev hs)

theorem dumpAddress_canon {v : Nat} {s : State} (hs : s.Canon) : (dumpAddress v s).2.Canon :=
  .iteSnd (.onDev hs) hs

theorem logPosition_canon {v : Nat} {s : State} (hs : s.Canon) : (logPosition v s).2.Canon :=
  .onDev hs

/-! Settings, resets and the start-up. -/

theorem State.applySettings_canon {s : State} (hs : s.Canon) : (State.applySettings s).Canon := by
  unfold State.applySettings
  extract_lets burned valid s'
  have hs' : s'.Canon := .onDev hs
  split
  · exact hs'
  · exact .onDev hs'

theorem settingsCommit_canon {w : Waiting} {gen : Nat} {s : State} (hs : s.Canon) : (settingsCommit w gen s).2.Canon
    := by
  unfold settingsCommit
  extract_lets img
  split
  · exact hs
  · exact .iteSnd hs (.iteSnd hs (.iteSnd hs (by
      split <;> exact .onDev hs)))

theorem settingsBurned_canon {ok : Bool} {s : State} (hs : s.Canon) : (settingsBurned ok s).Canon := by
  unfold settingsBurned
  split
  · exact hs
  · exact .onDev (.mk hs)

theorem State.coldStart_canon {s : State} {boot : Boot} : (s.coldStart boot).Canon := .ofMem Store.reset_wf

theorem resetAssert_canon {s : State} : (resetAssert s).Canon := State.coldStart_canon

theorem State.startUp_canon {s : State} {straps trips : Nat} : (State.startUp s straps trips).Canon :=
  .onDev State.coldStart_canon

theorem deviceResetWrite_canon {via : Via} {v : Nat} {s : State} (hs : s.Canon) : (deviceResetWrite via v s).Canon :=
  .ite (.onDev (State.dictWrite_canon hs (fun _ h1 => h1))) (State.dictWrite_canon hs (fun _ h1 => h1))

theorem State.deriveKeys_canon {s : State} (hs : s.Canon) : (State.deriveKeys s).Canon := by
  unfold State.deriveKeys
  exact .onDev hs

theorem State.attestNow_canon {s : State} {via : Via} {nonce : Nat} (hs : s.Canon) :
    (State.attestNow s via nonce).Canon :=
  .onDev hs

theorem attest_canon {w : Waiting} {nonce : Nat} {s : State} (hs : s.Canon) : (attest w nonce s).2.Canon :=
  .iteSnd hs (.iteSnd (State.attestNow_canon hs) (.onDev hs))

theorem keyRederivation_canon {s : State} (hs : s.Canon) : (keyRederivation s).Canon :=
  .ite hs (.onDev (.foldl (fun _ _ h1 => State.attestNow_canon h1) (State.deriveKeys_canon hs)))

theorem perturbRule_keeps : perturbRule.Keeps := ⟨fun _ h => .onDev h, fun _ h => .onDev h⟩

theorem State.perturbStop_canon {s : State} (hs : s.Canon) : (State.perturbStop s).Canon :=
  .ite hs (.onDev (State.setFn_canon (.ite hs (perturbRule_keeps.stop _ (State.setFn_canon hs)))))

theorem lifeTransition_canon {w : Waiting} {v : Nat} {s : State} (hs : s.Canon) : (lifeTransition w v s).2.Canon :=
  .iteSnd hs (.iteSnd hs (.onDev hs))

theorem lifeBurned_canon {s : State} (hs : s.Canon) : (lifeBurned s).Canon := by
  unfold lifeBurned
  split
  · exact hs
  · exact .onDev (State.perturbStop_canon (.mk hs))

theorem tokenCommit_canon {token : Nat} {s : State} (hs : s.Canon) : (tokenCommit token s).2.Canon := by
  unfold tokenCommit
  extract_lets +onlyGivenNames i b action target ok s'
  have hs' : s'.Canon := .onDev hs
  refine .iteSnd hs' ?_
  extract_lets s''
  have hs'' : s''.Canon := .onDev hs'
  clear_value action
  split
  · exact .onDev hs''
  · exact .mk hs''
  · exact .onDev hs''

theorem updateRefused_canon {code : Nat} {s : State} (hs : s.Canon) : (updateRefused code s).2.Canon :=
  .onDev hs

theorem updateBegin_canon {t : Nat} {s : State} (hs : s.Canon) : (updateBegin t s).2.Canon :=
  .iteSnd hs (.iteSnd (updateRefused_canon hs) (.onDev (.mk hs)))

theorem updateAppend_canon {n : Nat} {s : State} (hs : s.Canon) : (updateAppend n s).2.Canon := by
  unfold updateAppend
  split
  · exact updateRefused_canon hs
  · exact .iteSnd hs (.onDev (.mk hs))

theorem updateFinish_canon {s : State} (hs : s.Canon) : (updateFinish s).2.Canon := by
  unfold updateFinish
  split
  · exact updateRefused_canon hs
  · exact .iteSnd (updateRefused_canon (.onDev (.onDev hs))) (.onDev (.mk (.onDev hs)))

theorem updateControl_canon {v : Nat} {s : State} (hs : s.Canon) : (updateControl v s).2.Canon := by
  unfold updateControl
  split
  · exact updateBegin_canon hs
  · exact updateAppend_canon hs
  · exact updateFinish_canon hs
  · exact hs

theorem updateAct_canon {via : Via} {action v : Nat} {s : State} (hs : s.Canon) : (updateAct via action v s).Canon :=
  State.gated_canon hs (fun _ h1 => State.dictWrite_canon h1 (fun _ h2 => updateControl_canon h2))

theorem tamper_canon {die cause : Nat} {s : State} (hs : s.Canon) : (tamper die cause s).Canon :=
  .ite hs (.ite (.onDev hs) (.ite (.onDev hs) (State.perturbStop_canon (.onDev hs))))

theorem stepClocks_canon {r : StepF} {s : State} (hs : s.Canon) : (stepClocks r s).Canon :=
  .ite (.onDev hs) (.onDev hs)

theorem stepOtp_canon {s : State} (hs : s.Canon) : (stepOtp s).Canon :=
  .ite (State.applySettings_canon hs) (.onDev hs)

theorem stepRails_canon {r : StepF} {s : State} (hs : s.Canon) : (stepRails r s).Canon :=
  .foldl (fun _ _ h1 => State.partitionOut_canon h1) (.onDev hs)

theorem State.runBank_canon {s : State} {t bank fell : Nat} (hs : s.Canon) : (State.runBank s t bank fell).Canon :=
  .onDev hs

theorem stepSecure_canon {s : State} (hs : s.Canon) : (stepSecure s).Canon := by
  unfold stepSecure
  split
  · exact .onDev hs
  · extract_lets s' s'' s''' s''''
    have hs' : s'.Canon := State.runBank_canon hs
    have hs'' : s''.Canon := by
      unfold s''
      split
      · exact State.runBank_canon hs'
      · exact hs'
    have hs''' : s'''.Canon := .onDev hs''
    have hs'''' : s''''.Canon := State.deriveKeys_canon hs'''
    exact .ite (.onDev hs'''') hs''''

theorem stepHbm_canon {r : StepF} {s : State} (hs : s.Canon) : (stepHbm r s).Canon := by
  unfold stepHbm
  extract_lets _ s'
  have hs' : s'.Canon := ⟨⟨.nil, fun _ h => absurd h List.not_mem_nil⟩, hs.2⟩
  exact .foldl (fun _ _ h1 => State.partitionOut_canon h1)
    (.foldl (fun _ _ h1 => .ite (State.markLane_canon h1) h1) hs')

theorem stepMicrocode_canon {s : State} (hs : s.Canon) : (stepMicrocode s).Canon := by
  unfold stepMicrocode
  exact .onDev hs

theorem stepLinks_canon {r : StepF} {s : State} (hs : s.Canon) : (stepLinks r s).Canon :=
  .onDev hs

theorem stepDiscovery_canon {s : State} (hs : s.Canon) : (stepDiscovery s).Canon :=
  .onDev hs

theorem State.applyEnable_canon {s : State} {idx : Nat} {r : FnRule} (hs : s.Canon) (hr : r.Keeps) :
    (State.applyEnable s idx r).Canon :=
  .ite (.ite (hr.start _ (State.setFn_canon hs)) (.onDev hs)) (.ite (State.setFn_canon hs) hs)

theorem State.raiseSvn_canon {s : State} {t : Nat} (hs : s.Canon) : (State.raiseSvn s t).Canon := by
  unfold State.raiseSvn
  split
  · exact hs
  · exact .ite hs (.onDev (.mk hs))

theorem engRule_keeps {e : Nat} : (engRule e).Keeps := ⟨fun _ h => h, fun _ h => h⟩

theorem rootRule_keeps {st : Nat} : (rootRule st).Keeps := ⟨fun _ h => h, fun _ h => h⟩

theorem siteRule_keeps {h : Nat} : (siteRule h).Keeps := ⟨fun _ h => h, fun _ h => .onDev h⟩

theorem secureRule_keeps : secureRule.Keeps := ⟨fun _ h => h, fun _ h => h⟩

theorem teleRule_keeps : teleRule.Keeps := ⟨fun _ h => h, fun _ h => .onDev h⟩

theorem stepAvailable_canon {r : StepF} {s : State} (hs : s.Canon) : (stepAvailable r s).Canon := by
  unfold stepAvailable
  extract_lets +onlyGivenNames enabled rooted ported attached sec
  have henabled : enabled.Canon := .foldl (fun _ _ h1 => State.applyEnable_canon h1 engRule_keeps) hs
  have hrooted : rooted.Canon := .foldl (fun _ _ h1 => State.applyEnable_canon h1 rootRule_keeps) henabled
  have hported : ported.Canon := .foldl (fun _ _ h1 => State.applyEnable_canon h1 portRule_keeps) hrooted
  have hattached : attached.Canon :=
    .foldl (fun _ _ h1 => .ite (State.applyEnable_canon h1 siteRule_keeps) h1) hported
  have hsec : sec.Canon := State.applyEnable_canon (State.applyEnable_canon hattached secureRule_keeps) teleRule_keeps
  exact .mk (.onDev (State.raiseSvn_canon (State.raiseSvn_canon (State.applyEnable_canon hsec perturbRule_keeps))))

theorem startupStep_canon {r : StepF} {s : State} (hs : s.Canon) : (startupStep r s).Canon := by
  unfold startupStep
  extract_lets +onlyGivenNames b
  refine .ite hs ?_
  extract_lets n t
  have ht : t.Canon := by
    unfold t
    clear_value n
    split
    · exact stepClocks_canon hs
    · exact stepOtp_canon hs
    · exact stepRails_canon hs
    · exact stepSecure_canon hs
    · exact stepHbm_canon hs
    · exact stepMicrocode_canon hs
    · exact stepLinks_canon hs
    · exact stepDiscovery_canon hs
    · exact stepAvailable_canon hs
  exact .ite ht (.onDev ht)

theorem pllLoss_canon {pll : Nat} {s : State} (hs : s.Canon) : (pllLoss pll s).Canon :=
  .ite hs (.ite (tamper_canon (.onDev hs)) (.ite (tamper_canon (.onDev hs)) (.onDev hs)))

theorem pllTimeout_canon {pll : Nat} {s : State} (hs : s.Canon) : (pllTimeout pll s).Canon :=
  .ite (State.deviceFault_canon (.mk hs)) hs

/-! The dictionary. -/

/-- The rule of every enable entry keeps the form. -/
theorem ruleOf_keeps {idx : Nat} {r : FnRule} (found : ruleOf idx = some r) : r.Keeps := by
  unfold ruleOf at found
  split at found
  · exact Option.some.inj found ▸ portRule_keeps
  split at found
  · exact Option.some.inj found ▸ engRule_keeps
  split at found
  · exact Option.some.inj found ▸ rootRule_keeps
  split at found
  · exact Option.some.inj found ▸ ctxRule_keeps
  · exact Option.some.inj found ▸ siteRule_keeps
  · split at found
    · exact Option.some.inj found ▸ secureRule_keeps
    · exact Option.some.inj found ▸ teleRule_keeps
    · exact Option.some.inj found ▸ perturbRule_keeps
    · cases found

theorem State.store_canon {s : State} {idx sub v : Nat} (hs : s.Canon) : (State.store s idx sub v).2.Canon :=
  .onDev hs

theorem ctxWrite_canon {via : Via} {c sub v : Nat} {s : State} (hs : s.Canon) : (ctxWrite via c sub v s).2.Canon := by
  unfold ctxWrite
  split
  · exact ownerWrite_canon hs
  · exact .onDev hs
  · exact .onDev hs
  · exact streamCtl_canon hs
  · exact attachEval_canon hs
  · exact rollbackControl_canon hs
  · exact State.store_canon hs

theorem portWrite_canon {n sub v : Nat} {s : State} (hs : s.Canon) : (portWrite n sub v s).2.Canon :=
  .iteSnd (State.store_canon hs) (State.store_canon hs)

theorem stkWrite_canon {st sub v : Nat} {s : State} (hs : s.Canon) : (stkWrite st sub v s).2.Canon :=
  State.store_canon hs

theorem bedsWrite_canon {via : Via} {sub v : Nat} {s : State} (hs : s.Canon) : (bedsWrite via sub v s).2.Canon :=
  .iteSnd (bedWrite_canon hs) (.iteSnd (splitWrite_canon hs) (State.store_canon hs))

theorem deviceWrite_canon {via : Via} {idx sub v : Nat} {s : State} (hs : s.Canon) :
    (deviceWrite via idx sub v s).2.Canon := by
  unfold deviceWrite
  split
  · dsimp only
    exact .onDev hs
  · dsimp only
    exact .onDev hs
  · exact slabTableWrite_canon hs
  · exact invalidate_canon hs
  · exact blockWrite_canon hs
  · exact .mk hs
  · exact nextTick_canon hs
  · exact dumpAddress_canon hs
  · exact logPosition_canon hs
  · exact tokenCommit_canon hs
  · exact hs
  · exact updateControl_canon hs
  · exact State.store_canon hs

theorem writeEffect_canon {via : Via} {idx sub v : Nat} {s : State} (hs : s.Canon) :
    (writeEffect via idx sub v s).2.Canon := by
  unfold writeEffect
  split
  · next rule found =>
    split at found
    · exact State.fnWrite_canon hs (ruleOf_keeps found)
    · cases found
  · exact .iteSnd (portWrite_canon hs) (.iteSnd (bankGrantWrite_canon hs) (.iteSnd (bedsWrite_canon hs)
      (.iteSnd (stkWrite_canon hs) (by
        split
        · exact ctxWrite_canon hs
        · exact deviceWrite_canon hs))))

theorem reclaimNow_canon {w : Waiting} {h v : Nat} {s : State} (hs : s.Canon) : (reclaimNow w h v s).2.Canon :=
  .iteSnd hs (.iteSnd (.ite hs (State.reclaimSite_canon hs)) (.onDev (.ite hs (State.reclaimSite_canon hs))))

theorem applyWrite_canon {w : Waiting} {v : Nat} {s : State} (hs : s.Canon) : (applyWrite w v s).2.Canon := by
  unfold applyWrite
  split
  · exact settingsCommit_canon hs
  · exact lifeTransition_canon hs
  · exact attest_canon hs
  · split
    · exact reclaimNow_canon hs
    · exact writeEffect_canon hs
  · exact writeEffect_canon hs

theorem domainWrite_canon {w : Waiting} {row : EntryRow} {s : State} (hs : s.Canon) : (domainWrite w row s).2.Canon :=
  .iteSnd (.iteSnd hs (.onDev hs)) (.iteSnd hs (.iteSnd hs (.iteSnd (applyWrite_canon hs) (.onDev (applyWrite_canon
    hs)))))

theorem State.write_canon {s : State} {w : Waiting} (hs : s.Canon) : (State.write s w).2.Canon := by
  unfold State.write
  extract_lets +onlyGivenNames r
  split
  · exact hs
  · exact .iteSnd hs (.iteSnd hs (.iteSnd (domainWrite_canon hs) (.iteSnd hs (applyWrite_canon hs))))

theorem State.serve_canon {s : State} {w : Waiting} (hs : s.Canon) : (s.serve w).Canon := by
  have written := State.write_canon (w := w) hs
  unfold State.serve
  extract_lets +onlyGivenNames r
  split
  · exact .onDev hs
  refine .ite (.onDev hs) (.ite (.onDev hs) (.ite ?_ (.onDev hs)))
  split
  · next run =>
    rw [run] at written
    exact .onDev written
  · next run =>
    rw [run] at written
    exact .onDev written
  · next run =>
    rw [run] at written
    exact written

theorem State.receive_canon {s : State} {via : Via} {op : Nat} {r : Req} (hs : s.Canon) :
    (State.receive s via op r).Canon := by
  unfold State.receive
  refine .ite (.onDev hs) ?_
  extract_lets again
  clear_value again
  split
  · exact .onDev hs
  · exact .ite (.onDev hs) (State.serve_canon hs)

theorem mailboxSubmit_canon {h : Fin 4} {op : Nat} {r : Req} {s : State} (hs : s.Canon) :
    (mailboxSubmit h op r s).Canon :=
  .ite hs (State.receive_canon (.onDev hs))

theorem stoppingEnd_canon {idx : Nat} {s : State} (hs : s.Canon) : (stoppingEnd idx s).Canon :=
  .ite hs (by
    split
    · exact contextStop_canon hs
    · refine .ite (State.portStopped_canon hs) ?_
      split
      · next found => exact .ite (State.fnStopped_canon hs (ruleOf_keeps found)) hs
      · exact hs)

theorem State.unblock_canon {s : State} {idx : Nat} (hs : s.Canon) : (State.unblock s idx).Canon :=
  .ite hs (by
    extract_lets +onlyGivenNames held mine s'
    have hs' : s'.Canon := .onDev hs
    exact .foldl (fun _ _ h1 => by
      extract_lets s''
      have hs'' : s''.Canon := by
        unfold s''
        split
        · exact .onDev h1
        · exact h1
      exact State.serve_canon hs'')
      hs')

theorem State.unblockSites_canon {s : State} (hs : s.Canon) : (State.unblockSites s).Canon :=
  .foldl (fun _ _ h1 => State.unblock_canon h1) hs

theorem State.ownWrite_canon {s : State} {via : Via} {idx sub v : Nat} (hs : s.Canon) :
    (State.ownWrite s via idx sub v).Canon :=
  .ite (.onDev hs) (State.serve_canon hs)

/-! Links and what they held. -/

theorem hostEffect_canon {i : Instr} {s : State} (hs : s.Canon) : (hostEffect i s).Canon := by
  unfold hostEffect
  split
  · exact State.windowWrite_canon hs
  · exact hostAccess_canon hs
  · exact .onDev hs
  · exact .onDev hs
  · exact .onDev hs
  · exact attach_canon hs
  · exact detachWrite_canon hs
  · exact detachWrite_canon hs
  · exact siteWrite_canon hs
  · exact siteWrite_canon hs
  · exact mailboxSubmit_canon hs
  · exact .onDev hs
  · exact hs

theorem State.releaseHost_canon {s : State} {h : Nat} (hs : s.Canon) : (State.releaseHost s h).Canon :=
  .ite hs (.foldl (fun _ _ h1 => hostEffect_canon h1) (.onDev hs))

theorem State.linkActive_canon {s : State} {h modules rate repaired : Nat} (hs : s.Canon) :
    (State.linkActive s h modules rate repaired).Canon :=
  .ite (State.releaseHost_canon (.onDev hs)) (.onDev hs)

theorem State.relocked_canon {s : State} {pll : Nat} (hs : s.Canon) : (State.relocked s pll).Canon :=
  .ite (State.releaseHost_canon (.onDev hs)) (.onDev hs)

/-! Every command keeps the form of the memories: one arm for each family of commands. -/

/-- A next state, where there is one, stands in canonical form. -/
def NextCanon (o : Host.Outcome State Fault Refusal) : Prop := ∀ t, o = .next t → t.Canon

theorem NextCanon.next {s : State} (hs : s.Canon) : NextCanon (.next s) := by
  rintro _ ⟨⟩
  exact hs

theorem NextCanon.ite {c : Prop} [Decidable c] {o p : Host.Outcome State Fault Refusal} (ho : NextCanon o)
    (hp : NextCanon p) : NextCanon (if c then o else p) := by
  split <;> assumption

theorem execLongestWaitClear_canon {via : Via} {place v : Nat} {s : State} (hs : s.Canon) :
    NextCanon (execLongestWaitClear via place v s) := by
  unfold execLongestWaitClear
  split
  · exact .next hs
  · exact .next (State.dictWrite_canon hs fun _ h1 => .iteSnd h1 (.onDev h1))

theorem exec_canon {i : Instr} {s : State} (hs : s.Canon) : NextCanon (exec i s) := by
  cases i with
  | nop => exact .next (State.issueCmd_canon hs (.bind plainHeader_keeps fun _ => .pure _))
  | swait => exact .next (State.issueCmd_canon hs swait_keeps)
  | ssignalAdd | ssignalSet => exact .next (State.issueCmd_canon hs ssignal_keeps)
  | sremote => exact .next (State.issueCmd_canon hs sremote_keeps)
  | sfence => exact .ite (.next (State.holdHead_canon hs)) (.next (State.issueCmd_canon hs sfence_keeps))
  | mtile => exact .next (State.issueCmd_canon hs mtileQueue_keeps)
  | vconv | vadd | vsub | vmul | vfma | vmax | vmin | vscale | vdiv | vfunc | vsel | vfill | vtrans | vredsum
  | vredsq | vredmax | vtopk | vwin | vsoftmax | vdeq => exact .next (runVec_canon hs)
  | mcopy | mgather | mscatter => exact .next (runMove_canon hs)
  | callred | credscat | cgather | cbcast | ctopk | cwin => exact .next (runColl_canon hs)
  | chandleOpenJob | chandleOpenStorage | chandleClose | chandleNewEpoch | chandleBindEmit =>
    exact .next (runHandle_canon hs)
  | rjobs => exact .next (State.issueCmd_canon hs rjobs_keeps)
  | unorm => exact .next (runNorm_canon hs)
  | ufence =>
    exact .ite (.next (State.holdHead_canon hs)) (.next (State.tryFence_canon (State.issueCmd_canon hs
      ufence_keeps)))
  | hphase => exact .next (State.issueCmd_canon hs hphase_keeps)
  | hcancel => exact .next (State.issueCmd_canon hs hcancel_keeps)
  | sopen => exact .next (State.issueCmd_canon hs sopen_keeps)
  | sclose => exact .next (State.issueCmd_canon hs sclose_keeps)
  | srestore => exact .next (State.issueCmd_canon hs srestore_keeps)
  | stage =>
    exact .next (.ite (.onDev (State.forwarded_canon hs)) (rootJob_canon (fun _ => stageWrites_keeps) (fun _ =>
      stageRun_keeps) (State.forwarded_canon hs)))
  | compress =>
    exact .next (rootJob_canon (fun _ => compressWrites_keeps) (fun _ => compressRun_keeps) (State.forwarded_canon
      hs))
  | update =>
    exact .next (rootJob_canon (fun _ => updateWrites_keeps) (fun _ => updateRun_keeps) (State.forwarded_canon hs))
  | copy => exact .next (rootJob_canon (fun _ => dstWrites_keeps) (fun _ => copyRun_keeps) (State.forwarded_canon hs))
  | convert =>
    exact .next (rootJob_canon (fun _ => dstWrites_keeps) (fun _ => convertRun_keeps) (State.forwarded_canon hs))
  | streamOut =>
    exact .next (.ite (streamShare_canon hs) (rootJob_canon (fun _ => noWrites_keeps) (fun _ => streamOutRun_keeps)
      (State.forwarded_canon hs)))
  | streamIn => exact .next (streamIn_canon (State.forwarded_canon hs))
  | translationReply => exact .next (.ite (.onDev hs) (.act (.bind (leafOf_keeps _ _) fun _ => .upd _) hs))
  | chunkDelivery | dropEventTimer | syncOpGrant | swaitTimeout | remoteSignalReceive | drainComplete
  | arrayClockGate | setSave | setRestore | arbiterGrant | refresh | refreshForced | retraining | retrainingForced
  | windowClose | windowEarlyClose | overrunLimitExpiry | laneRetrainComplete | frameReceive | ackTimer | ackReceive
  | windowProbeTimer | retransmissionTimeout | cnpReceive | rateIncreaseTimer | epochResponseReceive
  | digestMismatchResponse | pfcFrameReceive | ptpMessageReceive | ppsInputEdge | ppsOutputSecond | lldpSendTimer
  | collectiveTimeout | chunkReofferTimer | chunkWaitEvent | faultNoticeReceive | presenceQueryTimer
  | presenceResponse | linkRetrainRequest | coalescingWindowExpiry | interruptModerationTimer | governorTick
  | floorLeave | laneRestore | telemetrySample | telemetryWindowEnd | marginRaiseTimer | canaryWarning
  | operatingPointChoice | opUpPclkSlew | avsWriteComplete | pwrCapAlertEdge | droopTrip | droopClear
  | marginHoldExpiry | thermalCeilingTimer | hardThermalEntry | stackThermalLimit | thermtrip | hangTimeout
  | partitionResetDrained | harvestTick | domainStagingDiscard | replyCacheExpiry | timeHoldover | bypass | idcode
  | samplePreload | extest | clamp | highz | debug | trstAssert | ucieFlitReplay | pclkSlewDownComplete
  | hardThermalRelease | stackThermalRelease | setEndpointId | dynamicAddressAssignment | summaryRewriteTimer =>
    exact .next (.onDev hs)
  | chunkStaged => exact .next (chunkStaged_canon hs)
  | emissionAccepted => exact .next (emissionAccepted_canon hs)
  | commandSubmit => exact .next (State.hostSide_canon hs (fun _ h1 => State.windowWrite_canon h1))
  | commandIssue => exact .next (commandIssue_canon hs)
  | commandComplete => exact .next (commandComplete_canon hs)
  | streamControlResumeAfter | streamControlDiscard | streamControlRetry => exact .next (streamWrite_canon hs)
  | contextOwnerWrite => exact .next (State.dictWrite_canon hs (fun _ h1 => ownerWrite_canon h1))
  | contextEnableWrite => exact .next (State.dictWrite_canon hs (fun _ h1 => ctxEnable_canon h1))
  | contextStopComplete => exact .next (State.unblockSites_canon (contextStop_canon hs))
  | blockAssign | blockFree => exact .next (State.dictWrite_canon hs (fun _ h1 => blockWrite_canon h1))
  | syncWindowRead | syncWindowWrite | mailboxAcknowledge | hdmDecoderCommit =>
    exact .next (State.hostSide_canon hs (fun _ h1 => .onDev h1))
  | translationInvalidate => exact .next (State.dictWrite_canon hs (fun _ h1 => invalidate_canon h1))
  | slabTableWrite => exact .next (State.dictWrite_canon hs (fun _ h1 => slabTableWrite_canon h1))
  | tileFeedStart => exact .next (feedStart_canon hs)
  | weightLoadComplete => exact .next (weightLoad_canon hs)
  | tileJobRetire => exact .next (jobRetire_canon hs)
  | runnerMerge => exact .next (runnerMerge_canon hs)
  | drainStart => exact .next (drainStart_canon hs)
  | tileCheck => exact .next (tileCheck_canon hs)
  | vectorTileBoundary => exact .next (vectorBoundary_canon hs)
  | engineEnableWrite => exact .next (State.dictWrite_canon hs (fun _ h1 => State.fnWrite_canon h1 engRule_keeps))
  | scratchpadWriteback => exact .next (spadWriteback_canon hs)
  | scrubRead => exact .next (scrubLine_canon hs)
  | scrubForced => exact .next (.onDev (scrubLine_canon hs))
  | wipeComplete => exact .next (wipeComplete_canon hs)
  | keyRederivation => exact .next (State.unblock_canon (keyRederivation_canon hs))
  | longestWaitClear => exact execLongestWaitClear_canon hs
  | hbmRequest => exact .next (hbmRequest_canon hs)
  | hostCxlMemAccess => exact .next (State.hostSide_canon hs (fun _ h1 => hostAccess_canon h1))
  | hbmWriteback => exact .next (hbmWriteback_canon hs)
  | laneMark => exact .next (laneMark_canon hs)
  | patrolScrubRead | patrolScrubForced => exact .next (patrol_canon hs)
  | imageComplete => exact .next (imageComplete_canon hs)
  | securingHoldRelease => exact .next (.ite (.onDev hs) hs)
  | networkHeaderAck => exact .next (networkHeaderAck_canon hs)
  | securingEnableWrite =>
    exact .next (State.dictWrite_canon hs (fun _ h1 => State.fnWrite_canon h1 secureRule_keeps))
  | bedWrite => exact .next (State.dictWrite_canon hs (fun _ h1 => bedWrite_canon h1))
  | splitGroupWrite => exact .next (State.dictWrite_canon hs (fun _ h1 => splitWrite_canon h1))
  | engineGrantWrite | boardCapWrite | operatorCapWrite =>
    exact .next (State.dictWrite_canon hs (fun _ h1 => .onDev h1))
  | bankGrantWrite => exact .next (State.dictWrite_canon hs (fun _ h1 => bankGrantWrite_canon h1))
  | evaluationAttachWrite => exact .next (State.dictWrite_canon hs (fun _ h1 => attachEval_canon h1))
  | linkStateChange => exact .next (linkState_canon hs)
  | transportPacketReceive => exact .next (packetReceive_canon (.onDev hs))
  | storageAckReceive => exact .next (storageAck_canon hs)
  | normCollectiveComplete => exact .next (normComplete_canon hs)
  | linkTrained => exact .next (State.linkActive_canon hs)
  | linkLoss => exact .next (linkLoss_canon hs)
  | attach => exact .next (State.hostSide_canon hs (fun _ h1 => attach_canon h1))
  | detachAndHold | detachAndRelease => exact .next (State.hostSide_canon hs (fun _ h1 => detachWrite_canon h1))
  | gracePeriodExpiry => exact .next (.ite (State.reclaimSite_canon hs) hs)
  | reclaimNow | settingsCommit | lifeCycleTransition | attestationNonce => exact .next (State.ownWrite_canon hs)
  | consumerIndexWrite | summaryClear => exact .next (State.hostSide_canon hs (fun _ h1 => siteWrite_canon h1))
  | siteEnableWrite =>
    exact .next (State.gated_canon hs (fun _ h1 => State.dictWrite_canon h1 (fun _ h2 => State.fnWrite_canon h2
      siteRule_keeps)))
  | flitCrcFailure => exact .next (flitFailure_canon hs)
  | partitionResetComplete => exact .next (resetComplete_canon hs)
  | replayStart => exact .next (replayStart_canon hs)
  | rollbackControlWrite => exact .next (State.dictWrite_canon hs (fun _ h1 => rollbackControl_canon h1))
  | deviceWideFault => exact .next (deviceWide_canon hs)
  | harvestComplete => exact .next (harvestComplete_canon hs)
  | dumpComplete => exact .next (dumpComplete_canon hs)
  | nextTickWrite => exact .next (State.dictWrite_canon hs (fun _ h1 => nextTick_canon h1))
  | logReadPositionWrite => exact .next (State.dictWrite_canon hs (fun _ h1 => logPosition_canon h1))
  | read | write | readBlock | list | describe => exact .next (State.receive_canon hs)
  | mailboxSubmit => exact .next (State.hostSide_canon hs (fun _ h1 => mailboxSubmit_canon h1))
  | functionStoppingEnd => exact .next (State.unblockSites_canon (stoppingEnd_canon hs))
  | rootEngineEnableWrite =>
    exact .next (State.dictWrite_canon hs (fun _ h1 => State.fnWrite_canon h1 rootRule_keeps))
  | portEnableWrite => exact .next (State.dictWrite_canon hs (fun _ h1 => State.fnWrite_canon h1 portRule_keeps))
  | portStartingTimeout => exact .next (.ite (State.portStarted_canon hs) hs)
  | telemetryEnableWrite => exact .next (State.dictWrite_canon hs (fun _ h1 => State.fnWrite_canon h1 teleRule_keeps))
  | perturbationEnableWrite =>
    exact .next (State.dictWrite_canon hs (fun _ h1 => State.fnWrite_canon h1 perturbRule_keeps))
  | fewestBuffersReset => exact .next (State.dictWrite_canon hs (fun _ h1 => .iteSnd h1 (.onDev h1)))
  | settingsBurnComplete => exact .next (State.unblock_canon (settingsBurned_canon hs))
  | resetAssert => exact .next resetAssert_canon
  | resetRelease => exact .next (.ite (.onDev State.startUp_canon) hs)
  | startupStepComplete => exact .next (startupStep_canon hs)
  | deviceResetWrite => exact .next (State.gated_canon hs (fun _ h1 => deviceResetWrite_canon h1))
  | authorisationToken =>
    exact .next (State.gated_canon hs (fun _ h1 => State.dictWrite_canon h1 (fun _ h2 => tokenCommit_canon h2)))
  | updateBegin | updateAppend | updateFinish => exact .next (updateAct_canon hs)
  | tamperTrip => exact .next (tamper_canon hs)
  | tamperRestartTimer | deviceResetDelayExpiry => exact .next (.ite State.startUp_canon hs)
  | pllLockLoss => exact .next (pllLoss_canon hs)
  | pllRelock => exact .next (State.relocked_canon hs)
  | pllRelockTimeout => exact .next (pllTimeout_canon hs)
  | moveUnitBoundary => exact .next (moveBoundary_canon hs)
  | lifeCycleBurnComplete => exact .next (State.unblock_canon (lifeBurned_canon hs))
  | snapshotFlushComplete => exact .next (snapshotFlush_canon hs)

/-- Settles O32: the idle step leaves the memories alone, and every command keeps their form. -/
theorem memoriesStayCanonical : Obligations.memoriesStayCanonical := by
  unfold Obligations.memoriesStayCanonical
  intro s t hs run
  unfold step at run
  split at run
  · cases run
    exact idle_canon hs
  · exact exec_canon (State.Canon.mk hs) t run

end Sys2Proof.Machine

namespace Sys2Proof.Machine
open Sys2Proof

/-! What a host mailbox may not write: the slab table and the grants of an engine and its banks (R237, R447). -/

/-- Steps 2 to 6 of R672 on a writable entry that is no site's: only its transport is left to ask. -/
theorem Dev.writeHead_of_rowOf {d : Dev} {via : Via} {idx sub : Nat} {row : EntryRow} (present : idxPresent idx = true)
    (noSite : siteIdx idx = none) (counted : sub ≠ 0) (found : rowOf idx sub = some row)
    (writable : row.acc ≠ .const ∧ row.acc ≠ .ro) :
    d.writeHead via idx sub =
      if d.transportCode via idx sub row ≠ 0 then .error (d.transportCode via idx sub row) else .ok row := by
  obtain ⟨notConst, notRo⟩ := writable
  simp [Dev.writeHead, Dev.row, present, noSite, counted, found, notConst, notRo]

/-- The writable entries at a sub-index of an index, those of a site left out. -/
def isWritable (idx sub : Nat) : Bool :=
  idxPresent idx && (siteIdx idx).isNone && sub ≠ 0 &&
    (rowOf idx sub).any (fun row => row.acc ≠ .const && row.acc ≠ .ro)

theorem Dev.writeHead_of_isWritable {d : Dev} {via : Via} {idx sub : Nat} (writable : isWritable idx sub = true) :
    ∃ row, rowOf idx sub = some row ∧ d.writeHead via idx sub =
      if d.transportCode via idx sub row ≠ 0 then .error (d.transportCode via idx sub row) else .ok row := by
  simp only [isWritable, Bool.and_eq_true, Option.isNone_iff_eq_none, decide_eq_true_eq, Option.any_eq_true] at writable
  obtain ⟨⟨⟨present, noSite⟩, counted⟩, row, found, notConst, notRo⟩ := writable
  exact ⟨row, found, Dev.writeHead_of_rowOf present noSite counted found ⟨notConst, notRo⟩⟩

theorem isWritable_slabTable : isWritable 0x2800 0x01 = true := by decide

/-- The management VLAN may write the slab table as I3C/MCTP may. -/
theorem slabTable_i3cOnly {row : EntryRow} (found : rowOf 0x2800 0x01 = some row) : row.i3cOnly = false := by
  have run : (rowOf 0x2800 0x01).map (·.i3cOnly) = some false := by decide
  simpa [found] using run

theorem isWritable_grants : ∀ e : Fin 64, isWritable (0x3000 + e.val) 0x24 = true ∧ isWritable (0x3000 + e.val) 0x25 = true := by
  decide +kernel

theorem Dev.transportCode_slabTable (d : Dev) (h : Fin 4) (row : EntryRow) :
    d.transportCode (.mailbox h) 0x2800 0x01 row = 0x0508 := rfl

theorem Dev.transportCode_grants (d : Dev) (h : Fin 4) (e : Fin 64) {sub : Nat} (grant : sub = 0x24 ∨ sub = 0x25)
    (row : EntryRow) : d.transportCode (.mailbox h) (0x3000 + e.val) sub row = 0x030E := by
  have noCtx : ctxIdx (0x3000 + e.val) = none := by simp [ctxIdx]; omega
  have noSite : siteIdx (0x3000 + e.val) = none := by simp [siteIdx]; omega
  have engine : 0x3000 ≤ 0x3000 + e.val ∧ 0x3000 + e.val < 0x3040 := by omega
  rcases grant with rfl | rfl <;> simp [Dev.transportCode, noCtx, noSite, engine]

/-- The host mailbox's write of the slab table is refused at its head. -/
theorem Dev.writeHead_slabTable (d : Dev) (h : Fin 4) : d.writeHead (.mailbox h) 0x2800 0x01 = .error 0x0508 := by
  obtain ⟨row, -, head⟩ := Dev.writeHead_of_isWritable (d := d) (via := .mailbox h) isWritable_slabTable
  rw [head, Dev.transportCode_slabTable]
  rfl

/-- So is its write of the grants of an engine and its banks. -/
theorem Dev.writeHead_grants (d : Dev) (h : Fin 4) (e : Fin 64) {sub : Nat} (grant : sub = 0x24 ∨ sub = 0x25) :
    d.writeHead (.mailbox h) (0x3000 + e.val) sub = .error 0x030E := by
  have writable : isWritable (0x3000 + e.val) sub = true := by
    obtain ⟨engines, banks⟩ := isWritable_grants e
    rcases grant with rfl | rfl
    · exact engines
    · exact banks
  obtain ⟨row, -, head⟩ := Dev.writeHead_of_isWritable (d := d) (via := .mailbox h) writable
  rw [head, d.transportCode_grants h e grant]
  rfl

section RefusedHeads
variable {s : State} {via : Via} {idx sub code : Nat}

/-- A write refused at its head answers the head's code, whatever its value and its effect would be. -/
theorem State.dictWrite_of_head {v : Nat} {eff : State → WR} (head : s.dev.writeHead via idx sub = .error code) (ne : code ≠ 0)
    (avail : s.dev.avail = true) (heard : s.dev.deaf via = false) :
    s.dictWrite via idx sub v eff = s.replied via idx sub code := by
  have run : s.dev.writeCode via idx sub v = code := by
    unfold Dev.writeCode
    rw [head]
  rw [State.dictWrite_refused heard avail (run ▸ ne), run]
  rfl

/-- So does a request. -/
theorem State.write_of_head {w : Waiting} (head : s.dev.writeHead w.via w.req.index w.req.sub = .error code) :
    s.write w = (some code, s) := by
  unfold State.write
  extract_lets +onlyGivenNames r
  split
  · next run => rw [Except.error.inj (run.symm.trans head)]
  · next run => exact nomatch run.symm.trans head

end RefusedHeads

/-- Settles O56: each of the three entries is refused at the head of the write. -/
theorem transportsRefused : Obligations.transportsRefused := by
  intro s h e v
  refine ⟨fun avail heard => ⟨?_, ?_, ?_⟩, fun w mail => ⟨fun at_ sub => ?_, fun at_ grant => ?_⟩, fun a => ?_⟩
  · exact congrArg Host.Outcome.next (State.dictWrite_of_head (s.dev.writeHead_slabTable h) (by decide) avail heard)
  · exact congrArg Host.Outcome.next (State.dictWrite_of_head (s.dev.writeHead_grants h e (.inl rfl)) (by decide) avail heard)
  · exact congrArg Host.Outcome.next (State.dictWrite_of_head (s.dev.writeHead_grants h e (.inr rfl)) (by decide) avail heard)
  · exact State.write_of_head (by rw [mail, at_, sub]; exact s.dev.writeHead_slabTable h)
  · exact State.write_of_head (by rw [mail, at_]; exact s.dev.writeHead_grants h e grant)
  · obtain ⟨row, found, head⟩ := Dev.writeHead_of_isWritable (d := s.dev) (via := .i3c a) isWritable_slabTable
    obtain ⟨row', found', head'⟩ := Dev.writeHead_of_isWritable (d := s.dev) (via := .vlan a) isWritable_slabTable
    have permitted : row'.i3cOnly = false := slabTable_i3cOnly found'
    rw [head, head']
    simp [Dev.transportCode, permitted, Except.toOption]
end Sys2Proof.Machine

namespace Sys2Proof.Machine
open Sys2Proof

/-! What a stack answers and keeps: the bytes of a range, read and written, and the statement about its requests (R228, R231,
R232, R253, R254, R259, R260, R539, R610, R616). -/

/-! The bytes that a read of cells gives. -/

/-- Cells in rising order from an address on give the bytes from there, one by one. -/
theorem cellsFrom_eq : ∀ (n : Nat) {l : List Host.Cell} {a : Nat}, l.Pairwise (fun p q => p.1 < q.1) → (∀ p ∈ l, a ≤ p.1) →
    cellsFrom n l a = (List.range n).map fun k => cellByte l (a + k) := by
  intro n
  induction n with
  | zero => intros; rfl
  | succ n ih =>
    intro l a rising above
    rw [List.range_succ_eq_map, List.map_cons, List.map_map]
    have shift : ((fun k => cellByte l (a + k)) ∘ Nat.succ) = fun k => cellByte l (a + 1 + k) := by
      funext k
      simp [Nat.add_assoc, Nat.add_comm 1]
    rw [shift]
    cases l with
    | nil => exact congrArg (List.cons 0) (ih .nil (by simp))
    | cons p t =>
      obtain ⟨k, b⟩ := p
      obtain ⟨least, rising'⟩ := List.pairwise_cons.mp rising
      have start : a ≤ k := above _ (List.mem_cons_self ..)
      by_cases here : k = a
      · subst here
        have tail : ∀ j, cellByte ((k, b) :: t) (k + 1 + j) = cellByte t (k + 1 + j) := fun j =>
          cellByte_append_right (l := [(k, b)]) (by simp; omega)
        simp only [cellsFrom, if_pos, tail]
        rw [ih rising' fun p hp => least p hp]
        simp [cellByte]
      · have gap : cellByte ((k, b) :: t) a = 0 := by
          have none_at : ((k, b) :: t).find? (fun p => decide (p.1 = a)) = none := by
            rw [List.find?_eq_none]
            intro p hp
            rcases List.mem_cons.mp hp with rfl | hp
            · simpa using here
            · have := least p hp
              simp only [decide_eq_true_eq]
              omega
          simp only [cellByte, none_at]
        simp only [cellsFrom, if_neg here, Nat.add_zero, gap]
        rw [ih rising fun p hp => ?_]
        rcases List.mem_cons.mp hp with rfl | hp
        · omega
        · have := least p hp
          omega

/-- A read of cells in canonical form gives the bytes of its range. -/
theorem cellsRead_eq {l : List Host.Cell} (wf : cellsWf l) (a n : Nat) :
    cellsRead l a n = (List.range n).map fun k => cellByte l (a + k) := by
  have split := List.takeWhile_append_dropWhile (p := fun p : Host.Cell => decide (p.1 < a)) (l := l)
  have rising : (l.dropWhile (fun p => decide (p.1 < a))).Pairwise (fun p q => p.1 < q.1) := wf.1.sublist (List.dropWhile_sublist _)
  have above : ∀ p ∈ l.dropWhile (fun p => decide (p.1 < a)), a ≤ p.1 := by
    intro p hp
    cases run : l.dropWhile (fun p => decide (p.1 < a)) with
    | nil => simp [run] at hp
    | cons q t =>
      have head : a ≤ q.1 := by
        have := List.head_dropWhile_not (p := fun p : Host.Cell => decide (p.1 < a)) (l := l) (by simp [run])
        simpa [run] using this
      rw [run] at hp rising
      rcases List.mem_cons.mp hp with rfl | hp
      · exact head
      · exact head.trans (List.rel_of_pairwise_cons rising hp).le
  have below : ∀ p ∈ l.takeWhile (fun p => decide (p.1 < a)), p.1 < a := fun p hp => by
    simpa using List.mem_takeWhile_imp hp
  unfold cellsRead
  rw [cellsFrom_eq n rising above]
  refine List.map_congr_left fun k _ => ?_
  conv_rhs => rw [← split]
  exact (cellByte_append_right fun p hp => by have := below p hp; omega).symm

/-- What was written reads back, byte by byte. -/
theorem cellsRead_cellsWrite {l : List Host.Cell} (wf : cellsWf l) (a : Nat) {bs : List Nat} (bytes : ∀ b ∈ bs, b < 256) :
    cellsRead (cellsWrite l a bs) a bs.length = bs := by
  rw [cellsRead_eq (cellsWrite_wf wf a bs)]
  refine List.ext_getElem (by simp) fun k hk hk' => ?_
  have byte := bytes _ (List.getElem_mem hk')
  simp [cellByte_cellsWrite, hk', Nat.mod_eq_of_lt byte]

theorem length_leBytes : ∀ n v : Nat, (leBytes n v).length = n
  | 0, _ => rfl
  | n + 1, _ => congrArg (· + 1) (length_leBytes n _)

theorem lt_of_mem_leBytes : ∀ (n v : Nat), ∀ b ∈ leBytes n v, b < 256
  | 0, _, _, h => nomatch h
  | n + 1, v, b, h => by
    rcases List.mem_cons.mp h with rfl | h
    · exact Nat.mod_lt _ (by decide)
    · exact lt_of_mem_leBytes n _ b h

/-! Reads and writes of a range that holds no error. -/

/-- No line of the range holds a stored error. -/
abbrev Store.clean (m : Store) (st off len : Nat) : Prop :=
  ∀ p ∈ m.hbmErr, ¬(hbmKey st (off / 64 * 64) ≤ p.1 * 64 ∧ p.1 * 64 < hbmKey st (off + len))

/-- The bytes of a range of a stack. -/
abbrev Store.bytes (m : Store) (st off len : Nat) : List Nat := cellsRead m.hbm (hbmKey st off) len

section Range
variable {w : Wd} {s : State} {st off len input data : Nat} {ctx : Option Nat} {bs : List Nat}

/-- Without perturbation and without a stored error, every line of a range is read as it stands. -/
theorem Wd.dirtyLines_clean (off' : w.dev.fn 0x7000 ≠ 2) (clean : w.mem.clean st off len) :
    w.dirtyLines st off len = [] := by
  unfold Wd.dirtyLines
  rw [if_neg (show ¬ w.dev.reg 0x7000 0x02 % 4 = 2 from off'), List.map_eq_nil_iff, List.filter_eq_nil_iff]
  simpa using clean

/-- A read of such a range gives its bytes, unpoisoned, and changes nothing. -/
theorem hbmGet_run (off' : w.dev.fn 0x7000 ≠ 2) (clean : w.mem.clean st off len) :
    hbmGet st off len input ctx w = ((w.mem.bytes st off len, false), w) := by
  unfold hbmGet hbmGetAt
  simp only [bind, StateT.bind, get, getThe, MonadStateOf.get, StateT.get, pure, StateT.pure, Wd.dirtyLines_clean off' clean]
  rfl

/-- The pending write-backs of a stack without those of a range's lines. -/
def Dev.withdraw (d : Dev) (st off n : Nat) : Dev :=
  d.updStk st (fun k => { k with
    writeback := k.writeback.filter (fun l => !(hbmKey st (off / 64 * 64) ≤ l * 64 && l * 64 < hbmKey st (off + n))) })

/-- A write of such a range writes its bytes and withdraws the write-backs of its lines; no line answers poisoned. -/
theorem hbmPut_run (off' : w.dev.fn 0x7000 ≠ 2) (clean : w.mem.clean st off bs.length) :
    hbmPut st off bs input ctx w = (false,
      { mem := { w.mem with hbm := cellsWrite w.mem.hbm (hbmKey st off) bs }, dev := w.dev.withdraw st off bs.length }) := by
  unfold hbmPut
  simp only [bind, StateT.bind, get, getThe, MonadStateOf.get, StateT.get, pure, StateT.pure, Wd.dirtyLines_clean off' clean]
  rfl

/-- The same, run in a state. -/
theorem State.runMm_hbmGet (off' : s.dev.fn 0x7000 ≠ 2) (clean : s.mem.clean st off len) :
    s.runMm (hbmGet st off len input ctx) = ((s.mem.bytes st off len, false), s) := by
  unfold State.runMm
  rw [hbmGet_run off' clean]

/-- The state whose stack holds the bytes from an offset on. -/
def State.written (s : State) (st off : Nat) (bs : List Nat) : State :=
  { s with mem := { s.mem with hbm := cellsWrite s.mem.hbm (hbmKey st off) bs }, dev := s.dev.withdraw st off bs.length }

theorem State.runMm_hbmPut (off' : s.dev.fn 0x7000 ≠ 2) (clean : s.mem.clean st off bs.length) :
    s.runMm (hbmPut st off bs input ctx) = (false, s.written st off bs) := by
  unfold State.runMm
  rw [hbmPut_run off' clean]
  rfl

/-- What a write leaves: the bytes read back, every other byte stands, and nothing but the stacks and the part changes. -/
def Wrote (s t : State) (st off len data : Nat) : Prop :=
  t.persist = s.persist ∧ t.pending = s.pending ∧ t.mem.spad = s.mem.spad ∧ t.mem.bytes st off len = leBytes len data ∧
    ∀ a, (a < hbmKey st off ∨ hbmKey st off + len ≤ a) → cellByte t.mem.hbm a = cellByte s.mem.hbm a

/-- What the part does before and after a write is no matter of the memories. -/
theorem State.written_wrote (wf : s.mem.wf) (f g : Dev → Dev) :
    Wrote s (((s.onDev f).written st off (leBytes len data)).onDev g) st off len data := by
  have size := length_leBytes len data
  have back := cellsRead_cellsWrite wf.1 (hbmKey st off) (lt_of_mem_leBytes len data)
  rw [size] at back
  exact ⟨rfl, rfl, rfl, back, fun a outside => (cellByte_cellsWrite _ _ _ _).trans (if_neg (by omega))⟩

end Range

/-! HBM_REQUEST (R231, R232). -/

section Request
variable {s : State} {st off len input data : Nat} {ctx : Option Nat}

/-- A stack that does not serve, and a range beyond 2 KiB or beyond the stack: the request changes nothing. -/
theorem hbmRequest_barred (barred : s.dev.stackServes st = false ∨ 2048 < len ∨ Config.stackBytes < off + len) (write : Bool) :
    hbmRequest st input write off len data ctx [] s = s := by
  unfold hbmRequest
  rw [if_pos]
  simp only [Bool.or_eq_true, Bool.not_eq_true', decide_eq_true_eq]
  tauto

variable (serves : s.dev.stackServes st = true) (nonempty : 0 < len) (short : len ≤ 2048) (fits : off + len ≤ Config.stackBytes)
  (off' : s.dev.fn 0x7000 ≠ 2) (clean : s.mem.clean st off len)
include serves nonempty short fits off' clean

theorem hbmRequest_read : hbmRequest st input false off len data ctx [] s =
    s.onDev (fun d => d.out (.memData st input (s.mem.bytes st off len) false)) := by
  have admitted : ¬((!s.dev.stackServes st || len = 0 || 2048 < len || Config.stackBytes < off + len) = true) := by
    simp [serves]; omega
  unfold hbmRequest
  rw [if_neg admitted]
  change (s.runMm (hbmGet st off len input ctx)).2.onDev
    (fun d => d.out (.memData st input (s.runMm (hbmGet st off len input ctx)).1.1 (s.runMm (hbmGet st off len input ctx)).1.2)) = _
  rw [State.runMm_hbmGet off' clean]

theorem hbmRequest_write : hbmRequest st input true off len data ctx [] s =
    (s.written st off (leBytes len data)).onDev (fun d => d.out (.memData st input [] false)) := by
  have admitted : ¬((!s.dev.stackServes st || len = 0 || 2048 < len || Config.stackBytes < off + len) = true) := by
    simp [serves]; omega
  unfold hbmRequest
  rw [if_neg admitted]
  change (s.runMm (hbmPut st off (leBytes len data) input ctx)).2.onDev
    (fun d => d.out (.memData st input [] (s.runMm (hbmPut st off (leBytes len data) input ctx)).1)) = _
  rw [State.runMm_hbmPut off' (by rwa [length_leBytes])]

end Request

/-! HOST_CXL_MEM_ACCESS (R253, R254, R539, R610). -/

/-- What crosses between the dies is counted at their links, and turns no function on or off. -/
theorem Dev.fn_crossOut (d : Dev) {x y : Nat} (hx : x < 4) (hy : y < 4) (n : Nat) : (d.crossOut x y n).fn 0x7000 = d.fn 0x7000 := by
  unfold Dev.crossOut
  split
  · rfl
  · unfold Dev.fn
    have sub : linkSub x y < 256 := by
      unfold linkSub
      split <;> omega
    rw [Dev.reg_addReg_other _ (by omega)]

theorem Dev.fn_cross (d : Dev) {x y : Nat} (hx : x < 4) (hy : y < 4) (n : Nat) (write : Bool) :
    (d.cross (some x) y n write).fn 0x7000 = d.fn 0x7000 :=
  (Dev.fn_crossOut _ hy hx _).trans (Dev.fn_crossOut _ hx hy _)

section HostAccess
variable {s : State} {h dpa len data : Nat} (host : s.dev.hostMem h = true) (nonempty : 0 < len) (short : len ≤ 64)
  (outside : dpa < 0x60000000000 ∨ 0x60002000000 ≤ dpa)
include host nonempty short outside

/-- Such an access is heard, and is none of the intake region. -/
theorem hostAccess_heard : ¬((!s.dev.hostMem h || decide (len = 0) || decide (64 < len)) = true) ∧
    ¬((decide (0x60000000000 ≤ dpa) && decide (dpa < 0x60002000000)) = true) := by
  constructor
  · simp [host]; omega
  · simp; omega

/-- An access that the checks refuse is counted; a read of it is answered poisoned (R254). -/
theorem hostAccess_refused {code : Nat} (refused : s.dev.dpaCheck (some h) dpa = some code) (write : Bool) :
    hostAccess h write dpa len data s = s.onDev (fun d =>
      if write then d.hostRefused h dpa else (d.hostRefused h dpa).out (.hostData h (List.replicate len 0) true)) := by
  obtain ⟨heard, memory⟩ := hostAccess_heard host nonempty short outside
  unfold hostAccess
  rw [if_neg heard, if_neg memory, refused]

section Served
variable {v i st off : Nat} (site : h < 4) (stack : st < 32) (passed : s.dev.dpaCheck (some h) dpa = none)
  (place : dpaPhys dpa = some (v, i, st, off)) (serves : s.dev.stackServes st = true) (off' : s.dev.fn 0x7000 ≠ 2)
  (clean : s.mem.clean st off len)
include site stack passed place serves off' clean

theorem hostAccess_read : hostAccess h false dpa len data s = s.onDev (fun d =>
    (d.cross (some h) (st / 8) len false).out (.hostData h (s.mem.bytes st off len) false)) := by
  obtain ⟨heard, memory⟩ := hostAccess_heard host nonempty short outside
  have quiet : (s.onDev fun d => d.cross (some h) (st / 8) len false).dev.fn 0x7000 ≠ 2 := by
    rwa [State.onDev_dev, Dev.fn_cross _ site (by omega)]
  unfold hostAccess
  rw [if_neg heard, if_neg memory, passed, place]
  dsimp only
  rw [if_neg (by simp [serves]), if_neg (by decide), State.runMm_hbmGet quiet clean]
  rfl

theorem hostAccess_write : hostAccess h true dpa len data s =
    (s.onDev fun d => d.cross (some h) (st / 8) len true).written st off (leBytes len data) := by
  obtain ⟨heard, memory⟩ := hostAccess_heard host nonempty short outside
  have quiet : (s.onDev fun d => d.cross (some h) (st / 8) len true).dev.fn 0x7000 ≠ 2 := by
    rwa [State.onDev_dev, Dev.fn_cross _ site (by omega)]
  unfold hostAccess
  rw [if_neg heard, if_neg memory, passed, place]
  dsimp only
  rw [if_neg (by simp [serves]), if_pos rfl, State.runMm_hbmPut quiet (by rwa [length_leBytes])]
  rfl

end Served

end HostAccess

/-- A transaction of a host whose link holds nothing takes effect at once (R532). -/
theorem State.hostSide_free {s : State} {h : Nat} (free : s.dev.linkHolds h = false) (i : Instr) (k : State → State) :
    s.hostSide h i k = k s := by
  unfold State.hostSide
  rw [free]
  rfl

/-! HBM_WRITEBACK (R259). -/

section Writeback
variable {s : State} {st line : Nat}

theorem hbmWriteback_none (absent : (s.dev.stk st).writeback.contains (hbmKey st (line * 64) / 64) = false) :
    hbmWriteback st line s = s := by
  unfold hbmWriteback
  rw [if_pos (by simp only [absent]; rfl)]

/-- The corrected line's errors are cleared. -/
theorem hbmWriteback_some (awaits : (s.dev.stk st).writeback.contains (hbmKey st (line * 64) / 64) = true)
    (good : markedLine (Tbl.look [] (hbmKey st (line * 64) / 64) s.mem.hbmErr) = false) :
    hbmWriteback st line s = { s with
      mem := { s.mem with hbmErr := Tbl.del (hbmKey st (line * 64) / 64) s.mem.hbmErr }
      dev := s.dev.updStk st (fun k => { k with writeback := k.writeback.erase (hbmKey st (line * 64) / 64) }) } := by
  unfold hbmWriteback
  dsimp only
  rw [if_neg (by simp only [awaits]; decide), if_neg (by simp only [good]; decide)]

end Writeback

/-- Settles O35: each kind of request by the case that its rule names. -/
theorem stackServesRequests : Obligations.stackServesRequests := by
  intro s st off len on nonempty
  refine ⟨fun input ctx data wf => ⟨fun serves short fits clean => ⟨?_, ?_⟩, fun barred write => ?_⟩,
    fun h dpa data wf free host short outside => ⟨fun v i passed place serves clean => ⟨?_, ?_⟩, fun code refused => ⟨?_, ?_⟩⟩,
    fun line => ⟨fun awaits good => ?_, fun absent => ?_⟩⟩
  · exact congrArg Host.Outcome.next (hbmRequest_read serves nonempty short fits on clean)
  · exact ⟨_, congrArg Host.Outcome.next (hbmRequest_write serves nonempty short fits on clean), State.written_wrote wf id _⟩
  · exact congrArg Host.Outcome.next (hbmRequest_barred barred write)
  · exact congrArg Host.Outcome.next ((State.hostSide_free free _ _).trans
      (hostAccess_read host nonempty short outside h.isLt st.isLt passed place serves on clean))
  · exact ⟨_, congrArg Host.Outcome.next ((State.hostSide_free free _ _).trans
      (hostAccess_write host nonempty short outside h.isLt st.isLt passed place serves on clean)), State.written_wrote wf _ id⟩
  · exact congrArg Host.Outcome.next ((State.hostSide_free free _ _).trans
      (hostAccess_refused host nonempty short outside refused true))
  · exact congrArg Host.Outcome.next ((State.hostSide_free free _ _).trans
      (hostAccess_refused host nonempty short outside refused false))
  · exact ⟨_, congrArg Host.Outcome.next (hbmWriteback_some awaits good), Tbl.look?_del_self _ _, rfl, rfl,
      congrArg Stk.writeback (Dev.stk_updStk_self _ _ _), rfl⟩
  · exact congrArg Host.Outcome.next (hbmWriteback_none absent)

end Sys2Proof.Machine

namespace Sys2Proof.Machine
open Sys2Proof

/-! Resets and the start-up sequence, and the statement about them (R238, R423, R533, R685 to R691, R708, R746). -/

/-! The part as after a cold start. -/

/-- `t` is the part of `s` as after a cold start, but for its start-up step (R690). -/
def Cold (s t : State) : Prop :=
  t.mem = Store.reset ∧ t.dev.mfg = s.dev.mfg ∧ t.pending = s.pending ∧ t.dev.net = Dev.reset.net ∧
    t.dev.ctxs = [] ∧ t.dev.engs = [] ∧ t.dev.stks = [] ∧ t.dev.sites = [] ∧ t.dev.sync = [] ∧
    ∀ idx sub, sub < 256 → (idx, sub) ≠ (0x6000, 0x02) → t.dev.reg idx sub = dfltOf s.dev.mfg idx sub

theorem State.coldStart_cold {s u : State} (queue : u.pending = s.pending) (made : u.dev.mfg = s.dev.mfg) (boot : Boot) :
    Cold s (u.coldStart boot) :=
  ⟨rfl, made, queue, rfl, rfl, rfl, rfl, rfl, rfl, fun idx sub _ _ => congrArg (fun m => dfltOf m idx sub) made⟩

theorem State.startUp_cold (s : State) (straps trips : Nat) : Cold s (s.startUp straps trips) :=
  ⟨rfl, rfl, rfl, rfl, rfl, rfl, rfl, rfl, rfl, fun _ _ byte other => Dev.reg_setReg_place _ byte (by decide) other 1⟩

/-- The test access port is no part of it. -/
theorem Cold.tap {s t : State} (cold : Cold s t) (f : Dev → Tap) : Cold s (t.onDev fun d => { d with tap := f d }) := cold

theorem State.startUp_step (s : State) (straps trips : Nat) : (s.startUp straps trips).dev.reg 0x6000 0x02 = 1 :=
  Dev.reg_setReg_self _ _ _ _

/-- A start-up step that no write has set shows 0. -/
theorem State.coldStart_step (s : State) (boot : Boot) : (s.coldStart boot).dev.reg 0x6000 0x02 = 0 := by
  change dfltOf s.dev.mfg 0x6000 0x02 = 0
  rfl

/-! Burns that a reset cuts short (R746). -/

/-- What survives a reset: all, but that a cut burn of the settings leaves its slot without a valid image, and a cut burn of
the life-cycle state leaves the old state or the new one. -/
structure CutShort (settings : Option (Nat × Nat)) (life : Option Nat) (s t : State) : Prop where
  queue : t.pending = s.pending
  made : t.dev.mfg = s.dev.mfg
  whole : settings = none → life = none → t.persist = s.persist
  slot : ∀ q, settings = some q → t.persist.slots = setAt s.persist.slots q.1 (some 0)
  life : ∀ l, life = some l → t.persist.life = s.persist.life ∨ t.persist.life = max s.persist.life l

theorem State.cutBurns_short (s : State) : CutShort s.dev.boot.burnSettings s.dev.boot.burnLife s s.cutBurns := by
  unfold State.cutBurns
  generalize s.dev.boot.burnSettings = settings
  extract_lets _ t
  have burn : t.dev = s.dev := by unfold t; split <;> rfl
  have left : CutShort settings none s t := by
    unfold t
    cases settings with
    | none => exact ⟨rfl, rfl, fun _ _ => rfl, nofun, nofun⟩
    | some q => exact ⟨rfl, rfl, nofun, fun p same => by cases same; rfl, nofun⟩
  have kept : t.persist.life = s.persist.life := by unfold t; split <;> rfl
  obtain ⟨queue, made, whole, slot, -⟩ := left
  rw [← burn]
  clear_value t
  cases t.dev.boot.burnLife with
  | none => exact ⟨queue, made, whole, slot, nofun⟩
  | some l =>
    dsimp only
    split
    · exact ⟨queue, made, nofun, slot, fun k same => by cases same; exact .inr (congrArg (max · l) kept)⟩
    · exact ⟨queue, made, nofun, slot, fun _ _ => .inl kept⟩

/-! The start-up sequence (R685). -/

section Startup
variable {s : State} {r : StepF}

/-- The start-up runs, and nothing has stopped it. -/
abbrev UnderWay (b : Boot) : Prop := b.running = true ∧ b.halted = false ∧ b.thermtrip = false ∧ b.restart = false

theorem not_barred_of_underWay {b : Boot} (way : UnderWay b) :
    ¬((!b.running || b.halted || b.thermtrip || b.restart) = true) := by
  obtain ⟨running, halted, trip, restart⟩ := way
  simp [running, halted, trip, restart]

theorem startupStep_barred (barred : s.dev.boot.running = false ∨ s.dev.boot.halted = true ∨ s.dev.boot.thermtrip = true ∨
    s.dev.boot.restart = true) : startupStep r s = s := by
  unfold startupStep
  refine if_pos ?_
  simp only [Bool.or_eq_true, Bool.not_eq_true']
  tauto

/-- A step that does not halt the part ends, and shows its number. -/
theorem startupStep_shown (way : UnderWay s.dev.boot) : (startupStep r s).dev.boot.halted = true ∨
    (startupStep r s).dev.reg 0x6000 0x02 = s.dev.reg 0x6000 0x02 + 1 := by
  unfold startupStep
  extract_lets +onlyGivenNames b
  rw [if_neg (not_barred_of_underWay way)]
  extract_lets n t
  split
  · next halted => exact .inl halted
  · exact .inr (Dev.reg_setReg_self _ _ _ _)

/-! Every step leaves the queue. -/

theorem State.markLane_pending {st pc lane cause : Nat} : (s.markLane st pc lane cause).pending = s.pending := by
  unfold State.markLane
  extract_lets t
  split
  · exact (t.partitionOut_spec _ _ _).2.2.1
  · rfl

theorem State.applyEnable_pending {idx : Nat} {rule : FnRule} (start : ∀ u, (rule.start u).pending = u.pending) :
    (s.applyEnable idx rule).pending = s.pending := by
  unfold State.applyEnable
  extract_lets on
  split
  · split
    · exact start _
    · rfl
  · split <;> rfl

theorem State.raiseSvn_pending {t : Nat} : (s.raiseSvn t).pending = s.pending := by
  unfold State.raiseSvn
  split
  · rfl
  · extract_lets v old
    split <;> rfl

theorem State.foldl_pending {β : Type} {f : State → β → State} (step : ∀ u b, (f u b).pending = u.pending) (l : List β)
    (s : State) : (l.foldl f s).pending = s.pending :=
  foldl_keeps (fun u : State => u.pending = s.pending) (fun u b same => (step u b).trans same) l s rfl

theorem stepClocks_sameStore : s.sameStore (stepClocks r s) := by
  unfold stepClocks
  split <;> exact ⟨rfl, rfl, rfl⟩

theorem State.applySettings_sameStore : s.sameStore s.applySettings := by
  unfold State.applySettings
  extract_lets burned valid t
  split <;> exact ⟨rfl, rfl, rfl⟩

theorem stepOtp_sameStore : s.sameStore (stepOtp s) := by
  unfold stepOtp
  split
  · exact State.applySettings_sameStore
  · exact ⟨rfl, rfl, rfl⟩

theorem stepRails_pending : (stepRails r s).pending = s.pending := by
  unfold stepRails
  extract_lets t
  exact (State.foldl_pending (fun u _ => (u.partitionOut_spec _ _ _).2.2.1) _ t).trans (s.onDev_pending _)

theorem stepSecure_pending : (stepSecure s).pending = s.pending := by
  unfold stepSecure
  split
  · rfl
  · extract_lets ran both named keyed
    have same : both.pending = s.pending := by unfold both; split <;> rfl
    split <;> exact same

theorem stepHbm_pending : (stepHbm r s).pending = s.pending := by
  unfold stepHbm
  refine (State.foldl_pending (fun u _ => (u.partitionOut_spec _ _ _).2.2.1) _ _).trans ?_
  refine (State.foldl_pending (fun u l => ?_) _ _).trans rfl
  split
  · exact State.markLane_pending
  · rfl

theorem stepMicrocode_pending : (stepMicrocode s).pending = s.pending := by
  unfold stepMicrocode
  exact s.onDev_pending _

theorem stepLinks_pending : (stepLinks r s).pending = s.pending := s.onDev_pending _

theorem stepDiscovery_pending : (stepDiscovery s).pending = s.pending := s.onDev_pending _

theorem stepAvailable_pending : (stepAvailable r s).pending = s.pending := by
  unfold stepAvailable
  extract_lets +onlyGivenNames enabled rooted ported attached told perturbed raised shown
  have hEnabled : enabled.pending = s.pending := State.foldl_pending (fun _ _ => State.applyEnable_pending fun _ => rfl) _ _
  have hRooted : rooted.pending = enabled.pending := State.foldl_pending (fun _ _ => State.applyEnable_pending fun _ => rfl) _ _
  have hPorted : ported.pending = rooted.pending := State.foldl_pending (fun _ _ => State.applyEnable_pending fun _ => rfl) _ _
  have hAttached : attached.pending = ported.pending := State.foldl_pending (fun u h => by
    split
    · exact State.applyEnable_pending fun _ => rfl
    · rfl) _ _
  have hTold : told.pending = attached.pending :=
    (State.applyEnable_pending fun _ => rfl).trans (State.applyEnable_pending fun _ => rfl)
  have hPerturbed : perturbed.pending = told.pending := State.applyEnable_pending fun _ => rfl
  have hRaised : raised.pending = perturbed.pending := State.raiseSvn_pending.trans State.raiseSvn_pending
  have hShown : shown.pending = raised.pending := raised.onDev_pending _
  dsimp only
  calc shown.pending
    _ = ported.pending := by rw [hShown, hRaised, hPerturbed, hTold, hAttached]
    _ = s.pending := by rw [hPorted, hRooted, hEnabled]

theorem startupStep_pending : (startupStep r s).pending = s.pending := by
  unfold startupStep
  extract_lets +onlyGivenNames b
  split
  · rfl
  extract_lets n t
  have same : t.pending = s.pending := by
    unfold t
    clear_value n
    split
    · exact stepClocks_sameStore.1
    · exact stepOtp_sameStore.1
    · exact stepRails_pending
    · exact stepSecure_pending
    · exact stepHbm_pending
    · exact stepMicrocode_pending
    · exact stepLinks_pending
    · exact stepDiscovery_pending
    · exact stepAvailable_pending
  split
  · exact same
  · exact (t.onDev_pending _).trans same

/-! Steps 2 and 3. -/

theorem startupStep_clocks (way : UnderWay s.dev.boot) (before : s.dev.reg 0x6000 0x02 = 1) : startupStep r s =
    if (stepClocks r s).dev.boot.halted then stepClocks r s else (stepClocks r s).onDev fun d => d.setReg 0x6000 0x02 2 := by
  unfold startupStep
  dsimp only
  rw [if_neg (not_barred_of_underWay way), before]
  rfl

theorem startupStep_otp (way : UnderWay s.dev.boot) (before : s.dev.reg 0x6000 0x02 = 2) : startupStep r s =
    if (stepOtp s).dev.boot.halted then stepOtp s else (stepOtp s).onDev fun d => d.setReg 0x6000 0x02 3 := by
  unfold startupStep
  dsimp only
  rw [if_neg (not_barred_of_underWay way), before]
  rfl

theorem stepClocks_unlocked (fails : r.ok = false) : stepClocks r s = s.onDev fun d => d.halt 0x0B0C :=
  if_pos (by simp [fails])

theorem stepClocks_locked (locks : r.ok = true) : stepClocks r s = s.onDev fun d => ({ d with now := 0 } : Dev).newChallenge :=
  if_neg (by simp [locks])

theorem stepOtp_unsigned (bad : s.recordOk = false) : stepOtp s = s.onDev fun d => d.halt 0x0B0D :=
  if_neg (by simp [bad])

/-- Unlocked clocks halt the part; locked ones start the timebase with a challenge. -/
theorem startupStep_clocks_spec (way : UnderWay s.dev.boot) (before : s.dev.reg 0x6000 0x02 = 1) :
    s.sameStore (startupStep r s) ∧
      (r.ok = false → (startupStep r s).dev.boot.halted = true ∧ (startupStep r s).dev.boot.running = false ∧
        (startupStep r s).dev.reg 0x6000 0x03 = 0x0B0C) ∧
      (r.ok = true → (startupStep r s).dev.boot.halted = false ∧ (startupStep r s).dev.now = 0 ∧
        (startupStep r s).dev.boot.challenge.isSome = true) := by
  rw [startupStep_clocks way before]
  obtain ⟨-, halted, -, -⟩ := way
  refine ⟨?_, fun fails => ?_, fun locks => ?_⟩
  · split <;> exact stepClocks_sameStore
  · have halts : (stepClocks r s).dev.boot.halted = true := by rw [stepClocks_unlocked fails]; rfl
    rw [if_pos halts, stepClocks_unlocked fails]
    exact ⟨rfl, rfl, Dev.reg_setReg_self _ _ _ _⟩
  · have goes : (stepClocks r s).dev.boot.halted = false := by rw [stepClocks_locked locks]; exact halted
    rw [if_neg (by rw [goes]; decide), stepClocks_locked locks]
    exact ⟨halted, rfl, rfl⟩

/-- A test record that is not accepted halts the part. -/
theorem startupStep_otp_spec (way : UnderWay s.dev.boot) (before : s.dev.reg 0x6000 0x02 = 2) :
    s.sameStore (startupStep r s) ∧
      (s.recordOk = false → (startupStep r s).dev.boot.halted = true ∧ (startupStep r s).dev.reg 0x6000 0x03 = 0x0B0D) := by
  rw [startupStep_otp way before]
  refine ⟨?_, fun bad => ?_⟩
  · split <;> exact stepOtp_sameStore
  · have halts : (stepOtp s).dev.boot.halted = true := by rw [stepOtp_unsigned bad]; rfl
    rw [if_pos halts, stepOtp_unsigned bad]
    exact ⟨rfl, Dev.reg_setReg_self _ _ _ _⟩

end Startup

/-! DEVICE_RESET_WRITE (R690). -/

/-- A reply changes nothing of the start-up. -/
theorem Dev.sendReply_boot (d : Dev) (via : Via) (tagged : Bool) (r : Reply) : (d.sendReply via tagged r).boot = d.boot := by
  have counted : (if r.reason = 0 then d.incReg 0x1100 0x10 else d.incReg 0x1100 0x11).boot = d.boot := by split <;> rfl
  unfold Dev.sendReply
  extract_lets e
  have same : e.boot = d.boot := counted
  clear_value e
  split
  · split
    · exact same
    · unfold Dev.msix
      split <;> exact same
  · extract_lets _ _ kept
    have answered : kept.boot = e.boot := by unfold kept; split <;> rfl
    exact answered.trans same
  · exact same

/-! Notices are sent after all that was sent before. -/

theorem Dev.control_tx (d : Dev) (h rank kind : Nat) (fields : List Nat) : d.tx <+: (d.control h rank kind fields).tx := by
  unfold Dev.control
  split <;> exact List.prefix_append _ _

theorem Dev.notice_tx (d : Dev) (h kind : Nat) (cs : List Nat) : d.tx <+: (d.notice h kind cs).tx := by
  unfold Dev.notice
  split
  · exact List.prefix_rfl
  · split
    · exact List.prefix_rfl
    · exact foldl_keeps (fun e : Dev => d.tx <+: e.tx)
        (fun e r sent => sent.trans ((e.incReg 0x5400 0x0C).control_tx _ _ _ _)) _ d List.prefix_rfl

theorem Dev.noticeAll_tx (d : Dev) (kind : Nat) (cs : List Nat) : d.tx <+: (d.noticeAll kind cs).tx :=
  foldl_keeps (fun e : Dev => d.tx <+: e.tx) (fun e (p : Nat × Handle) sent => sent.trans (e.notice_tx p.1 kind cs))
    d.net.handles d List.prefix_rfl

/-- The part awaits its reset, and has told the contexts' peers. -/
theorem Dev.resetSoon_spec (d : Dev) : d.resetSoon.boot = { d.boot with resetWait := true } ∧ d.tx <+: d.resetSoon.tx := by
  unfold Dev.resetSoon
  extract_lets on
  have told : (d.noticeAll 2 on).boot = d.boot := (congrArg Dev.boot (StopOf.noticeAll d 2 on).frame).trans rfl
  exact ⟨congrArg (fun b : Boot => { b with resetWait := true }) told, d.noticeAll_tx 2 on⟩

section DeviceReset
variable {s : State} {via : Via} {v : Nat}

/-- An accepted write is answered, and what it asks for follows. -/
theorem exec_deviceResetWrite (passes : s.passes via 0x6000 0x12 v) (free : s.dev.busyIdx 0x6000 = false) :
    exec (.deviceResetWrite via v) s = .next ((s.replied via 0x6000 0x12 0).onDev fun d => d.afterReply 0x6000 0x12 v) := by
  obtain ⟨avail, heard, code⟩ := passes
  refine congrArg Host.Outcome.next ((State.gated_free free).trans ?_)
  unfold deviceResetWrite
  rw [State.dictWrite_passed heard avail code]
  exact if_pos (by simp [heard, avail, code])

end DeviceReset

/-! The state after reset. -/

/-- What the part is before its first start-up. -/
theorem reset_idle : let d := State.reset.dev
    (∀ via, d.deaf via = true) ∧ (∀ y, d.counter y = 0 ∧ d.objOwner y = none) ∧ (∀ h, (d.site h).phase ≠ 4) ∧
      (∀ h, d.handle? h = none) ∧ (∀ e, (d.eng e).jobs = [] ∧ (d.eng e).vq = [] ∧ (d.eng e).dq = []) ∧
      ∀ k, (d.stk k).queue = [] := by
  refine ⟨fun _ => rfl, fun _ => ⟨rfl, if_neg (by decide : ¬ bit 0 31 = true)⟩, fun h => ?_, fun _ => rfl, fun _ => ⟨rfl, rfl, rfl⟩, fun _ => rfl⟩
  change (if State.reset.dev.populated h then 1 else 0) ≠ 4
  split <;> decide

/-- Every context is OFF by default. -/
theorem reset_contextsOff : ∀ c : Fin 1024, State.reset.dev.ctxState c.val = 0 := by decide +kernel

/-- The burns and wipes that DEVICE_RESET_DELAY_EXPIRY waits for. -/
theorem execDeviceResetDelayExpiry_ready {s : State} (waits : s.dev.boot.resetWait = true) (settings : s.dev.boot.burnSettings = none)
    (life : s.dev.boot.burnLife = none) (wiping : s.dev.wiping = []) :
    exec .deviceResetDelayExpiry s = .next (s.startUp s.dev.boot.straps 0) :=
  congrArg Host.Outcome.next (if_pos (by simp [waits, settings, life, wiping]))

theorem execDeviceResetDelayExpiry_early {s : State} (early : s.dev.boot.resetWait = false ∨ s.dev.boot.burnSettings ≠ none ∨
    s.dev.boot.burnLife ≠ none ∨ s.dev.wiping ≠ []) : exec .deviceResetDelayExpiry s = .next s := by
  refine congrArg Host.Outcome.next (if_neg ?_)
  simp only [Bool.and_eq_true, Option.isNone_iff_eq_none, List.isEmpty_iff]
  simp only [← Bool.not_eq_true] at early
  tauto

theorem exec_resetRelease {s : State} (asserted : s.dev.boot.reset = true) (straps : Nat) : exec (.resetRelease straps) s =
    .next ((s.startUp (straps % 16) 0).onDev fun d => { d with tap := { d.tap with
      ir := if 3 ≤ d.tap.ir && d.tap.ir ≤ 5 then 0xFF else d.tap.ir, mode := 0 } }) :=
  congrArg Host.Outcome.next (if_pos asserted)

/-- Settles O33: the state at reset, and each of the resets and start-up commands by the case that its rule names. -/
theorem partStarts : Obligations.partStarts := by
  refine ⟨?_, fun s => ⟨?_, fun straps => ⟨fun asserted => ?_, fun released => ?_⟩,
    fun r => ⟨fun barred => ?_, fun running halted trip restart => ?_⟩,
    fun via v passes free => ⟨fun other => ?_, fun one => ?_⟩, fun waits settings life wiping => ?_, fun early => ?_⟩⟩
  · obtain ⟨deaf, objects, sites, handles, engs, queues⟩ := reset_idle
    exact ⟨rfl, Store.reset_wf, rfl, rfl, by decide, rfl, rfl, rfl, rfl, deaf, fun c hc => reset_contextsOff ⟨c, hc⟩, objects, rfl,
      sites, handles, engs, queues, nofun⟩
  · obtain ⟨queue, made, whole, slot, life⟩ := s.cutBurns_short
    exact ⟨_, rfl, State.coldStart_cold queue made _, rfl, State.coldStart_step _ _, whole, slot, life⟩
  · exact ⟨_, exec_resetRelease asserted straps, (s.startUp_cold _ _).tap _, rfl, rfl, s.startUp_step (straps % 16) 0⟩
  · exact congrArg Host.Outcome.next (if_neg (by simp [released]))
  · exact congrArg Host.Outcome.next (startupStep_barred barred)
  · have way : UnderWay s.dev.boot := ⟨running, halted, trip, restart⟩
    exact ⟨_, rfl, startupStep_pending, startupStep_shown way, startupStep_clocks_spec way, startupStep_otp_spec way⟩
  · rw [exec_deviceResetWrite passes free]
    refine congrArg Host.Outcome.next (congrArg (fun d => ({ s with dev := d } : State)) (if_neg ?_))
    simpa using other
  · subst one
    obtain ⟨boot, sent⟩ := (s.replied via 0x6000 0x12 0).dev.resetSoon_spec
    refine ⟨_, exec_deviceResetWrite passes free, ⟨rfl, rfl, rfl⟩, boot.trans ?_, sent⟩
    exact congrArg (fun b : Boot => { b with resetWait := true }) (s.dev.sendReply_boot _ _ _)
  · exact ⟨_, execDeviceResetDelayExpiry_ready waits settings life wiping, s.startUp_cold _ _, rfl, s.startUp_step _ _, rfl⟩
  · exact execDeviceResetDelayExpiry_early early

end Sys2Proof.Machine

/-! What an access of the coordinator to the memories leaves of the part: updates and images of the contexts, the queue of the
sync-object unit, the entries of the securing function. -/
namespace Sys2Proof.Machine
open Sys2Proof

/-- The updates and images of the contexts, the queue of the sync-object unit, and the entries of the securing function: no access
to the memories changes them. -/
def Dev.apart (d : Dev) : Tbl Upd × List SyncOp × (Fin 12 → Nat) := (d.upds, d.syncQ, fun b => d.reg 0x5800 b)

/-- An entry of another index, or of a sub-index that the securing function has not. -/
abbrev asidePlace (i a : Nat) : Prop := i * 256 + a < 0x580000 ∨ 0x58000C ≤ i * 256 + a

section Apart
variable (d : Dev)

theorem Dev.upd_apart {d e : Dev} (h : e.apart = d.apart) (c : Nat) : e.upd c = d.upd c :=
  congrArg (Tbl.look Upd.reset c) (congrArg Prod.fst h)

theorem Dev.syncQ_apart {d e : Dev} (h : e.apart = d.apart) : e.syncQ = d.syncQ := congrArg (·.2.1) h

theorem Dev.reg_apart {d e : Dev} (h : e.apart = d.apart) {b : Nat} (hb : b < 12) : e.reg 0x5800 b = d.reg 0x5800 b :=
  congrFun (congrArg (·.2.2) h) ⟨b, hb⟩

theorem Dev.apart_setReg {i a : Nat} (h : asidePlace i a) (v : Nat) : (d.setReg i a v).apart = d.apart := by
  refine congrArg (fun r => (d.upds, d.syncQ, r)) (funext fun b => Dev.reg_setReg_other d ?_ v)
  omega

theorem Dev.apart_incReg {i a : Nat} (h : asidePlace i a) : (d.incReg i a).apart = d.apart := d.apart_setReg h _

theorem EventOf.apart {d e : Dev} (h : EventOf d e) : e.apart = d.apart := by
  obtain ⟨frame, -, regs⟩ := h
  have entries : (fun b : Fin 12 => e.reg 0x5800 b) = fun b : Fin 12 => d.reg 0x5800 b :=
    funext fun b => regs 0x5800 b (by omega) (by revert b; decide)
  have upds : e.upds = d.upds := by rw [frame]
  have syncQ : e.syncQ = d.syncQ := by rw [frame]
  simp only [Dev.apart, entries, upds, syncQ]

theorem Dev.apart_raiseCtx (code c : Nat) (fields : List Nat) : (d.raiseCtx code c fields).apart = d.apart :=
  (EventOf.raise _ _ _ _ _ _ _).apart

/-- A rule that fires counts itself, and nothing of the securing function. -/
theorem Dev.apart_perturb (kind target : Nat) : (d.perturb kind target).2.apart = d.apart := by
  unfold Dev.perturb
  split
  · rfl
  · refine foldl_keeps (fun r : List Nat × Dev => r.2.apart = d.apart) (fun r i kept => ?_) _ _ rfl
    dsimp only
    split
    · exact kept
    · split
      · exact (Dev.apart_incReg _ (by omega)).trans kept
      · exact kept

theorem Dev.apart_uncorrectable (s off input : Nat) (ctx : Option Nat) : (d.uncorrectable s off input ctx).apart = d.apart :=
  ((EventOf.raise _ _ _ _ _ _ _).apart).trans ((Dev.apart_setReg _ (by omega) _).trans (Dev.apart_incReg _ (by omega)))

end Apart

/-! Computations that cannot fail. -/

section Leaves
variable {α β γ : Type} {g : Wd → γ}

/-- A computation that cannot fail leaves a part of what it can change as it was. -/
def Mm.Leaves (g : Wd → γ) (m : Mm α) : Prop := ∀ w, g (m w).2 = g w

theorem Mm.Leaves.pure (x : α) : Mm.Leaves g (Pure.pure x : Mm α) := fun _ => rfl

theorem Mm.Leaves.get : Mm.Leaves g (MonadState.get : Mm Wd) := fun _ => rfl

theorem Mm.Leaves.bind {m : Mm α} {f : α → Mm β} (hm : m.Leaves g) (hf : ∀ x, (f x).Leaves g) : (m >>= f).Leaves g :=
  fun w => (hf _ _).trans (hm w)

theorem Mm.Leaves.modify {f : Wd → Wd} (hf : ∀ w, g (f w) = g w) : Mm.Leaves g (modify f : Mm Unit) := hf

theorem Mm.Leaves.ite {c : Prop} [Decidable c] {a b : Mm α} (ha : a.Leaves g) (hb : b.Leaves g) :
    Mm.Leaves g (if c then a else b) := by split <;> assumption

/-- A loop leaves what its body leaves. -/
theorem Mm.Leaves.forIn (l : List α) {f : α → β → Mm (ForInStep β)} (hf : ∀ a b, (f a b).Leaves g) :
    ∀ b : β, Mm.Leaves g (ForIn.forIn l b f) := by
  induction l with
  | nil => exact fun b => .pure b
  | cons a t ih =>
    intro b
    rw [List.forIn_cons]
    refine .bind (hf a b) fun x => ?_
    cases x with
    | done b => exact .pure b
    | yield b => exact ih b

theorem Mm.Leaves.act {m : Mm α} (hm : m.Leaves g) : m.act.Leaves g := hm

theorem Act.Leaves.ite {c : Prop} [Decidable c] {a b : Act α} (ha : a.Leaves g) (hb : b.Leaves g) :
    Act.Leaves g (if c then a else b) := by split <;> assumption

/-- A computation that is made on a condition only, and what follows in either case. -/
theorem Act.Leaves.joinWhen {c : Prop} [Decidable c] {a : Act PUnit} {k : PUnit → Act β} (ha : a.Leaves g)
    (hk : ∀ x, (k x).Leaves g) : Act.Leaves g (if c then a >>= k else k ⟨⟩) := .ite (.bind ha hk) (hk _)

end Leaves

/-! The memories. -/

/-- A computation leaves updates, images, the queue of the sync-object unit and the entries of securing. -/
abbrev Mm.Aside {α : Type} (m : Mm α) : Prop := m.Leaves (fun w => w.dev.apart)
/-- The same of a computation that may fail. -/
abbrev Act.Aside {α : Type} (a : Act α) : Prop := a.Leaves (fun w => w.dev.apart)

theorem lineRead_aside (s off input : Nat) (ctx : Option Nat) : (lineRead s off input ctx).Aside := by
  intro w
  rcases h7 : w.dev.perturb 7 s with ⟨fired, d7⟩
  rcases h4 : d7.perturb 4 s with ⟨f4, d⟩
  have kept : d.apart = w.dev.apart := by
    have k7 := w.dev.apart_perturb 7 s
    have k4 := d7.apart_perturb 4 s
    rw [h7] at k7
    rw [h4] at k4
    exact k4.trans k7
  simp only [lineRead, h7, h4]
  generalize @ite Store (_ = true) (instDecidableEqBool _ true) w.mem _ = m
  generalize List.foldl _ ([], d.fresh) fired = r
  split
  · exact kept
  · split
    · exact (Dev.apart_uncorrectable _ _ _ _ _).trans kept
    · split
      · refine Eq.trans ?_ kept
        have counted := Dev.apart_incReg d (i := 0x3800 + s) (a := 0x40) (by omega)
        refine foldl_keeps (fun e : Dev => e.apart = d.apart) ?_ _ _ counted
        exact fun e j he => he
      · split
        · exact kept
        · split
          · exact (Dev.apart_uncorrectable _ _ _ _ _).trans kept
          · split
            · exact (Dev.apart_incReg _ (by omega)).trans kept
            · exact kept

theorem hbmGet_aside (s off n input : Nat) (ctx : Option Nat) : (hbmGet s off n input ctx).Aside := by
  have body : (hbmGetAt s off n input ctx).Aside :=
    .bind .get fun w => .bind (.forIn _ (fun l b => .bind (lineRead_aside _ _ _ _) fun ok => .ite (.pure _) (.pure _)) _)
      fun b => .bind .get fun w => .pure _
  exact .bind body fun _ => .pure _

theorem hbmPut_aside (s off : Nat) (bs : List Nat) (input : Nat) (ctx : Option Nat) : (hbmPut s off bs input ctx).Aside := by
  unfold hbmPut
  refine .bind .get fun w => .bind (.forIn _ (fun l b => ?_) _) fun b =>
    .bind .get fun w => .bind (.modify fun _ => rfl) fun _ => .bind (fun _ => rfl) fun _ => .pure _
  exact .ite (.bind (.modify fun _ => rfl) fun _ => .pure _)
    (.bind (lineRead_aside _ _ _ _) fun ok => .ite (.bind (.modify fun _ => rfl) fun _ => .pure _) (.pure _))

theorem wordRead_aside (e off port : Nat) : (wordRead e off port).Aside := by
  intro w
  have poison : ∀ (d : Dev) (v code kind : Nat) (fields : List Nat),
      (((d.incReg (0x3000 + e) 0x1F).setReg (0x3000 + e) 0x21 v).raise code kind e none none fields).apart = d.apart :=
    fun d v _ _ _ => ((EventOf.raise _ _ _ _ _ _ _).apart).trans
      ((Dev.apart_setReg _ (by omega) _).trans (Dev.apart_incReg _ (by omega)))
  simp only [wordRead]
  split
  · rfl
  · split
    · exact poison _ _ _ _ _
    · split
      · exact Dev.apart_incReg (d := w.dev) (i := 0x3000 + e) (a := 0x1E) (by omega)
      · split
        · refine (poison _ _ _ _ _).trans ?_
          split <;> rfl
        · show Dev.apart (Prod.snd (if _ then _ else _)) = _
          split <;> rfl

theorem spadPut_aside (e off : Nat) (bs : List Nat) (port : Nat) : (spadPut e off bs port).Aside := by
  unfold spadPut
  refine .bind .get fun w => .bind (.forIn _ (fun a b => ?_) _) fun b =>
    .bind .get fun w => .bind (.modify fun _ => rfl) fun _ => .bind (fun w => ?_) fun _ => .pure _
  · refine .ite (.bind (.pure _) fun ok => ?_) (.bind (wordRead_aside _ _ _) fun ok => ?_) <;>
      exact .ite (.bind (.modify fun _ => rfl) fun _ => .pure _) (.pure _)
  · change Dev.apart (if _ then _ else _) = _
    split <;> rfl

/-! Translation. -/

theorem xlatFail_aside {α : Type} (u : Using) (va code : Nat) : (xlatFail u va code : Act α).Aside :=
  .bind (fun _ => Dev.apart_raiseCtx _ _ _ _) fun _ _ => rfl

theorem nodeRead_aside (u : Using) (dpa : Nat) : (nodeRead u dpa).Aside := by
  unfold nodeRead
  split
  · exact .pure _
  · exact .bind (hbmGet_aside _ _ _ _ _).act fun q => .joinWhen (fun _ => rfl) fun _ => .pure _

/-- By induction on the levels that are left. -/
theorem walkFrom_aside (u : Using) (va : Nat) : ∀ fuel node : Nat, (walkFrom u va fuel node).Aside
  | 0, _ => fun _ => rfl
  | fuel + 1, node => by
    unfold walkFrom
    refine .bind (nodeRead_aside _ _) fun e => .joinWhen (xlatFail_aside _ _ _) fun _ => .joinWhen (xlatFail_aside _ _ _) fun _ =>
      .bind .dev fun d => ?_
    refine .ite ?_ (.ite (.pure _) (walkFrom_aside u va fuel _))
    split
    · exact .bind (xlatFail_aside _ _ _) fun _ => .ite (.pure _) (walkFrom_aside u va fuel _)
    · exact .ite (.pure _) (walkFrom_aside u va fuel _)

theorem walk_aside (u : Using) (va : Nat) : (walk u va).Aside := by
  refine .bind .dev fun d => .joinWhen (xlatFail_aside _ _ _) fun _ => .joinWhen (xlatFail_aside _ _ _) fun _ => ?_
  dsimp only
  split
  · exact .bind (xlatFail_aside _ _ _) fun _ => walkFrom_aside u va 4 _
  · exact walkFrom_aside u va 4 _

theorem leafOf_aside (u : Using) (va : Nat) : (leafOf u va).Aside := by
  have fill : ∀ x : XEnt, (Act.upd (fun d => d.xcFill u.who u.part x)).Aside := fun x w => by
    change (w.dev.xcFill u.who u.part x).apart = _
    unfold Dev.xcFill
    split <;> rfl
  refine .bind .dev fun d => ?_
  split
  · exact .pure _
  · have found : ∀ d : Dev, Act.Aside (match xcFind (Tbl.look [] u.part d.xcP) u.ctx va with
        | some x => Act.upd (fun d => d.xcFill u.who u.part x) >>= fun _ => Pure.pure x
        | none => walk u va >>= fun r => Act.upd (fun d => d.xcFill u.who u.part ⟨u.ctx, va >>> r.2, r.2, r.1⟩) >>= fun _ =>
            Pure.pure ⟨u.ctx, va >>> r.2, r.2, r.1⟩) := fun d => by
      split
      · exact .bind (fill _) fun _ => .pure _
      · exact .bind (walk_aside u va) fun _ => .bind (fill _) fun _ => .pure _
    dsimp only
    split
    · exact .bind (fun _ => rfl) fun _ => found d
    · exact found d

/-- A translation for the coordinator. -/
theorem translate_aside (c va : Nat) (write : Bool) : (translate (coordUse c) va write).Aside := by
  refine .bind (leafOf_aside _ va) fun x => .bind .dev fun d => .joinWhen (xlatFail_aside _ _ _) fun _ => .ite ?_ ?_
  · refine .joinWhen (fun _ => rfl) fun _ => ?_
    dsimp only
    split
    · exact .bind (xlatFail_aside _ _ _) fun _ => .joinWhen (xlatFail_aside _ _ _) fun _ =>
        .joinWhen (xlatFail_aside _ _ _) fun _ => .pure _
    · exact .joinWhen (xlatFail_aside _ _ _) fun _ => .joinWhen (xlatFail_aside _ _ _) fun _ => .pure _
  · dsimp only
    split
    · refine .bind (xlatFail_aside _ _ _) fun _ => ?_
      split
      · exact xlatFail_aside _ _ _
      · exact .joinWhen (xlatFail_aside _ _ _) fun _ => .joinWhen (fun _ => rfl) fun _ => .pure _
    · split
      · exact xlatFail_aside _ _ _
      · exact .joinWhen (xlatFail_aside _ _ _) fun _ => .joinWhen (fun _ => rfl) fun _ => .pure _

/-- By induction on the pieces that a range can have. -/
theorem pieces_aside (c : Nat) (write : Bool) : ∀ fuel va n : Nat, (pieces (coordUse c) write fuel va n).Aside
  | 0, _, _ => .pure _
  | fuel + 1, va, _ => .ite (.pure _) (.bind (translate_aside c va write) fun _ =>
      .bind (pieces_aside c write fuel _ _) fun _ => .pure _)

/-- The coordinator's accesses cross no link, so a write of located pieces counts nothing but the errors that it meets. -/
theorem writePieces_aside (c : Nat) : ∀ (ps : List (Phys × Nat)) (bs : List Nat) (bad : Bool),
    (writePieces (coordUse c) ps bs bad).Aside
  | [], _, _ => .pure _
  | (p, _) :: ps, bs, bad => by
    refine .bind (fun _ => rfl) fun _ => .bind (Mm.Leaves.act ?_) fun _ => writePieces_aside c ps _ _
    cases p with
    | hbm s off => exact hbmPut_aside _ _ _ _ _
    | spad e off => exact spadPut_aside _ _ _ _

/-- A write of the coordinator leaves updates, images, the queue of the sync-object unit and the entries of securing. -/
theorem vwrite_aside (c va : Nat) (bs : List Nat) : (vwrite (coordUse c) va bs).Aside :=
  .bind (pieces_aside _ _ _ _ _) fun _ => .bind (writePieces_aside _ _ _ _) fun _ => .ite (fun _ => rfl) (.pure _)

end Sys2Proof.Machine

/-! Securing under way: parts that are committed, targets that complete or fail, jobs that were held, and the statement about them
(R356, R358, R359, R364 to R368, R370, R371). -/
namespace Sys2Proof.Machine
open Sys2Proof

/-! The securing of a context, changed. -/

theorem Dev.sec_updSec {d : Dev} {c : Nat} {x : Secure} (sec : (d.upd c).sec = some x) (f : Secure → Secure) :
    ((d.updSec c f).upd c).sec = some (f x) := by simp [Dev.updSec, sec]

/-- The status record and its write leave the securing as it is. -/
theorem State.writeStatus_spec (s : State) (c : Nat) :
    (s.writeStatus c).dev.apart = s.dev.apart ∧ (s.writeStatus c).persist = s.persist ∧ (s.writeStatus c).pending = s.pending := by
  unfold State.writeStatus
  split
  · exact ⟨rfl, rfl, rfl⟩
  · exact ⟨vwrite_aside _ _ _ _, rfl, rfl⟩

/-- Securing after a change of its image: it is closed where an SCLOSE waited for the end of the image (R371). -/
def Secure.settled (x : Secure) : Secure :=
  if x.image = 0 && !x.closing.isEmpty then { x with isOpen := false, closing := [] } else x

theorem Secure.settled_ended {x : Secure} (ended : x.image = 0) (waits : x.closing ≠ []) :
    x.settled = { x with isOpen := false, closing := [] } := if_pos (by simp [ended, waits])

/-- An image, its targets and the last images stand as they were when securing is closed. -/
theorem Secure.settled_keeps (x : Secure) : x.settled.image = x.image ∧ x.settled.targets = x.targets ∧
    x.settled.lastLocal = x.lastLocal ∧ x.settled.lastNet = x.lastNet := by
  unfold Secure.settled
  split <;> exact ⟨rfl, rfl, rfl, rfl⟩

section Settles
variable {s : State} {c : Nat} {x : Secure} (sec : (s.dev.upd c).sec = some x)
include sec

/-- Closing securing completes every SCLOSE that waited, clears the open bit and writes the status record (R371). -/
theorem State.closeSecure_spec :
    ((s.closeSecure c).dev.upd c).sec = some { x with isOpen := false, closing := [] } ∧
    (s.closeSecure c).dev.syncQ = s.dev.syncQ ∧ (∀ b < 12, (s.closeSecure c).dev.reg 0x5800 b = s.dev.reg 0x5800 b) ∧
    (s.closeSecure c).persist = s.persist ∧ (s.closeSecure c).pending = s.pending := by
  let e := x.closing.foldl (fun (d : Dev) (o : Origin) => d.markDone c o.stream.val o.seq) s.dev
  have done : e.apart = s.dev.apart :=
    foldl_keeps (f := fun (d : Dev) (o : Origin) => d.markDone c o.stream.val o.seq) (fun e : Dev => e.apart = s.dev.apart)
      (fun e o kept => kept) _ _ rfl
  have close : s.closeSecure c =
      (s.onDev fun _ => e.updSec c fun x => { x with isOpen := false, closing := [] }).writeStatus c := by
    simp only [State.closeSecure, State.onDev, sec, e]
  obtain ⟨written, persist, pending⟩ :=
    (s.onDev fun _ => e.updSec c fun x => { x with isOpen := false, closing := [] }).writeStatus_spec c
  rw [close]
  refine ⟨?_, ?_, fun b hb => ?_, persist, pending⟩
  · rw [Dev.upd_apart written]
    exact Dev.sec_updSec ((congrArg Upd.sec (Dev.upd_apart done c)).trans sec) _
  · exact (Dev.syncQ_apart written).trans (Dev.syncQ_apart (e := e) done)
  · exact (Dev.reg_apart written hb).trans (Dev.reg_apart (e := e) done hb)

/-- After a change of an image securing is settled; the queue of the sync-object unit, the entries of securing and what survives a
loss of power stay. -/
theorem State.afterImage_spec :
    ((s.afterImage c).dev.upd c).sec = some x.settled ∧
    (s.afterImage c).dev.syncQ = s.dev.syncQ ∧ (∀ b < 12, (s.afterImage c).dev.reg 0x5800 b = s.dev.reg 0x5800 b) ∧
    (s.afterImage c).persist = s.persist ∧ (s.afterImage c).pending = s.pending := by
  simp only [State.afterImage, sec, Secure.settled]
  split
  · exact State.closeSecure_spec sec
  · obtain ⟨written, persist, pending⟩ := s.writeStatus_spec c
    exact ⟨(congrArg Upd.sec (Dev.upd_apart written c)).trans sec, Dev.syncQ_apart written, fun b hb => Dev.reg_apart written hb,
      persist, pending⟩

end Settles

/-! Commit (R365 to R368). -/

@[simp] theorem Dev.upd_updHandle (d : Dev) (h : Nat) (f : Handle → Handle) : (d.updHandle h f).upd = d.upd := by
  unfold Dev.updHandle
  split <;> rfl

@[simp] theorem Dev.upd_imageOut (d : Dev) (target dest op addr : Nat) (bytes : List Nat) :
    (d.imageOut target dest op addr bytes).upd = d.upd := by
  unfold Dev.imageOut
  split
  · exact Dev.upd_updHandle _ _ _
  · rfl

/-- A header on its way leaves the securing of every context. -/
@[simp] theorem Dev.upd_headerOut (d : Dev) (x : Secure) (handle : Nat) (g : ImgPart) : (d.headerOut x handle g).upd = d.upd := by
  unfold Dev.headerOut
  dsimp only
  split
  · simp
  · split <;> simp

/-- A header with the CRC over its other bytes verifies, the field being no part of them (R366). -/
theorem ImgPart.headerOk_sealed (g : ImgPart) {crc : Nat} (own : crc = crc32c g.header) :
    ({ g with hcrc := crc } : ImgPart).headerOk = true := by
  rw [ImgPart.headerOk, show ({ g with hcrc := crc } : ImgPart).header = g.header from rfl, ← own]
  exact beq_self_eq_true crc

theorem Secure.part_headerOk (x : Secure) (c kind p dest : Nat) : (x.part c kind p dest).headerOk = true :=
  ImgPart.headerOk_sealed _ (Eq.refl (crc32c _))

/-- The part that a target awaits is awaited no more. -/
def Secure.committed (x : Secure) (kind p : Nat) : Secure :=
  { x with targets := x.targets.map fun t => if t.kind = kind then { t with partsLeft := t.partsLeft.erase p } else t }

theorem State.sec_commitPart {s : State} {c : Nat} {x : Secure} (sec : (s.dev.upd c).sec = some x) (kind p : Nat) (g : ImgPart) :
    ((s.commitPart c kind p g).dev.upd c).sec = some (x.committed kind p) := Dev.sec_updSec sec _

/-- On a port the part stands in place of what stood in its slot (R365). -/
theorem State.persist_commitLocal (s : State) (c p : Nat) (g : ImgPart) : (s.commitPart c 0 p g).persist = { s.persist with
    media := s.persist.media.filter (fun q => !(q.kind = 0 && q.port = g.port && q.base = g.base)) ++ [g] } := by
  simp [State.commitPart]

/-- On a store the part stands in place of the same image's (R368). -/
theorem State.persist_commitNetwork (s : State) (c p : Nat) (g : ImgPart) : (s.commitPart c 1 p g).persist = { s.persist with
    media := s.persist.media.filter (fun q =>
      !(q.kind = 1 && q.port = g.port && q.base = g.base && q.ctx = c && q.u = g.u)) ++ [g] } := by
  simp [State.commitPart, Bool.and_assoc]

/-- A committed part takes the next commit sequence (R366). -/
def Secure.counted (x : Secure) : Secure := { x with commitSeq := (x.commitSeq + 1) % 2 ^ 32 }

/-- The state with the header of a local part written: the part is committed (R366, R367). -/
def State.flushed (s : State) (c port : Nat) (x : Secure) : State :=
  (s.onDev fun d => (d.updSec c Secure.counted).headerOut x port (x.part c 0 port port)).commitPart c 0 port (x.part c 0 port port)

theorem State.sec_flushed {s : State} {c : Nat} {x : Secure} (sec : (s.dev.upd c).sec = some x) (port : Nat) :
    ((s.flushed c port x).dev.upd c).sec = some (x.counted.committed 0 port) := by
  refine State.sec_commitPart ?_ 0 port _
  rw [State.onDev_dev, Dev.upd_headerOut]
  exact Dev.sec_updSec sec _

/-! A part that is due: its flush, its acknowledgement, its failure. -/

section Due
variable {s : State} {c port : Nat} {x : Secure} (sec : (s.dev.upd c).sec = some x) (image : x.image ≠ 0)
include sec image

theorem snapshotFlush_commits (due : x.targets.any (fun t => t.kind = 0 && t.partsLeft.contains port) = true)
    (streamed : x.partStreamed 0 port = true) (present : s.dev.snap.contains port = true) :
    snapshotFlush c port 0 s = s.flushed c port x := by
  simp only [snapshotFlush, sec, image, due, streamed, present]
  rfl

theorem snapshotFlush_fails (due : x.targets.any (fun t => t.kind = 0 && t.partsLeft.contains port) = true)
    (streamed : x.partStreamed 0 port = true) {status : Nat} (bad : status ≠ 0 ∨ s.dev.snap.contains port = false) :
    snapshotFlush c port status s = s.failTarget c 0 port status := by
  have fails : (status ≠ 0 || !(s.dev.snap.contains port)) = true := by simpa using bad
  simp only [snapshotFlush, sec, image, due, streamed, fails]
  rfl

theorem networkHeaderAck_commits (due : x.targets.any (fun t => t.kind = 1 && t.partsLeft.contains 0) = true)
    (streamed : x.partStreamed 1 0 = true) {g : ImgPart} (sent : x.sent = some g) :
    networkHeaderAck c true s = s.commitPart c 1 0 g := by
  simp only [networkHeaderAck, sec, image, due, streamed, sent]
  rfl

theorem networkHeaderAck_fails (due : x.targets.any (fun t => t.kind = 1 && t.partsLeft.contains 0) = true)
    (streamed : x.partStreamed 1 0 = true) : networkHeaderAck c false s = s.failTarget c 1 x.f.handle 1 := by
  simp only [networkHeaderAck, sec, image, due, streamed]
  rfl

end Due

/-! A target that fails or completes. -/

/-- No target of the kind is left; without another the image is over. -/
theorem Secure.dropTarget_spec (x : Secure) (kind : Nat) :
    (∀ z ∈ (x.dropTarget kind).targets, z.kind ≠ kind) ∧ (x.dropTarget kind).lastLocal = x.lastLocal ∧
    (x.dropTarget kind).lastNet = x.lastNet ∧ (x.dropTarget kind).closing = x.closing ∧
    (x.targets.all (fun t => t.kind = kind) = true → (x.dropTarget kind).image = 0) := by
  have last : x.targets.all (fun t => t.kind = kind) = true → (x.targets.filter fun t => t.kind ≠ kind).isEmpty = true := by
    simp
  have others : ∀ z ∈ x.targets.filter (fun t => t.kind ≠ kind), z.kind ≠ kind := by simp
  unfold Secure.dropTarget
  dsimp only
  split_ifs <;> simp_all

theorem Secure.failTarget_targets (x : Secure) (kind : Nat) : ∀ z ∈ (x.failTarget kind).targets, z.kind ≠ kind :=
  (Secure.dropTarget_spec _ kind).1

/-- A target that fails is counted and no longer awaited; the other targets go on (R367). -/
theorem State.failTarget_spec {s : State} {c : Nat} {x : Secure} (sec : (s.dev.upd c).sec = some x) (kind port status : Nat) :
    let t := s.failTarget c kind port status
    t.persist = s.persist ∧ t.pending = s.pending ∧ t.dev.reg 0x5800 0x05 = (s.dev.reg 0x5800 0x05 + 1) % 2 ^ 64 ∧
      ∃ y, (t.dev.upd c).sec = some y ∧ ∀ z ∈ y.targets, z.kind ≠ kind := by
  have told := Dev.apart_raiseCtx ((s.dev.updSec c fun x => x.failTarget kind).incReg 0x5800 0x05) 0x8A04 c [port, status]
  have failed := (congrArg Upd.sec (Dev.upd_apart told c)).trans (Dev.sec_updSec (d := s.dev) sec fun x => x.failTarget kind)
  have count : _ = (s.dev.reg 0x5800 0x05 + 1) % 2 ^ 64 :=
    (Dev.reg_apart told (b := 5) (by decide)).trans (Dev.reg_incReg_self (s.dev.updSec c fun x => x.failTarget kind) 0x5800 0x05)
  obtain ⟨settled, -, regs, persist, pending⟩ := State.afterImage_spec (s := s.onDev fun d =>
    ((d.updSec c fun x => x.failTarget kind).incReg 0x5800 0x05).raiseCtx 0x8A04 c [port, status]) failed
  obtain ⟨-, targets, -, -⟩ := (x.failTarget kind).settled_keeps
  exact ⟨persist, pending, (regs 5 (by decide)).trans count, _, settled, targets ▸ x.failTarget_targets kind⟩

/-- A target that completes: its last image, the time and the bytes are recorded, and it is no longer awaited (R359, R360, R364). -/
def Secure.completed (x : Secure) (target now bytes : Nat) (leave : Bool) : Secure :=
  let y := if target = 0 then { x with lastLocal := x.image } else { x with lastNet := x.image }
  let y := { y with drainUs := (now - y.started) / 1000 % 2 ^ 32, lastBytes := bytes }
  { y.dropTarget target with rolling := y.rolling && !leave }

theorem Secure.completed_spec (x : Secure) (target now bytes : Nat) (leave : Bool) :
    let y := x.completed target now bytes leave
    (∀ z ∈ y.targets, z.kind ≠ target) ∧ y.lastLocal = (if target = 0 then x.image else x.lastLocal) ∧
    y.lastNet = (if target = 0 then x.lastNet else x.image) ∧ y.closing = x.closing ∧
    (x.targets.all (fun t => t.kind = target) = true → y.image = 0) := by
  by_cases h : target = 0
  · simpa only [Secure.completed, h, if_true] using Secure.dropTarget_spec { x with
      lastLocal := x.image, drainUs := (now - x.started) / 1000 % 2 ^ 32, lastBytes := bytes } 0
  · simpa only [Secure.completed, h, if_false] using Secure.dropTarget_spec { x with
      lastNet := x.image, drainUs := (now - x.started) / 1000 % 2 ^ 32, lastBytes := bytes } target

/-- The bytes of an image as streamed. -/
def Secure.imageBytes (x : Secure) : Nat := (x.data.map fun g => g.bytes.length).sum

/-- The part with an image complete on a target: recorded, counted, signalled; rolling mode is left (R359, R364). -/
def Dev.imageDone (d : Dev) (c target : Nat) (x : Secure) (leave : Bool) : Dev :=
  let d := ((d.updSec c fun y => y.completed target d.now x.imageBytes leave).incReg 0x5800 0x04).addReg 0x5800 0x07 x.imageBytes
  (if leave then d.raiseCtx 0x8A03 c [c, x.image] else d).signal 15 x.f.obj false 1

/-- Is rolling mode left with an image that is complete on a target (R364)? -/
def State.leavesRolling (s : State) (c target : Nat) (x : Secure) : Bool :=
  x.targets.all (fun t => t.kind = target) && x.rolling && s.dev.ctxReg c 0x08 = x.step

theorem imageComplete_done {s : State} {c target : Nat} {x : Secure} (sec : (s.dev.upd c).sec = some x) (image : x.image ≠ 0)
    {z : ImgTarget} (found : x.targets.find? (fun t => t.kind = target) = some z) (committed : z.partsLeft = []) :
    imageComplete c target s = (s.onDev fun d => d.imageDone c target x (s.leavesRolling c target x)).afterImage c := by
  simp only [imageComplete, sec, found, committed, image]
  rfl

theorem Dev.imageDone_spec {d : Dev} {c : Nat} {x : Secure} (sec : (d.upd c).sec = some x) (target : Nat) (leave : Bool) :
    let e := d.imageDone c target x leave
    (e.upd c).sec = some (x.completed target d.now x.imageBytes leave) ∧ e.syncQ = d.syncQ ++ [⟨15, x.f.obj, false, 1, 0⟩] ∧
    e.reg 0x5800 0x04 = (d.reg 0x5800 0x04 + 1) % 2 ^ 64 ∧ e.reg 0x5800 0x07 = (d.reg 0x5800 0x07 + x.imageBytes) % 2 ^ 64 := by
  let d1 := d.updSec c fun y => y.completed target d.now x.imageBytes leave
  let d2 := (d1.incReg 0x5800 0x04).addReg 0x5800 0x07 x.imageBytes
  have told : (if leave then d2.raiseCtx 0x8A03 c [c, x.image] else d2).apart = d2.apart := by
    split
    · exact Dev.apart_raiseCtx _ _ _ _
    · rfl
  refine ⟨(congrArg Upd.sec (Dev.upd_apart told c)).trans (Dev.sec_updSec sec _), ?_, ?_, ?_⟩
  · exact congrArg (· ++ [⟨15, x.f.obj, false, 1, 0⟩]) (Dev.syncQ_apart told)
  · refine (Dev.reg_apart told (by decide)).trans ?_
    exact (Dev.reg_addReg_other _ (by decide) _).trans (Dev.reg_incReg_self d1 _ _)
  · refine (Dev.reg_apart told (by decide)).trans ((Dev.reg_addReg_self _ _ _ _).trans ?_)
    rw [Dev.reg_incReg_other d1 (by decide)]
    rfl

/-- An image that is complete on a target is settled: its records stand, and where an SCLOSE waited for the last target securing is
closed (R359, R371). -/
theorem State.imageDone_spec {s : State} {c : Nat} {x : Secure} (sec : (s.dev.upd c).sec = some x) (leave : Bool) (target : Nat) :
    let t := (s.onDev fun d => d.imageDone c target x leave).afterImage c
    t.persist = s.persist ∧ t.pending = s.pending ∧ t.dev.reg 0x5800 0x04 = (s.dev.reg 0x5800 0x04 + 1) % 2 ^ 64 ∧
    t.dev.reg 0x5800 0x07 = (s.dev.reg 0x5800 0x07 + x.imageBytes) % 2 ^ 64 ∧
    t.dev.syncQ = s.dev.syncQ ++ [⟨15, x.f.obj, false, 1, 0⟩] ∧
    ∃ y, (t.dev.upd c).sec = some y ∧ (∀ w ∈ y.targets, w.kind ≠ target) ∧
      (x.targets.all (fun t => t.kind = target) = true → y.image = 0 ∧ (x.closing ≠ [] → y.isOpen = false ∧ y.closing = [])) ∧
      (target = 0 → y.lastLocal = x.image ∧ y.lastNet = x.lastNet) ∧
      (target = 1 → y.lastNet = x.image ∧ y.lastLocal = x.lastLocal) := by
  obtain ⟨recorded, signalled, images, bytes⟩ := Dev.imageDone_spec sec target leave
  obtain ⟨settled, syncQ, regs, persist, pending⟩ :=
    State.afterImage_spec (s := s.onDev fun d => d.imageDone c target x leave) recorded
  obtain ⟨targets, lastLocal, lastNet, closing, ended⟩ := x.completed_spec target s.dev.now x.imageBytes leave
  obtain ⟨sameImage, sameTargets, sameLocal, sameNet⟩ := (x.completed target s.dev.now x.imageBytes leave).settled_keeps
  refine ⟨persist, pending, (regs 4 (by decide)).trans images, (regs 7 (by decide)).trans bytes, syncQ.trans signalled, _, settled,
    sameTargets ▸ targets, fun all => ⟨sameImage.trans (ended all), fun waits => ?_⟩, fun h => ?_, fun h => ?_⟩
  · rw [Secure.settled_ended (ended all) (closing ▸ waits)]
    exact ⟨rfl, rfl⟩
  · exact ⟨sameLocal.trans (lastLocal.trans (if_pos h)), sameNet.trans (lastNet.trans (if_pos h))⟩
  · exact ⟨sameNet.trans (lastNet.trans (if_neg (by omega))), sameLocal.trans (lastLocal.trans (if_neg (by omega)))⟩

/-! Jobs that were held (R358). -/

/-- A stack whose jobs and chunks go on. -/
def Stk.released (k : Stk) : Stk :=
  { k with queue := k.queue.map fun r => { r with jobHold := false }, arms := k.arms.map fun a => { a with hold := false } }

theorem Stk.released_spec (k : Stk) : (∀ r ∈ k.released.queue, r.jobHold = false) ∧ (∀ a ∈ k.released.arms, a.hold = false) ∧
    k.released.queue.map (·.j) = k.queue.map (·.j) := by
  simp [Stk.released]

theorem exec_securingHoldRelease {s : State} {st : Fin 32} (held : (s.dev.stk st.val).queue.any (·.jobHold) = true ∨
    (s.dev.stk st.val).arms.any (·.hold) = true) (n : Nat) : exec (.securingHoldRelease st n) s =
      .next (s.onDev fun d => (d.addReg 0x5800 0x08 n).updStk st.val Stk.released) :=
  congrArg Host.Outcome.next (if_pos (by simpa using held))

theorem Dev.released_spec (d : Dev) (st n : Nat) :
    let e := (d.addReg 0x5800 0x08 n).updStk st Stk.released
    e.stk st = (d.stk st).released ∧ e.reg 0x5800 0x08 = (d.reg 0x5800 0x08 + n) % 2 ^ 64 ∧ d.sameRegs e [(0x5800, 0x08)] :=
  ⟨Dev.stk_updStk_self _ _ _, Dev.reg_addReg_self d _ _ _,
    fun _ _ sub other => Dev.reg_setReg_place d sub (by decide) (by simpa using other) _⟩

/-- Settles O29: each command by the operation that it comes to, and what that leaves of the image. -/
theorem securingRuns : Obligations.securingRuns := by
  intro s c x sec image
  refine ⟨fun port due streamed => ⟨fun present => ⟨?_, x.part_headerOk _ _ _ _, rfl, rfl, rfl, rfl, rfl, rfl, rfl⟩,
    fun status bad => ?_⟩, fun due streamed => ⟨fun g sent kind => ?_, ?_⟩, fun target z found committed => ?_, fun st n held => ?_⟩
  · exact ⟨_, congrArg Host.Outcome.next (snapshotFlush_commits sec image due streamed present), rfl, rfl,
      State.persist_commitLocal _ _ _ _, State.sec_flushed sec port.val⟩
  · exact ⟨_, congrArg Host.Outcome.next (snapshotFlush_fails sec image due streamed bad), State.failTarget_spec sec _ _ _⟩
  · refine ⟨_, congrArg Host.Outcome.next (networkHeaderAck_commits sec image due streamed sent), rfl, rfl,
      State.persist_commitNetwork _ _ _ _, ?_⟩
    rw [kind]
    exact State.sec_commitPart sec 1 0 g
  · exact ⟨_, congrArg Host.Outcome.next (networkHeaderAck_fails sec image due streamed), State.failTarget_spec sec _ _ _⟩
  · exact ⟨_, congrArg Host.Outcome.next (imageComplete_done sec image found committed), State.imageDone_spec sec _ _⟩
  · obtain ⟨stack, count, others⟩ := s.dev.released_spec st.val n
    obtain ⟨jobs, chunks, same⟩ := (s.dev.stk st.val).released_spec
    rw [← stack] at jobs chunks same
    exact ⟨_, exec_securingHoldRelease held n, jobs, chunks, same, count, others, rfl, rfl, rfl⟩

end Sys2Proof.Machine

/-! SOPEN, SCLOSE and SRESTORE at their unit, and the statement about them (R349, R350, R353, R371 to R375, R378). -/
namespace Sys2Proof.Machine
open Sys2Proof

/-! A command on its scoreboard. -/

theorem setAt_eq_set {α : Type} (l : List α) (i : Nat) (v : α) : setAt l i v = l.set i v := by
  induction l generalizing i with
  | nil => rfl
  | cons x t ih => cases i with
    | zero => rfl
    | succ n => exact congrArg (x :: ·) (ih n)

/-- A change of a stream is what it makes of that stream. -/
theorem Dev.updStream_congr {d : Dev} {c i : Nat} {f g : Stream → Stream} (h : f (d.stream c i) = g (d.stream c i)) :
    d.updStream c i f = d.updStream c i g := by
  have same : f ((Tbl.look Ctx.reset c d.ctxs).streams.getD i Stream.reset) =
      g ((Tbl.look Ctx.reset c d.ctxs).streams.getD i Stream.reset) := h
  simp only [Dev.updStream, Dev.updCtx, Tbl.upd, same]

/-! What a unit sees of the part is what the part was before the command entered its scoreboard. -/

section AtUnit
variable (s : State) (o : Origin) (op input : Nat) (cmd : Option QCmd)

@[simp] theorem State.fn_atUnit (idx : Nat) : (s.atUnit o op input cmd).dev.fn idx = s.dev.fn idx := rfl
@[simp] theorem State.upd_atUnit : (s.atUnit o op input cmd).dev.upd = s.dev.upd := rfl
@[simp] theorem State.snap_atUnit : (s.atUnit o op input cmd).dev.snap = s.dev.snap := rfl
@[simp] theorem State.handle?_atUnit : (s.atUnit o op input cmd).dev.handle? = s.dev.handle? := rfl
@[simp] theorem State.ownsObj_atUnit : (s.atUnit o op input cmd).dev.ownsObj = s.dev.ownsObj := rfl
@[simp] theorem State.ctxReg_atUnit : (s.atUnit o op input cmd).dev.ctxReg = s.dev.ctxReg := rfl

variable {s o}

theorem plain.atUnit (sound : plain o s.dev) : plain o (s.atUnit o op input cmd).dev := sound

theorem State.sec_atUnit {c : Nat} {x : Option Secure} (sec : (s.dev.upd c).sec = x) :
    ((s.atUnit o op input cmd).dev.upd c).sec = x := sec

end AtUnit

/-- A command that was refused with a reason code has stopped its stream, which names it; memories, queue and what survives a loss of
power stay (R398). -/
def State.stopsAt (s : State) (o : Origin) (op code : Nat) (t : State) : Prop :=
  let y := t.dev.stream o.ctx.val o.stream.val
  y.stopped = true ∧ y.cause = 1 ∧ y.reason = code ∧ y.stopSeq = o.seq ∧ y.stopOp = op ∧ s.sameStore t

section Boards
variable {s : State} {o : Origin} {op input : Nat} {cmd : Option QCmd}

/-- A command that is done at issue stands on its scoreboard as done. -/
theorem State.board_markDone (fit : fits o s.dev) :
    (s.board o op input cmd).dev.markDone o.ctx.val o.stream.val o.seq = s.dev.boarded o op input cmd 1 := by
  obtain ⟨present, free⟩ := fit
  have others : (s.dev.stream o.ctx.val o.stream.val).run.map (fun e => if e.seq = o.seq then
      (if e.status = 0 then { e with status := 1 } else e) else e) = (s.dev.stream o.ctx.val o.stream.val).run :=
    (List.map_congr_left fun e he => if_neg (free e he)).trans (List.map_id _)
  simp only [State.board, State.onDev_dev, Dev.markDone, Dev.updIssued, Dev.boarded, Dev.updStream_updStream _ present]
  refine Dev.updStream_congr ?_
  simp [others, issuedOf]

/-- A command that finds its context idle is alone on its scoreboards. -/
theorem State.streams_board
    (idle : ∀ (i : Nat) (x : Stream), (s.dev.ctx o.ctx.val).streams[i]? = some x → x.q = [] ∧ x.waiting = false ∧ x.run = []) (k : Nat)
    (x : Stream) (found : ((s.board o op input cmd).dev.ctx o.ctx.val).streams[k]? = some x) :
    x.q = [] ∧ x.waiting = false ∧ ∀ e ∈ x.run, k = o.stream.val ∧ e.seq = o.seq := by
  simp only [State.board, State.onDev_dev, Dev.updStream, Dev.ctx_updCtx_self, setAt_eq_set, List.getElem?_set] at found
  split at found
  · next own =>
    split at found
    · next present =>
      obtain rfl := Option.some.inj found
      obtain ⟨q, waiting, run⟩ := idle o.stream.val _ (List.getElem?_eq_getElem present)
      subst own
      simp [q, waiting, run, issuedOf, present]
    · cases found
  · obtain ⟨q, waiting, run⟩ := idle k x found
    simp [q, waiting, run]

/-- A command that is refused with nothing changed stops its stream. -/
theorem State.issueCmd_stops {m : Act Bool} {code : Nat} (fit : fits o s.dev)
    (runs : (s.dev.stream o.ctx.val o.stream.val).stopped = false)
    (refused : m (s.atUnit o op input cmd) = (.error ⟨1, code, false, none⟩, s.atUnit o op input cmd)) :
    s.stopsAt o op code (s.issueCmd o op input cmd m) := by
  obtain ⟨present, -⟩ := fit
  let d := (s.board o op input cmd).dev.updStream o.ctx.val o.stream.val fun t => { t with run := t.run.filter fun e => e.seq ≠ o.seq }
  have length : o.stream.val < (d.ctx o.ctx.val).streams.length := by
    simpa [d, State.board, Dev.length_streams_updStream] using present
  have running : (d.stream o.ctx.val o.stream.val).stopped = false := by
    simp only [d, State.board, State.onDev_dev, Dev.updStream_updStream _ present, Dev.stream_updStream_self _ present, runs]
  have stop := Dev.stream_failCommand length running 1 code o.seq op cmd
  have issue := State.issueCmd_refused (s := s) (o := o) (op := op) (input := input) (cmd := cmd) (State.runAct_eq refused) rfl
  have mark : (s.issueCmd o op input cmd m).dev.stream o.ctx.val o.stream.val =
      (d.failCommand o.ctx.val o.stream.val 1 code o.seq op cmd).stream o.ctx.val o.stream.val :=
    congrArg (fun t : State => t.dev.stream o.ctx.val o.stream.val) issue
  unfold State.stopsAt
  rw [mark, stop]
  exact ⟨rfl, rfl, rfl, rfl, rfl, State.issueCmd_keeps.1, State.issueCmd_keeps.2, (congrArg State.mem issue).trans rfl⟩

/-- A command whose work is done leaves what the work leaves, and awaits its completion. -/
theorem State.issueCmd_work {m : Act Bool} {w : Wd} (run : m (s.atUnit o op input cmd) = (.ok true, w)) :
    let t := s.issueCmd o op input cmd m
    t.dev = w.dev.markDone o.ctx.val o.stream.val o.seq ∧ t.mem = w.mem ∧ t.persist = s.persist ∧ t.pending = s.pending := by
  have issue := State.issueCmd_done (s := s) (o := o) (op := op) (input := input) (cmd := cmd) (State.runAct_eq run)
  exact ⟨congrArg State.dev issue, congrArg State.mem issue, State.issueCmd_keeps.2, State.issueCmd_keeps.1⟩

end Boards

/-- The first status record: open, and nothing else to tell (R360). -/
theorem Secure.status_opened (o : Origin) (f : SnapF) (old : Option Secure) :
    (Secure.opened o f old).status = 1 :: List.replicate 63 0 := by
  simp [Secure.status, Secure.opened, b2n, leBytes, List.replicate]

/-! The head of a snapshot command. -/

/-- A computation that succeeds is no refusal to recode. -/
theorem Act.recode_ok {α : Type} {m : Act α} {w w' : Wd} {x : α} (h : m w = (.ok x, w')) (old new : Nat) :
    m.recode old new w = (.ok x, w') := by
  unfold Act.recode
  rw [h]

/-- A check of the four snapshot ports, made where an image goes there, finds none bad. -/
theorem SnapF.ports_pass {f : SnapF} {bad : Nat → Bool} (good : f.opt = 1 → ∀ p < 4, bad p = false) :
    (f.opt = 1 && [0, 1, 2, 3].any bad) = false := by
  by_cases h : f.opt = 1
  · simp [h, good h]
  · simp [h]

section Snapshot
variable {o : Origin} {f : SnapF} {w : Wd} (sound : plain o w.dev) (clear : snapBad f = 0)
include sound clear

theorem snapHeader_sound : plainHeader o (snapBad f) w = (.ok (), w) := by
  rw [clear]
  exact plainHeader_sound sound

/-- Without the function ON nothing is opened (R378). -/
theorem sopen_off (off : w.dev.fn 0x5800 ≠ 2) : sopen o f w = (.error ⟨1, 0x0A06, false, none⟩, w) :=
  (Act.bind_ok (snapHeader_sound sound clear) _).trans <| (Act.bind_ok (a := Act.dev) rfl _).trans <|
    Act.bind_error (Act.refuseIf_true (by simpa using off) _ _) _

/-- Securing opens once (R350). -/
theorem sopen_again (on : w.dev.fn 0x5800 = 2) (opened : (((w.dev.upd o.ctx.val).sec.map (·.isOpen)).getD false) = true) :
    sopen o f w = (.error ⟨1, 0x0A03, false, none⟩, w) :=
  (Act.bind_ok (snapHeader_sound sound clear) _).trans <| (Act.bind_ok (a := Act.dev) rfl _).trans <|
    (Act.bind_ok (Act.refuseIf_false (by simpa using on) _ _) _).trans <| Act.bind_error (Act.refuseIf_true opened _ _) _

theorem srestore_off (off : w.dev.fn 0x5800 ≠ 2) (all : List (Nat × List ImgPart)) :
    srestore o f all w = (.error ⟨1, 0x0A06, false, none⟩, w) :=
  (Act.bind_ok (snapHeader_sound sound clear) _).trans <| (Act.bind_ok (a := Act.dev) rfl _).trans <|
    Act.bind_error (Act.refuseIf_true (by simpa using off) _ _) _

/-- While securing is open nothing is restored (R372). -/
theorem srestore_open (on : w.dev.fn 0x5800 = 2) (opened : (((w.dev.upd o.ctx.val).sec.map (·.isOpen)).getD false) = true)
    (all : List (Nat × List ImgPart)) : srestore o f all w = (.error ⟨1, 0x0A05, false, none⟩, w) :=
  (Act.bind_ok (snapHeader_sound sound clear) _).trans <| (Act.bind_ok (a := Act.dev) rfl _).trans <|
    (Act.bind_ok (Act.refuseIf_false (by simpa using on) _ _) _).trans <|
      Act.bind_error (Act.refuseIf_true (by rw [opened, Bool.or_true]) _ _) _

/-- SOPEN with nothing open and every check passed leaves securing open and its first status record written (R349, R350, R353). -/
theorem sopen_opens (on : w.dev.fn 0x5800 = 2) (closed : (((w.dev.upd o.ctx.val).sec.map (·.isOpen)).getD false) = false)
    (ports : f.opt = 1 → ∀ p < 4, w.dev.snap.contains p = true)
    (store : f.netInterval ≠ 0 → ∃ x, w.dev.handle? f.handle = some x ∧ x.kind = 1 ∧ x.ctx = o.ctx.val)
    (owned : w.dev.ownsObj o.ctx.val f.obj = true) {es : List MEnt} {crc : Nat} {rs : List SRange} {w1 w2 w3 w4 : Wd}
    (manifest : readManifest o.ctx.val f.manifest f.entries w = (.ok (es, crc), w1)) (nonempty : es ≠ [])
    (good : ∀ e ∈ es, e.ok = true) (distinct : (es.map (·.obj)).Nodup)
    (placed : (es.forM (entryPlaced o.ctx.val) : Act Unit) w1 = (.ok (), w2))
    (ranges : imageRanges o.ctx.val (w.dev.ctxReg o.ctx.val 0x09) es w2 = (.ok rs, w3))
    (fit : f.opt = 1 → ∀ p < 4, rangeBytes (rs.filter (fun r => r.stack / 8 = p)) ≤ f.localLen * 4096)
    (status : vwrite (coordUse o.ctx.val) f.status (1 :: List.replicate 63 0) ⟨w3.mem, w3.dev.updUpd o.ctx.val (fun u =>
      { u with sec := some (Secure.opened o f (w.dev.upd o.ctx.val).sec) })⟩ = (.ok (), w4)) :
    sopen o f w = (.ok true, w4) := by
  have present := SnapF.ports_pass (f := f) (bad := fun p => !(w.dev.snap.contains p)) fun h p hp => by simpa using ports h p hp
  have reachable : (f.netInterval ≠ 0 && !(match w.dev.handle? f.handle with
      | some x => x.kind = 1 && x.ctx = o.ctx.val
      | none => false)) = false := by
    by_cases h : f.netInterval = 0
    · simp [h]
    · obtain ⟨x, found, kind, ctx⟩ := store h
      simp [found, kind, ctx]
  have entries : (es.isEmpty || es.any (fun e => !e.ok) || (es.map (·.obj)).dedup.length ≠ es.length) = false := by
    simpa [nonempty, distinct.dedup] using good
  have room := SnapF.ports_pass (f := f)
    (bad := fun p => f.localLen * 4096 < rangeBytes (rs.filter (fun r => r.stack / 8 = p))) fun h p hp => by simpa using fit h p hp
  have checked : (do es.forM (entryPlaced o.ctx.val); imageRanges o.ctx.val (w.dev.ctxReg o.ctx.val 0x09) es :
      Act (List SRange)).recode 0x0505 0x0A01 w1 = (.ok rs, w3) := Act.recode_ok ((Act.bind_ok placed _).trans ranges) _ _
  rw [← Secure.status_opened o f (w.dev.upd o.ctx.val).sec] at status
  refine (Act.bind_ok (snapHeader_sound sound clear) _).trans ?_
  refine (Act.bind_ok (a := Act.dev) rfl _).trans ?_
  refine (Act.bind_ok (Act.refuseIf_false (by simpa using on) _ _) _).trans ?_
  refine (Act.bind_ok (Act.refuseIf_false closed _ _) _).trans ?_
  refine (Act.bind_ok (Act.refuseIf_false (by rw [present]; exact reachable) _ _) _).trans ?_
  refine (Act.bind_ok (Act.refuseIf_false (by simp [owned]) _ _) _).trans ?_
  refine (Act.bind_ok manifest _).trans ?_
  refine (Act.bind_ok (Act.refuseIf_false entries _ _) _).trans ?_
  refine (Act.bind_ok checked _).trans ?_
  refine (Act.bind_ok (Act.refuseIf_false room _ _) _).trans ?_
  refine (Act.bind_ok (a := Act.upd _) rfl _).trans ?_
  exact Act.bind_ok status _

/-- SRESTORE of a complete image whose manifest is the command's and whose segments verify is done where the image can be put back
(R372 to R375). -/
theorem srestore_restores (on : w.dev.fn 0x5800 = 2) (closed : (((w.dev.upd o.ctx.val).sec.map (·.isOpen)).getD false) = false)
    (alone : ∀ (k : Nat) (x : Stream), (w.dev.ctx o.ctx.val).streams[k]? = some x →
      x.q = [] ∧ x.waiting = false ∧ ∀ e ∈ x.run, k = o.stream.val ∧ e.seq = o.seq)
    {all : List (Nat × List ImgPart)} {u : Nat} {ps : List ImgPart}
    (found : all.find? (fun p => p.1 = (if f.obj = 0 then (all.map (·.1)).foldl max 0 else f.obj)) = some (u, ps))
    {es : List MEnt} {crc : Nat} {w1 w2 : Wd}
    (manifest : readManifest o.ctx.val f.manifest f.entries w = (.ok (es, crc), w1)) (same : (ps.map (·.manifest)).headD 0 = crc)
    (verified : ∀ g ∈ ps, g.badSegment = none) (restored : restoreImage o.ctx.val f es u ps w1 = (.ok (), w2)) :
    srestore o f all w = (.ok true, w2) := by
  have others : ((w.dev.streamsOf o.ctx.val).any (fun p =>
      !p.2.q.isEmpty || p.2.waiting || p.2.run.any (fun e => !(p.1 = o.stream.val && e.seq = o.seq)))) = false := by
    simp only [Dev.streamsOf, List.any_map, List.any_eq_false, Function.comp]
    rintro ⟨x, k⟩ listed
    obtain ⟨q, waiting, own⟩ := alone k x (List.mem_zipIdx_iff_getElem?.mp listed)
    simpa [q, waiting] using own
  have segments : (ps.findSome? fun (q : ImgPart) => q.badSegment.map fun g => (if q.kind = 0 then q.port else 0, g)) = none :=
    List.findSome?_eq_none_iff.mpr fun g hg => by rw [verified g hg]; rfl
  refine (Act.bind_ok (snapHeader_sound sound clear) _).trans ?_
  refine (Act.bind_ok (a := Act.dev) rfl _).trans ?_
  refine (Act.bind_ok (Act.refuseIf_false (by simpa using on) _ _) _).trans ?_
  refine (Act.bind_ok (Act.refuseIf_false (by rw [closed, Bool.or_false]; exact others) _ _) _).trans ?_
  dsimp only
  rw [found]
  refine (Act.bind_ok manifest _).trans ?_
  refine (Act.bind_ok (Act.refuseIf_false (by simpa using same) _ _) _).trans ?_
  rw [segments]
  exact Act.bind_ok restored _

end Snapshot

/-! SCLOSE (R371). -/

section Closing
variable {o : Origin} {w : Wd} (sound : plain o w.dev)
include sound

theorem sclose_none (absent : (w.dev.upd o.ctx.val).sec = none) : sclose o 0 w = (.ok true, w) := by
  refine (Act.bind_ok (plainHeader_sound sound) _).trans ((Act.bind_ok (a := Act.dev) rfl _).trans ?_)
  dsimp only
  rw [absent]
  rfl

variable {x : Secure} (sec : (w.dev.upd o.ctx.val).sec = some x)
include sec

/-- An image in progress completes first. -/
theorem sclose_waits (image : x.image ≠ 0) : sclose o 0 w = (.ok false, ⟨w.mem, w.dev.updSec o.ctx.val fun x =>
    { x with closing := x.closing ++ [o] }⟩) := by
  refine (Act.bind_ok (plainHeader_sound sound) _).trans ((Act.bind_ok (a := Act.dev) rfl _).trans ?_)
  dsimp only
  rw [sec]
  dsimp only
  rw [if_pos image]
  rfl

/-- Securing that is not open is closed at once. -/
theorem sclose_closed (image : x.image = 0) (closed : x.isOpen = false) : sclose o 0 w = (.ok true, ⟨w.mem,
    w.dev.updSec o.ctx.val fun x => { x with isOpen := false, closing := [] }⟩) := by
  refine (Act.bind_ok (plainHeader_sound sound) _).trans ((Act.bind_ok (a := Act.dev) rfl _).trans ?_)
  dsimp only
  rw [sec]
  dsimp only
  rw [if_neg (by simp [image]), closed]
  rfl

/-- Securing that is open is closed, and its status record written. -/
theorem sclose_closes (image : x.image = 0) (isOpen : x.isOpen = true) {w' : Wd}
    (status : vwrite (coordUse o.ctx.val) x.f.status ({ x with isOpen := false } : Secure).status
      ⟨w.mem, w.dev.updSec o.ctx.val fun x => { x with isOpen := false, closing := [] }⟩ = (.ok (), w')) :
    sclose o 0 w = (.ok true, w') := by
  refine (Act.bind_ok (plainHeader_sound sound) _).trans ((Act.bind_ok (a := Act.dev) rfl _).trans ?_)
  dsimp only
  rw [sec]
  dsimp only
  rw [if_neg (by simp [image]), isOpen]
  refine (Act.bind_ok (a := Act.upd _) rfl _).trans ?_
  exact Act.bind_ok status _

end Closing

/-- A write of the status record leaves the securing that its command has set. -/
theorem vwrite_sec {c va : Nat} {bs : List Nat} {w w' : Wd} {x : Secure} (sec : (w.dev.upd c).sec = some x)
    (run : vwrite (coordUse c) va bs w = (.ok (), w')) : (w'.dev.upd c).sec = some x :=
  (congrArg Upd.sec (Dev.upd_apart ((vwrite_aside c va bs).eq run) c)).trans sec

/-! What each of the commands runs. -/

theorem exec_sopen (o : Origin) (f : SnapF) (s : State) : exec (.sopen o f) s =
    .next (s.issueCmd o 0x78 15 (cmdOf o 0x78 f.reserved (snapFields 0x78 f)) (sopen o f)) := rfl

theorem exec_sclose (o : Origin) (s : State) : exec (.sclose o 0) s =
    .next (s.issueCmd o 0x79 15 (cmdOf o 0x79 0 []) (sclose o 0)) := rfl

theorem exec_srestore (o : Origin) (f : SnapF) (s : State) : exec (.srestore o f) s =
    .next (s.issueCmd o 0x7A 15 (cmdOf o 0x7A f.reserved (snapFields 0x7A f)) (srestore o f (s.images o.ctx.val f.opt f))) := rfl

section Commands
variable {s : State} {o : Origin} {f : SnapF}

section Refused
variable (fit : fits o s.dev) (sound : plain o s.dev) (clear : snapBad f = 0)
  (runs : (s.dev.stream o.ctx.val o.stream.val).stopped = false)
include fit sound clear runs

theorem exec_sopen_off (off : s.dev.fn 0x5800 ≠ 2) : Runs (.sopen o f) s (s.stopsAt o 0x78 0x0A06) := by
  refine ⟨_, exec_sopen o f s, State.issueCmd_stops fit runs (sopen_off (plain.atUnit _ _ _ sound) clear ?_)⟩
  rwa [State.fn_atUnit]

theorem exec_srestore_off (off : s.dev.fn 0x5800 ≠ 2) : Runs (.srestore o f) s (s.stopsAt o 0x7A 0x0A06) := by
  refine ⟨_, exec_srestore o f s, State.issueCmd_stops fit runs (srestore_off (plain.atUnit _ _ _ sound) clear ?_ _)⟩
  rwa [State.fn_atUnit]

variable (on : s.dev.fn 0x5800 = 2) (opened : (((s.dev.upd o.ctx.val).sec.map (·.isOpen)).getD false) = true)
include on opened

theorem exec_sopen_again : Runs (.sopen o f) s (s.stopsAt o 0x78 0x0A03) := by
  refine ⟨_, exec_sopen o f s, State.issueCmd_stops fit runs (sopen_again (plain.atUnit _ _ _ sound) clear ?_ ?_)⟩
  · rwa [State.fn_atUnit]
  · rwa [State.upd_atUnit]

theorem exec_srestore_open : Runs (.srestore o f) s (s.stopsAt o 0x7A 0x0A05) := by
  refine ⟨_, exec_srestore o f s, State.issueCmd_stops fit runs (srestore_open (plain.atUnit _ _ _ sound) clear ?_ ?_ _)⟩
  · rwa [State.fn_atUnit]
  · rwa [State.upd_atUnit]

end Refused

/-- SCLOSE whose work is done leaves the part with the command on its scoreboard as done, changed as the work changes it. -/
theorem exec_sclose_done (fit : fits o s.dev) {g : Dev → Dev}
    (apart : ∀ d : Dev, (g d).markDone o.ctx.val o.stream.val o.seq = g (d.markDone o.ctx.val o.stream.val o.seq))
    (run : sclose o 0 (s.atUnit o 0x79 15 (cmdOf o 0x79 0 [])) =
      (.ok true, ⟨s.mem, g (s.atUnit o 0x79 15 (cmdOf o 0x79 0 [])).dev⟩)) :
    exec (.sclose o 0) s = .next (s.onDev fun d => g (d.boarded o 0x79 15 (cmdOf o 0x79 0 []) 1)) := by
  have done := State.board_markDone (op := 0x79) (input := 15) (cmd := cmdOf o 0x79 0 []) fit
  refine (exec_sclose o s).trans (congrArg Host.Outcome.next ((State.issueCmd_done (State.runAct_eq run)).trans ?_))
  exact congrArg (fun d => ({ s with dev := d } : State)) ((apart _).trans (congrArg g done))

end Commands

/-- Settles O60: each command by its checks in their order, and by what its work leaves. -/
theorem securingOpens : Obligations.securingOpens := by
  intro s o f fit c at_ stopped old open_
  refine ⟨?_, fun sound clear runs off => ⟨exec_sopen_off fit sound clear runs off, exec_srestore_off fit sound clear runs off⟩,
    fun sound clear runs on opened =>
      ⟨exec_sopen_again fit sound clear runs on opened, exec_srestore_open fit sound clear runs on opened⟩,
    fun sound => ⟨fun absent => ?_, fun x sec image => ?_, fun x sec image closed => ?_, fun x w sec image isOpen status => ?_⟩, ?_⟩
  · intro sound clear on closed ports store owned es crc rs w1 w2 w3 w4 manifest nonempty good distinct placed ranges
      room x status
    have run : sopen o f (s.atUnit o 0x78 15 (cmdOf o 0x78 f.reserved (snapFields 0x78 f))) = (.ok true, w4) := by
      refine sopen_opens (w3 := w3) (plain.atUnit _ _ _ sound) clear ?_ ?_ ?_ ?_ ?_ manifest nonempty good distinct placed ?_ room ?_
      all_goals simp only [State.fn_atUnit, State.upd_atUnit, State.snap_atUnit, State.handle?_atUnit, State.ownsObj_atUnit,
        State.ctxReg_atUnit]
      all_goals assumption
    obtain ⟨dev, mem, persist, pending⟩ := State.issueCmd_work run
    have sec : (w4.dev.upd c).sec = some x := vwrite_sec (congrArg Upd.sec (Dev.upd_updUpd_self _ _ _)) status
    exact ⟨_, exec_sopen o f s, dev, mem, persist, pending, (congrArg (fun d : Dev => (d.upd c).sec) dev).trans sec, rfl, rfl, rfl,
      rfl, rfl⟩
  · exact exec_sclose_done (g := id) fit (fun _ => rfl) (sclose_none (plain.atUnit _ _ _ sound) (State.sec_atUnit _ _ _ absent))
  · exact congrArg Host.Outcome.next (State.issueCmd_runs (State.runAct_eq
      (sclose_waits (plain.atUnit _ _ _ sound) (State.sec_atUnit _ _ _ sec) image)))
  · exact exec_sclose_done (g := fun d => d.updSec c fun x => { x with isOpen := false, closing := [] }) fit (fun _ => rfl)
      (sclose_closed (plain.atUnit _ _ _ sound) (State.sec_atUnit _ _ _ sec) image closed)
  · have run : sclose o 0 (s.atUnit o 0x79 15 (cmdOf o 0x79 0 [])) = (.ok true, w) :=
      sclose_closes (plain.atUnit _ _ _ sound) (State.sec_atUnit _ _ _ sec) image isOpen status
    obtain ⟨dev, mem, persist, pending⟩ := State.issueCmd_work run
    have closed : (w.dev.upd c).sec = some { x with isOpen := false, closing := [] } :=
      vwrite_sec (Dev.sec_updSec (State.sec_atUnit _ _ _ sec) _) status
    exact ⟨_, exec_sclose o s, (congrArg (fun d : Dev => (d.upd c).sec) dev).trans closed, dev, mem, persist, pending⟩
  · intro sound clear on closed idle u ps es crc w1 w all found manifest same verified restored
    have run : srestore o f all (s.atUnit o 0x7A 15 (cmdOf o 0x7A f.reserved (snapFields 0x7A f))) = (.ok true, w) := by
      refine srestore_restores (plain.atUnit _ _ _ sound) clear ?_ ?_ (State.streams_board idle) found manifest same verified restored
      all_goals simp only [State.fn_atUnit, State.upd_atUnit]
      all_goals assumption
    exact ⟨_, exec_srestore o f s, State.issueCmd_work run⟩

end Sys2Proof.Machine

/-! Words of fields that lie apart, and the statement that a command's bits spell the command (R400 to R414, R498). -/
namespace Sys2Proof.Machine
open Sys2Proof

/-! A word of fields. -/

/-- Numbers without a common bit add up to their union. -/
theorem add_eq_or_of_and_eq_zero {a b : Nat} (h : a &&& b = 0) : a + b = a ||| b := by
  have fits : ∀ {n}, n ≤ a + b → n < 2 ^ (a + b) := fun hn => lt_of_le_of_lt hn Nat.lt_two_pow_self
  have ha := Nat.mod_eq_of_lt (fits (Nat.le_add_right a b))
  have hb := Nat.mod_eq_of_lt (fits (Nat.le_add_left b a))
  have union := congrArg BitVec.toNat (BitVec.add_eq_or_of_and_eq_zero (BitVec.ofNat (a + b) a) (BitVec.ofNat (a + b) b)
    (BitVec.eq_of_toNat_eq (by simp [ha, hb, h])))
  simpa [ha, hb, Nat.mod_eq_of_lt (fits le_rfl)] using union

/-- The first bit and the width of a field in its word. -/
def fieldPlace (f : Nat × Nat × Nat × Nat) : Nat × Nat := (8 * f.1 + f.2.2.1, f.2.1 + 1 - f.2.2.1)

/-- What a field puts into its word. -/
def fieldPart (f : Nat × Nat × Nat × Nat) : Nat := (f.2.2.2 % 2 ^ (fieldPlace f).2) <<< (fieldPlace f).1

/-- Bits [hi:lo] of the number at a byte offset of a word. -/
def fieldAt (raw off hi lo : Nat) : Nat := (raw >>> (8 * off + lo)) % 2 ^ (hi + 1 - lo)

/-- Do two places have no bit in common? -/
def apart (p q : Nat × Nat) : Bool := p.1 + p.2 ≤ q.1 || q.1 + q.2 ≤ p.1

/-- Do places lie apart, in 512 bits? -/
def laidOut : List (Nat × Nat) → Bool
  | [] => true
  | p :: ps => p.1 + p.2 ≤ 512 && ps.all (apart p) && laidOut ps

theorem laidOut_iff {ps : List (Nat × Nat)} :
    laidOut ps = true ↔ (∀ p ∈ ps, p.1 + p.2 ≤ 512) ∧ ps.Pairwise fun p q => apart p q = true := by
  induction ps with
  | nil => simp [laidOut]
  | cons p ps ih =>
    simp only [laidOut, Bool.and_eq_true, decide_eq_true_eq, List.all_eq_true, ih, List.forall_mem_cons, List.pairwise_cons]
    tauto

theorem word_cons (f : Nat × Nat × Nat × Nat) (fs : List (Nat × Nat × Nat × Nat)) : word (f :: fs) = fieldPart f + word fs := by
  have start : ∀ (fs : List (Nat × Nat × Nat × Nat)) (a : Nat),
      fs.foldl (fun r f => r + (f.2.2.2 % 2 ^ (f.2.1 + 1 - f.2.2.1)) <<< (8 * f.1 + f.2.2.1)) a = a + word fs := by
    intro fs
    induction fs with
    | nil => exact fun a => rfl
    | cons g fs ih =>
      intro a
      simp only [word, List.foldl_cons, Nat.zero_add]
      rw [ih, ih, Nat.add_assoc]
  simpa [word, fieldPart, fieldPlace] using start fs (fieldPart f)

/-- The bits of a field's part are the field's, at its place. -/
theorem testBit_fieldPart (f : Nat × Nat × Nat × Nat) (i : Nat) : (fieldPart f).testBit i =
    (decide ((fieldPlace f).1 ≤ i) && decide (i - (fieldPlace f).1 < (fieldPlace f).2) && f.2.2.2.testBit (i - (fieldPlace f).1)) := by
  simp [fieldPart, Nat.testBit_shiftLeft, Nat.testBit_mod_two_pow, Bool.and_assoc]

/-- A set bit of a part lies at its place. -/
theorem place_of_testBit {f : Nat × Nat × Nat × Nat} {i : Nat} (h : (fieldPart f).testBit i = true) :
    (fieldPlace f).1 ≤ i ∧ i < (fieldPlace f).1 + (fieldPlace f).2 := by
  simp only [testBit_fieldPart, Bool.and_eq_true, decide_eq_true_eq] at h
  omega

theorem apart_symm {p q : Nat × Nat} (h : apart p q = true) : apart q p = true := by
  simpa [apart, or_comm] using h

section Word
variable {fs : List (Nat × Nat × Nat × Nat)} (h : laidOut (fs.map fieldPlace) = true)
include h

theorem fields_inside : ∀ f ∈ fs, (fieldPlace f).1 + (fieldPlace f).2 ≤ 512 :=
  fun _ hf => (laidOut_iff.1 h).1 _ (List.mem_map_of_mem hf)

theorem fields_apart : fs.Pairwise fun f g => apart (fieldPlace f) (fieldPlace g) = true :=
  List.pairwise_map.1 (laidOut_iff.1 h).2

/-- Two fields with a set bit in one place are one field. -/
theorem field_eq_of_testBit {f g : Nat × Nat × Nat × Nat} (hf : f ∈ fs) (hg : g ∈ fs) {i : Nat} (bf : (fieldPlace f).1 ≤ i)
    (ef : i < (fieldPlace f).1 + (fieldPlace f).2) (set : (fieldPart g).testBit i = true) : g = f := by
  by_contra ne
  have there := place_of_testBit set
  have : Std.Symm fun f g => apart (fieldPlace f) (fieldPlace g) = true := ⟨fun _ _ => apart_symm⟩
  have := (fields_apart h).forall hf hg (Ne.symm ne)
  simp only [apart, Bool.or_eq_true, decide_eq_true_eq] at this
  omega

/-- The bits of a word are those of its fields. -/
theorem testBit_word (i : Nat) : (word fs).testBit i = fs.any (fun f => (fieldPart f).testBit i) := by
  have pairs := fields_apart h
  clear h
  induction pairs generalizing i with
  | nil => simp [word]
  | @cons f fs first _ ih =>
    have disjoint : fieldPart f &&& word fs = 0 := by
      refine Nat.eq_of_testBit_eq fun j => ?_
      rw [Nat.testBit_and, ih, Nat.zero_testBit, Bool.eq_false_iff, ne_eq, Bool.and_eq_true, List.any_eq_true]
      rintro ⟨here, g, hg, there⟩
      have := first g hg
      simp only [apart, Bool.or_eq_true, decide_eq_true_eq] at this
      have := place_of_testBit here
      have := place_of_testBit there
      omega
    rw [word_cons, add_eq_or_of_and_eq_zero disjoint, Nat.testBit_or, ih, List.any_cons]

/-- A word of fields in 512 bits is below 2^512. -/
theorem word_lt : word fs < 2 ^ 512 := by
  refine Nat.lt_pow_two_of_testBit _ fun i hi => ?_
  rw [testBit_word h, List.any_eq_false]
  intro f hf set
  have := place_of_testBit set
  have := fields_inside h f hf
  omega

/-- Each field reads back from the word. -/
theorem fieldAt_word : ∀ f ∈ fs, fieldAt (word fs) f.1 f.2.1 f.2.2.1 = f.2.2.2 % 2 ^ (f.2.1 + 1 - f.2.2.1) := by
  intro f hf
  refine Nat.eq_of_testBit_eq fun j => ?_
  rw [fieldAt, Nat.testBit_mod_two_pow, Nat.testBit_mod_two_pow, Nat.testBit_shiftRight, testBit_word h]
  by_cases inside : j < f.2.1 + 1 - f.2.2.1
  · have own : (fieldPart f).testBit (8 * f.1 + f.2.2.1 + j) = f.2.2.2.testBit j := by
      simp [testBit_fieldPart, fieldPlace, inside]
    rw [← own, decide_eq_true inside, Bool.true_and, Bool.true_and, Bool.eq_iff_iff, List.any_eq_true]
    refine ⟨fun ⟨g, hg, set⟩ => ?_, fun set => ⟨f, hf, set⟩⟩
    exact field_eq_of_testBit h hf hg (Nat.le_add_right _ _) (by simp only [fieldPlace]; omega) set ▸ set
  · simp [inside]

/-- Bits that no field covers are clear in the word. -/
theorem word_and_eq_zero {m : Nat} (free : (fs.map fieldPlace).all (fun p => ((2 ^ p.2 - 1) <<< p.1) &&& m == 0) = true) :
    word fs &&& m = 0 := by
  refine Nat.eq_of_testBit_eq fun i => ?_
  rw [Nat.testBit_and, testBit_word h, Nat.zero_testBit, Bool.eq_false_iff, ne_eq, Bool.and_eq_true, List.any_eq_true]
  rintro ⟨⟨f, hf, set⟩, reserved⟩
  have clear : ((2 ^ (fieldPlace f).2 - 1) <<< (fieldPlace f).1) &&& m = 0 := by
    simpa using List.all_eq_true.1 free _ (List.mem_map_of_mem hf)
  obtain ⟨first, last⟩ := place_of_testBit set
  have covered : ((2 ^ (fieldPlace f).2 - 1) <<< (fieldPlace f).1).testBit i = true := by
    rw [Nat.testBit_shiftLeft, Nat.testBit_two_pow_sub_one]
    simp only [ge_iff_le, first, decide_true, Bool.true_and, decide_eq_true_eq]
    omega
  have := congrArg (fun n => n.testBit i) clear
  simp [covered, reserved] at this

end Word

/-! What the readers of a command read. -/

theorem bits_bytesAt {raw off n hi lo : Nat} (h : hi < 8 * n) : bits (bytesAt raw off n) hi lo = fieldAt raw off hi lo := by
  refine Nat.eq_of_testBit_eq fun j => ?_
  simp only [bits, bytesAt, fieldAt, Nat.testBit_mod_two_pow, Nat.testBit_shiftRight, ← Nat.add_assoc]
  by_cases inside : j < hi + 1 - lo
  · simp [inside, show lo + j < 8 * n by omega]
  · simp [inside]

theorem bytesAt_eq_fieldAt {raw off n : Nat} (h : 0 < n) : bytesAt raw off n = fieldAt raw off (8 * n - 1) 0 := by
  simp [bytesAt, fieldAt, show 8 * n - 1 + 1 = 8 * n by omega]

theorem bits_eq_fieldAt (raw hi lo : Nat) : bits raw hi lo = fieldAt raw 0 hi lo := by simp [bits, fieldAt]

theorem bit_eq_fieldAt (raw i : Nat) : bit raw i = (fieldAt raw 0 i i == 1) := by simp [bit, fieldAt]

theorem addrAt_eq_fieldAt (raw off : Nat) : addrAt raw off = fieldAt raw off 51 6 * 64 := by
  rw [addrAt, bits_bytesAt (by decide)]

/-- An address of R404 fits its field. -/
theorem addrWf.fits {a : Nat} (h : addrWf a = true) : a / 64 % 2 ^ (51 + 1 - 6) = a / 64 := by
  simp only [addrWf, Bool.and_eq_true, decide_eq_true_eq] at h
  omega

/-- An address of R404 is aligned. -/
theorem addrWf.aligned {a : Nat} (h : addrWf a = true) : a / 64 * 64 = a := by
  simp only [addrWf, Bool.and_eq_true, decide_eq_true_eq] at h
  omega

theorem b2n_mod_two (b : Bool) : (b2n b % 2 == 1) = b := by cases b <;> rfl

/-- Do places leave every bit of a mask alone? -/
def uncovered (m : Nat) (ps : List (Nat × Nat)) : Bool := ps.all fun p => ((2 ^ p.2 - 1) <<< p.1) &&& m == 0

/-- A number of 512 bits that holds fields, and nothing but fields. -/
structure Spells (raw : Nat) (fs : List (Nat × Nat × Nat × Nat)) : Prop where
  lt : raw < 2 ^ 512
  reads : ∀ f ∈ fs, fieldAt raw f.1 f.2.1 f.2.2.1 = f.2.2.2 % 2 ^ (f.2.1 + 1 - f.2.2.1)
  clear : ∀ m, uncovered m (fs.map fieldPlace) = true → reservedOf raw m = 0

theorem spells_word {fs : List (Nat × Nat × Nat × Nat)} (h : laidOut (fs.map fieldPlace) = true) : Spells (word fs) fs :=
  ⟨word_lt h, fieldAt_word h, fun _ => word_and_eq_zero h⟩

section Command
variable {raw : Nat} {o : Origin} {op : Nat} {fs : List (Nat × Nat × Nat × Nat)}

theorem opcodeOf_spelled (h : Spells raw (hdrFields o op ++ fs)) (low : op < 256) : opcodeOf raw = op := by
  have := h.reads (0, 7, 0, op) (by simp [hdrFields])
  simpa [opcodeOf, bits_eq_fieldAt, Nat.mod_eq_of_lt low] using this

theorem originOf_spelled (h : Spells raw (hdrFields o op ++ fs)) (wf : o.wf = true) : originOf o.ctx o.stream o.stamp raw = o := by
  have reads := h.reads
  simp only [hdrFields, List.cons_append, List.forall_mem_cons] at reads
  obtain ⟨-, slot, seq, barrier, sigEn, sigObj, -⟩ := reads
  simp only [Origin.wf, Bool.and_eq_true, decide_eq_true_eq, Nat.reducePow] at wf
  obtain ⟨⟨⟨seqLt, -⟩, slotLt⟩, objLt⟩ := wf
  simp [originOf, bits_eq_fieldAt, bit_eq_fieldAt, slot, seq, barrier, sigEn, sigObj, b2n_mod_two,
    Nat.mod_eq_of_lt seqLt, Nat.mod_eq_of_lt slotLt, Nat.mod_eq_of_lt objLt]

/-- A stream holds a command without a reserved bit as a number that spells its header and its fields. -/
theorem cmdOf_spells (wf : o.wf = true) (low : op < 256) (h : laidOut ((hdrFields o op ++ fs).map fieldPlace) = true) {p : Nat → Prop}
    (reads : ∀ raw, Spells raw (hdrFields o op ++ fs) → p raw) : ∃ x, cmdOf o op 0 fs = some ⟨x, o.stamp, false, 0⟩ ∧ x < 2 ^ 512 ∧
      opcodeOf x = op ∧ originOf o.ctx o.stream o.stamp x = o ∧ p x := by
  have spelled := spells_word h
  refine ⟨_, ?_, spelled.lt, opcodeOf_spelled spelled low, originOf_spelled spelled wf, reads _ spelled⟩
  simp [cmdOf, Nat.mod_eq_of_lt spelled.lt]

end Command

/-! The fields of each layout. -/

section Layouts
variable {raw : Nat} {o : Origin}

theorem mtileOf_spelled {f : MtileF} (wf : f.wf = true) (sound : f.reserved = 0) (h : Spells raw (hdrFields o 0x10 ++ mtileFields f)) :
    mtileOf raw = f := by
  have free : (mtileOf raw).reserved = 0 := h.clear _ (by
    simp only [hdrFields, mtileFields, addrField, List.map_append, List.map_cons, List.map_nil, fieldPlace]; decide)
  have reads := h.reads
  simp only [MtileF.wf, Bool.and_eq_true, decide_eq_true_eq, Nat.reducePow] at wf
  simp only [hdrFields, mtileFields, addrField, List.cons_append, List.nil_append, List.forall_mem_cons, addrWf.fits, wf] at reads
  cases f
  simp only [mtileOf] at free sound reads wf ⊢
  simp [↓bits_bytesAt, bytesAt_eq_fieldAt, addrAt_eq_fieldAt, reads, free, sound, addrWf.aligned, wf, Nat.mod_eq_of_lt]

theorem vecOf_spelled {f : VecF} {op : Nat} (low : op < 256) (wf : f.wf = true) (sound : f.reserved = 0) (second : op = 0x27 → f.bDesc = 0)
    (beta : op ≠ 0x27 → f.beta = 0) (h : Spells raw (hdrFields o op ++ vecFields op f)) : vecOf raw = f := by
  have opcode := opcodeOf_spelled h low
  have reads := h.reads
  simp only [VecF.wf, Bool.and_eq_true, decide_eq_true_eq, Nat.reducePow] at wf
  by_cases scale : op = 0x27
  · have free : (vecOf raw).reserved = 0 := by
      simp only [vecOf, opcode, scale, if_true]
      refine h.clear _ ?_
      simp only [hdrFields, vecFields, addrField, scale, if_true, List.map_append, List.map_cons, List.map_nil, fieldPlace]
      decide
    simp only [hdrFields, vecFields, addrField, scale, if_true, List.cons_append, List.nil_append, List.forall_mem_cons, addrWf.fits, wf] at reads
    have second := second scale
    cases f
    simp only [vecOf, opcode, scale, if_true] at free sound reads wf second ⊢
    simp [↓bits_bytesAt, bytesAt_eq_fieldAt, addrAt_eq_fieldAt, reads, free, sound, second, addrWf.aligned, wf, Nat.mod_eq_of_lt]
  · have free : (vecOf raw).reserved = 0 := by
      simp only [vecOf, opcode, scale, if_false]
      refine h.clear _ ?_
      simp only [hdrFields, vecFields, addrField, scale, if_false, List.map_append, List.map_cons, List.map_nil, fieldPlace]
      decide
    simp only [hdrFields, vecFields, addrField, scale, if_false, List.cons_append, List.nil_append, List.forall_mem_cons, addrWf.fits, wf] at reads
    have beta := beta scale
    cases f
    simp only [vecOf, opcode, scale, if_false] at free sound reads wf beta ⊢
    simp [↓bits_bytesAt, bytesAt_eq_fieldAt, addrAt_eq_fieldAt, reads, free, sound, beta, addrWf.aligned, wf, Nat.mod_eq_of_lt]

theorem moveOf_spelled {f : MoveF} {op : Nat} (wf : f.wf = true) (sound : f.reserved = 0)
    (h : Spells raw (hdrFields o op ++ moveFields f)) : moveOf raw = f := by
  have free : (moveOf raw).reserved = 0 := h.clear _ (by
    simp only [hdrFields, moveFields, addrField, List.map_append, List.map_cons, List.map_nil, fieldPlace]; decide)
  have reads := h.reads
  simp only [MoveF.wf, Bool.and_eq_true, decide_eq_true_eq] at wf
  simp only [hdrFields, moveFields, addrField, List.cons_append, List.nil_append, List.forall_mem_cons, addrWf.fits, wf] at reads
  cases f
  simp only [moveOf] at free sound reads wf ⊢
  simp [addrAt_eq_fieldAt, reads, free, sound, addrWf.aligned, wf]

theorem collOf_spelled {f : CollF} {op : Nat} (wf : f.wf = true) (sound : f.reserved = 0) (emit : f.srcKind = 0 → f.emit = 0)
    (src : f.srcKind = 1 → f.src = 0) (h : Spells raw (hdrFields o op ++ collFields f)) : collOf raw = f := by
  have kind : bits (bytesAt raw 36 4) 7 7 = f.srcKind := by
    have := h.reads (36, 7, 7, f.srcKind) (by simp [collFields])
    simp only [CollF.wf, Bool.and_eq_true, decide_eq_true_eq] at wf
    simpa [bits_bytesAt, wf, Nat.mod_eq_of_lt] using this
  have reads := h.reads
  simp only [CollF.wf, Bool.and_eq_true, decide_eq_true_eq, Nat.reducePow] at wf
  by_cases emits : f.srcKind = 1
  · have free : (collOf raw).reserved = 0 := by
      simp only [collOf, kind, emits, one_ne_zero, if_false]
      refine h.clear _ ?_
      simp only [hdrFields, collFields, addrField, emits, if_true, List.map_append, List.map_cons, List.map_nil, fieldPlace]
      decide
    simp only [hdrFields, collFields, addrField, emits, if_true, List.cons_append, List.nil_append, List.forall_mem_cons, addrWf.fits, wf]
      at reads
    have src := src emits
    cases f
    simp only [collOf, kind] at free sound reads wf src emits ⊢
    simp only [emits, one_ne_zero, if_false] at free
    simp [↓bits_bytesAt, bytesAt_eq_fieldAt, addrAt_eq_fieldAt, reads, free, sound, src, emits, addrWf.aligned, wf, Nat.mod_eq_of_lt]
  · have reads_src : f.srcKind = 0 := by omega
    have free : (collOf raw).reserved = 0 := by
      simp only [collOf, kind, reads_src, if_true]
      refine h.clear _ ?_
      simp only [hdrFields, collFields, addrField, emits, if_false, List.map_append, List.map_cons, List.map_nil, fieldPlace]
      decide
    simp only [hdrFields, collFields, addrField, emits, if_false, List.cons_append, List.nil_append, List.forall_mem_cons, addrWf.fits, wf]
      at reads
    have emit := emit reads_src
    cases f
    simp only [collOf, kind] at free sound reads wf emit reads_src ⊢
    simp only [reads_src, if_true] at free
    simp [↓bits_bytesAt, bytesAt_eq_fieldAt, addrAt_eq_fieldAt, reads, free, sound, emit, reads_src, addrWf.aligned, wf, Nat.mod_eq_of_lt]

theorem handleOf_spelled {f : HandleF} {action : Nat} (low : action < 8) (wf : f.wf = true) (sound : f.reserved = 0)
    (h : Spells raw (hdrFields o 0x56 ++ handleFields action f)) : handleOf raw = f ∧ bits (bytesAt raw 8 1) 2 0 = action := by
  have free : (handleOf raw).reserved = 0 := h.clear _ (by
    simp only [hdrFields, handleFields, List.map_append, List.map_cons, List.map_nil, fieldPlace]; decide)
  have reads := h.reads
  simp only [HandleF.wf, Bool.and_eq_true, decide_eq_true_eq, Nat.reducePow] at wf
  simp only [hdrFields, handleFields, List.cons_append, List.nil_append, List.forall_mem_cons, addrWf.fits, wf] at reads
  cases f
  simp only [handleOf] at free sound reads wf ⊢
  simp [↓bits_bytesAt, bytesAt_eq_fieldAt, addrAt_eq_fieldAt, reads, free, sound, addrWf.aligned, wf, low, Nat.mod_eq_of_lt]

theorem snapOf_sopen {f : SnapF} (wf : f.wf = true) (sound : f.reserved = 0) (obj : f.obj < 2 ^ 14)
    (h : Spells raw (hdrFields o 0x78 ++ snapFields 0x78 f)) : snapOf raw = f := by
  have opcode := opcodeOf_spelled h (by decide)
  have free : (snapOf raw).reserved = 0 := by
    simp only [snapOf, opcode, if_true]
    refine h.clear _ ?_
    simp only [hdrFields, snapFields, addrField, if_true, List.map_append, List.map_cons, List.map_nil, fieldPlace]
    decide
  have reads := h.reads
  simp only [SnapF.wf, Bool.and_eq_true, decide_eq_true_eq, Nat.reducePow] at wf obj
  simp only [hdrFields, snapFields, addrField, if_true, List.cons_append, List.nil_append, List.forall_mem_cons, addrWf.fits, wf] at reads
  cases f
  simp only [snapOf, opcode, if_true, Nat.add_zero] at free sound reads wf obj ⊢
  simp [↓bits_bytesAt, bytesAt_eq_fieldAt, addrAt_eq_fieldAt, reads, free, sound, addrWf.aligned, wf, obj, Nat.mod_eq_of_lt]

theorem snapOf_srestore {f : SnapF} (wf : f.wf = true) (sound : f.reserved = 0) (interval : f.netInterval = 0)
    (h : Spells raw (hdrFields o 0x7A ++ snapFields 0x7A f)) : snapOf raw = f := by
  have opcode := opcodeOf_spelled h (by decide)
  have other : ¬ (0x7A = 0x78) := by decide
  have free : (snapOf raw).reserved = 0 := by
    simp only [snapOf, opcode, other, if_false]
    refine h.clear _ ?_
    simp only [hdrFields, snapFields, addrField, other, if_false, List.map_append, List.map_cons, List.map_nil, fieldPlace]
    decide
  have reads := h.reads
  simp only [SnapF.wf, Bool.and_eq_true, decide_eq_true_eq, Nat.reducePow] at wf
  simp only [hdrFields, snapFields, addrField, other, if_false, List.cons_append, List.nil_append, List.forall_mem_cons, addrWf.fits, wf]
    at reads
  cases f
  simp only [snapOf, opcode, other, if_false] at free sound reads wf interval ⊢
  simp [↓bits_bytesAt, bytesAt_eq_fieldAt, addrAt_eq_fieldAt, reads, free, sound, interval, addrWf.aligned, wf, Nat.mod_eq_of_lt]

end Layouts

/-- Settles O54: the header and the fields of each layout lie apart, so the word that a stream holds spells them. -/
theorem commandsRoundTrip : Obligations.commandsRoundTrip := by
  intro o wf
  refine ⟨fun f fwf sound => ?_, fun f op low high fwf sound second beta => ?_, fun f op low high fwf sound => ?_,
    fun f op low fwf sound emit src => ?_, fun f action low fwf sound => ?_, fun f fwf sound => ⟨fun obj => ?_, fun interval => ?_⟩⟩
  · exact cmdOf_spells wf (by decide) rfl fun _ => mtileOf_spelled fwf sound
  · refine cmdOf_spells wf (by omega) ?_ fun _ => vecOf_spelled (by omega) fwf sound second beta
    by_cases scale : op = 0x27
    · subst scale
      rfl
    · rw [vecFields, if_neg scale]
      rfl
  · exact cmdOf_spells wf (by omega) rfl fun _ => moveOf_spelled fwf sound
  · refine cmdOf_spells wf low ?_ fun _ => collOf_spelled fwf sound emit src
    by_cases emits : f.srcKind = 1
    · rw [collFields, if_pos emits]
      rfl
    · rw [collFields, if_neg emits]
      rfl
  · exact cmdOf_spells wf (by decide) rfl fun _ => handleOf_spelled low fwf sound
  · exact cmdOf_spells wf (by decide) rfl fun _ => snapOf_sopen fwf sound obj
  · exact cmdOf_spells wf (by decide) rfl fun _ => snapOf_srestore fwf sound interval

end Sys2Proof.Machine

/-! The commands that a stream, the sync-object unit or the governor executes, and the statement about them (R394, R396, R401, R407,
R415, R416, R426, R427, R430, R440, R544, R758). -/
namespace Sys2Proof.Machine
open Sys2Proof

/-! A command behind a sound header. -/

section Headed
variable {s : State} {o : Origin} {op input : Nat} {cmd : Option QCmd} {m : Act Bool} {g : Dev → Dev}

/-- A computation that runs behind the header of a sound command is that computation. -/
theorem plainHeader_bind {α : Type} {w : Wd} (sound : plain o w.dev) (m : Unit → Act α) : (plainHeader o 0 >>= m) w = m () w :=
  Act.bind_ok (plainHeader_sound sound) _

/-- A command whose work is done leaves the part with the command on its scoreboard as done, changed as the work changes it. -/
theorem State.issueCmd_does (fit : fits o s.dev)
    (aside : ∀ d : Dev, (g d).markDone o.ctx.val o.stream.val o.seq = g (d.markDone o.ctx.val o.stream.val o.seq))
    (run : m (s.atUnit o op input cmd) = (.ok true, ⟨s.mem, g (s.atUnit o op input cmd).dev⟩)) :
    s.issueCmd o op input cmd m = s.onDev fun d => g (d.boarded o op input cmd 1) :=
  (State.issueCmd_done (State.runAct_eq run)).trans
    (congrArg (fun d => ({ s with dev := d } : State)) ((aside _).trans (congrArg g (State.board_markDone fit))))

/-- A command that runs on leaves the part with the command on its scoreboard, changed as its work changes it. -/
theorem State.issueCmd_opens (run : m (s.atUnit o op input cmd) = (.ok false, ⟨s.mem, g (s.atUnit o op input cmd).dev⟩)) :
    s.issueCmd o op input cmd m = s.onDev fun d => g (d.boarded o op input cmd 0) :=
  (State.issueCmd_runs (State.runAct_eq run)).trans rfl

end Headed

/-- The hints of a context and the scoreboards of its streams change in either order. -/
theorem Dev.markDone_updHints (h : List Hint → List Hint) (d : Dev) (c i seq : Nat) :
    (d.updCtx c fun x => { x with hints := h x.hints }).markDone c i seq =
      (d.markDone c i seq).updCtx c fun x => { x with hints := h x.hints } := by
  simp only [Dev.markDone, Dev.updIssued, Dev.updStream, Dev.updCtx_updCtx]

/-- An object's number within its width, beside a reserved field that is clear, sets no reserved bit. -/
theorem reserved_object {y : Nat} (h : y < 16384) : 0 + y / 16384 = 0 := by omega

/-- The hints of a context are as they were when the command's unit takes it. -/
theorem State.hints_atUnit {s : State} {o : Origin} (op input : Nat) (cmd : Option QCmd) :
    ((s.atUnit o op input cmd).dev.ctx o.ctx.val).hints = (s.dev.ctx o.ctx.val).hints :=
  congrArg (·.hints) (Dev.ctx_updCtx_self _ _ _)

/-- A remote signal that the handle admits is queued as an addition at input 14 (R430). -/
theorem Dev.remoteSignal_admitted {d : Dev} {handle epoch job sender y v : Nat} (bound : y < 16384)
    (admits : d.remoteOk handle epoch job y = true) :
    d.remoteSignal handle epoch job sender y v = (true, d.signal 14 y false (v % 2 ^ 64)) :=
  if_pos (by simp [bound, admits])

section Commands
variable {s : State} {o : Origin} (sound : plain o s.dev)

section Done
variable (fit : fits o s.dev)
include fit sound

theorem exec_nop_sound : exec (.nop o 0) s = .next (s.onDev fun d => d.boarded o 0x01 15 (cmdOf o 0x01 0 []) 1) :=
  congrArg Host.Outcome.next <| State.issueCmd_does (g := id) fit (fun _ => rfl) (plainHeader_bind (plain.atUnit _ _ _ sound) _)

theorem exec_hcancel_sound : exec (.hcancel o 0) s = .next (s.onDev fun d =>
    (d.boarded o 0x71 15 (cmdOf o 0x71 0 []) 1).updCtx o.ctx.val fun x => { x with hints := [] }) :=
  congrArg Host.Outcome.next <| State.issueCmd_does fit (fun d => Dev.markDone_updHints (fun _ => []) d _ _ _)
    (plainHeader_bind (plain.atUnit _ _ _ sound) _)

/-- SSIGNAL by an owner of the object: an operation is queued at input 15 (R407, R427). -/
theorem issueCmd_ssignal {y v operation : Nat} (isSet : Bool) (bound : y < 16384) (owned : s.dev.ownsObj o.ctx.val y = true) :
    let cmd := cmdOf o 0x03 0 (ssignalFields y operation v)
    s.issueCmd o 0x03 15 cmd (ssignal isSet o y v 0) =
      s.onDev fun d => (d.boarded o 0x03 15 cmd 1).signal 15 y isSet (v % 2 ^ 64) := by
  refine State.issueCmd_does (g := fun d => d.signal 15 y isSet (v % 2 ^ 64)) fit (fun _ => rfl) ?_
  unfold ssignal
  rw [reserved_object bound, plainHeader_bind (plain.atUnit _ _ _ sound)]
  exact Act.bind_ok (Act.refuseIf_false (b := !(s.dev.ownsObj o.ctx.val y)) (by simp [owned]) _ _) _

/-- SWAIT whose counter has reached the value is done (R394). -/
theorem exec_swait_reached {y n v : Nat} (bound : y < 16384) (width : v < 2 ^ 64) (may : s.dev.waitsObj o.ctx.val y = true)
    (reached : v ≤ s.dev.counter y) : exec (.swait o y n v 0) s =
      .next (s.onDev fun d => d.boarded o 0x02 15 (cmdOf o 0x02 0 (swaitFields y n v)) 1) := by
  refine congrArg Host.Outcome.next (State.issueCmd_does (g := id) fit (fun _ => rfl) ?_)
  unfold swait
  rw [reserved_object bound, plainHeader_bind (plain.atUnit _ _ _ sound)]
  refine (Act.bind_ok (a := Act.dev) rfl _).trans ?_
  refine (Act.bind_ok (Act.refuseIf_false (b := !(s.dev.waitsObj o.ctx.val y)) (by simp [may]) _ _) _).trans ?_
  exact congrFun (if_pos (show v % two64 ≤ s.dev.counter y by rwa [two64, Nat.mod_eq_of_lt width])) _

/-- SFENCE without a host address, or for a site that cannot take the write, is done (R396, R544). -/
theorem exec_sfence_done {a v : Nat} (aligned : a % 8 = 0) (idle : (s.dev.stream o.ctx.val o.stream.val).run = [])
    (away : a = 0 ∨ ∀ h, s.dev.owner o.ctx.val = some h → (s.dev.site h).phase ≠ 4) : exec (.sfence o a v 0) s =
      .next (s.onDev fun d => d.boarded o 0x05 15 (cmdOf o 0x05 0 (sfenceFields a v)) 1) := by
  have free : s.dev.streamBusy o = false := by simp [Dev.streamBusy, idle]
  refine (if_neg (by simp [free])).trans (congrArg Host.Outcome.next (State.issueCmd_does (g := id) fit (fun _ => rfl) ?_))
  unfold sfence
  rw [Nat.zero_add, aligned, plainHeader_bind (plain.atUnit _ _ _ sound)]
  refine (Act.bind_ok (a := Act.dev) rfl _).trans ?_
  change (match s.dev.owner o.ctx.val with
    | some h => _
    | none => _ : Act Bool) _ = _
  cases owner : s.dev.owner o.ctx.val with
  | none => rfl
  | some h =>
    have skip : (a = 0 || decide ((s.dev.site h).phase ≠ 4)) = true := by simpa using away.imp_right fun k => k h owner
    exact congrFun (if_pos skip) _

end Done

include sound

/-- SWAIT whose counter has not reached the value registers its wait, which holds the stream (R394). -/
theorem exec_swait_registers {y n v : Nat} (bound : y < 16384) (width : v < 2 ^ 64) (may : s.dev.waitsObj o.ctx.val y = true)
    (early : s.dev.counter y < v) : exec (.swait o y n v 0) s =
      .next (s.onDev fun d => (d.boarded o 0x02 15 (cmdOf o 0x02 0 (swaitFields y n v)) 0).updStream o.ctx.val o.stream.val
        fun x => { x with waiting := true, waitMet := false, waitObj := y, waitVal := v, waitLeft := n }) := by
  refine congrArg Host.Outcome.next (State.issueCmd_opens (g := fun d => d.updStream o.ctx.val o.stream.val
    fun x => { x with waiting := true, waitMet := false, waitObj := y, waitVal := v, waitLeft := n }) ?_)
  unfold swait
  rw [reserved_object bound, plainHeader_bind (plain.atUnit _ _ _ sound), two64, Nat.mod_eq_of_lt width]
  refine (Act.bind_ok (a := Act.dev) rfl _).trans ?_
  refine (Act.bind_ok (Act.refuseIf_false (b := !(s.dev.waitsObj o.ctx.val y)) (by simp [may]) _ _) _).trans ?_
  exact congrFun (if_neg (show ¬ v ≤ s.dev.counter y by omega)) _

/-- SFENCE with an address that the owner's site can take sends the host write (R396). -/
theorem exec_sfence_writes {a v h : Nat} (aligned : a % 8 = 0) (idle : (s.dev.stream o.ctx.val o.stream.val).run = []) (asks : a ≠ 0)
    (owner : s.dev.owner o.ctx.val = some h) (attached : (s.dev.site h).phase = 4) : exec (.sfence o a v 0) s =
      .next (s.onDev fun d => (d.boarded o 0x05 15 (cmdOf o 0x05 0 (sfenceFields a v)) 0).out (.hostWrite h a (v % 2 ^ 64))) := by
  have free : s.dev.streamBusy o = false := by simp [Dev.streamBusy, idle]
  refine (if_neg (by simp [free])).trans (congrArg Host.Outcome.next (State.issueCmd_opens
    (g := fun d => d.out (.hostWrite h a (v % 2 ^ 64))) ?_))
  unfold sfence
  rw [Nat.zero_add, aligned, plainHeader_bind (plain.atUnit _ _ _ sound)]
  refine (Act.bind_ok (a := Act.dev) rfl _).trans ?_
  change (match s.dev.owner o.ctx.val with
    | some h => _
    | none => _ : Act Bool) _ = _
  rw [owner]
  exact congrFun (if_neg (show ¬ (a = 0 || decide ((s.dev.site h).phase ≠ 4)) = true by simp [asks, attached])) _

/-- HPHASE with fields in range adds its hint to those that have not ended, while they are fewer than eight (R415, R416). -/
theorem exec_hphase_hints (fit : fits o s.dev) {lead dur cls parts : Nat} (soon : lead ≤ 1000000) (some : 0 < dur) (short : dur ≤ 10000000)
    (class4 : cls < 4) (asks : 0 < parts) (width : parts < 256)
    (few : ((s.dev.ctx o.ctx.val).hints.filter (fun h => s.dev.now < h.stop)).length < 8) :
    exec (.hphase o lead dur cls parts 0) s = .next (s.onDev fun d =>
      (d.boarded o 0x70 15 (cmdOf o 0x70 0 (hphaseFields lead dur cls parts)) 1).updCtx o.ctx.val fun x => { x with
        hints := x.hints.filter (fun h => d.now < h.stop) ++
          [{ start := d.now + 1000 * lead, stop := d.now + 1000 * lead + 1000 * dur, cls := cls, parts := parts }] }) := by
  refine congrArg Host.Outcome.next (State.issueCmd_does fit (fun d => Dev.markDone_updHints
    (fun old => old.filter (fun h => s.dev.now < h.stop) ++
      [{ start := s.dev.now + 1000 * lead, stop := s.dev.now + 1000 * lead + 1000 * dur, cls := cls, parts := parts }]) d _ _ _) ?_)
  unfold hphase
  rw [show 0 + cls / 4 + parts / 256 = 0 by omega, plainHeader_bind (plain.atUnit _ _ _ sound)]
  refine (Act.bind_ok (Act.refuseIf_false (by simp; omega) _ _) _).trans ?_
  refine (Act.bind_ok (a := Act.upd _) rfl _).trans ?_
  refine congrArg (fun d => (Except.ok true, (⟨s.mem, d⟩ : Wd))) (if_pos ?_)
  exact (congrArg (fun old : List Hint => (old.filter (fun h => s.dev.now < h.stop)).length) (State.hints_atUnit _ _ _)).trans_lt few

section Remote
variable {y rank handle v : Nat} {x : Handle} (bound : y < 16384) (rank10 : rank < 1024) (known : s.dev.handle? handle = some x)
  (own : x.ctx = o.ctx.val) (jobs : x.kind = 0) (member : rank < x.n)
include bound rank10 known own jobs member

/-- SREMOTE to another member of a handle of its context sends a remote signal (R430). -/
theorem exec_sremote_sends (away : rank ≠ x.rank) : exec (.sremote o y rank handle v 0) s = .next (s.onDev fun d =>
    (d.boarded o 0x04 14 (cmdOf o 0x04 0 (sremoteFields y rank handle v)) 0).control handle rank 6 [y, v % 2 ^ 64]) := by
  refine congrArg Host.Outcome.next (State.issueCmd_opens (g := fun d => d.control handle rank 6 [y, v % 2 ^ 64]) ?_)
  unfold sremote
  rw [show 0 + y / 16384 + rank / 1024 = 0 by omega, plainHeader_bind (plain.atUnit _ _ _ sound)]
  refine (Act.bind_ok (a := Act.dev) rfl _).trans ?_
  change (match s.dev.handle? handle with
    | none => _
    | some x => _ : Act Bool) _ = _
  rw [known]
  refine (Act.bind_ok (Act.refuseIf_false (by simp [own]) _ _) _).trans ?_
  refine (congrFun (if_neg (by simp [jobs, member])) _).trans ?_
  exact congrFun (if_neg away) _

/-- SREMOTE to this package itself queues the addition where the handle's epoch admits it (R430). -/
theorem exec_sremote_here (fit : fits o s.dev) (here : rank = x.rank) (admits : s.dev.remoteOk handle x.epoch x.job y = true) :
    exec (.sremote o y rank handle v 0) s = .next (s.onDev fun d =>
      (d.boarded o 0x04 14 (cmdOf o 0x04 0 (sremoteFields y rank handle v)) 1).signal 14 y false (v % 2 ^ 64)) := by
  refine congrArg Host.Outcome.next (State.issueCmd_does (g := fun d => d.signal 14 y false (v % 2 ^ 64)) fit (fun _ => rfl) ?_)
  unfold sremote
  rw [show 0 + y / 16384 + rank / 1024 = 0 by omega, plainHeader_bind (plain.atUnit _ _ _ sound)]
  refine (Act.bind_ok (a := Act.dev) rfl _).trans ?_
  change (match s.dev.handle? handle with
    | none => _
    | some x => _ : Act Bool) _ = _
  rw [known]
  refine (Act.bind_ok (Act.refuseIf_false (by simp [own]) _ _) _).trans ?_
  refine (congrFun (if_neg (by simp [jobs, member])) _).trans ?_
  refine (congrFun (if_pos here) _).trans ?_
  simp only
  rw [Dev.remoteSignal_admitted (d := (s.atUnit o 0x04 14 (cmdOf o 0x04 0 (sremoteFields y rank handle v))).dev) bound admits]
  rfl

end Remote

end Commands

/-- Settles O5, command by command behind its sound header. -/
theorem syncCommandsRun : Obligations.syncCommandsRun := by
  refine ⟨fun s o fit sound => ⟨exec_nop_sound sound fit, exec_hcancel_sound sound fit, fun y v bound owned => ⟨?_, ?_⟩,
    fun y n v bound width may => ⟨exec_swait_reached sound fit bound width may, exec_swait_registers sound bound width may⟩,
    fun a v aligned idle => ⟨exec_sfence_done sound fit aligned idle, fun h => exec_sfence_writes sound aligned idle⟩⟩,
    fun s o fit sound => ⟨fun lead dur cls parts => exec_hphase_hints sound fit,
      fun y rank handle v x bound rank10 known own jobs member =>
        ⟨exec_sremote_sends sound bound rank10 known own jobs member,
          exec_sremote_here sound bound rank10 known own jobs member fit⟩⟩⟩
  · exact congrArg Host.Outcome.next (issueCmd_ssignal sound fit false bound owned)
  · exact congrArg Host.Outcome.next (issueCmd_ssignal sound fit true bound owned)

end Sys2Proof.Machine

/-! What an answer to a dictionary write is, and what it leaves (R668, R676, R677). -/
namespace Sys2Proof.Machine
open Sys2Proof

section Reply
variable {d : Dev} {s : State} {via : Via} {tagged : Bool} {r : Reply}

/-- A mailbox that answers has a host link (R676). -/
abbrev Dev.linked (d : Dev) (via : Via) : Prop := ∀ h, via = .mailbox h → (d.site h).link = 3

/-- Who is heard has a link to be answered over. -/
theorem Dev.linked_of_heard (heard : d.deaf via = false) : d.linked via := by
  rintro h rfl
  simp only [Dev.deaf, Dev.mute, Bool.or_eq_false_iff, decide_eq_false_iff_not, not_not] at heard
  exact heard.1.2.1

theorem Dev.msix_ctxs (d : Dev) (h v : Nat) : (d.msix h v).ctxs = d.ctxs := by unfold Dev.msix; split <;> rfl

/-- An answer changes no context. -/
theorem Dev.sendReply_ctxs (d : Dev) (via : Via) (tagged : Bool) (r : Reply) : (d.sendReply via tagged r).ctxs = d.ctxs := by
  have counted : (if r.reason = 0 then d.incReg 0x1100 0x10 else d.incReg 0x1100 0x11).ctxs = d.ctxs := by split <;> rfl
  unfold Dev.sendReply
  extract_lets e
  have same : e.ctxs = d.ctxs := counted
  clear_value e
  split
  · split
    · exact same
    · exact (Dev.msix_ctxs _ _ _).trans same
  · extract_lets _ _ kept
    have answered : kept.ctxs = e.ctxs := by unfold kept; split <;> rfl
    exact answered.trans same
  · exact same

/-- An answer over a link leaves the part last. -/
theorem Dev.sendReply_last (linked : d.linked via) : (d.sendReply via tagged r).tx.getLast? = some (.reply via r) := by
  have counted (h : Nat) : ((if r.reason = 0 then d.incReg 0x1100 0x10 else d.incReg 0x1100 0x11).site h).link = (d.site h).link := by
    split <;> rfl
  cases via with
  | mailbox h => exact (congrArg (fun e : Dev => e.tx.getLast?) (if_neg (by rw [counted h, linked h rfl]; decide))).trans List.getLast?_concat
  | vlan a => exact List.getLast?_concat
  | i3c e => exact List.getLast?_concat

/-- An answer over a link is the last thing that leaves the part. -/
theorem State.answers_replied {idx sub code : Nat} (linked : s.dev.linked via) : answers (s.replied via idx sub code) via idx sub code :=
  ⟨_, Dev.sendReply_last linked, rfl, rfl, rfl, rfl⟩

/-- A write that passes and is accepted is answered after its effect. -/
theorem State.dictWrite_accepted {idx sub v : Nat} {eff : State → WR} {t : State} (passes : s.passes via idx sub v) {code : Nat}
    (effect : eff s = (code, t)) : s.dictWrite via idx sub v eff = t.replied via idx sub code := by
  obtain ⟨avail, heard, checks⟩ := passes
  rw [State.dictWrite_passed heard avail checks, effect]
  rfl

@[simp] theorem State.ctx_replied (s : State) (via : Via) (idx sub code c : Nat) :
    (s.replied via idx sub code).dev.ctx c = s.dev.ctx c :=
  congrArg (Tbl.look Ctx.reset c) (Dev.sendReply_ctxs _ _ _ _)

@[simp] theorem State.stream_replied (s : State) (via : Via) (idx sub code c i : Nat) :
    (s.replied via idx sub code).dev.stream c i = s.dev.stream c i :=
  congrArg (fun x : Ctx => x.streams.getD i Stream.reset) (State.ctx_replied s via idx sub code c)

end Reply

end Sys2Proof.Machine

/-! Stream control, and the statement about it (R399). -/
namespace Sys2Proof.Machine
open Sys2Proof

section StreamControl
variable {s : State} {c i action : Nat}

/-- A stream without its stop. -/
def Stream.unstopped (x : Stream) (now : Nat) : Stream :=
  { x with stopped := false, cause := 0, reason := 0, stopSeq := 0, stopOp := 0, stopCmd := none, lastChange := now }

theorem Dev.unstop_updStream {d : Dev} (exists_ : i < (d.ctx c).streams.length) (f : Stream → Stream) :
    (d.updStream c i f).unstop c i = d.updStream c i fun x => (f x).unstopped d.now :=
  Dev.updStream_updStream d exists_ f fun x => x.unstopped d.now

/-- A change of a context that keeps its streams keeps every stream. -/
theorem Dev.stream_updCtx {d : Dev} {f : Ctx → Ctx} (keeps : ∀ x, (f x).streams = x.streams) (b i : Nat) :
    (d.updCtx c f).stream b i = d.stream b i := by
  unfold Dev.stream
  by_cases h : b = c
  · rw [h, Dev.ctx_updCtx_self, keeps]
  · rw [Dev.ctx_updCtx_ne d h]

/-- A window that fell due at a fence that is gone does not open (R467). -/
def Dev.fenceless (d : Dev) (c : Nat) : Dev :=
  if (d.ctx c).win = 1 && (d.upd c).fence.isNone then d.updCtx c (fun x => { x with win := 0 }) else d

theorem Dev.stream_fenceless (d : Dev) (c b i : Nat) : (d.fenceless c).stream b i = d.stream b i := by
  unfold Dev.fenceless
  split
  · exact Dev.stream_updCtx (f := fun x => { x with win := 0 }) (fun _ => rfl) b i
  · rfl

theorem Dev.otherCtxs_fenceless (d : Dev) (c : Nat) : d.otherCtxs (d.fenceless c) c := fun b hb => by
  unfold Dev.fenceless
  split
  · exact Dev.ctx_updCtx_ne d hb _
  · rfl

theorem Dev.linked_fenceless {d : Dev} {via : Via} (linked : d.linked via) (c : Nat) : (d.fenceless c).linked via := by
  unfold Dev.fenceless
  split <;> exact linked

/-- Stream control of a stream that neither a norm nor a fence stopped changes that stream as its action says. -/
theorem streamCtl_updates {f : Stream → Stream} (hi : i < 4) (ha : action < 4) (norm : (s.dev.stream c i).stopOp ≠ 0x61)
    (fence : (s.dev.stream c i).stopOp ≠ 0x62) (acts : s.dev.streamControl c i action = (0, s.dev.updStream c i f)) :
    streamCtl (4 * i + action) c s = (0, s.onDev fun d => (d.updStream c i f).fenceless c) := by
  have stream : bits (4 * i + action) 3 2 = i := by
    simp only [bits, Nat.shiftRight_eq_div_pow]
    omega
  have act : (4 * i + action) % 4 = action := by omega
  have stays : (decide (action = 2) && decide ((s.dev.stream c i).cause = 2) &&
      (decide ((s.dev.stream c i).stopOp = 0x61) || decide ((s.dev.stream c i).stopOp = 0x62)) && !(s.dev.replayOn c)) = false := by
    simp [norm, fence]
  unfold streamCtl
  simp only [stream, act, acts, stays]
  rfl

/-- An accepted action changes the stream as it says, is answered, and leaves the rest (R399). -/
theorem streamWrite_updates {via : Via} {f : Stream → Stream} (exists_ : i < (s.dev.ctx c).streams.length) (hi : i < 4) (ha : action < 4)
    (norm : (s.dev.stream c i).stopOp ≠ 0x61) (fence : (s.dev.stream c i).stopOp ≠ 0x62)
    (acts : s.dev.streamControl c i action = (0, s.dev.updStream c i f)) (passes : s.passes via (0x4000 + c) 0x0E (4 * i + action)) :
    let t := streamWrite via c i action s
    t.dev.stream c i = f (s.dev.stream c i) ∧ answers t via (0x4000 + c) 0x0E 0 ∧ s.sameStore t ∧ s.dev.otherCtxs t.dev c := by
  have run : streamWrite via c i action s = _ := State.dictWrite_accepted passes (streamCtl_updates hi ha norm fence acts)
  simp only [run]
  refine ⟨?_, State.answers_replied (Dev.linked_fenceless (d := s.dev.updStream c i f) (Dev.linked_of_heard (d := s.dev) passes.2.1) c), ⟨rfl, rfl, rfl⟩, fun b hb => ?_⟩
  · exact (State.stream_replied ..).trans ((Dev.stream_fenceless ..).trans (Dev.stream_updStream_self _ exists_ f))
  · exact (State.ctx_replied ..).trans ((Dev.otherCtxs_fenceless _ c b hb).trans (Dev.otherCtxs_updStream s.dev c i f b hb))

section Actions
variable (stopped : (s.dev.stream c i).stopped = true)
include stopped

theorem streamControl_resumes : s.dev.streamControl c i 1 = (0, s.dev.updStream c i fun x => x.unstopped s.dev.now) :=
  if_neg (by simp [stopped])

theorem streamControl_discards (exists_ : i < (s.dev.ctx c).streams.length) : s.dev.streamControl c i 2 = (0, s.dev.updStream c i fun x =>
    { x with q := [], waiting := false, waitMet := false,
             run := x.run.filter (fun e => !(e.op = 0x02 && e.status = 0)) }.unstopped s.dev.now) :=
  (if_neg (by simp [stopped])).trans (Prod.ext rfl (Dev.unstop_updStream exists_ _))

theorem streamControl_retries (exists_ : i < (s.dev.ctx c).streams.length) : s.dev.streamControl c i 3 = (0, s.dev.updStream c i fun x =>
    { x with q := (s.dev.stream c i).stopCmd.toList ++ x.q }.unstopped s.dev.now) :=
  (if_neg (by simp [stopped])).trans (Prod.ext rfl (Dev.unstop_updStream exists_ _))

end Actions

end StreamControl

/-- Settles O11, action by action. -/
theorem streamControlRestarts : Obligations.streamControlRestarts := by
  intro s via c i x exists_ stopped norm fence clear p mem passes
  simp only [List.mem_cons, List.not_mem_nil, or_false] at mem
  rcases mem with rfl | rfl | rfl
  · exact ⟨_, rfl, streamWrite_updates exists_ i.isLt (by decide) norm fence (streamControl_resumes stopped) passes⟩
  · exact ⟨_, rfl, streamWrite_updates exists_ i.isLt (by decide) norm fence (streamControl_discards stopped exists_) passes⟩
  · exact ⟨_, rfl, streamWrite_updates exists_ i.isLt (by decide) norm fence (streamControl_retries stopped exists_) passes⟩

end Sys2Proof.Machine

/-! Stopping contexts and evaluation windows, and the statement about them (R384, R445, R465, R467, R469, R470, R546, R712). -/
namespace Sys2Proof.Machine
open Sys2Proof

/-! A change made to each context of a list. -/

section EachCtx
variable {f : Ctx → Ctx}

theorem Dev.foldl_updCtx_frame (f : Ctx → Ctx) (l : List Nat) (d : Dev) :
    l.foldl (fun d e => d.updCtx e f) d = { d with ctxs := (l.foldl (fun d e => d.updCtx e f) d).ctxs } := by
  induction l generalizing d with
  | nil => rfl
  | cons e l ih => exact ih (d.updCtx e f)

/-- A change that is made once however often it is repeated is made to the listed contexts only. -/
theorem Dev.ctx_foldl_updCtx (once : ∀ x, f (f x) = f x) (l : List Nat) (d : Dev) (b : Nat) :
    (l.foldl (fun d e => d.updCtx e f) d).ctx b = if b ∈ l then f (d.ctx b) else d.ctx b := by
  induction l generalizing d with
  | nil => rfl
  | cons e l ih =>
    rw [List.foldl_cons, ih]
    by_cases h : b = e
    · subst h
      simp [once]
    · simp [Dev.ctx_updCtx_ne d h, h]

theorem Dev.ctx_foldl_updCtx_mem (once : ∀ x, f (f x) = f x) {l : List Nat} {b : Nat} (listed : b ∈ l) (d : Dev) :
    (l.foldl (fun d e => d.updCtx e f) d).ctx b = f (d.ctx b) := (Dev.ctx_foldl_updCtx once l d b).trans (if_pos listed)

theorem Dev.ctx_foldl_updCtx_not_mem (once : ∀ x, f (f x) = f x) {l : List Nat} {b : Nat} (other : b ∉ l) (d : Dev) :
    (l.foldl (fun d e => d.updCtx e f) d).ctx b = d.ctx b := (Dev.ctx_foldl_updCtx once l d b).trans (if_neg other)

end EachCtx

theorem State.onDev_same {s : State} {f : Dev → Dev} (same : f s.dev = s.dev) : s.onDev f = s := by
  unfold State.onDev
  rw [same]

theorem State.onDev_congr {s : State} {f g : Dev → Dev} (same : f s.dev = g s.dev) : s.onDev f = s.onDev g := by
  unfold State.onDev
  rw [same]

/-! Windows. -/

section Windows
variable {s : State} {c : Nat}

/-- The allowance of an attached context after a close begins (R469). -/
def Ctx.allowed (x : Ctx) : Ctx := { x with overrunSeqs := x.streams.map (·.expected), overrunOver := false }

/-- The part when a window has closed, before an overrun is counted. -/
@[irreducible] def Dev.windowClosed (d : Dev) (c : Nat) : Dev :=
  (d.attached c).foldl (fun d e => d.updCtx e Ctx.allowed) (d.updCtx c fun x => { x with win := 0, winClosed := d.now })

theorem Dev.closeWindow_eq (d : Dev) (c : Nat) : d.closeWindow c =
    if (d.attached c).any (fun e => !((d.windowClosed c).ctxIdle e)) then
      ((d.windowClosed c).incReg (0x4000 + c) 0x20).raiseCtx 0x8207 c [c, (d.windowClosed c).ctxReg c 0x08]
    else d.windowClosed c := by
  unfold Dev.closeWindow Dev.windowClosed
  rfl

theorem Dev.windowClosed_frame (d : Dev) (c : Nat) : d.windowClosed c = { d with ctxs := (d.windowClosed c).ctxs } := by
  unfold Dev.windowClosed
  exact Dev.foldl_updCtx_frame _ _ _

/-- The context whose window closes, before its attached contexts. -/
abbrev Dev.windowShut (d : Dev) (c : Nat) : Dev := d.updCtx c fun x => { x with win := 0, winClosed := d.now }

theorem Dev.ctx_windowClosed_attached {d : Dev} {b : Nat} (attached : b ∈ d.attached c) :
    (d.windowClosed c).ctx b = ((d.windowShut c).ctx b).allowed := by
  unfold Dev.windowClosed
  exact Dev.ctx_foldl_updCtx_mem (f := Ctx.allowed) (fun _ => rfl) attached (d.windowShut c)

theorem Dev.ctx_windowClosed_other {d : Dev} {b : Nat} (other : b ∉ d.attached c) :
    (d.windowClosed c).ctx b = (d.windowShut c).ctx b := by
  unfold Dev.windowClosed
  exact Dev.ctx_foldl_updCtx_not_mem (f := Ctx.allowed) (fun _ => rfl) other (d.windowShut c)

/-- What the allowances keep is as the closed window leaves it. -/
theorem Dev.windowClosed_keeps {α : Type} {g : Ctx → α} (keeps : ∀ x, g x.allowed = g x) (d : Dev) (c b : Nat) :
    g ((d.windowClosed c).ctx b) = g ((d.windowShut c).ctx b) := by
  by_cases h : b ∈ d.attached c
  · rw [Dev.ctx_windowClosed_attached h, keeps]
  · rw [Dev.ctx_windowClosed_other h]

theorem Dev.windowClosed_self (d : Dev) (c : Nat) :
    ((d.windowClosed c).ctx c).win = 0 ∧ ((d.windowClosed c).ctx c).winClosed = d.now := by
  have shut : (d.windowShut c).ctx c = _ := Dev.ctx_updCtx_self d c _
  constructor
  · rw [Dev.windowClosed_keeps (g := (·.win)) (fun _ => rfl), shut]
  · rw [Dev.windowClosed_keeps (g := (·.winClosed)) (fun _ => rfl), shut]

theorem Dev.streams_windowShut (d : Dev) (c b : Nat) : ((d.windowShut c).ctx b).streams = (d.ctx b).streams := by
  by_cases h : b = c
  · rw [h, Dev.ctx_updCtx_self]
  · rw [Dev.ctx_updCtx_ne d h]

theorem Dev.streams_windowClosed (d : Dev) (c b : Nat) : ((d.windowClosed c).ctx b).streams = (d.ctx b).streams :=
  (Dev.windowClosed_keeps (g := (·.streams)) (fun _ => rfl) d c b).trans (d.streams_windowShut c b)

theorem Dev.windowClosed_attached {d : Dev} {e : Nat} (attached : e ∈ d.attached c) :
    ((d.windowClosed c).ctx e).overrunOver = false ∧
      ((d.windowClosed c).ctx e).overrunSeqs = (d.ctx e).streams.map (·.expected) := by
  rw [Dev.ctx_windowClosed_attached attached, ← d.streams_windowShut c e]
  exact ⟨rfl, rfl⟩

/-- What a closed window leaves: closed at this time, an overrun counted where one is late, the allowances begun (R469, R470). -/
abbrev Dev.ClosedAs (d e : Dev) (c : Nat) (late : Bool) : Prop :=
  (e.ctx c).win = 0 ∧ (e.ctx c).winClosed = d.now ∧
    e.ctxReg c 0x20 = (if late then (d.ctxReg c 0x20 + 1) % 2 ^ 64 else d.ctxReg c 0x20) ∧
    ∀ b ∈ d.attached c, (e.ctx b).overrunOver = false ∧ (e.ctx b).overrunSeqs = (d.ctx b).streams.map (·.expected)

theorem Dev.closeWindow_spec (d : Dev) (fits : c < 1024) :
    d.ClosedAs (d.closeWindow c) c ((d.attached c).any fun e => !(d.ctxIdle e)) := by
  have idle (e : Nat) : (d.windowClosed c).ctxIdle e = d.ctxIdle e := congrArg (·.all Stream.idle) (d.streams_windowClosed c e)
  have count (i a : Nat) : (d.windowClosed c).reg i a = d.reg i a := by rw [Dev.windowClosed_frame]; rfl
  obtain ⟨shut, time⟩ := d.windowClosed_self c
  rw [Dev.closeWindow_eq]
  simp only [idle]
  generalize (d.attached c).any (fun e => !(d.ctxIdle e)) = late
  cases late
  case false => exact ⟨shut, time, count _ _, fun b hb => Dev.windowClosed_attached hb⟩
  case true =>
    have told := EventOf.raise ((d.windowClosed c).incReg (0x4000 + c) 0x20) 0x8207 2 c (some c) none [c, (d.windowClosed c).ctxReg c 0x08]
    have ctxs (b : Nat) : ((((d.windowClosed c).incReg (0x4000 + c) 0x20).raiseCtx 0x8207 c
        [c, (d.windowClosed c).ctxReg c 0x08]).ctx b) = (d.windowClosed c).ctx b := told.ctx b
    simp only [Dev.ClosedAs, if_true, ctxs]
    refine ⟨shut, time, ?_, fun b hb => Dev.windowClosed_attached hb⟩
    refine (told.2.2 _ _ (by decide) (by simp [eventPlace]; omega)).trans ((Dev.reg_incReg_self _ _ _).trans ?_)
    rw [count]
    rfl

theorem State.sameStore_onDev (s : State) (f : Dev → Dev) : s.sameStore (s.onDev f) := ⟨rfl, rfl, rfl⟩

theorem State.closeWindow_spec (s : State) (fits : c < 1024) :
    s.dev.ClosedAs (s.onDev fun d => d.closeWindow c).dev c ((s.dev.attached c).any fun e => !(s.dev.ctxIdle e)) := by
  rw [State.onDev_dev]
  exact s.dev.closeWindow_spec fits

theorem exec_windowClose_opened {c : Fin 1024} (opened : (s.dev.ctx c.val).win = 2) :
    exec (.windowClose c) s = .next (s.onDev fun d => d.closeWindow c.val) :=
  congrArg Host.Outcome.next (State.onDev_congr (g := fun d => d.closeWindow c.val) (if_pos opened))

theorem exec_windowEarlyClose_idle {c : Fin 1024} (opened : (s.dev.ctx c.val).win = 2) (early : (s.dev.ctx c.val).winEarly = true)
    (idle : (s.dev.attached c.val).all s.dev.ctxIdle = true) :
    exec (.windowEarlyClose c) s = .next (s.onDev fun d => d.closeWindow c.val) :=
  congrArg Host.Outcome.next (State.onDev_congr (g := fun d => d.closeWindow c.val) (if_pos (by simp [opened, early, idle])))

/-- An attached context whose allowance has ended (R469). -/
def Ctx.over (x : Ctx) : Ctx := { x with overrunOver := true }

theorem exec_overrunLimitExpiry_closed {c : Fin 1024} (closed : (s.dev.ctx c.val).win ≠ 2) (limited : (s.dev.ctx c.val).overrun ≠ 0) :
    exec (.overrunLimitExpiry c) s = .next (s.onDev fun d => (d.attached c.val).foldl (fun d e => d.updCtx e Ctx.over) d) :=
  congrArg Host.Outcome.next (State.onDev_congr (g := fun d => (d.attached c.val).foldl (fun d e => d.updCtx e Ctx.over) d)
    (if_pos (by simp [closed, limited])))

end Windows

/-! The end of a stop. -/

section Stop
variable {c : Nat}

/-- Beyond its bed a part stands as another: nothing of its streams, hints, windows, latches and requests differs. -/
structure BedOnly (c : Nat) (d e : Dev) : Prop where
  other : ∀ b, b ≠ c → e.ctx b = d.ctx b
  streams : (e.ctx c).streams = (d.ctx c).streams
  hints : (e.ctx c).hints = (d.ctx c).hints
  win : (e.ctx c).win = (d.ctx c).win
  reclaimed : (e.ctx c).reclaimed = (d.ctx c).reclaimed
  dict : e.dict = d.dict
  latch : e.latch = d.latch

theorem BedOnly.trans {d e f : Dev} (h : BedOnly c d e) (k : BedOnly c e f) : BedOnly c d f :=
  ⟨fun b hb => (k.other b hb).trans (h.other b hb), k.streams.trans h.streams, k.hints.trans h.hints, k.win.trans h.win,
    k.reclaimed.trans h.reclaimed, k.dict.trans h.dict, k.latch.trans h.latch⟩

/-- A part whose contexts, requests and latches are as they were stands as it did. -/
theorem BedOnly.of_ctx {d e : Dev} (ctx : e.ctx = d.ctx) (dict : e.dict = d.dict) (latch : e.latch = d.latch) : BedOnly c d e := by
  constructor <;> simp only [ctx, dict, latch, implies_true]

theorem BedOnly.refl (d : Dev) : BedOnly c d d := .of_ctx rfl rfl rfl

theorem BedOnly.of_event {d e : Dev} (h : EventOf d e) : BedOnly c d e :=
  .of_ctx (funext h.ctx) (by rw [h.1]) (by rw [h.1])

/-- A change of the bed of its context. -/
theorem BedOnly.bed (d : Dev) (mask hosts : Ctx → Nat) (pending deferred : Bool) : BedOnly c d (d.updCtx c fun x => { x with
    bedMask := mask x, bedHosts := hosts x, bedPending := pending, bedDeferred := deferred }) := by
  have self : (d.updCtx c fun x => { x with
      bedMask := mask x, bedHosts := hosts x, bedPending := pending, bedDeferred := deferred }).ctx c = _ := Dev.ctx_updCtx_self d c _
  exact ⟨fun b hb => Dev.ctx_updCtx_ne d hb _, by rw [self], by rw [self], by rw [self], by rw [self], rfl, rfl⟩

theorem BedOnly.bedApply (d : Dev) : BedOnly c d (d.bedApply c) := by
  unfold Dev.bedApply
  split
  · exact .bed d (·.bedMask) (·.bedHosts) false false
  · dsimp only
    split
    · exact (BedOnly.bed d (·.bedMask) (·.bedHosts) true true).trans (.of_event (EventOf.raise _ _ _ _ _ _ _))
    · exact .bed d (fun _ => _) (fun _ => _) false false

theorem BedOnly.releaseBank (d : Dev) : BedOnly c d (d.releaseBank c) := by
  refine foldl_keeps (BedOnly c d) (fun e die h => ?_) _ _ (BedOnly.refl d)
  split
  · have frame := (e.wipeStart_frame die 3).1
    exact h.trans (.of_ctx ((congrArg Dev.ctx frame).trans rfl) ((congrArg Dev.dict frame).trans rfl) ((congrArg Dev.latch frame).trans rfl))
  · exact h

/-- A context as the end of its stop leaves it, before its bank and its bed. -/
abbrev Dev.emptied (d : Dev) (c : Nat) : Dev :=
  d.updCtx c (fun x => { x with
    streams := x.streams.map (fun t => { Stream.reset with expected := t.expected, lastChange := d.now }),
    hints := [], win := 0, schedTab := [], gated := 0 })

theorem BedOnly.ctxOff (d : Dev) : BedOnly c (d.emptied c) (d.ctxOff c) := by
  have bed (e : Dev) : BedOnly c e (if (e.ctx c).bedPending then e.bedApply c else e) := by
    split
    · exact BedOnly.bedApply e
    · exact BedOnly.refl e
  have recovery (e : Dev) : BedOnly c e (if 4 ≤ e.ctxReg c 0x28 then e.setReg (0x4000 + c) 0x28 0 else e) := by
    split <;> exact .of_ctx rfl rfl rfl
  exact ((BedOnly.releaseBank _).trans (bed _)).trans (recovery _)

theorem Tbl.mem_of_look? {α : Type} {k : Nat} {v : α} {t : Tbl α} (h : Tbl.look? k t = some v) : (k, v) ∈ t := by
  induction t with
  | nil => cases h
  | cons p t ih =>
    unfold Tbl.look? at h
    split at h
    · next same =>
      cases h
      exact same ▸ List.mem_cons_self
    · exact List.mem_cons_of_mem _ (ih h)

/-- Without an OPEN set of the context, no set of an engine is one. -/
theorem Dev.set_shut {d : Dev} (none_ : d.holdsOpen c (2 ^ 64 - 1) = false) {e : Nat} (he : e < 64) {b : BankSet}
    (mem : b ∈ (d.eng e).sets) : (b.st = 1 && b.acc.ctx = c : Bool) = false := by
  have inMask : bit (2 ^ 64 - 1) e = true := by
    have here : (2 ^ 64 - 1).testBit e = true := by rw [Nat.testBit_two_pow_sub_one, decide_eq_true he]
    rw [Nat.testBit_eq_decide_div_mod_eq, decide_eq_true_eq] at here
    rw [bit, Nat.shiftRight_eq_div_pow, here]
    rfl
  unfold Dev.eng Tbl.look at mem
  cases found : Tbl.look? e d.engs with
  | none =>
    rw [found] at mem
    have empty : b = ⟨0, Accum.empty⟩ := by simpa [Eng.reset] using mem
    rw [empty]
    rfl
  | some k =>
    rw [found] at mem
    have all := List.any_eq_false.mp none_ _ (Tbl.mem_of_look? found)
    rw [inMask, Bool.true_and, Bool.not_eq_true] at all
    exact Bool.eq_false_iff.mpr (List.any_eq_false.mp all b mem)

/-- Without an OPEN set of the context nothing is saved. -/
theorem Dev.saveOpen_none {d : Dev} (none_ : d.holdsOpen c (2 ^ 64 - 1) = false) : d.saveOpen c = d := by
  have shut {e i : Nat} (he : e < 64) : ((((d.eng e).sets.getD i ⟨0, Accum.empty⟩).st = 1 &&
      ((d.eng e).sets.getD i ⟨0, Accum.empty⟩).acc.ctx = c : Bool)) = false := by
    rw [List.getD_eq_getElem?_getD]
    cases found : (d.eng e).sets[i]? with
    | none => rfl
    | some b => exact Dev.set_shut none_ he (List.mem_of_getElem? found)
  have engine (e : Nat) (he : e ∈ List.range 64) := List.foldl_fixed' (f := fun (d : Dev) i =>
    let b := (d.eng e).sets.getD i ⟨0, Accum.empty⟩
    if b.st = 1 && b.acc.ctx = c then d.saveSet e i else d) (a := d)
    (fun i => if_neg (by rw [shut (List.mem_range.mp he)]; decide)) (List.range 2)
  unfold Dev.saveOpen
  exact List.foldlRecOn (motive := (· = d)) _ _ rfl fun x hx e he => by rw [hx]; exact engine e he

/-- With no request waiting, none is served. -/
theorem State.unblockSites_none {s : State} (none_ : s.dev.dict.waiting = []) : s.unblockSites = s := by
  have one (k : Nat) : s.unblock k = s := by
    have free : s.dev.busyIdx k = false := by simp [Dev.busyIdx, none_]
    have rest (p : Waiting → Bool) : ({ s.dev.dict with waiting := s.dev.dict.waiting.filter p } : DictSt) = s.dev.dict := by
      rw [none_, List.filter_nil, ← none_]
    unfold State.unblock
    simp only [free, none_, List.filter_nil, List.foldl_nil, Bool.false_eq_true, if_false]
    exact congrArg (fun x => s.onDev fun d => { d with dict := x }) (rest _)
  exact List.foldl_fixed' (fun h => one (0x4800 + h)) _

/-- What the end of a stop leaves of its context: no queued or issued command, no hint, no window (R384, R712). -/
theorem Dev.ctxOff_spec (d : Dev) : (∀ x ∈ ((d.ctxOff c).ctx c).streams, x.q = [] ∧ x.run = [] ∧ x.waiting = false) ∧
    ((d.ctxOff c).ctx c).hints = [] ∧ ((d.ctxOff c).ctx c).win = 0 := by
  have off := BedOnly.ctxOff (c := c) d
  have emptied : (d.emptied c).ctx c = _ := Dev.ctx_updCtx_self d c _
  rw [off.streams, off.hints, off.win, emptied]
  refine ⟨fun x hx => ?_, rfl, rfl⟩
  obtain ⟨t, -, rfl⟩ := List.mem_map.mp hx
  exact ⟨rfl, rfl, rfl⟩

@[simp] theorem State.dict_fnOff (s : State) (idx : Nat) : (s.fnOff idx).dev.dict = s.dev.dict := rfl

@[simp] theorem State.ctx_fnOff (s : State) (idx : Nat) : (s.fnOff idx).dev.ctx = s.dev.ctx := rfl

theorem State.ctxState_fnOff (s : State) (c : Nat) : (s.fnOff (0x4000 + c)).dev.ctxState c = 0 :=
  State.fn_setFn (s.unlatched (0x4000 + c)) (0x4000 + c) 0

theorem State.sameStore_fnOff (s : State) (f : Dev → Dev) (idx : Nat) : s.sameStore ((s.onDev f).fnOff idx) := ⟨rfl, rfl, rfl⟩

section Drained
variable {s : State} (idle : s.dev.dict.waiting = [])
include idle

/-- CONTEXT_STOP_COMPLETE of a context that is not STOPPING or not drained changes nothing (R384). -/
theorem exec_contextStopComplete_early {c : Fin 1024} (early : s.dev.ctxState c.val ≠ 3 ∨ s.dev.ctxDrained c.val = false) :
    exec (.contextStopComplete c) s = .next s := by
  have stays : contextStop c.val s = s := if_pos (by simpa using early)
  exact congrArg Host.Outcome.next ((congrArg State.unblockSites stays).trans (State.unblockSites_none idle))

/-- CONTEXT_STOP_COMPLETE of a drained context ends its stop (R384). -/
theorem exec_contextStopComplete_drained {c : Fin 1024} (stopping : s.dev.ctxState c.val = 3) (drained : s.dev.ctxDrained c.val = true)
    (shut : s.dev.holdsOpen c.val (2 ^ 64 - 1) = false) (kept : (s.dev.ctx c.val).reclaimed = false)
    (latch : Tbl.look 0 (0x4000 + c.val) s.dev.latch = 0) :
    exec (.contextStopComplete c) s = .next ((s.onDev fun d => d.ctxOff c.val).fnOff (0x4000 + c.val)) := by
  have off := BedOnly.ctxOff (c := c.val) s.dev
  have emptied : (s.dev.emptied c.val).ctx c.val = _ := Dev.ctx_updCtx_self s.dev c.val _
  have stays : ((s.onDev fun d => d.ctxOff c.val).dev.ctx c.val).reclaimed = false := by
    rw [State.onDev_dev, off.reclaimed, emptied]
    exact kept
  have plain : Tbl.look 0 (0x4000 + c.val) (s.onDev fun d => d.ctxOff c.val).dev.latch ≠ 2 := by
    rw [State.onDev_dev, off.latch]
    have same : Tbl.look 0 (0x4000 + c.val) (s.dev.emptied c.val).latch = 0 := latch
    rw [same]
    decide
  have ends : contextStop c.val s = (s.onDev fun d => d.ctxOff c.val).fnOff (0x4000 + c.val) := by
    have saved : (s.onDev fun d => d.saveOpen c.val) = s := State.onDev_same (Dev.saveOpen_none shut)
    have going : ¬ (s.dev.ctxState c.val ≠ 3 || !(s.dev.ctxDrained c.val) : Bool) = true := by simp [stopping, drained]
    unfold contextStop
    refine (if_neg going).trans ?_
    rw [saved]
    refine (if_neg (ne_true_of_eq_false shut)).trans ((if_neg (ne_true_of_eq_false stays)).trans ?_)
    exact State.fnStopped_plain plain _
  have quiet : ((s.onDev fun d => d.ctxOff c.val).fnOff (0x4000 + c.val)).dev.dict.waiting = [] := by
    rw [State.dict_fnOff, State.onDev_dev, off.dict]
    exact idle
  exact congrArg Host.Outcome.next ((congrArg State.unblockSites ends).trans (State.unblockSites_none quiet))

end Drained

end Stop

/-- Settles O31: the stop from what the end of a stop leaves, the windows from what a closed one leaves. -/
theorem windowsAndStops : Obligations.windowsAndStops := by
  intro s c
  refine ⟨fun idle early => exec_contextStopComplete_early idle early, fun idle stopping drained shut kept latch => ?_,
    fun closed => ⟨?_, ?_⟩, fun opened => ?_, fun closed limited => ?_, fun off => ?_⟩
  · obtain ⟨streams, hints, win⟩ := s.dev.ctxOff_spec (c := c.val)
    refine ⟨_, exec_contextStopComplete_drained idle stopping drained shut kept latch, State.ctxState_fnOff _ _, ?_⟩
    rw [State.ctx_fnOff, State.onDev_dev]
    exact ⟨streams, hints, win, State.sameStore_fnOff _ _ _, fun b hb => by
      rw [State.ctx_fnOff, State.onDev_dev, (BedOnly.ctxOff s.dev).other b hb, Dev.ctx_updCtx_ne s.dev hb]⟩
  · exact congrArg Host.Outcome.next (State.onDev_same <| if_neg closed)
  · exact congrArg Host.Outcome.next (State.onDev_same <| if_neg (by simp [closed]))
  · have closes := s.closeWindow_spec c.isLt
    have all : (s.dev.attached c.val).all s.dev.ctxIdle = !((s.dev.attached c.val).any fun e => !(s.dev.ctxIdle e)) := by
      rw [List.not_any_eq_all_not]
      simp
    dsimp only
    generalize (s.dev.attached c.val).any (fun e => !(s.dev.ctxIdle e)) = late at closes all ⊢
    have store : s.sameStore (s.onDev fun d => d.closeWindow c.val) := State.sameStore_onDev _ _
    refine ⟨⟨_, exec_windowClose_opened opened, store, closes⟩, fun ⟨early, done⟩ =>
      ⟨_, exec_windowEarlyClose_idle opened early (by rw [all, done]; rfl), store, closes⟩, fun held =>
      congrArg Host.Outcome.next (State.onDev_same <| if_neg ?_)⟩
    simpa [opened, all, imp_iff_not_or] using held
  · refine ⟨_, exec_overrunLimitExpiry_closed closed limited, State.sameStore_onDev _ _, ?_, ?_, ?_⟩
    · rw [State.onDev_dev, Dev.foldl_updCtx_frame]
    · exact fun e he => by rw [State.onDev_dev, Dev.ctx_foldl_updCtx_mem (f := Ctx.over) (fun _ => rfl) he]; rfl
    · exact fun e he => by rw [State.onDev_dev, Dev.ctx_foldl_updCtx_not_mem (f := Ctx.over) (fun _ => rfl) he]
  · exact congrArg Host.Outcome.next (State.onDev_same <| if_neg (by simp; tauto))

end Sys2Proof.Machine

/-! Wait timeouts, the sync window and remote signals, and the statement about them (R398, R429 to R432, R758). -/
namespace Sys2Proof.Machine
open Sys2Proof

/-! Timeouts of waits (R429). -/

/-- The end of waits leaves the counters' table. -/
theorem Dev.releaseWaiters_sync (d : Dev) (y : Nat) : (d.releaseWaiters y).sync = d.sync := by
  obtain ⟨frame, -⟩ := (d.compareAll_spec y (d.counter y) d.streamPlaces).1
  rw [Dev.releaseWaiters_eq, frame]

/-- A stream that holds a wait exists. -/
theorem Dev.present_of_waiting {d : Dev} {c i : Nat} (waits : (d.stream c i).waiting = true) : i < (d.ctx c).streams.length := by
  by_contra absent
  have reset : d.stream c i = Stream.reset := List.getD_eq_default _ _ (Nat.le_of_not_lt absent)
  rw [reset] at waits
  cases waits

theorem Stream.unheld_of_free {x : Stream} (free : x.waiting = false) : x.unheld = x := if_pos (by simp [free])

/-- A stop that is counted as a refusal and told: its stream, and what it leaves (R398). -/
theorem Dev.countedStop_spec {d : Dev} {c i : Nat} (present : i < (d.ctx c).streams.length)
    (runs : (d.stream c i).stopped = false) (cause code seq op : Nat) (cmd : Option QCmd) (event : Nat) (fields : List Nat) :
    let e := ((d.incReg (0x4000 + c) 0x15).stopStream c i cause code seq op cmd).raiseCtx event c fields
    e.stream c i = { (d.stream c i).unheld with
      stopped := true, cause := cause, reason := code, stopSeq := seq, stopOp := op, stopCmd := cmd, waitMet := false,
      lastChange := d.now } ∧
    d.otherCtxs e c ∧ e.sync = d.sync ∧ e.syncQ = d.syncQ ∧ e.ctxReg c 0x15 = (d.ctxReg c 0x15 + 1) % 2 ^ 64 := by
  have stops : (d.incReg (0x4000 + c) 0x15).stopStream c i cause code seq op cmd = (d.incReg (0x4000 + c) 0x15).updStream c i fun x =>
      { x.unheld with
        stopped := true, cause := cause, reason := code, stopSeq := seq, stopOp := op, stopCmd := cmd, waitMet := false,
        lastChange := d.now } := if_neg (by simp [runs])
  have told := EventOf.raise ((d.incReg (0x4000 + c) 0x15).stopStream c i cause code seq op cmd) event 2 c (some c) none fields
  intro e
  refine ⟨(told.stream c i).trans ?_, fun b hb => (told.ctx b).trans ?_, (congrArg Dev.sync told.1).trans ?_,
    (congrArg Dev.syncQ told.1).trans ?_, (told.2.2 _ _ (by decide) (by simp [eventPlace])).trans ?_⟩
  · rw [stops, Dev.stream_updStream_self _ (by simpa using present)]
    rfl
  · rw [stops]
    exact (d.incReg (0x4000 + c) 0x15).otherCtxs_updStream c i _ b hb
  · rw [stops]
    rfl
  · rw [stops]
    rfl
  · rw [stops]
    exact Dev.reg_incReg_self _ _ _

section Timeout
variable {d : Dev} {c i : Nat} {e : Issued} (waits : (d.stream c i).waiting = true) (met : (d.stream c i).waitMet = false)
  (timed : 0 < (d.stream c i).waitLeft) (free : d.ctxReg c 0x22 % 2 = 0)
  (issued : (d.stream c i).run.find? (fun e => e.op = 0x02 && e.status = 0) = some e)
include waits met timed free issued

/-- The timeout of a wait whose counter has reached the value completes it. -/
theorem swaitTimeout_reached (reached : (d.stream c i).waitVal ≤ d.counter (d.stream c i).waitObj) :
    swaitTimeout c i d = d.releaseWaiters (d.stream c i).waitObj := by
  unfold swaitTimeout
  refine (if_neg (by simp [waits, met, free]; omega)).trans ?_
  rw [issued]
  exact if_pos reached

/-- The timeout of a wait whose counter has not reached the value ends it and stops its stream. -/
theorem swaitTimeout_early (early : d.counter (d.stream c i).waitObj < (d.stream c i).waitVal) : swaitTimeout c i d =
    ((((({ d with fresh := d.fresh + 1 }.updStream c i fun t => { t with run := t.run.filter (fun x => x.seq ≠ e.seq), waiting := false }).incReg
      (0x4000 + c) 0x15).stopStream c i 3 (Config.reasonOpen d.fresh % 65536) e.seq 0x02 e.cmd).raiseCtx 0x8203 c
        [c, i, (d.stream c i).waitObj, (d.stream c i).waitVal, d.counter (d.stream c i).waitObj])) := by
  unfold swaitTimeout
  refine (if_neg (by simp [waits, met, free]; omega)).trans ?_
  rw [issued]
  exact if_neg (Nat.not_le.mpr early)

/-- What a wait that times out leaves (R398, R429). -/
theorem swaitTimeout_stops (runs : (d.stream c i).stopped = false)
    (early : d.counter (d.stream c i).waitObj < (d.stream c i).waitVal) :
    let x := d.stream c i
    let f := swaitTimeout c i d
    let y := f.stream c i
    (y.stopped = true ∧ y.cause = 3 ∧ y.stopSeq = e.seq ∧ y.stopOp = 0x02 ∧ y.waiting = false ∧
      y.run = x.run.filter (fun z => z.seq ≠ e.seq) ∧ y.q = x.q) ∧
    f.ctxReg c 0x15 = (d.ctxReg c 0x15 + 1) % 2 ^ 64 ∧ f.sync = d.sync ∧ d.otherCtxs f c := by
  have present : i < (d.ctx c).streams.length := Dev.present_of_waiting waits
  intro x f y
  let g : Dev := { d with fresh := d.fresh + 1 }.updStream c i fun t =>
    { t with run := t.run.filter (fun x => x.seq ≠ e.seq), waiting := false }
  have ended : g.stream c i = { d.stream c i with run := (d.stream c i).run.filter (fun x => x.seq ≠ e.seq), waiting := false } :=
    Dev.stream_updStream_self { d with fresh := d.fresh + 1 } present _
  obtain ⟨stream, others, sync, -, count⟩ := Dev.countedStop_spec (d := g) (c := c) (i := i)
    ((Dev.length_streams_updStream _ _ _ _ _).symm ▸ present) (by rw [ended]; exact runs) 3 (Config.reasonOpen d.fresh % 65536) e.seq 0x02 e.cmd 0x8203
    [c, i, (d.stream c i).waitObj, (d.stream c i).waitVal, d.counter (d.stream c i).waitObj]
  have run : f = _ := swaitTimeout_early waits met timed free issued early
  rw [ended, Stream.unheld_of_free rfl] at stream
  rw [← run] at stream others sync count
  refine ⟨?_, count, sync, fun b hb => (others b hb).trans (Dev.otherCtxs_updStream _ c i _ b hb)⟩
  rw [show y = _ from stream]
  exact ⟨rfl, rfl, rfl, rfl, rfl, rfl, rfl⟩

/-- A wait whose counter has reached its value ends, and its stream runs on. -/
theorem swaitTimeout_completes (hi : i < 4) (runs : (d.stream c i).stopped = false)
    (reached : (d.stream c i).waitVal ≤ d.counter (d.stream c i).waitObj) :
    let f := swaitTimeout c i d
    (f.stream c i).stopped = false ∧ (f.stream c i).waiting = false ∧ f.sync = d.sync := by
  intro f
  have run : f = _ := swaitTimeout_reached waits met timed free issued reached
  obtain ⟨-, -, -, streams, -⟩ := d.releaseWaiters_spec (d.stream c i).waitObj
  have ended : (d.stream c i).endsAt (d.stream c i).waitObj (d.counter (d.stream c i).waitObj) = true := by
    simp [Stream.endsAt, waits, met, reached]
  rw [run, streams c i hi, Stream.seen, if_pos ended]
  exact ⟨runs, rfl, d.releaseWaiters_sync _⟩

end Timeout

/-! The sync window (R432). -/

section Window
variable {s : State} {h : Fin 4} {y : Fin 16384} {v : Nat} (free : s.dev.linkHolds h.val = false)
include free

theorem exec_syncWindowRead_free : exec (.syncWindowRead h y) s = .next (s.onDev fun d => d.syncRead h.val y.val) :=
  congrArg Host.Outcome.next (State.hostSide_free free _ _)

theorem exec_syncWindowWrite_free : exec (.syncWindowWrite h y v) s = .next (s.onDev fun d => d.syncWrite h.val y.val v) :=
  congrArg Host.Outcome.next (State.hostSide_free free _ _)

end Window

section WindowAccess
variable {d : Dev} {h y v c : Nat}

theorem Dev.syncRead_dark (dark : (d.site h).link ≠ 3) : d.syncRead h y = d := if_pos dark

theorem Dev.syncWrite_dark (dark : (d.site h).link ≠ 3) : d.syncWrite h y v = d := if_pos dark

variable (open_ : (d.site h).link = 3)
include open_

theorem Dev.syncWrite_foreign (foreign : ∀ c, d.objOwner y = some c → d.owner c ≠ some h) : d.syncWrite h y v = d := by
  refine (if_neg (not_not.mpr open_)).trans ?_
  cases owner : d.objOwner y with
  | none => rfl
  | some c => exact if_neg (by simpa using foreign c owner)

variable (owned : d.objOwner y = some c)
include owned

theorem Dev.syncRead_admitted (may : d.owner c = some h ∨ bit (d.block (y / 64)) (24 + h) = true) :
    d.syncRead h y = d.out (.hostData h (leBytes 8 (d.counter y)) false) := by
  unfold Dev.syncRead
  rw [owned]
  exact (if_neg (not_not.mpr open_)).trans (if_pos (by simpa using may))

theorem Dev.syncRead_foreign (foreign : d.owner c ≠ some h) (unnamed : bit (d.block (y / 64)) (24 + h) = false) :
    d.syncRead h y = (d.incReg (0x4000 + c) 0x2E).out (.hostData h [0, 0, 0, 0, 0, 0, 0, 0] false) := by
  unfold Dev.syncRead
  rw [owned]
  exact (if_neg (not_not.mpr open_)).trans (if_neg (by simp [foreign, unnamed]))

theorem Dev.syncWrite_own (own : d.owner c = some h) : d.syncWrite h y v = d.signal (1 + h) y false (v % 2 ^ 64) := by
  unfold Dev.syncWrite
  rw [owned]
  exact (if_neg (not_not.mpr open_)).trans (if_pos (by simp [own]))

end WindowAccess

/-! Remote signals (R430). -/

/-- A packet of the transport without collective data leaves last, counted at most at its port. -/
theorem Dev.control_spec (d : Dev) (h rank kind : Nat) (fields : List Nat) : let e := d.control h rank kind fields
    (∃ route, e.tx.getLast? = some (.packet h rank kind route fields [])) ∧ e.sync = d.sync ∧ e.syncQ = d.syncQ ∧
      ∀ i a, a < 256 → a ≠ 0x0B → e.reg i a = d.reg i a := by
  unfold Dev.control
  cases d.activeSubs.head? with
  | none => exact ⟨⟨_, List.getLast?_concat⟩, rfl, rfl, fun _ _ _ _ => rfl⟩
  | some sub => exact ⟨⟨_, List.getLast?_concat⟩, rfl, rfl, fun i a ha other =>
      Dev.reg_setReg_place d ha (by decide) (fun h => other (congrArg Prod.snd h)) _⟩

/-- A remote signal that is not admitted is dropped, counted and reported. -/
theorem Dev.remoteSignal_dropped {d : Dev} {handle epoch job sender z v : Nat}
    (barred : 16384 ≤ z ∨ d.remoteOk handle epoch job z = false) :
    (d.remoteSignal handle epoch job sender z v).1 = false ∧
      EventOf (d.incReg 0x4C00 0x04) (d.remoteSignal handle epoch job sender z v).2 := by
  have dropped : ¬ (decide (z < 16384) && d.remoteOk handle epoch job z) = true := by
    rcases barred with wide | refused
    · simp [Nat.not_lt.mpr wide]
    · simp [refused]
  unfold Dev.remoteSignal
  rw [if_neg dropped]
  refine ⟨rfl, ?_⟩
  dsimp only
  split <;> exact EventOf.raise _ _ _ _ _ _ _

section Receive
variable {s : State} {handle epoch job sender z v : Nat}

theorem exec_remoteSignalReceive_admitted (bound : z < 16384) (admits : s.dev.remoteOk handle epoch job z = true) :
    exec (.remoteSignalReceive handle epoch job sender z v) s = .next (s.onDev fun d =>
      (d.signal 14 z false (v % 2 ^ 64)).control handle sender 9 [epoch, z, 1]) :=
  congrArg Host.Outcome.next (State.onDev_congr
    (f := fun d => (d.remoteSignal handle epoch job sender z v).2.control handle sender 9
      [epoch, z, b2n (d.remoteSignal handle epoch job sender z v).1]) (by rw [Dev.remoteSignal_admitted bound admits]; rfl))

theorem exec_remoteSignalReceive_dropped (barred : 16384 ≤ z ∨ s.dev.remoteOk handle epoch job z = false) :
    Runs (.remoteSignalReceive handle epoch job sender z v) s (fun t =>
      t.dev.reg 0x4C00 0x04 = (s.dev.reg 0x4C00 0x04 + 1) % 2 ^ 64 ∧ t.dev.syncQ = s.dev.syncQ ∧ t.dev.sync = s.dev.sync ∧
      (∃ route, t.dev.tx.getLast? = some (.packet handle sender 9 route [epoch, z, 0] [])) ∧ s.sameStore t) := by
  obtain ⟨refused, told⟩ := Dev.remoteSignal_dropped (sender := sender) (v := v) barred
  obtain ⟨last, sync, ops, regs⟩ :=
    (s.dev.remoteSignal handle epoch job sender z v).2.control_spec handle sender 9 [epoch, z, 0]
  refine ⟨s.onDev fun d => (d.remoteSignal handle epoch job sender z v).2.control handle sender 9 [epoch, z, 0],
    congrArg Host.Outcome.next (State.onDev_congr (f := fun d => (d.remoteSignal handle epoch job sender z v).2.control handle sender 9
      [epoch, z, b2n (d.remoteSignal handle epoch job sender z v).1]) ?_), ?_, ops.trans ?_, sync.trans ?_, last, State.sameStore_onDev _ _⟩
  · rw [refused]
    rfl
  · exact (regs _ _ (by decide) (by decide)).trans ((told.2.2 _ _ (by decide) (by decide)).trans (Dev.reg_incReg_self _ _ _))
  · exact (congrArg Dev.syncQ told.1).trans rfl
  · exact (congrArg Dev.sync told.1).trans rfl

end Receive

/-- Settles O8: timeouts, then the window by who accesses it, then the remote signals. -/
theorem waitsAndWindow : Obligations.waitsAndWindow := by
  refine ⟨fun s c i e waits met timed runs free issued => ⟨fun early => ?_, fun reached => ?_⟩, fun s h y v =>
    ⟨fun dark idle => ⟨?_, ?_⟩, fun c ⟨active, idle⟩ owned may => ?_, fun c ⟨active, idle⟩ owned foreign unnamed => ?_,
      fun c ⟨active, idle⟩ owned own => ?_, fun ⟨active, idle⟩ foreign => ?_,
      fun handle epoch job sender admits => exec_remoteSignalReceive_admitted y.isLt admits,
      fun handle epoch job sender z barred => exec_remoteSignalReceive_dropped barred⟩⟩
  · obtain ⟨⟨stopped, cause, seq, op, ended, run, queue⟩, count, sync, others⟩ := swaitTimeout_stops waits met timed free issued runs early
    exact ⟨s.onDev (swaitTimeout c.val i.val), rfl, stopped, cause, seq, op, ended, run, queue, count, sync, State.sameStore_onDev _ _, others⟩
  · obtain ⟨going, ended, sync⟩ := swaitTimeout_completes waits met timed free issued i.isLt runs reached
    exact ⟨s.onDev (swaitTimeout c.val i.val), rfl, going, ended, State.sameStore_onDev _ _, sync⟩
  · exact (exec_syncWindowRead_free idle).trans (congrArg _ (State.onDev_same (Dev.syncRead_dark dark)))
  · exact (exec_syncWindowWrite_free idle).trans (congrArg _ (State.onDev_same (Dev.syncWrite_dark dark)))
  · exact (exec_syncWindowRead_free idle).trans (congrArg _ (State.onDev_congr (Dev.syncRead_admitted active owned may)))
  · exact (exec_syncWindowRead_free idle).trans (congrArg _ (State.onDev_congr (Dev.syncRead_foreign active owned foreign unnamed)))
  · exact (exec_syncWindowWrite_free idle).trans (congrArg _ (State.onDev_congr (Dev.syncWrite_own active owned own)))
  · exact (exec_syncWindowWrite_free idle).trans (congrArg _ (State.onDev_same (Dev.syncWrite_foreign active foreign)))

end Sys2Proof.Machine

/-! The issue and the completion of commands, and the statement about them (R393, R394, R396 to R398, R400, R437, R438, R440, R455,
R758). -/
namespace Sys2Proof.Machine
open Sys2Proof

/-! Issue (R437). -/

section Issue
variable {s : State} {c i : Nat}

/-- A schedule table that is empty or not finished stays as it is. -/
theorem State.reloadSched_unfinished (unfinished : (s.dev.ctx c).schedTab = [] ∨ ((s.dev.ctx c).firstEntry none).isSome = true) :
    s.reloadSched c = s := by
  refine if_neg ?_
  rcases unfinished with empty | left
  · simp [empty]
  · simp [Option.isSome_iff_ne_none.mp left]

section Unfinished
variable (unfinished : ∀ c, (s.dev.ctx c).schedTab = [] ∨ ((s.dev.ctx c).firstEntry none).isSome = true)
include unfinished

theorem commandIssue_reloads : s.dev.ctxs.foldl (fun s p => s.reloadSched p.1) s = s :=
  List.foldl_fixed' (f := fun (s : State) (p : Nat × Ctx) => s.reloadSched p.1) (a := s) (fun p => State.reloadSched_unfinished (unfinished p.1)) _

theorem commandIssue_none (none_ : s.dev.issueOrder.find? (fun p => s.mayIssue p.1 p.2) = none) : commandIssue s = s := by
  unfold commandIssue
  simp only [commandIssue_reloads unfinished, none_]

theorem commandIssue_head (first : s.dev.issueOrder.find? (fun p => s.mayIssue p.1 p.2) = some (c, i)) :
    commandIssue s = s.issueHead c i := by
  unfold commandIssue
  simp only [commandIssue_reloads unfinished, first]

end Unfinished

/-- The header of the head of a stream (R400). -/
abbrev QCmd.origin (q : QCmd) (c i : Nat) : Origin :=
  originOf ⟨c % 1024, Nat.mod_lt _ (by decide)⟩ ⟨i % 4, Nat.mod_lt _ (by decide)⟩ q.stamp q.raw

/-- The stream without its head. -/
abbrev State.taken (s : State) (c i : Nat) (rest : List QCmd) : State :=
  s.onDev fun d => d.updStream c i fun x => { x with q := rest, lastChange := d.now }

theorem State.issueHead_cons {q : QCmd} {rest : List QCmd} (queue : (s.dev.stream c i).q = q :: rest) : s.issueHead c i =
    let u := (s.taken c i rest).issueTo (q.origin c i) q
    if (u.dev.stream c i).stopped || (u.dev.stream c i).waiting then u else u.issued c i := by
  unfold State.issueHead
  rw [queue]

/-- The unit that receives a NOP is its stream: with a sound header it is done (R401). -/
theorem State.issueTo_nop {o : Origin} {q : QCmd} (nop : opcodeOf q.raw = 0x01) (bare : q.raw &&& bareMask = 0) (fit : fits o s.dev)
    (sound : plain o s.dev) : s.issueTo o q = s.onDev fun d => d.boarded o 0x01 15 (some q) 1 := by
  unfold State.issueTo State.issuePlain
  simp only [nop]
  refine State.issueCmd_does (g := id) fit (fun _ => rfl) ?_
  rw [show reservedOf q.raw bareMask = 0 from bare, plainHeader_bind (plain.atUnit _ _ _ sound)]
  rfl

/-- A stream whose table has no gate issues without the schedule (R455). -/
theorem Dev.ctx_countIssue_ungated {d : Dev} (ungated : (d.ctx c).gated = 0) : (d.countIssue c i).ctx c = d.ctx c := by
  have open_ : (d.ctx c).schedIssued i = d.ctx c := if_pos (by simp [ungated, bit])
  exact (Dev.ctx_updCtx_self _ c _).trans open_

/-- A command that has issued on a stream without a schedule table is counted (R437, R472). -/
theorem State.issued_unscheduled (unscheduled : (s.dev.ctx c).schedTab = []) (ungated : (s.dev.ctx c).gated = 0) :
    s.issued c i = s.onDev fun d => d.countIssue c i :=
  State.reloadSched_unfinished (.inl ((congrArg (·.schedTab) (Dev.ctx_countIssue_ungated ungated)).trans unscheduled))

/-- A command that fits its stream fits it at the head's issue. -/
theorem fits.taken {o : Origin} {rest : List QCmd} (fit : fits o s.dev) : fits o (s.taken o.ctx.val o.stream.val rest).dev := by
  obtain ⟨present, fresh⟩ := fit
  have stream : (s.taken o.ctx.val o.stream.val rest).dev.stream o.ctx.val o.stream.val = _ := Dev.stream_updStream_self s.dev present _
  refine ⟨(Dev.length_streams_updStream _ _ _ _ _).symm ▸ present, ?_⟩
  rw [stream]
  exact fresh

/-- What COMMAND_ISSUE of a NOP leaves (R401, R437, R440). -/
theorem issueHead_nop {q : QCmd} {rest : List QCmd} (hc : c < 1024) (hi : i < 4) (queue : (s.dev.stream c i).q = q :: rest)
    (nop : opcodeOf q.raw = 0x01) (bare : q.raw &&& bareMask = 0) (fit : fits (q.origin c i) s.dev) (sound : plain (q.origin c i) s.dev)
    (runs : (s.dev.stream c i).stopped = false) (free : (s.dev.stream c i).waiting = false) (unscheduled : (s.dev.ctx c).schedTab = [])
    (ungated : (s.dev.ctx c).gated = 0) :
    let t := s.issueHead c i
    (t.dev.stream c i).q = rest ∧
      (t.dev.stream c i).run = (s.dev.stream c i).run ++ [{ issuedOf (q.origin c i) 0x01 15 (some q) with status := 1 }] ∧
      t.dev.lastIssue = 4 * c + i ∧ t.dev.reg 0x3400 0x91 = (s.dev.reg 0x3400 0x91 + 1) % 2 ^ 64 ∧ s.sameStore t := by
  have ctx : (q.origin c i).ctx.val = c := Nat.mod_eq_of_lt hc
  have stream : (q.origin c i).stream.val = i := Nat.mod_eq_of_lt hi
  have present : i < (s.dev.ctx c).streams.length := by simpa only [ctx, stream] using fit.1
  have taken := fit.taken (rest := rest)
  have heads := State.issueHead_cons queue
  generalize q.origin c i = o at *
  subst ctx stream
  let u : State := (s.taken o.ctx.val o.stream.val rest).onDev fun d => d.boarded o 0x01 15 (some q) 1
  have boarded : u.dev.stream o.ctx.val o.stream.val = { s.dev.stream o.ctx.val o.stream.val with
      q := rest, lastChange := s.dev.now,
      run := (s.dev.stream o.ctx.val o.stream.val).run ++ [{ issuedOf o 0x01 15 (some q) with status := 1 }] } := by
    have head : (s.taken o.ctx.val o.stream.val rest).dev.stream o.ctx.val o.stream.val =
        { s.dev.stream o.ctx.val o.stream.val with q := rest, lastChange := s.dev.now } := Dev.stream_updStream_self s.dev present _
    refine (Dev.stream_updStream_self (s.taken o.ctx.val o.stream.val rest).dev taken.1 _).trans ?_
    rw [head]
    rfl
  have issue : (s.taken o.ctx.val o.stream.val rest).issueTo o q = u := State.issueTo_nop nop bare taken sound
  have tables : (u.dev.ctx o.ctx.val).schedTab = (s.dev.ctx o.ctx.val).schedTab ∧
      (u.dev.ctx o.ctx.val).gated = (s.dev.ctx o.ctx.val).gated := by
    have head : (s.taken o.ctx.val o.stream.val rest).dev.ctx o.ctx.val = _ := Dev.ctx_updCtx_self s.dev o.ctx.val _
    have both : u.dev.ctx o.ctx.val = _ := Dev.ctx_updCtx_self (s.taken o.ctx.val o.stream.val rest).dev o.ctx.val _
    rw [both, head]
    exact ⟨rfl, rfl⟩
  have going : ((u.dev.stream o.ctx.val o.stream.val).stopped || (u.dev.stream o.ctx.val o.stream.val).waiting) = false := by
    rw [boarded]
    simp [runs, free]
  have run : s.issueHead o.ctx.val o.stream.val = u.onDev fun d => d.countIssue o.ctx.val o.stream.val := by
    refine heads.trans ?_
    rw [issue]
    exact (if_neg (ne_true_of_eq_false going)).trans (State.issued_unscheduled (tables.1.trans unscheduled) (tables.2.trans ungated))
  rw [run]
  dsimp only [State.onDev_dev]
  rw [Dev.stream_countIssue, boarded]
  exact ⟨rfl, rfl, rfl, Dev.reg_incReg_self _ _ _, rfl, rfl, rfl⟩

end Issue

/-! Completion (R396, R397, R398). -/

section Completion
variable {s : State} {d : Dev} {c i : Nat} {e : Issued}

/-- Of a context nothing but its streams, events and counts differs: not its norm and fence, its window, its replay. -/
structure StreamsOnly (c : Nat) (d e : Dev) : Prop where
  upds : e.upds = d.upds
  win : (e.ctx c).win = (d.ctx c).win
  replay : e.ctxReg c 0x25 = d.ctxReg c 0x25

theorem StreamsOnly.trans {d e f : Dev} (h : StreamsOnly c d e) (k : StreamsOnly c e f) : StreamsOnly c d f :=
  ⟨k.upds.trans h.upds, k.win.trans h.win, k.replay.trans h.replay⟩

theorem StreamsOnly.refl (d : Dev) : StreamsOnly c d d := ⟨rfl, rfl, rfl⟩

theorem StreamsOnly.updStream (d : Dev) (i : Nat) (f : Stream → Stream) : StreamsOnly c d (d.updStream c i f) :=
  ⟨rfl, congrArg (·.win) (Dev.ctx_updCtx_self d c _), rfl⟩

theorem StreamsOnly.incReg (d : Dev) (idx : Nat) {a : Nat} (ha : a < 256) (other : a ≠ 0x25) : StreamsOnly c d (d.incReg idx a) :=
  ⟨rfl, rfl, Dev.reg_setReg_place d (by decide) ha (fun h => other (congrArg Prod.snd h).symm) _⟩

theorem StreamsOnly.of_event {d e : Dev} (h : EventOf d e) : StreamsOnly c d e :=
  ⟨by rw [h.1], by rw [h.ctx], h.2.2 _ _ (by decide) (by simp [eventPlace])⟩

theorem StreamsOnly.stopStream (d : Dev) (i cause code seq op : Nat) (cmd : Option QCmd) :
    StreamsOnly c d (d.stopStream c i cause code seq op cmd) := by
  unfold Dev.stopStream
  split
  · exact .refl _
  · exact .updStream _ i _

theorem StreamsOnly.failIssued (d : Dev) (i : Nat) (e : Issued) : StreamsOnly c d (d.failIssued c i e) := by
  let g := d.updStream c i fun s => { s with run := s.run.filter (fun x => x.seq ≠ e.seq) }
  have left : StreamsOnly c d g := .updStream d i _
  have count : StreamsOnly c g (g.incReg (0x4000 + c) 0x15) := .incReg g _ (by decide) (by decide)
  have stop := StreamsOnly.stopStream (c := c) (g.incReg (0x4000 + c) 0x15) i e.fail.cause e.fail.code e.seq e.op e.cmd
  exact ((left.trans count).trans stop).trans (.of_event (EventOf.raise _ _ _ _ _ _ _))

/-- The part with a command off its scoreboard and counted as completed. -/
def Dev.counted (d : Dev) (c i : Nat) (e : Issued) : Dev :=
  (d.updStream c i fun s => { s with
    run := s.run.filter (fun x => x.seq ≠ e.seq), completed := (s.completed + 1) % two64, lastChange := d.now }).incReg (0x4000 + c) 0x14

theorem Dev.completeCmd_eq (d : Dev) (c i : Nat) (e : Issued) : d.completeCmd c i e =
    if e.sigEn then (d.counted c i e).signal e.input e.sigObj false 1 else d.counted c i e := rfl

theorem StreamsOnly.completeCmd (d : Dev) (i : Nat) (e : Issued) : StreamsOnly c d (d.completeCmd c i e) := by
  have counted : StreamsOnly c d (d.counted c i e) := (StreamsOnly.updStream d i _).trans (.incReg _ _ (by decide) (by decide))
  rw [Dev.completeCmd_eq]
  cases e.sigEn
  · exact counted
  · exact counted.trans ⟨rfl, rfl, rfl⟩

theorem StreamsOnly.settle (d : Dev) (i : Nat) (e : Issued) (acc : Bool) : StreamsOnly c d (d.settle c i e acc) := by
  unfold Dev.settle
  split
  · split
    · exact .completeCmd d i e
    · split
      · exact .failIssued d i _
      · exact .refl d
  · exact .completeCmd d i e
  · exact .failIssued d i e

/-- A completed command leaves the scoreboard, is counted, and its signal is queued (R396, R397). -/
theorem Dev.completeCmd_spec (present : i < (d.ctx c).streams.length) (e : Issued) :
    let f := d.completeCmd c i e
    f.stream c i = { d.stream c i with
      run := (d.stream c i).run.filter (fun z => z.seq ≠ e.seq), completed := ((d.stream c i).completed + 1) % 2 ^ 64, lastChange := d.now } ∧
    f.ctxReg c 0x14 = (d.ctxReg c 0x14 + 1) % 2 ^ 64 ∧
    f.syncQ = d.syncQ ++ (if e.sigEn then [⟨e.input, e.sigObj, false, 1, 0⟩] else []) ∧ d.otherCtxs f c := by
  have stream : (d.counted c i e).stream c i = { d.stream c i with
      run := (d.stream c i).run.filter (fun z => z.seq ≠ e.seq), completed := ((d.stream c i).completed + 1) % 2 ^ 64,
      lastChange := d.now } := by
    unfold Dev.counted
    rw [Dev.stream_incReg]
    exact Dev.stream_updStream_self d present _
  have count : (d.counted c i e).ctxReg c 0x14 = (d.ctxReg c 0x14 + 1) % 2 ^ 64 := Dev.reg_incReg_self _ _ _
  have others : d.otherCtxs (d.counted c i e) c := by
    unfold Dev.counted
    exact fun b hb => by rw [Dev.ctx_incReg, Dev.otherCtxs_updStream d c i _ b hb]
  rw [Dev.completeCmd_eq]
  cases e.sigEn with
  | false => exact ⟨stream, count, (List.append_nil _).symm, others⟩
  | true => exact ⟨stream, count, rfl, others⟩

theorem Stream.completed_unheld (x : Stream) : x.unheld.completed = x.completed := by
  unfold Stream.unheld
  split <;> rfl

/-- A failed command leaves the scoreboard without a signal, and stops its stream (R398). -/
theorem Dev.failIssued_spec (present : i < (d.ctx c).streams.length) (runs : (d.stream c i).stopped = false) (e : Issued) :
    let f := d.failIssued c i e
    let y := f.stream c i
    (y.run = (Stream.unheld { d.stream c i with run := (d.stream c i).run.filter (fun z => z.seq ≠ e.seq) }).run ∧
      y.completed = (d.stream c i).completed ∧ y.stopped = true ∧ y.stopSeq = e.seq ∧ y.stopOp = e.op ∧ y.cause = e.fail.cause ∧
      y.reason = e.fail.code) ∧
    f.ctxReg c 0x15 = (d.ctxReg c 0x15 + 1) % 2 ^ 64 ∧ f.syncQ = d.syncQ ∧ d.otherCtxs f c := by
  let g := d.updStream c i fun s => { s with run := s.run.filter (fun x => x.seq ≠ e.seq) }
  have left : g.stream c i = { d.stream c i with run := (d.stream c i).run.filter (fun z => z.seq ≠ e.seq) } :=
    Dev.stream_updStream_self d present _
  obtain ⟨stream, others, -, ops, count⟩ := Dev.countedStop_spec (d := g) (c := c) (i := i)
    ((Dev.length_streams_updStream _ _ _ _ _).symm ▸ present) (by rw [left]; exact runs) e.fail.cause e.fail.code e.seq e.op e.cmd 0x8202
    [c, i, e.seq, e.op, e.fail.code]
  rw [left] at stream
  intro f y
  have stops : y = _ := stream
  refine ⟨?_, count, ops, fun b hb => (others b hb).trans (Dev.otherCtxs_updStream d c i _ b hb)⟩
  rw [stops]
  exact ⟨rfl, Stream.completed_unheld _, rfl, rfl, rfl, rfl, rfl⟩

/-- What the outcome of a command asks for (R396). -/
theorem Dev.settle_done {acc : Bool} (done : e.status = 1 ∨ (e.status = 0 ∧ (e.op = 0x05 ∨ (e.op = 0x04 ∧ acc = true)))) :
    d.settle c i e acc = d.completeCmd c i e := by
  unfold Dev.settle
  rcases done with one | ⟨zero, op⟩
  · rw [one]
    rfl
  · rw [zero]
    exact if_pos (by simpa using op)

theorem Dev.settle_failed {acc : Bool} (failed : 2 ≤ e.status) : d.settle c i e acc = d.failIssued c i e := by
  unfold Dev.settle
  split
  · omega
  · omega
  · rfl

theorem Dev.settle_refused {acc : Bool} (zero : e.status = 0) (remote : e.op = 0x04) (refused : acc = false) :
    d.settle c i e acc = d.failIssued c i { e with fail := ⟨2, 0x0207, false, none⟩ } := by
  unfold Dev.settle
  rw [zero]
  exact (if_neg (by simp [remote, refused])).trans (if_pos remote)

/-! What follows a completion. -/

theorem State.forwarded_none (none_ : s.dev.fwd = []) : s.forwarded = s := by simp [State.forwarded, none_]

theorem State.tryNorm_none (none_ : (s.dev.upd c).norm = none) : s.tryNorm c = s := by simp [State.tryNorm, none_]

theorem State.tryFence_none (none_ : (s.dev.upd c).fence = none) : s.tryFence c = s := by simp [State.tryFence, none_]

theorem State.restPoint_off (off : s.dev.replayOn c = false) : s.restPoint c = s := by simp [State.restPoint, off]

/-- A fence that signals starts nothing where no image is due and no window (R354, R467). -/
theorem State.fenceSignalled_none (sec : (s.dev.upd c).sec = none) (win : (s.dev.ctx c).win ≠ 1) : s.fenceSignalled c = s := by
  have image : s.imageStart c = s := by simp [State.imageStart, sec]
  unfold State.fenceSignalled
  rw [image]
  exact State.onDev_same (if_neg win)

/-- A written bed takes effect at rest, beside the streams (R445). -/
theorem BedOnly.bedAtRest (d : Dev) : BedOnly c d (d.bedAtRest c) := by
  unfold Dev.bedAtRest
  split
  · exact .bedApply d
  · exact BedOnly.refl d

theorem BedOnly.stream {d e : Dev} (h : BedOnly c d e) (i : Nat) : e.stream c i = d.stream c i :=
  congrArg (·.getD i Stream.reset) h.streams

theorem Dev.raiseCtx_counts (d : Dev) (code c : Nat) (fields : List Nat) : (d.raiseCtx code c fields).syncQ = d.syncQ ∧
    ∀ i a, a < 256 → eventPlace i a = false → (d.raiseCtx code c fields).reg i a = d.reg i a := by
  obtain ⟨frame, -, regs⟩ := EventOf.raise d code 2 c (some c) none fields
  exact ⟨(congrArg Dev.syncQ frame).trans rfl, regs⟩

theorem Dev.bedApply_counts (d : Dev) (c : Nat) : (d.bedApply c).syncQ = d.syncQ ∧
    ∀ i a, a < 256 → eventPlace i a = false → (d.bedApply c).reg i a = d.reg i a := by
  unfold Dev.bedApply
  split
  · exact ⟨rfl, fun _ _ _ _ => rfl⟩
  · dsimp only
    split
    · exact Dev.raiseCtx_counts (d.updCtx c fun x => { x with bedPending := true, bedDeferred := true }) 0x8205 c [c, _]
    · exact ⟨rfl, fun _ _ _ _ => rfl⟩

theorem Dev.bedAtRest_counts (d : Dev) (c : Nat) : (d.bedAtRest c).syncQ = d.syncQ ∧
    ∀ i a, a < 256 → eventPlace i a = false → (d.bedAtRest c).reg i a = d.reg i a := by
  unfold Dev.bedAtRest
  split
  · exact d.bedApply_counts c
  · exact ⟨rfl, fun _ _ _ _ => rfl⟩

/-- COMMAND_COMPLETE of an issued command settles it, and a written bed takes effect at rest; what the context has not under way
does not go on (R396, R445). -/
theorem commandComplete_eq {seq : Nat} {acc : Bool} (norm : (s.dev.upd c).norm = none) (fence : (s.dev.upd c).fence = none)
    (replay : s.dev.replayOn c = false) (waits : s.dev.fwd = []) (found : (s.dev.stream c i).run.find? (fun z => z.seq = seq) = some e)
    (quiet : e.op = 0x62 → (s.dev.upd c).sec = none ∧ (s.dev.ctx c).win ≠ 1) :
    commandComplete c i seq acc s = s.onDev fun d => (d.settle c i e acc).bedAtRest c := by
  have kept : StreamsOnly c s.dev (s.dev.settle c i e acc) := .settle s.dev i e acc
  have under : (s.dev.settle c i e acc).upd c = s.dev.upd c := congrArg (Tbl.look Upd.reset c) kept.upds
  let t : State := s.onDev fun d => d.settle c i e acc
  have signalled : (if (e.op = 0x62 && e.status = 1 : Bool) then t.fenceSignalled c else t) = t := by
    split
    · next fences =>
      obtain ⟨sec, win⟩ := quiet (by simp_all)
      exact State.fenceSignalled_none ((congrArg (·.sec) under).trans sec) (kept.win ▸ win)
    · rfl
  have off : (t.onDev fun d => d.bedAtRest c).dev.replayOn c = false := by
    have same : ((s.dev.settle c i e acc).bedAtRest c).ctxReg c 0x25 = s.dev.ctxReg c 0x25 :=
      ((Dev.bedAtRest_counts _ c).2 _ _ (by decide) (by simp [eventPlace])).trans kept.replay
    exact (congrArg (fun v => decide (v ≠ 0)) same).trans replay
  unfold commandComplete
  dsimp only
  rw [State.forwarded_none waits, State.tryNorm_none norm, State.tryFence_none fence, found]
  change (((if (e.op = 0x62 && e.status = 1 : Bool) then t.fenceSignalled c else t).tryNorm c).onDev fun d => d.bedAtRest c).restPoint c = _
  rw [signalled, State.tryNorm_none ((congrArg (·.norm) under).trans norm), State.restPoint_off off]
  rfl

section Outcomes
variable {c : Fin 1024} {i : Fin 4} {seq : Nat} {acc : Bool} (norm : (s.dev.upd c.val).norm = none) (fence : (s.dev.upd c.val).fence = none)
  (replay : s.dev.replayOn c.val = false) (waits : s.dev.fwd = [])
  (found : (s.dev.stream c.val i.val).run.find? (fun z => z.seq = seq) = some e)
  (quiet : e.op = 0x62 → (s.dev.upd c.val).sec = none ∧ (s.dev.ctx c.val).win ≠ 1) (present : i.val < (s.dev.ctx c.val).streams.length)
include norm fence replay waits found quiet present

/-- COMMAND_COMPLETE of a command whose work is done (R396, R397). -/
theorem exec_commandComplete_done (settled : s.dev.settle c.val i.val e acc = s.dev.completeCmd c.val i.val e) :
    Runs (.commandComplete c i seq acc) s (fun t =>
      let x := s.dev.stream c.val i.val
      let y := t.dev.stream c.val i.val
      y.run = x.run.filter (fun z => z.seq ≠ e.seq) ∧ y.completed = (x.completed + 1) % 2 ^ 64 ∧ y.stopped = x.stopped ∧
      t.dev.ctxReg c.val 0x14 = (s.dev.ctxReg c.val 0x14 + 1) % 2 ^ 64 ∧
      t.dev.syncQ = s.dev.syncQ ++ (if e.sigEn then [⟨e.input, e.sigObj, false, 1, 0⟩] else []) ∧
      s.sameStore t ∧ s.dev.otherCtxs t.dev c.val) := by
  have run : commandComplete c.val i.val seq acc s = s.onDev fun d => (d.completeCmd c.val i.val e).bedAtRest c.val :=
    (commandComplete_eq norm fence replay waits found quiet).trans (State.onDev_congr (congrArg (·.bedAtRest c.val) settled))
  obtain ⟨stream, count, signal, others⟩ := Dev.completeCmd_spec present e
  obtain ⟨ops, regs⟩ := (s.dev.completeCmd c.val i.val e).bedAtRest_counts c.val
  have rest := BedOnly.bedAtRest (c := c.val) (s.dev.completeCmd c.val i.val e)
  refine ⟨_, congrArg Host.Outcome.next run, ?_⟩
  dsimp only [State.onDev_dev]
  rw [rest.stream, stream]
  exact ⟨rfl, rfl, rfl, (regs _ _ (by decide) (by simp [eventPlace])).trans count, ops.trans signal, State.sameStore_onDev _ _,
    fun b hb => (rest.other b hb).trans (others b hb)⟩

/-- COMMAND_COMPLETE of a command that failed (R398). -/
theorem exec_commandComplete_fails {fail : Fail} (runs : (s.dev.stream c.val i.val).stopped = false)
    (settled : s.dev.settle c.val i.val e acc = s.dev.failIssued c.val i.val { e with fail := fail }) :
    Runs (.commandComplete c i seq acc) s (fun t =>
      let x := s.dev.stream c.val i.val
      let y := t.dev.stream c.val i.val
      (y.run = (Stream.unheld { x with run := x.run.filter (fun z => z.seq ≠ e.seq) }).run ∧ y.completed = x.completed ∧
        y.stopped = true ∧ y.stopSeq = e.seq ∧ y.stopOp = e.op ∧ y.cause = fail.cause ∧ y.reason = fail.code) ∧
      t.dev.ctxReg c.val 0x15 = (s.dev.ctxReg c.val 0x15 + 1) % 2 ^ 64 ∧ t.dev.syncQ = s.dev.syncQ ∧
      s.sameStore t ∧ s.dev.otherCtxs t.dev c.val) := by
  have run : commandComplete c.val i.val seq acc s = s.onDev fun d => (d.failIssued c.val i.val { e with fail := fail }).bedAtRest c.val :=
    (commandComplete_eq norm fence replay waits found quiet).trans (State.onDev_congr (congrArg (·.bedAtRest c.val) settled))
  obtain ⟨stream, count, signal, others⟩ := Dev.failIssued_spec present runs { e with fail := fail }
  obtain ⟨ops, regs⟩ := (s.dev.failIssued c.val i.val { e with fail := fail }).bedAtRest_counts c.val
  have rest := BedOnly.bedAtRest (c := c.val) (s.dev.failIssued c.val i.val { e with fail := fail })
  refine ⟨_, congrArg Host.Outcome.next run, ?_⟩
  dsimp only [State.onDev_dev]
  rw [rest.stream]
  exact ⟨stream, (regs _ _ (by decide) (by simp [eventPlace])).trans count, ops.trans signal, State.sameStore_onDev _ _,
    fun b hb => (rest.other b hb).trans (others b hb)⟩

end Outcomes

end Completion

/-- Settles O10: the head's issue, then the completion by its outcome. -/
theorem commandsIssueAndComplete : Obligations.commandsIssueAndComplete := by
  refine ⟨fun s unfinished => ⟨fun c i q rest first queue => ⟨?_, ?_⟩, fun none_ => congrArg _ (commandIssue_none unfinished none_)⟩,
    fun s c i seq acc e norm fence replay waits present found quiet => ⟨fun done => ?_, fun failed runs => ?_⟩⟩
  · exact congrArg Host.Outcome.next ((commandIssue_head unfinished first).trans (State.issueHead_cons queue))
  · intro hc hi nop bare fit sound runs free unscheduled ungated
    exact ⟨_, congrArg Host.Outcome.next (commandIssue_head unfinished first),
      issueHead_nop hc hi queue nop bare fit sound runs free unscheduled ungated⟩
  · exact exec_commandComplete_done norm fence replay waits found quiet present (Dev.settle_done done)
  · rcases failed with failed | ⟨zero, remote, refused⟩
    · obtain ⟨t, run, ⟨left, completed, stopped, seq, op, cause, reason⟩, rest⟩ := exec_commandComplete_fails (fail := e.fail) norm fence replay
        waits found quiet present runs (Dev.settle_failed failed)
      exact ⟨t, run, left, completed, stopped, seq, op, fun _ => ⟨cause, reason⟩, fun zero => by omega, rest⟩
    · obtain ⟨t, run, ⟨left, completed, stopped, seq, op, cause, reason⟩, rest⟩ := exec_commandComplete_fails
        (fail := ⟨2, 0x0207, false, none⟩) norm fence replay waits found quiet present runs (Dev.settle_refused zero remote refused)
      exact ⟨t, run, left, completed, stopped, seq, op, fun two => by omega, fun _ => ⟨cause, reason⟩, rest⟩

end Sys2Proof.Machine

/-! What a rollback leaves of the sites: no access to the memories, no encoding and no undoing changes the link of a host site, over
which a mailbox is answered (R624, R676). -/
namespace Sys2Proof.Machine
open Sys2Proof

/-! The links of the sites. -/

/-- The state of each site's link. -/
def Dev.links (d : Dev) : Nat → Nat := fun h => (d.site h).link

theorem EventOf.links {d e : Dev} (h : EventOf d e) : e.links = d.links := funext fun g => by
  have same : (e.site g).quiet.link = (d.site g).quiet.link := congrArg Site.link (h.2.1 g)
  exact same

theorem Dev.links_raise (d : Dev) (code kind id : Nat) (ctx site : Option Nat) (fields : List Nat) :
    (d.raise code kind id ctx site fields).links = d.links := (EventOf.raise _ _ _ _ _ _ _).links

theorem Dev.links_incReg (d : Dev) (i a : Nat) : (d.incReg i a).links = d.links := rfl

theorem Dev.links_updStk (d : Dev) (s : Nat) (f : Stk → Stk) : (d.updStk s f).links = d.links := rfl

/-- A change made for each element of a list leaves the links where each one does. -/
theorem Dev.links_foldl {α : Type} {f : Dev → α → Dev} (hf : ∀ d a, (f d a).links = d.links) (l : List α) (d : Dev) :
    (l.foldl f d).links = d.links := foldl_keeps (fun e : Dev => e.links = d.links) (fun e a kept => (hf e a).trans kept) l _ rfl

theorem Dev.links_draw (d : Dev) : d.draw.2.links = d.links := rfl

/-- Where the links stay, who could be answered can be. -/
theorem Dev.linked_of_links {d e : Dev} {via : Via} (links : e.links = d.links) (linked : d.linked via) : e.linked via :=
  fun h mailbox => (congrFun links h).trans (linked h mailbox)

theorem Dev.links_applyCounts (d : Dev) (e : Option Nat) (t : Tbl Nat) : (d.applyCounts e t).links = d.links := by
  refine foldl_keeps (fun f : Dev => f.links = d.links) (fun f p kept => ?_) _ _ rfl
  dsimp only
  split
  · exact kept
  · split <;> exact kept

theorem Dev.links_perturb (d : Dev) (kind target : Nat) : (d.perturb kind target).2.links = d.links := by
  unfold Dev.perturb
  split
  · rfl
  · refine foldl_keeps (fun r : List Nat × Dev => r.2.links = d.links) (fun r i kept => ?_) _ _ rfl
    dsimp only
    split
    · exact kept
    · split <;> exact kept

theorem Dev.links_uncorrectable (d : Dev) (s off input : Nat) (ctx : Option Nat) : (d.uncorrectable s off input ctx).links = d.links :=
  Dev.links_raise _ _ _ _ _ _ _

theorem Dev.links_raiseOnce (d : Dev) (code c tensor step : Nat) (fields : List Nat) :
    (d.raiseOnce code c tensor step fields).links = d.links := by
  unfold Dev.raiseOnce
  split
  · rfl
  · exact Dev.links_raise _ _ _ _ _ _ _

theorem Dev.links_cross (d : Dev) (x : Option Nat) (y n : Nat) (write : Bool) : (d.cross x y n write).links = d.links := by
  have once (d : Dev) (x y n : Nat) : (d.crossOut x y n).links = d.links := by
    unfold Dev.crossOut
    split <;> rfl
  unfold Dev.cross
  split
  · rfl
  · exact (once _ _ _ _).trans (once _ _ _ _)

/-! Computations over lists. -/

section Lists
variable {α β γ : Type} {g : Wd → γ}

theorem Act.Leaves.mapM {f : α → Act β} (hf : ∀ a, (f a).Leaves g) (l : List α) : Act.Leaves g (l.mapM f) := by
  induction l with
  | nil =>
    rw [List.mapM_nil]
    exact .pure _
  | cons a l ih =>
    rw [List.mapM_cons]
    exact .bind (hf a) fun _ => .bind ih fun _ => .pure _

theorem Act.Leaves.foldlM {f : β → α → Act β} (hf : ∀ b a, (f b a).Leaves g) (l : List α) :
    ∀ b : β, Act.Leaves g (l.foldlM f b) := by
  induction l with
  | nil => exact fun b => .pure b
  | cons a l ih => exact fun b => .bind (hf b a) fun _ => ih _

theorem Act.Leaves.forIn (l : List α) {f : α → β → Act (ForInStep β)} (hf : ∀ a b, (f a b).Leaves g) :
    ∀ b : β, Act.Leaves g (ForIn.forIn l b f) := by
  induction l with
  | nil => exact fun b => .pure b
  | cons a t ih =>
    intro b
    rw [List.forIn_cons]
    refine .bind (hf a b) fun x => ?_
    cases x with
    | done b => exact .pure b
    | yield b => exact ih b

/-- A choice whose two branches go on alike. -/
theorem Act.Leaves.joinIte {c : Prop} [Decidable c] {a b : Act α} {k : α → Act β} (ha : a.Leaves g) (hb : b.Leaves g)
    (hk : ∀ x, (k x).Leaves g) : Act.Leaves g (if c then a >>= k else b >>= k) := .ite (.bind ha hk) (.bind hb hk)

end Lists

/-! The memories. -/

/-- A computation leaves the links of the sites. -/
abbrev Mm.OffLinks {α : Type} (m : Mm α) : Prop := m.Leaves (fun w => w.dev.links)
/-- The same of a computation that may fail. -/
abbrev Act.OffLinks {α : Type} (a : Act α) : Prop := a.Leaves (fun w => w.dev.links)

theorem lineRead_links (s off input : Nat) (ctx : Option Nat) : (lineRead s off input ctx).OffLinks := by
  intro w
  rcases h7 : w.dev.perturb 7 s with ⟨fired, d7⟩
  rcases h4 : d7.perturb 4 s with ⟨f4, d⟩
  have kept : d.links = w.dev.links := by
    have k7 := w.dev.links_perturb 7 s
    have k4 := d7.links_perturb 4 s
    rw [h7] at k7
    rw [h4] at k4
    exact k4.trans k7
  simp only [lineRead, h7, h4]
  generalize @ite Store (_ = true) (instDecidableEqBool _ true) w.mem _ = m
  generalize List.foldl _ ([], d.fresh) fired = r
  split
  · exact kept
  · split
    · exact (Dev.links_uncorrectable _ _ _ _ _).trans kept
    · split
      · exact (Dev.links_updStk _ _ _).trans ((Dev.links_foldl (fun e _ => Dev.links_updStk e s _) _ _).trans ((Dev.links_incReg _ _ _).trans kept))
      · split
        · exact kept
        · split
          · exact (Dev.links_uncorrectable _ _ _ _ _).trans kept
          · split <;> exact kept

theorem hbmGet_links (s off n input : Nat) (ctx : Option Nat) : (hbmGet s off n input ctx).OffLinks := by
  have body : (hbmGetAt s off n input ctx).OffLinks :=
    .bind .get fun w => .bind (.forIn _ (fun l b => .bind (lineRead_links _ _ _ _) fun ok => .ite (.pure _) (.pure _)) _)
      fun b => .bind .get fun w => .pure _
  exact .bind body fun _ => .pure _

theorem hbmPut_links (s off : Nat) (bs : List Nat) (input : Nat) (ctx : Option Nat) : (hbmPut s off bs input ctx).OffLinks := by
  unfold hbmPut
  refine .bind .get fun w => .bind (.forIn _ (fun l b => ?_) _) fun b =>
    .bind .get fun w => .bind (.modify fun _ => rfl) fun _ => .bind (fun _ => rfl) fun _ => .pure _
  exact .ite (.bind (.modify fun _ => rfl) fun _ => .pure _)
    (.bind (lineRead_links _ _ _ _) fun ok => .ite (.bind (.modify fun _ => rfl) fun _ => .pure _) (.pure _))

theorem wordRead_links (e off port : Nat) : (wordRead e off port).OffLinks := by
  intro w
  have poison : ∀ (d : Dev) (v code kind : Nat) (fields : List Nat),
      (((d.incReg (0x3000 + e) 0x1F).setReg (0x3000 + e) 0x21 v).raise code kind e none none fields).links = d.links :=
    fun d v _ _ _ => Dev.links_raise _ _ _ _ _ _ _
  simp only [wordRead]
  split
  · rfl
  · split
    · exact poison _ _ _ _ _
    · split
      · rfl
      · split
        · refine (poison _ _ _ _ _).trans ?_
          split <;> rfl
        · show Dev.links (Prod.snd (if _ then _ else _)) = _
          split <;> rfl

theorem spadPerturb_links (e off n : Nat) : (spadPerturb e off n).OffLinks := by
  intro w
  unfold spadPerturb
  split
  · rfl
  · refine foldl_keeps (fun x : Wd => x.dev.links = w.dev.links) (fun x i kept => ?_) _ _ rfl
    have struck := x.dev.links_perturb 6 e
    rcases rules : x.dev.perturb 6 e with ⟨fired, d⟩
    rw [rules] at struck
    dsimp only
    refine foldl_keeps (fun y : Wd => y.dev.links = w.dev.links) (fun y m hy => ?_) _ _ (struck.trans kept)
    exact (Dev.links_draw _).trans ((Dev.links_draw _).trans hy)

theorem spadGet_links (e off n port : Nat) : (spadGet e off n port).OffLinks := by
  unfold spadGet
  exact .bind (spadPerturb_links _ _ _) fun _ => .bind .get fun w =>
    .bind (.forIn _ (fun a b => .bind (wordRead_links _ _ _) fun ok => .ite (.pure _) (.pure _)) _) fun b =>
      .bind .get fun w => .pure _

theorem spadPut_links (e off : Nat) (bs : List Nat) (port : Nat) : (spadPut e off bs port).OffLinks := by
  unfold spadPut
  refine .bind .get fun w => .bind (.forIn _ (fun a b => ?_) _) fun b =>
    .bind .get fun w => .bind (.modify fun _ => rfl) fun _ => .bind (fun w => ?_) fun _ => .pure _
  · refine .ite (.bind (.pure _) fun ok => ?_) (.bind (wordRead_links _ _ _) fun ok => ?_) <;>
      exact .ite (.bind (.modify fun _ => rfl) fun _ => .pure _) (.pure _)
  · change Dev.links (if _ then _ else _) = _
    split <;> rfl

/-! Translation. -/

theorem xlatFail_links {α : Type} (u : Using) (va code : Nat) : (xlatFail u va code : Act α).OffLinks :=
  .bind (fun _ => Dev.links_raise _ _ _ _ _ _ _) fun _ _ => rfl

theorem nodeRead_links (u : Using) (dpa : Nat) : (nodeRead u dpa).OffLinks := by
  unfold nodeRead
  split
  · exact .pure _
  · exact .bind (hbmGet_links _ _ _ _ _).act fun q => .joinWhen (fun _ => rfl) fun _ => .pure _

/-- By induction on the levels that are left. -/
theorem walkFrom_links (u : Using) (va : Nat) : ∀ fuel node : Nat, (walkFrom u va fuel node).OffLinks
  | 0, _ => fun _ => rfl
  | fuel + 1, node => by
    unfold walkFrom
    refine .bind (nodeRead_links _ _) fun e => .joinWhen (xlatFail_links _ _ _) fun _ => .joinWhen (xlatFail_links _ _ _) fun _ =>
      .bind .dev fun d => ?_
    refine .ite ?_ (.ite (.pure _) (walkFrom_links u va fuel _))
    split
    · exact .bind (xlatFail_links _ _ _) fun _ => .ite (.pure _) (walkFrom_links u va fuel _)
    · exact .ite (.pure _) (walkFrom_links u va fuel _)

theorem walk_links (u : Using) (va : Nat) : (walk u va).OffLinks := by
  refine .bind .dev fun d => .joinWhen (xlatFail_links _ _ _) fun _ => .joinWhen (xlatFail_links _ _ _) fun _ => ?_
  dsimp only
  split
  · exact .bind (xlatFail_links _ _ _) fun _ => walkFrom_links u va 4 _
  · exact walkFrom_links u va 4 _

theorem leafOf_links (u : Using) (va : Nat) : (leafOf u va).OffLinks := by
  have fill : ∀ x : XEnt, (Act.upd (fun d => d.xcFill u.who u.part x)).OffLinks := fun x w => by
    change (w.dev.xcFill u.who u.part x).links = _
    unfold Dev.xcFill
    split <;> rfl
  have found : ∀ d : Dev, Act.OffLinks (match xcFind (Tbl.look [] u.part d.xcP) u.ctx va with
      | some x => Act.upd (fun d => d.xcFill u.who u.part x) >>= fun _ => Pure.pure x
      | none => walk u va >>= fun r => Act.upd (fun d => d.xcFill u.who u.part ⟨u.ctx, va >>> r.2, r.2, r.1⟩) >>= fun _ =>
          Pure.pure ⟨u.ctx, va >>> r.2, r.2, r.1⟩) := fun d => by
    split
    · exact .bind (fill _) fun _ => .pure _
    · exact .bind (walk_links u va) fun _ => .bind (fill _) fun _ => .pure _
  refine .bind .dev fun d => ?_
  split
  · exact .pure _
  · dsimp only
    split
    · exact .bind (fun _ => rfl) fun _ => found d
    · exact found d

theorem translate_links (u : Using) (va : Nat) (write : Bool) : (translate u va write).OffLinks := by
  refine .bind (leafOf_links _ va) fun x => .bind .dev fun d => .joinWhen (xlatFail_links _ _ _) fun _ => .ite ?_ ?_
  · refine .joinWhen (fun _ => rfl) fun _ => ?_
    dsimp only
    split
    · refine .bind (xlatFail_links _ _ _) fun _ => .joinWhen (xlatFail_links _ _ _) fun _ => .joinWhen (xlatFail_links _ _ _) fun _ => ?_
      split
      · exact .joinWhen (fun _ => rfl) fun _ => .pure _
      · exact .pure _
    · refine .joinWhen (xlatFail_links _ _ _) fun _ => .joinWhen (xlatFail_links _ _ _) fun _ => ?_
      split
      · exact .joinWhen (fun _ => rfl) fun _ => .pure _
      · exact .pure _
  · dsimp only
    split
    · refine .bind (xlatFail_links _ _ _) fun _ => ?_
      split
      · exact xlatFail_links _ _ _
      · refine .joinWhen (xlatFail_links _ _ _) fun _ => .joinWhen (fun _ => rfl) fun _ => ?_
        split
        · exact .joinWhen (fun _ => rfl) fun _ => .pure _
        · exact .pure _
    · split
      · exact xlatFail_links _ _ _
      · refine .joinWhen (xlatFail_links _ _ _) fun _ => .joinWhen (fun _ => rfl) fun _ => ?_
        split
        · exact .joinWhen (fun _ => rfl) fun _ => .pure _
        · exact .pure _

/-- By induction on the pieces that a range can have. -/
theorem pieces_links (u : Using) (write : Bool) : ∀ fuel va n : Nat, (pieces u write fuel va n).OffLinks
  | 0, _, _ => .pure _
  | fuel + 1, va, _ => .ite (.pure _) (.bind (translate_links u va write) fun _ =>
      .bind (pieces_links u write fuel _ _) fun _ => .pure _)

theorem writePieces_links (u : Using) : ∀ (ps : List (Phys × Nat)) (bs : List Nat) (bad : Bool), (writePieces u ps bs bad).OffLinks
  | [], _, bad => .pure bad
  | (p, _) :: ps, bs, bad => by
    refine .bind (fun _ => Dev.links_cross _ _ _ _ _) fun _ => .bind (Mm.Leaves.act ?_) fun _ => writePieces_links u ps _ _
    cases p with
    | hbm s off => exact hbmPut_links _ _ _ _ _
    | spad e off => exact spadPut_links _ _ _ _

theorem readPieces_links (u : Using) (ps : List (Phys × Nat)) : (readPieces u ps).OffLinks := by
  refine .bind (.forIn _ (fun a b => ?_) _) fun r => .joinWhen (fun _ => rfl) fun _ => .pure _
  obtain ⟨p, k⟩ := a
  refine .bind (fun _ => Dev.links_cross _ _ _ _ _) fun _ => .bind (Mm.Leaves.act ?_) fun _ => .pure _
  cases p with
  | hbm s off => exact hbmGet_links _ _ _ _ _
  | spad e off => exact spadGet_links _ _ _ _

theorem vread_links (u : Using) (va n : Nat) : (vread u va n).OffLinks :=
  .bind (pieces_links _ _ _ _ _) fun _ => readPieces_links _ _

theorem vreadNat_links (u : Using) (va n : Nat) : (vreadNat u va n).OffLinks := .bind (vread_links _ _ _) fun _ => .pure _

theorem vwrite_links (u : Using) (va : Nat) (bs : List Nat) : (vwrite u va bs).OffLinks :=
  .bind (pieces_links _ _ _ _ _) fun _ => .bind (writePieces_links _ _ _ _) fun _ => .ite (fun _ => rfl) (.pure _)

/-! Descriptors, elements and areas. -/

theorem readDesc_links (u : Using) (va : Nat) : (readDesc u va).OffLinks :=
  .bind (vreadNat_links _ _ _) fun _ => .bind (.refuseIf _ _) fun _ => .pure _

theorem readRun_links (u : Using) (fmt base p n : Nat) : (readRun u fmt base p n).OffLinks :=
  .bind (vread_links _ _ _) fun _ => .pure _

theorem readPos_links (u : Using) (fmt base : Nat) (ps : List Nat) : (readPos u fmt base ps).OffLinks :=
  .bind (.mapM (fun _ => readRun_links _ _ _ _ _) _) fun _ => .pure _

theorem writeRun_links (u : Using) (fmt base p : Nat) (cs : List Nat) (pad : Nat) : (writeRun u fmt base p cs pad).OffLinks :=
  .ite (vwrite_links _ _ _) (.bind (readRun_links _ _ _ _ _) fun _ => vwrite_links _ _ _)

theorem writePos_links (u : Using) (fmt base : Nat) (ps cs : List Nat) (pad : Nat → Nat) : (writePos u fmt base ps cs pad).OffLinks :=
  .bind (.foldlM (fun _ _ => .bind (writeRun_links _ _ _ _ _ _) fun _ => .pure _) _ _) fun _ => .pure _

theorem readCoords_links (u : Using) (d : Desc) (cs : List (List Nat)) : (readCoords u d cs).OffLinks := readPos_links _ _ _ _

theorem writeCoords_links (u : Using) (d : Desc) (cs : List (List Nat)) (codes : List Nat) : (writeCoords u d cs codes).OffLinks :=
  writePos_links _ _ _ _ _ _

theorem readArea_links (u : Using) (d : Desc) (role : Option Bool) : (readArea u d role).OffLinks :=
  .ite (.pure _) (.bind (vreadNat_links _ _ _) fun _ => .bind (.refuseIf _ _) fun _ => .pure _)

/-! Encoding. -/

theorem Act.num_links {α : Type} (e : Option Nat) (m : Num α) : (Act.num e m).OffLinks :=
  .bind (fun _ => Dev.links_applyCounts _ _ _) fun _ => .pure _

theorem liftOf_links (u : Using) (layer : Nat) : (liftOf u layer).OffLinks :=
  .bind .dev fun _ => by
    split
    · exact .pure _
    · exact .bind (vreadNat_links _ _ _) fun _ => .pure _

theorem charge_links (u : Using) (layer step tiles troubled run failed : Nat) :
    (charge u layer step tiles troubled run failed).OffLinks :=
  .bind .dev fun _ => by
    split
    · exact fun _ => rfl
    · exact .bind (vreadNat_links _ _ _) fun _ => vwrite_links _ _ _

theorem writeBase_links (p : Prod) (bl : List (List Val)) (enc : TileEnc) : (writeBase p bl enc).OffLinks :=
  .bind (writeCoords_links _ _ _ _) fun _ => .ite (writePos_links _ _ _ _ _ _) (.pure _)

theorem writeWiden_links (p : Prod) (h : PrecH) (t : Nat) (bl : List (List Val)) (enc : TileEnc) : (writeWiden p h t bl enc).OffLinks :=
  .bind (writePos_links _ _ _ _ _ _) fun _ => .ite (writePos_links _ _ _ _ _ _) (.pure _)

theorem produceFlat_links (p : Prod) (vs : List Val) : (produceFlat p vs).OffLinks :=
  .ite (.pure _) (.bind (writeBase_links _ _ _) fun _ => fun _ => Dev.links_applyCounts _ _ _)

theorem rotated_links (p : Prod) (h : PrecH) (vs : List Val) : (rotated p h vs).OffLinks :=
  .ite (.pure _) (.bind (.mapM (fun _ => .bind (Act.num_links _ _) fun _ =>
    .bind (fun _ => Dev.links_applyCounts _ _ _) fun _ => .pure _) _) fun _ => .pure _)

theorem writeCopies_links (p : Prod) (h : PrecH) (src t : Nat) (vs : List Val) : (writeCopies p h src t vs).OffLinks :=
  .bind .dev fun _ => .ite (.pure _) (.ite (.joinWhen (fun _ => rfl) fun _ => fun _ => Dev.links_raiseOnce _ _ _ _ _ _)
    (.bind (Act.num_links _ _) fun _ => writePos_links _ _ _ _ _ _))

theorem produceTile_links (p : Prod) (h : PrecH) (t : Nat) (vs : List Val) : (produceTile p h t vs).OffLinks :=
  .bind (rotated_links _ _ _) fun _ => .bind (liftOf_links _ _) fun _ => by
    split
    extract_lets
    split
    split
    exact .joinIte (writeBase_links _ _ _) (writeWiden_links _ _ _ _ _) fun _ => by
      beta_reduce
      extract_lets -underBinder rest
      have charged : ∀ y, Act.OffLinks (rest y) := fun _ => .bind (vwrite_links _ _ _) fun _ =>
        .bind (fun _ => Dev.links_applyCounts _ _ _) fun _ => .joinWhen (charge_links _ _ _ _ _ _ _) fun _ =>
          .bind (writeCopies_links _ _ _ _ _) fun _ => .pure _
      exact .ite (.bind .dev fun _ => .bind (fun _ => rfl) fun _ => .bind (vwrite_links _ _ _) fun _ =>
        .bind (fun _ => rfl) fun _ => charged ⟨⟩) (charged ⟨⟩)

theorem produce_links (p : Prod) (vs : List Val) : (produce p vs).OffLinks := by
  unfold produce
  split
  · exact produceFlat_links _ _
  · exact .bind (.forIn _ (fun _ _ => .bind (produceTile_links _ _ _ _) fun _ => .ite (.pure _) (.pure _)) _) fun _ =>
      .ite (fun _ => Dev.links_raiseOnce _ _ _ _ _ _) (.pure _)

/-! Parameter blocks and copies. -/

theorem masterValues_links (u : Using) (d : Desc) (cs : List (List Nat)) : (masterValues u d cs).OffLinks :=
  .bind (readCoords_links _ _ _) fun _ => .ite (.pure _) (.bind (Act.num_links _ _) fun _ => .pure _)

theorem copyValues_links (s : Nat) (r : RJob) (dst : Desc) (h : Option PrecH) (fmt : Nat) (vs : List (List Nat × Nat)) :
    (copyValues s r dst h fmt vs).OffLinks := .bind .dev fun _ => produce_links _ _

theorem readBlock_links (c va : Nat) (own : Option Nat) : (readBlock c va own).OffLinks :=
  .bind (vreadNat_links _ _ _) fun _ => .bind (.refuseIf _ _) fun _ => .bind (fun _ => rfl) fun _ =>
    .bind (.mapM (fun _ => readDesc_links _ _) _) fun _ => .bind (.mapM (fun _ => readDesc_links _ _) _) fun _ =>
      .joinIte (.mapM (fun _ => readDesc_links _ _) _) (.pure _) fun _ => .bind (readDesc_links _ _) fun _ =>
        .bind (.forIn _ (fun _ _ => .bind (readArea_links _ _ _) fun _ => .pure _) _) fun _ =>
          .bind (.refuseIf _ _) fun _ => .bind (.refuseIf _ _) fun _ => .pure _

theorem copyCurrent_links (c u stack obj copy aux : Nat) (rows : Option (List Nat)) :
    (copyCurrent c u stack obj copy aux rows).OffLinks :=
  .bind (readBlock_links _ _ _) fun _ => .bind (readDesc_links _ _) fun _ => .bind (readArea_links _ _ _) fun _ => .bind .dev fun _ =>
    .bind (.forIn _ (fun _ _ => .bind (vreadNat_links _ _ _) fun _ => .bind (masterValues_links _ _ _) fun _ =>
      .bind (copyValues_links _ _ _ _ _ _) fun _ => .pure _) _) fun _ => .pure _

/-! Rolling back (R624). -/

theorem readSrt_links (c va : Nat) : (readSrt c va).OffLinks :=
  .bind (vread_links _ _ _) fun _ => .bind (.refuseIf _ _) fun _ => .bind (.forIn _ (fun _ _ =>
    .bind (translate_links _ _ _) fun _ => .bind (leafOf_links _ _) fun _ => .bind (.refuseIf _ _) fun _ => .pure _) _) fun _ => .pure _

theorem writeReplicas_links (c : Nat) (vas : List Nat) (rec_ : Nat) : (writeReplicas c vas rec_).OffLinks :=
  .bind (.forIn _ (fun _ _ => .bind (vwrite_links _ _ _) fun _ => .pure _) _) fun _ => .pure _

theorem undoOne_links (c s : Nat) (r : List Nat) : (undoOne c s r).OffLinks := by
  unfold undoOne
  extract_lets
  split
  · exact .bind (vwrite_links _ _ _) fun _ => vwrite_links _ _ _
  · exact vwrite_links _ _ _
  · exact .pure _

theorem redoCopy_links (c s v : Nat) (r : List Nat) : (redoCopy c s v r).OffLinks := by
  unfold redoCopy
  split
  · exact copyCurrent_links _ _ _ _ _ _ _
  · exact .bind (readDesc_links _ _) fun _ => .bind (readCoords_links _ _ _) fun _ => copyCurrent_links _ _ _ _ _ _ _
  · exact .pure _

theorem restoreCaptures_links (c : Nat) (v : Point) : (restoreCaptures c v).OffLinks :=
  .bind (fun _ => rfl) fun _ => by
    extract_lets -underBinder rest
    have heads : ∀ y, Act.OffLinks (rest y) := fun _ => .bind .dev fun _ => .bind (.forIn _ (fun _ _ =>
      .bind (vread_links _ _ _) fun _ => .bind (vwrite_links _ _ _) fun _ => .pure _) _) fun _ => .pure _
    split
    · exact heads ⟨⟩
    · exact .bind (readSrt_links _ _) fun _ => .bind (writeReplicas_links _ _ _) fun _ => heads ⟨⟩

theorem Dev.links_updCtx (d : Dev) (c : Nat) (f : Ctx → Ctx) : (d.updCtx c f).links = d.links := rfl

theorem Dev.links_updUpd (d : Dev) (c : Nat) (f : Upd → Upd) : (d.updUpd c f).links = d.links := rfl

theorem Dev.links_discard (d : Dev) (c i : Nat) : (d.discard c i).links = d.links := rfl

theorem Dev.links_discardJobs (d : Dev) (s c : Nat) : (d.discardJobs s c).links = d.links := rfl

/-- A rollback leaves the links of the sites. -/
theorem rollback_links (c : Nat) (v : Point) : (rollback c v).OffLinks :=
  .bind .dev fun _ => .bind (.forIn _ (fun _ _ => .bind (.forIn _ (fun _ _ => .bind (undoOne_links _ _ _) fun _ => .pure _) _)
    fun _ => .pure _) _) fun _ => .bind (restoreCaptures_links _ _) fun _ => .bind (.forIn _ (fun _ _ => .bind (.forIn _
    (fun _ _ => .bind (redoCopy_links _ _ _ _) fun _ => .pure _) _) fun _ => .pure _) _) fun _ => fun w =>
      (Dev.links_updCtx _ _ _).trans ((Dev.links_updUpd _ _ _).trans ((Dev.links_foldl (fun d s => Dev.links_discardJobs d s c)
        (List.range 32) _).trans (Dev.links_foldl (fun d i => Dev.links_discard d c i) (List.range 4) w.dev)))

end Sys2Proof.Machine

/-! Replays by turns and rollback control, and the statement about them (R399, R624 to R626, R628). -/
namespace Sys2Proof.Machine
open Sys2Proof

/-! Replay (R626). -/

section Replay
variable {s : State} {p c : Nat} {v : Point}

/-- The logged commands stand at the head of a stream again, which runs on. -/
def Dev.requeueAt (c : Nat) (cmds keep : List (Nat × QCmd)) (d : Dev) (i : Nat) : Dev :=
  (d.updStream c i (fun t => { t with
    q := (keep.filter (fun q => q.1 = i)).map (·.2) ++ t.q.filter (fun y => !(cmds.any (fun q => q.2.logPos = y.logPos))) })).unstop c i

/-- The context replays: its recovery state and count say so (R626). -/
def Dev.replays (d : Dev) (c fences : Nat) : Dev :=
  ((d.updCtx c (fun x => { x with fences := fences, rep := { x.rep with replaying := true } })).setReg (0x4000 + c) 0x28 2).incReg
    (0x4000 + c) 0x2A

/-- The logged commands stand in their streams again, and the context replays. -/
def Dev.relogged (c : Nat) (cmds keep : List (Nat × QCmd)) (fences : Nat) (d : Dev) : Dev :=
  ((List.range 4).foldl (Dev.requeueAt c cmds keep) d).replays c fences

/-- The entries of the log after a point, with their positions. -/
def readLog (d : Dev) (c : Nat) (v : Point) : Act (List (Nat × Nat)) :=
  ((List.range ((d.ctx c).rep.logHead - v.logAt)).map (v.logAt + ·)).mapM (fun k => do
    let e ← vreadNat (coordUse c) (d.ctxReg c 0x25 + 64 * (k % max 1 (d.ctxReg c 0x26))) 64
    return (k, e))

/-- The commands that a replay queues again (R626). -/
def requeued (d : Dev) (c : Nat) (cmds : List (Nat × QCmd)) : List (Nat × QCmd) :=
  let newer := fun (i : Nat) (q : QCmd) => (d.stream c i).q.any (fun y => y.logPos = q.logPos)
  (cmds.filter (fun q => newer q.1 q.2 || !(replaySkips (opcodeOf q.2.raw)))).map (fun q =>
    (q.1, { q.2 with replay := !(newer q.1 q.2) }))

theorem replayLog_eq (c : Nat) (v : Point) : replayLog c v = (do
    let d ← Act.dev
    let es ← readLog d c v
    let cmds := restamp v.step es
    Act.upd (Dev.relogged c cmds (requeued d c cmds) (cmds.filter (fun q => opcodeOf q.2.raw = 0x62)).length)) := rfl

theorem Dev.requeue_frame (c : Nat) (cmds keep : List (Nat × QCmd)) (l : List Nat) (d : Dev) :
    let e := l.foldl (Dev.requeueAt c cmds keep) d
    e.reg = d.reg ∧ e.integ = d.integ :=
  foldl_keeps (f := Dev.requeueAt c cmds keep) (fun e : Dev => e.reg = d.reg ∧ e.integ = d.integ) (fun _ _ kept => kept) l d ⟨rfl, rfl⟩

theorem Dev.replays_spec (d : Dev) (c fences : Nat) :
    let e := d.replays c fences
    e.ctxReg c 0x28 = 2 ∧ e.ctxReg c 0x2A = (d.ctxReg c 0x2A + 1) % 2 ^ 64 ∧ (e.ctx c).rep.replaying = true ∧ e.integ = d.integ := by
  let g := d.updCtx c fun x => { x with fences := fences, rep := { x.rep with replaying := true } }
  have ctx : g.ctx c = { d.ctx c with fences := fences, rep := { (d.ctx c).rep with replaying := true } } := Dev.ctx_updCtx_self d c _
  have state : (g.setReg (0x4000 + c) 0x28 2).reg (0x4000 + c) 0x28 = 2 := Dev.reg_setReg_self _ _ _ _
  have other : (g.setReg (0x4000 + c) 0x28 2).reg (0x4000 + c) 0x2A = d.reg (0x4000 + c) 0x2A := Dev.reg_setReg_other g (by omega) 2
  refine ⟨(Dev.reg_incReg_other _ (by omega)).trans state, (Dev.reg_incReg_self _ _ _).trans (by rw [other]; rfl), ?_, rfl⟩
  exact congrArg (fun x : Ctx => x.rep.replaying) ctx

theorem Dev.relogged_spec (c : Nat) (cmds keep : List (Nat × QCmd)) (fences : Nat) (d : Dev) :
    let e := d.relogged c cmds keep fences
    e.ctxReg c 0x28 = 2 ∧ e.ctxReg c 0x2A = (d.ctxReg c 0x2A + 1) % 2 ^ 64 ∧ (e.ctx c).rep.replaying = true ∧ e.integ = d.integ := by
  obtain ⟨regs, integ⟩ := Dev.requeue_frame c cmds keep (List.range 4) d
  obtain ⟨state, count, replaying, turn⟩ := ((List.range 4).foldl (Dev.requeueAt c cmds keep) d).replays_spec c fences
  exact ⟨state, count.trans (by rw [Dev.ctxReg, regs]; rfl), replaying, turn.trans integ⟩

/-- Where nothing is logged after the point, the context replays at once and no memory changes. -/
theorem replayLog_nothing {w : Wd} (nothing : (w.dev.ctx c).rep.logHead ≤ v.logAt) :
    replayLog c v w = (.ok (), ⟨w.mem, w.dev.relogged c [] [] 0⟩) := by
  have log : readLog w.dev c v w = (.ok [], w) := by
    unfold readLog
    rw [Nat.sub_eq_zero_of_le nothing]
    rfl
  rw [replayLog_eq]
  exact (Act.bind_ok (a := Act.dev) rfl _).trans (Act.bind_ok log _)

/-- What holds of the part wherever a computation ends well. -/
def Act.EndsIn {α : Type} (P : Wd → Prop) (a : Act α) : Prop := ∀ w x w', a w = (.ok x, w') → P w'

/-- A computation that ends well ends where its last part does. -/
theorem Act.EndsIn.bind {α β : Type} {P : Wd → Prop} (a : Act α) {f : α → Act β} (ends : ∀ x, (f x).EndsIn P) : (a >>= f).EndsIn P := by
  intro w x w' run
  rcases first : a w with ⟨e | y, w1⟩
  · rw [Act.bind_error first] at run
    cases run
  · rw [Act.bind_ok first] at run
    exact ends y w1 x w' run

theorem Act.EndsIn.upd {P : Wd → Prop} {f : Dev → Dev} (ends : ∀ w : Wd, P ⟨w.mem, f w.dev⟩) : (Act.upd f).EndsIn P := by
  intro w x w' run
  cases run
  exact ends w

/-- A replay that begins leaves recovery state 2. -/
theorem replayLog_state (c : Nat) (v : Point) : (replayLog c v).EndsIn fun w => w.dev.ctxReg c 0x28 = 2 := by
  rw [replayLog_eq]
  exact .bind _ fun d => .bind _ fun es => .upd fun w => (Dev.relogged_spec c _ _ _ w.dev).1

/-- A context that cannot be put back is in recovery state 5. -/
theorem Dev.noReplay_state (d : Dev) (c : Nat) : (d.noReplay c).ctxReg c 0x28 = 5 := Dev.reg_setReg_self _ _ _ _

/-! The turn of a suspect. -/

/-- Is a context among those that await a replay on a partition, and ready (R619, R626)? -/
abbrev Dev.mayReplay (d : Dev) (p c : Nat) : Bool := (Tbl.look [] p d.integ.await).contains c && d.replayReady c

/-- A context takes the turn on a partition. -/
abbrev State.takesTurn (s : State) (p c : Nat) : State := s.onDev fun d => { d with integ := { d.integ with
  await := d.integ.await.map (fun q => (q.1, q.2.filter (· ≠ c))), turn := Tbl.put p c d.integ.turn } }

/-- A context that cannot be put back gives its turn up. -/
def Dev.turnLost (d : Dev) (p c : Nat) : Dev := { d.noReplay c with integ := { d.integ with turn := Tbl.del p d.integ.turn } }

theorem Dev.turnLost_state (d : Dev) (p c : Nat) : (d.turnLost p c).ctxReg c 0x28 = 5 := Dev.reg_setReg_self _ _ _ _

/-- A rollback where the context is not yet rolled back, then its log (R624, R626). -/
def replayFrom (rolled : Bool) (c : Nat) (v : Point) : Act Unit := do
  if !rolled then rollback c v
  replayLog c v

/-- A replay that was run: it stands counted, or the context is not replayable. -/
def replayEnds (p c : Nat) (suspected : Bool) (r : Except Fail Unit × State) : State :=
  match r.1 with
  | .ok _ => r.2.onDev fun d => if suspected then d.incReg 0x5400 0x0A else d
  | .error _ => r.2.onDev fun d => d.turnLost p c

theorem replayStart_none (idle : s.dev.service p ≠ 0 ∨ (Tbl.look? p s.dev.integ.turn).isSome = true ∨
    ∀ c, c < 1024 → (Tbl.look [] p s.dev.integ.await).contains c = true → s.dev.replayReady c = false) : replayStart p s = s := by
  unfold replayStart
  by_cases early : s.dev.service p ≠ 0 ∨ (Tbl.look? p s.dev.integ.turn).isSome = true
  · exact if_pos (by simpa using early)
  · obtain ⟨serves, free⟩ := not_or.mp early
    have none_ : (List.range 1024).find? (fun c => s.dev.mayReplay p c) = none := List.find?_eq_none.mpr fun c hc => by
      have barred := ((idle.resolve_left serves).resolve_left free) c (List.mem_range.mp hc)
      simpa [Dev.mayReplay] using barred
    refine (if_neg (by simpa using early)).trans ?_
    rw [none_]

section Turn
variable (serves : s.dev.service p = 0) (free : Tbl.look? p s.dev.integ.turn = none) (bound : c < 1024)
  (waits : (Tbl.look [] p s.dev.integ.await).contains c = true) (ready : s.dev.replayReady c = true)
  (lowest : ∀ b, b < c → (Tbl.look [] p s.dev.integ.await).contains b = true → s.dev.replayReady b = false)
include serves free bound waits ready lowest

omit serves free in
/-- The ready suspect of lowest number is found. -/
theorem replayStart_found : (List.range 1024).find? (fun c => s.dev.mayReplay p c) = some c :=
  List.find?_range_eq_some.mpr ⟨by simpa [Dev.mayReplay, ready] using waits, List.mem_range.mpr bound, fun b hb => by
    simpa [Dev.mayReplay, imp_iff_not_or] using lowest b hb⟩

theorem replayStart_pointless (pointless : (s.dev.ctx c).rep.points = []) :
    replayStart p s = (s.takesTurn p c).onDev fun d => d.turnLost p c := by
  have found := replayStart_found bound waits ready lowest
  unfold replayStart
  refine (if_neg (by simp [serves, free])).trans ?_
  rw [found]
  change (match (s.dev.ctx c).rep.points.head? with
    | none => _
    | some v => _) = _
  rw [pointless]
  rfl

theorem replayStart_runs {ps : List Point} (points : (s.dev.ctx c).rep.points = v :: ps) :
    replayStart p s = replayEnds p c (s.dev.ctx c).rep.suspectOf.isSome
      ((s.takesTurn p c).runAct (replayFrom (s.dev.ctx c).rep.rolled c v)) := by
  have found := replayStart_found bound waits ready lowest
  unfold replayStart
  refine (if_neg (by simp [serves, free])).trans ?_
  rw [found]
  change (match (s.dev.ctx c).rep.points.head? with
    | none => _
    | some v => _) = _
  rw [points]
  rfl

end Turn

/-- A replay that was run ends in recovery state 2 or 5. -/
theorem replayEnds_state (p c : Nat) (suspected rolled : Bool) (s : State) (v : Point) :
    let t := replayEnds p c suspected (s.runAct (replayFrom rolled c v))
    t.dev.ctxReg c 0x28 = 2 ∨ t.dev.ctxReg c 0x28 = 5 := by
  have ends : (replayFrom rolled c v).EndsIn fun w => w.dev.ctxReg c 0x28 = 2 := by
    cases rolled with
    | false => exact .bind _ fun _ => replayLog_state c v
    | true => exact replayLog_state c v
  rcases run : replayFrom rolled c v ⟨s.mem, s.dev⟩ with ⟨e | x, w⟩
  · rw [State.runAct_eq run]
    exact .inr (Dev.noReplay_state _ c)
  · rw [State.runAct_eq run]
    refine .inl (Eq.trans ?_ (ends _ _ _ run))
    cases suspected with
    | false => rfl
    | true => exact Dev.reg_incReg_other _ (by omega)

/-- One that is rolled back already, with nothing logged since, replays at once (R626). -/
theorem replayEnds_nothing (p c : Nat) (suspected : Bool) (s : State) (v : Point) (nothing : (s.dev.ctx c).rep.logHead ≤ v.logAt) :
    let t := replayEnds p c suspected (s.runAct (replayFrom true c v))
    t.dev.ctxReg c 0x28 = 2 ∧ t.mem = s.mem ∧ t.dev.integ = s.dev.integ ∧ (t.dev.ctx c).rep.replaying = true ∧
      t.dev.ctxReg c 0x2A = (s.dev.ctxReg c 0x2A + 1) % 2 ^ 64 := by
  have run : replayFrom true c v ⟨s.mem, s.dev⟩ = _ := replayLog_nothing (w := ⟨s.mem, s.dev⟩) nothing
  obtain ⟨state, count, replaying, integ⟩ := s.dev.relogged_spec c [] [] 0
  rw [State.runAct_eq run]
  cases suspected with
  | false => exact ⟨state, rfl, integ, replaying, count⟩
  | true => exact ⟨(Dev.reg_incReg_other _ (by omega)).trans state, rfl, integ, replaying,
      (Dev.reg_incReg_other _ (by omega)).trans count⟩

theorem replayEnds_store (p c : Nat) (suspected : Bool) (s : State) (a : Act Unit) :
    let t := replayEnds p c suspected (s.runAct a)
    t.pending = s.pending ∧ t.persist = s.persist := by
  unfold replayEnds
  dsimp only
  split <;> exact ⟨rfl, rfl⟩

end Replay

/-! Rollback control (R628). -/

section Control
variable {s : State} {c v : Nat}

/-- A point has the index, and the context may be put back to it. -/
abbrev Dev.rollsBack (d : Dev) (c v : Nat) : Prop :=
  (v = d.ctxReg c 0x09 ∨ v + 1 = d.ctxReg c 0x09) ∧ d.replayOn c = true ∧ (d.ctx c).rep.marked = false ∧ d.ctxReg c 0x28 ≠ 4 ∧
    d.ctxReg c 0x28 ≠ 5 ∧ d.ctxState c = 2 ∧ ∃ q ∈ (d.ctx c).rep.points, q.upd = v

/-- The handles whose peers' epochs a context awaits after a rollback. -/
def Dev.jobsOf (d : Dev) (c : Nat) : List Nat := (d.net.handles.filter (fun q => q.2.ctx = c && q.2.kind = 0 && 1 < q.2.n)).map (·.1)

/-- A context that is no suspect stops and awaits its turn, before it is put back. -/
def Dev.stopsForRollback (d : Dev) (c : Nat) (hs : List Nat) : Dev :=
  let (k, d) := d.draw
  let d := d.stopCtx c (Config.reasonOpen k % 65536)
  let p := match bitList 64 (d.ctx c).bedMask with
    | e :: _ => partOfEng e
    | [] => 0
  let d := d.updCtx c (fun x => { x with rep := { x.rep with awaitEpochs := hs } })
  { d with integ := { d.integ with await := Tbl.upd [] p (fun l => if l.contains c then l else l ++ [c]) d.integ.await } }

/-- The context as its rollback finds it. -/
def State.beforeRollback (s : State) (c : Nat) : State :=
  if (s.dev.ctx c).rep.suspectOf.isSome then s else s.onDev fun d => d.stopsForRollback c (s.dev.jobsOf c)

/-- The context after its rollback, which succeeded or not. -/
def rollbackEnds (c : Nat) (r : Except Fail Unit × State) : WR :=
  match r.1 with
  | .error _ => (0, r.2.onDev (fun d => d.noReplay c))
  | .ok _ => (0, r.2.onDev (fun d => d.setReg (0x4000 + c) 0x28 (if (d.ctx c).rep.awaitEpochs.isEmpty then 1 else 3)))

theorem rollbackControl_unfit (unfit : ¬ s.dev.rollsBack c v) : rollbackControl c v s = (0x0312, s) := by
  unfold rollbackControl
  dsimp only
  split
  · rfl
  · next pt found =>
    refine if_pos ?_
    by_contra fits
    simp only [Bool.or_eq_true, Bool.and_eq_true, decide_eq_true_eq, Bool.not_eq_true', not_or, not_and, not_not, Bool.not_eq_false,
      Bool.not_eq_true] at fits
    obtain ⟨⟨⟨⟨⟨index, replay⟩, plain⟩, four⟩, five⟩, on⟩ := fits
    have upd : pt.upd = v := by simpa using List.find?_some found
    exact unfit ⟨or_iff_not_imp_left.mpr index, replay, plain, four, five, on, pt, List.mem_of_find?_eq_some found, upd⟩

theorem rollbackControl_fit (fit : s.dev.rollsBack c v) :
    ∃ pt, rollbackControl c v s = rollbackEnds c ((s.beforeRollback c).runAct (rollback c pt)) := by
  obtain ⟨index, replay, plain, four, five, on, q, mem, upd⟩ := fit
  cases found : (s.dev.ctx c).rep.points.find? (fun p => p.upd = v) with
  | none => exact absurd upd (by simpa using List.find?_eq_none.mp found q mem)
  | some pt =>
    refine ⟨pt, ?_⟩
    unfold rollbackControl
    dsimp only
    rw [found]
    exact if_neg (by simp [replay, plain, four, five, on]; omega)

theorem Dev.links_stopCtx (d : Dev) (c code : Nat) : (d.stopCtx c code).links = d.links :=
  Dev.links_foldl (f := fun d i => d.stopBare c i code) (fun d i => by
    have stops : (d.stopStream c i 2 code (d.stream c i).nextSeq 0 none).links = d.links := by
      unfold Dev.stopStream
      split
      · rfl
      · exact Dev.links_updCtx _ _ _
    exact (Dev.links_raise _ _ _ _ _ _ _).trans stops) _ d

theorem State.links_beforeRollback (s : State) (c : Nat) : (s.beforeRollback c).dev.links = s.dev.links := by
  unfold State.beforeRollback
  split
  · rfl
  · exact (Dev.links_stopCtx { s.dev with fresh := s.dev.fresh + 1 } c _).trans rfl

theorem State.store_beforeRollback (s : State) (c : Nat) :
    (s.beforeRollback c).pending = s.pending ∧ (s.beforeRollback c).persist = s.persist := by
  unfold State.beforeRollback
  split <;> exact ⟨rfl, rfl⟩

/-- A context that is put back awaits its turn, or first its peers' epochs. -/
theorem Dev.awaits_state (d : Dev) (c : Nat) (none_ : Bool) :
    (d.setReg (0x4000 + c) 0x28 (if none_ then 1 else 3)).ctxReg c 0x28 = 1 ∨
      (d.setReg (0x4000 + c) 0x28 (if none_ then 1 else 3)).ctxReg c 0x28 = 3 := by
  cases none_ with
  | true => exact .inl (Dev.reg_setReg_self _ _ _ _)
  | false => exact .inr (Dev.reg_setReg_self _ _ _ _)

/-- A rollback that was run is accepted, leaves the links, and ends in recovery state 1, 3 or 5 (R628). -/
theorem rollbackEnds_spec (s : State) (c : Nat) (pt : Point) : ∃ t, rollbackEnds c (s.runAct (rollback c pt)) = (0, t) ∧
    t.pending = s.pending ∧ t.persist = s.persist ∧ t.dev.links = s.dev.links ∧
      (t.dev.ctxReg c 0x28 = 1 ∨ t.dev.ctxReg c 0x28 = 3 ∨ t.dev.ctxReg c 0x28 = 5) := by
  have links := rollback_links c pt ⟨s.mem, s.dev⟩
  rcases run : rollback c pt ⟨s.mem, s.dev⟩ with ⟨e | x, w⟩
  · rw [run] at links
    rw [State.runAct_eq run]
    exact ⟨_, rfl, rfl, rfl, links, .inr (.inr (Dev.noReplay_state _ c))⟩
  · rw [run] at links
    rw [State.runAct_eq run]
    exact ⟨_, rfl, rfl, rfl, links, or_assoc.mp (.inl (Dev.awaits_state w.dev c _))⟩

/-- An answer changes the entries of index 0x1100 only. -/
theorem Dev.sendReply_reg {d : Dev} {via : Via} {tagged : Bool} {r : Reply} {i a : Nat} (ha : a < 256) (other : i ≠ 0x1100) :
    (d.sendReply via tagged r).reg i a = d.reg i a := by
  have counted : (if r.reason = 0 then d.incReg 0x1100 0x10 else d.incReg 0x1100 0x11).reg i a = d.reg i a := by
    split <;> exact Dev.reg_setReg_place d ha (by decide) (fun h => other (congrArg Prod.fst h)) _
  have msix (e : Dev) (h v : Nat) : (e.msix h v).reg = e.reg := by
    unfold Dev.msix
    split <;> rfl
  unfold Dev.sendReply
  extract_lets e
  have same : e.reg i a = d.reg i a := counted
  clear_value e
  split
  · split
    · exact same
    · exact (congrFun (congrFun (msix _ _ _) i) a).trans same
  · extract_lets _ _ kept
    have answered : kept.reg = e.reg := by unfold kept; split <;> rfl
    exact (congrFun (congrFun answered i) a).trans same
  · exact same

end Control

/-- Settles O45: the turn by what the context's points and log hold, the write by whether the context fits. -/
theorem replaysTakeTurns : Obligations.replaysTakeTurns := by
  intro s
  refine ⟨fun p => ⟨fun idle => congrArg Host.Outcome.next (replayStart_none idle), fun c bound serves free waits ready lowest => ?_⟩,
    fun via c v passes => ⟨fun unfit => ?_, fun fit => ?_⟩⟩
  · dsimp only
    cases points : (s.dev.ctx c).rep.points with
    | nil =>
      refine ⟨_, congrArg Host.Outcome.next (replayStart_pointless serves free bound waits ready lowest points), rfl, rfl,
        fun _ => ⟨Dev.turnLost_state _ _ _, rfl, Tbl.look?_del_self _ _⟩, fun _ _ some_ => ?_, .inr (Dev.turnLost_state _ _ _)⟩
      cases some_
    | cons v ps =>
      obtain ⟨pending, persist⟩ := replayEnds_store p.val c (s.dev.ctx c).rep.suspectOf.isSome (s.takesTurn p.val c)
        (replayFrom (s.dev.ctx c).rep.rolled c v)
      refine ⟨_, congrArg Host.Outcome.next (replayStart_runs serves free bound waits ready lowest points), pending, persist,
        fun none_ => ?_, fun w qs same rolled nothing => ?_, replayEnds_state _ _ _ _ _ _⟩
      · cases none_
      · cases same
        rw [rolled]
        obtain ⟨state, mem, integ, replaying, count⟩ := replayEnds_nothing p.val c (s.dev.ctx c).rep.suspectOf.isSome
          (s.takesTurn p.val c) v nothing
        exact ⟨state, mem, (congrArg (fun i => Tbl.look? p.val i.turn) integ).trans (Tbl.look?_put_self _ _ _), replaying, count⟩
  · exact congrArg Host.Outcome.next (State.dictWrite_accepted passes (rollbackControl_unfit unfit))
  · obtain ⟨pt, run⟩ := rollbackControl_fit (s := s) fit
    obtain ⟨t, ends, pending, persist, links, state⟩ := rollbackEnds_spec (s.beforeRollback c.val) c.val pt
    obtain ⟨before, store⟩ := s.store_beforeRollback c.val
    have linked : t.dev.linked via := Dev.linked_of_links (links.trans (s.links_beforeRollback c.val)) (Dev.linked_of_heard passes.2.1)
    have reg : (t.replied via (0x4000 + c.val) 0x29 0).dev.ctxReg c.val 0x28 = t.dev.ctxReg c.val 0x28 :=
      Dev.sendReply_reg (by decide) (by omega)
    refine ⟨_, congrArg Host.Outcome.next (State.dictWrite_accepted passes (run.trans ends)), State.answers_replied linked,
      pending.trans before, persist.trans store, ?_⟩
    rw [reg]
    exact state

end Sys2Proof.Machine

/-! The roles of ring and tree: who sends to whom and who passes the result to whom, said of relative ranks (R513). -/
namespace Sys2Proof.Machine
open Sys2Proof

/-! Ranks around the lead. -/

/-- A number below two turns of n, once around. -/
theorem mod_wrap {x n : Nat} (h : x < 2 * n) : x % n = if x < n then x else x - n := by
  split
  next below => exact Nat.mod_eq_of_lt below
  next beyond =>
    rw [Nat.mod_eq_sub_mod (by omega)]
    exact Nat.mod_eq_of_lt (by omega)

/-- The relative rank of a member counts it from the lead. -/
theorem relative_rank {n j r : Nat} (hj : j < n) (hr : r < n) : (j + (r + n - j % n) % n) % n = r := by
  rw [Nat.mod_eq_of_lt hj, mod_wrap (x := r + n - j) (by omega)]
  split <;> rw [mod_wrap (by omega)] <;> split <;> omega

/-- Two relative ranks of one member are one. -/
theorem relative_rank_unique {n j u v : Nat} (hj : j < n) (hu : u < n) (hv : v < n) (same : (j + u) % n = (j + v) % n) : u = v := by
  rw [mod_wrap (by omega), mod_wrap (by omega)] at same
  split at same <;> split at same <;> omega

/-! The stages of a tree. -/

/-- A number whose remainder at a stage is the stage's own bit sends at that stage. -/
theorem lowBit_eq {v i : Nat} (hi : i < 11) (h : v % 2 ^ (i + 1) = 2 ^ i) : lowBit v = 2 ^ i := by
  have bit : ∀ k, v % 2 ^ (k + 1) = 2 ^ k * (v / 2 ^ k % 2) + v % 2 ^ k := fun k => by
    rw [pow_succ, Nat.mod_mul]
    omega
  have first : (List.range 11).find? (fun k => v / 2 ^ k % 2 = 1) = some i := by
    refine List.find?_range_eq_some.mpr ⟨?_, List.mem_range.mpr hi, fun k hk => ?_⟩
    · have low : v % 2 ^ i < 2 ^ i := Nat.mod_lt _ (by positivity)
      have own := (bit i).symm.trans h
      rcases Nat.mod_two_eq_zero_or_one (v / 2 ^ i) with even | odd
      · rw [even] at own
        omega
      · exact decide_eq_true odd
    · have divides : 2 ^ (k + 1) ∣ v := by
        have whole : 2 ^ (k + 1) ∣ 2 ^ (i + 1) := pow_dvd_pow 2 (by omega)
        have own : 2 ^ (k + 1) ∣ v % 2 ^ (i + 1) := h ▸ pow_dvd_pow 2 hk
        exact (Nat.dvd_mod_iff whole).mp own
      obtain ⟨m, rfl⟩ := divides
      rw [pow_succ, mul_assoc, Nat.mul_div_cancel_left _ (by positivity)]
      simp
  rw [lowBit, first]
  rfl

/-- Every relative rank but the lead's sends at one of the eleven stages. -/
theorem exists_stage {v : Nat} (positive : v ≠ 0) (small : v < 2048) : ∃ i < 11, v % 2 ^ (i + 1) = 2 ^ i := by
  obtain ⟨i, m, odd, rfl⟩ := Nat.exists_eq_two_pow_mul_odd positive
  refine ⟨i, ?_, ?_⟩
  · have one : 1 ≤ m := odd.pos
    have : 2 ^ i < 2 ^ 11 := lt_of_le_of_lt (Nat.le_mul_of_pos_right _ one) small
    exact (Nat.pow_lt_pow_iff_right (by decide)).mp this
  · rw [pow_succ, Nat.mul_mod_mul_left, Nat.odd_iff.mp odd, mul_one]

/-- Of two relative ranks the higher one sends to the lower one where the lower one receives from it. -/
theorem mem_treeFrom {n u v : Nat} (hn : n ≤ 1024) (hv : v < n) : v ∈ treeFrom n u ↔ v ≠ 0 ∧ u = v - lowBit v := by
  simp only [treeFrom, List.mem_map, List.mem_filter, List.mem_range, Bool.and_eq_true, decide_eq_true_eq]
  constructor
  · rintro ⟨i, ⟨hi, whole, -⟩, rfl⟩
    have half : 2 ^ i < 2 ^ (i + 1) := Nat.pow_lt_pow_right (by decide) (by omega)
    have own : (u + 2 ^ i) % 2 ^ (i + 1) = 2 ^ i := by
      rw [Nat.add_mod, whole, Nat.zero_add, Nat.mod_mod, Nat.mod_eq_of_lt half]
    have : 0 < 2 ^ i := by positivity
    rw [lowBit_eq hi own]
    omega
  · rintro ⟨positive, rfl⟩
    obtain ⟨i, hi, own⟩ := exists_stage positive (by omega)
    have back : v - 2 ^ i + 2 ^ i = v := Nat.sub_add_cancel (own ▸ Nat.mod_le _ _)
    rw [lowBit_eq hi own]
    refine ⟨i, ⟨hi, ?_, back.symm ▸ hv⟩, back⟩
    rw [← own]
    exact Nat.sub_mod_eq_zero_of_mod_eq (Nat.mod_mod _ _).symm

/-! Both ends of a way. -/

/-- In a role table of n members every way has two ends: whom a member sends its value to receives from it, and from whom it takes
the result passes the result to it. -/
def Role.agree (n : Nat) (role : Nat → Role) (at_ : Nat → Nat) : Prop := ∀ u < n, ∀ v < n,
  ((role v).dest = some (at_ u) ↔ ∃ first, (at_ v, first) ∈ (role u).recvs) ∧
  ((role v).parent = some (at_ u) ↔ at_ v ∈ (role u).children)

section Ends
variable {n : Nat} {at_ : Nat → Nat} (single : ∀ u < n, ∀ v < n, at_ u = at_ v → u = v)
include single

theorem at_iff {u v : Nat} (hu : u < n) (hv : v < n) : at_ u = at_ v ↔ u = v := ⟨single u hu v hv, congrArg at_⟩

theorem ringRole_agree : Role.agree n (ringRole n · at_) at_ := by
  intro u hu v hv
  have before : (u + n - 1) % n < n := Nat.mod_lt _ (by omega)
  have after : (v + 1) % n < n := Nat.mod_lt _ (by omega)
  have sends : (ringRole n v at_).dest = some (at_ u) ↔ v ≠ 0 ∧ (v + 1) % n = u := by
    by_cases lead : v = 0 <;> simp [ringRole, lead, at_iff single after hu]
  have receives : (∃ first, (at_ v, first) ∈ (ringRole n u at_).recvs) ↔ ¬ (n < 2 ∨ u = 1) ∧ v = (u + n - 1) % n := by
    simp [ringRole, at_iff single hv before]
  have takes : (ringRole n v at_).parent = some (at_ u) ↔ v ≠ 0 ∧ v - 1 = u := by
    by_cases lead : v = 0 <;> simp [ringRole, lead, at_iff single (by omega : v - 1 < n) hu]
  have passes : at_ v ∈ (ringRole n u at_).children ↔ u + 1 < n ∧ v = u + 1 := by
    by_cases last : u + 1 < n
    · simp [ringRole, last, at_iff single hv last]
    · simp [ringRole, last]
  rw [sends, receives, takes, passes, mod_wrap (x := v + 1) (by omega), mod_wrap (x := u + n - 1) (by omega)]
  constructor
  · split <;> split <;> omega
  · omega

theorem treeRole_agree (hn : n ≤ 1024) : Role.agree n (treeRole n · at_) at_ := by
  intro u hu v hv
  have up : (if v = 0 then none else some (at_ (v - lowBit v))) = some (at_ u) ↔ v ∈ treeFrom n u := by
    rw [mem_treeFrom hn hv]
    by_cases lead : v = 0
    · simp [lead]
    · simp [lead, at_iff single (by omega : v - lowBit v < n) hu, eq_comm (a := u)]
  have bound : ∀ w ∈ treeFrom n u, w < n := by
    intro w hw
    simp only [treeFrom, List.mem_map, List.mem_filter, Bool.and_eq_true, decide_eq_true_eq] at hw
    obtain ⟨i, ⟨-, -, below⟩, rfl⟩ := hw
    exact below
  have down : at_ v ∈ (treeFrom n u).map at_ ↔ v ∈ treeFrom n u := by
    refine ⟨fun h => ?_, fun h => List.mem_map_of_mem h⟩
    obtain ⟨w, hw, same⟩ := List.mem_map.mp h
    rwa [← single w (bound w hw) v hv same]
  refine ⟨up.trans ?_, up.trans down.symm⟩
  rw [← down]
  simp [treeRole]

end Ends

/-- Under the ring and the tree both ends of every way agree, whatever the lead (R513). -/
theorem roleOf_agree {scheme n g j a b : Nat} (kind : scheme = 1 ∨ scheme = 2) (hn : n ≤ 1024) (hj : j < n) (ha : a < n) (hb : b < n) :
    ((roleOf scheme n g j a).dest = some b ↔ ∃ first, (a, first) ∈ (roleOf scheme n g j b).recvs) ∧
    ((roleOf scheme n g j a).parent = some b ↔ a ∈ (roleOf scheme n g j b).children) := by
  have single : ∀ u < n, ∀ v < n, (j + u) % n = (j + v) % n → u = v := fun u hu v hv => relative_rank_unique hj hu hv
  have rel : ∀ r, (r + n - j % n) % n < n := fun r => Nat.mod_lt _ (by omega)
  have both : Role.agree n (fun v => match scheme with
      | 1 => ringRole n v fun w => (j + w) % n
      | _ => treeRole n v fun w => (j + w) % n) fun w => (j + w) % n := by
    rcases kind with rfl | rfl
    · exact ringRole_agree single
    · exact treeRole_agree single hn
  have ends := both _ (rel b) _ (rel a)
  simp only [relative_rank hj ha, relative_rank hj hb] at ends
  rcases kind with rfl | rfl <;> exact ends

end Sys2Proof.Machine

/-! A collective at its handle, from its issue until its chunks have gone as far as they go, and the statement about it (R505, R507,
R510, R511, R519). -/
namespace Sys2Proof.Machine
open Sys2Proof

section Collective
variable {s : State} {h : Nat} {x : Handle} {k : Coll}

/-- Data of the collective's own digest do not fail it (R507). -/
theorem Dev.checkDigest_same {d : Dev} (handle : d.handle? h = some x) (found : x.colls.find? (fun c => c.seq = k.seq) = some k)
    (same : ∀ m ∈ x.rx, m.seq = k.seq → m.digest = k.digest) : d.checkDigest h k.seq = d := by
  have clean : x.rx.find? (fun m => m.seq = k.seq && m.digest ≠ k.digest) = none := by
    refine List.find?_eq_none.mpr fun m hm => ?_
    simpa using same m hm
  simp only [Dev.checkDigest, handle, found, clean]

variable {ks : List ChunkRun} {w : Wd} (handle : s.dev.handle? h = some x)
  (found : x.colls.find? (fun c => c.seq = k.seq) = some k) (proper : k.op ≠ 0x61)
  (run : k.chunks.mapM (runChunk h k 32) ⟨s.mem, s.dev⟩ = (.ok ks, w))
include handle found proper run

/-- A collective whose work on this member is over leaves its handle, and its command is done (R519). -/
theorem State.moveColl_over (ended : ks.all (fun g => k.chunkDone g x.rank) = true) :
    s.moveColl h k.seq = (s.atWd w).onDev fun d => (d.updHandle h fun x => { x with
      colls := x.colls.filter (fun c => c.seq ≠ k.seq), rx := x.rx.filter (fun m => m.seq ≠ k.seq) }).markDone
        k.o.ctx.val k.o.stream.val k.o.seq := by
  simp only [State.moveColl, handle, found, if_neg proper, State.runAct_eq run, ended, if_true]

/-- A collective with work left keeps its chunks as they stand. -/
theorem State.moveColl_under_way (left : ks.all (fun g => k.chunkDone g x.rank) = false) :
    s.moveColl h k.seq = (s.atWd w).onDev fun d => d.updHandle h fun x => { x with
      colls := x.colls.map fun c => if c.seq = k.seq then { c with chunks := ks } else c } := by
  simp only [State.moveColl, handle, found, if_neg proper, State.runAct_eq run, left, Bool.false_eq_true, if_false]

end Collective

section Issue
variable {s : State} {o : Origin} {f : CollF} {op : Nat} {cmd : Option QCmd} {x : Handle}

/-- With 16 of its handle in progress a collective waits at the head of its stream (R505). -/
theorem State.issueColl_full (handle : s.dev.handle? f.handle = some x) (full : 16 ≤ x.colls.length) :
    s.issueColl o op f cmd = s.onDev fun d => d.updStream o.ctx.val o.stream.val fun t => { t with q := cmd.toList ++ t.q } := by
  simp only [State.issueColl, handle, full, decide_true, if_true]

variable {q : Nat} {w : Wd} {y : Handle} {k : Coll}

/-- A collective whose checks pass, and against which no data of another digest have arrived, is moved on its handle. -/
theorem State.issueColl_enters (handle : s.dev.handle? f.handle = some x) (room : x.colls.length < 16)
    (enter : collEnter op o f (s.atUnit o op 14 cmd) = (.ok q, w))
    (clear : ∀ e ∈ (w.dev.stream o.ctx.val o.stream.val).run, e.seq = o.seq → e.status = 0)
    (entered : w.dev.handle? f.handle = some y)
    (own : y.colls.find? (fun c => c.o.ctx = o.ctx && c.o.stream = o.stream && c.o.seq = o.seq) = some k)
    (found : y.colls.find? (fun c => c.seq = k.seq) = some k) (same : ∀ m ∈ y.rx, m.seq = k.seq → m.digest = k.digest) :
    s.issueColl o op f cmd = (s.atWd w).moveColl f.handle k.seq := by
  have issue : s.issueCmd o op 14 cmd (do let _ ← collEnter op o f; return false) = s.atWd w :=
    State.issueCmd_runs (State.runAct_eq (Act.bind_ok enter _))
  have sound : (w.dev.stream o.ctx.val o.stream.val).run.any (fun e => e.seq = o.seq && e.status = 2 && e.fail.poison) = false := by
    refine List.any_eq_false.mpr fun e he => ?_
    have := clear e he
    simp only [Bool.and_eq_true, decide_eq_true_eq]
    rintro ⟨⟨seq, status⟩, -⟩
    exact absurd ((this seq).symm.trans status) (by decide)
  have quiet : ((s.atWd w).onDev fun d =>
      if (d.stream o.ctx.val o.stream.val).run.any (fun e => e.seq = o.seq && e.status = 2 && e.fail.poison) then
        d.notice f.handle 1 [o.ctx.val]
      else d) = s.atWd w := State.onDev_same (if_neg (by rw [State.atWd_dev, sound]; decide))
  have digests : (s.atWd w).onDev (fun d => d.checkDigest f.handle k.seq) = s.atWd w :=
    State.onDev_same (Dev.checkDigest_same entered found same)
  have notFull : decide (16 ≤ x.colls.length) = false := decide_eq_false (by omega)
  simp only [State.issueColl, handle, notFull, Bool.false_eq_true, if_false, issue, quiet, State.atWd_dev, entered, own, digests]

end Issue

/-- The six collectives and their opcodes (R510, R511). -/
def collRows (o : Origin) (f : CollF) : List (Instr × Nat) :=
  [(.callred o f, 0x50), (.credscat o f, 0x51), (.cgather o f, 0x52), (.cbcast o f, 0x53), (.ctopk o f, 0x54), (.cwin o f, 0x55)]

/-- Each of them is the one collective, of its opcode. -/
theorem exec_collective {o : Origin} {f : CollF} {i : Instr} {op : Nat} (row : (i, op) ∈ collRows o f) (s : State) :
    exec i s = .next (s.issueColl o op f (cmdOf o op f.reserved (collFields f))) := by
  simp only [collRows, List.mem_cons, List.not_mem_nil, or_false] at row
  rcases row with ⟨rfl, rfl⟩ | ⟨rfl, rfl⟩ | ⟨rfl, rfl⟩ | ⟨rfl, rfl⟩ | ⟨rfl, rfl⟩ | ⟨rfl, rfl⟩ <;> rfl

/-- Settles O18: the collective by whether its handle has room, then by whether its work is over; the roles by their two ends. -/
theorem collectivesRun : Obligations.collectivesRun := by
  refine ⟨fun s o f i op _ row x handle => ⟨fun room => ?_, fun full => ?_⟩,
    fun scheme n g j a b kind hn hj ha hb => roleOf_agree kind hn hj ha hb⟩
  · intro q w y k ks w' enter clear entered own found same proper run
    have moved := (exec_collective row s).trans
      (congrArg Host.Outcome.next (State.issueColl_enters handle room enter clear entered own found same))
    refine ⟨_, moved, ?_⟩
    cases ended : ks.all (fun g => k.chunkDone g y.rank) with
    | true =>
      rw [State.moveColl_over (s := s.atWd w) entered found proper run ended]
      exact ⟨rfl, rfl, rfl, fun _ => rfl, fun left => absurd left (by decide)⟩
    | false =>
      rw [State.moveColl_under_way (s := s.atWd w) entered found proper run ended]
      exact ⟨rfl, rfl, rfl, fun done => absurd done (by decide), fun _ => rfl⟩
  · rw [exec_collective row s, State.issueColl_full handle full]

end Sys2Proof.Machine

/-! Events count at the rings of sites and in the log, and nowhere else (R551, R555, R655). -/
namespace Sys2Proof.Machine
open Sys2Proof

/-- Entries of every other index read as before. -/
def Dev.IndexOnly (k : Nat) (d e : Dev) : Prop := ∀ i a, a < 256 → i ≠ k → e.reg i a = d.reg i a

namespace Dev.IndexOnly
variable {k : Nat}

theorem refl (d : Dev) : Dev.IndexOnly k d d := fun _ _ _ _ => rfl

theorem trans {d e f : Dev} (h : Dev.IndexOnly k d e) (g : Dev.IndexOnly k e f) : Dev.IndexOnly k d f :=
  fun i a ha hi => (g i a ha hi).trans (h i a ha hi)

theorem of_regs {d e : Dev} (regs : e.regs = d.regs) (mfg : e.mfg = d.mfg) : Dev.IndexOnly k d e :=
  fun i a _ _ => Dev.reg_congr regs mfg i a

theorem addReg (d : Dev) {a : Nat} (ha : a < 256) (n : Nat) : Dev.IndexOnly k d (d.addReg k a n) :=
  fun _ _ hb other => Dev.reg_setReg_place d hb ha (fun same => other (congrArg Prod.fst same)) _

theorem updSite (d : Dev) (h : Nat) (f : Site → Site) : Dev.IndexOnly k d (d.updSite h f) := of_regs rfl rfl

theorem out (d : Dev) (x : Out) : Dev.IndexOnly k d (d.out x) := of_regs rfl rfl

theorem tele (d : Dev) (t : Tele) : Dev.IndexOnly k d { d with tele := t } := of_regs rfl rfl

theorem msix (d : Dev) (h v : Nat) : Dev.IndexOnly k d (d.msix h v) := by
  unfold Dev.msix
  split
  · exact updSite _ _ _
  · exact out _ _

theorem vector0 (d : Dev) (h : Nat) : Dev.IndexOnly k d (d.vector0 h) := by
  unfold Dev.vector0
  dsimp only
  split
  · exact (updSite _ _ _).trans (msix _ _ _)
  · exact refl d

theorem putEntry (d : Dev) (h : Nat) (ev : Ev) (n : Nat) : Dev.IndexOnly (0x4800 + h) d (d.putEntry h ev n) := by
  unfold Dev.putEntry
  exact ((((out _ _).trans (updSite _ _ _)).trans (addReg _ (by decide) 1)).trans (out _ _)).trans (vector0 _ _)

theorem writeRing (d : Dev) (h : Nat) (ev : Ev) (n : Nat) : Dev.IndexOnly (0x4800 + h) d (d.writeRing h ev n) := by
  unfold Dev.writeRing
  dsimp only
  split
  · have lost : ∀ f, Dev.IndexOnly (0x4800 + h) d ((d.updSite h f).addReg (0x4800 + h) 0x0E n) := fun f =>
      (updSite _ _ _).trans (addReg _ (by decide) n)
    split
    · exact lost _
    · exact ((lost _).trans (out _ _)).trans (msix _ _ _)
  · exact putEntry _ _ _ _

theorem flushSite (d : Dev) (h : Nat) : Dev.IndexOnly (0x4800 + h) d (d.flushSite h) := by
  unfold Dev.flushSite
  split
  · exact refl d
  · exact (updSite _ _ _).trans (writeRing _ _ _ _)

/-- An event is counted at its site's ring only. -/
theorem postSite (d : Dev) (h : Nat) (ev : Ev) : Dev.IndexOnly (0x4800 + h) d (d.postSite h ev) := by
  unfold Dev.postSite
  extract_lets e x
  have marked : Dev.IndexOnly (0x4800 + h) d e := by
    unfold e
    split
    · exact updSite _ _ _
    · exact refl d
  refine marked.trans ?_
  have placed : ∀ d : Dev, Dev.IndexOnly (0x4800 + h) d
      (if x.window = 0 then d.writeRing h ev 1 else d.updSite h fun s => { s with staged := some (ev, 1) }) := fun d => by
    split
    · exact writeRing _ _ _ _
    · exact updSite _ _ _
  split
  · exact (updSite _ _ _).trans (addReg _ (by decide) 1)
  · split
    · split
      · have counted : ∀ f, Dev.IndexOnly (0x4800 + h) e ((e.incReg (0x4800 + h) 0x0D).updSite h f) := fun f =>
          (addReg e (by decide) 1).trans (updSite _ _ _)
        dsimp only
        split
        · exact (counted _).trans (flushSite _ _)
        · exact counted _
      · exact (flushSite e h).trans (placed _)
    · exact placed e

theorem writeLog (d : Dev) (ev : Ev) (n : Nat) : Dev.IndexOnly 0x5C00 d (d.writeLog ev n) := by
  unfold Dev.writeLog
  exact (addReg d (by decide) 1).trans (tele _ _)

theorem flushLog (d : Dev) : Dev.IndexOnly 0x5C00 d d.flushLog := by
  unfold Dev.flushLog
  split
  · exact refl d
  · exact (tele _ _).trans (writeLog _ _ _)

theorem postLog (d : Dev) (ev : Ev) : Dev.IndexOnly 0x5C00 d (d.postLog ev) := by
  have placed : ∀ d : Dev, Dev.IndexOnly 0x5C00 d
      (if d.reg 0x5C00 0x12 = 0 then d.writeLog ev 1 else { d with tele := { d.tele with staged := some (ev, 1) } }) := fun d => by
    split
    · exact writeLog _ _ _
    · exact tele _ _
  unfold Dev.postLog
  split
  · split
    · exact tele _ _
    · exact (flushLog d).trans (placed _)
  · exact placed d

end Dev.IndexOnly

/-- The rings that an event concerns are those of the four sites. -/
theorem Dev.ringsOf_lt (d : Dev) (ev : Ev) {h : Nat} (ring : h ∈ d.ringsOf ev) : h < 4 := by
  have site : ∀ p : Nat → Bool, h ∈ ((List.range 4).filter d.populated).filter p → h < 4 := fun p listed =>
    List.mem_range.mp (List.mem_of_mem_filter (List.mem_of_mem_filter listed))
  unfold Dev.ringsOf at ring
  split at ring
  · unfold Dev.owner at ring
    dsimp only at ring
    split at ring
    · cases ring
    · rw [List.mem_singleton.mp ring]
      exact Nat.mod_lt _ (by decide)
  · dsimp only at ring
    split at ring
    · exact site _ ring
    · split at ring <;> exact site _ ring

/-- An event leaves the entries of every index that is neither a site's nor the log's. -/
theorem Dev.reg_raise (d : Dev) {i a : Nat} (ha : a < 256) (site : ∀ h < 4, i ≠ 0x4800 + h) (log : i ≠ 0x5C00) (code kind id : Nat)
    (ctx place : Option Nat) (fields : List Nat) : (d.raise code kind id ctx place fields).reg i a = d.reg i a := by
  unfold Dev.raise
  extract_lets ev
  refine (Dev.IndexOnly.postLog _ _ i a ha log).trans ?_
  have below : ∀ h ∈ d.ringsOf ev, h < 4 := fun h => d.ringsOf_lt ev
  generalize d.ringsOf ev = rings at below
  clear_value ev
  induction rings generalizing d with
  | nil => rfl
  | cons h rest ih =>
    have first := Dev.IndexOnly.postSite d h ev i a ha (site h (below h List.mem_cons_self))
    rw [List.foldl_cons, ih _ fun g hg => below g (List.mem_cons_of_mem _ hg), first]

end Sys2Proof.Machine

/-! Collectives that fail, and what their handle keeps (R324, R502, R509). -/
namespace Sys2Proof.Machine
open Sys2Proof

/-! Handles. -/

@[simp] theorem Dev.handle?_updHandle_self {d : Dev} {h : Nat} {x : Handle} (open_ : d.handle? h = some x) (f : Handle → Handle) :
    (d.updHandle h f).handle? h = some (f x) := by
  simp only [Dev.updHandle, open_]
  exact Tbl.look?_put_self _ _ _

/-- The change of a handle is a change of the network interfaces only. -/
theorem Dev.updHandle_frame (d : Dev) (h : Nat) (f : Handle → Handle) : d.updHandle h f = { d with net := (d.updHandle h f).net } := by
  unfold Dev.updHandle
  split <;> rfl

theorem Dev.ctxs_updHandle (d : Dev) (h : Nat) (f : Handle → Handle) : (d.updHandle h f).ctxs = d.ctxs := by rw [Dev.updHandle_frame]

theorem Dev.reg_updHandle (d : Dev) (h : Nat) (f : Handle → Handle) : (d.updHandle h f).reg = d.reg := by
  rw [Dev.updHandle_frame]
  rfl

theorem EventOf.net {d e : Dev} (h : EventOf d e) : e.net = d.net := by rw [h.1]

theorem EventOf.ctxs {d e : Dev} (h : EventOf d e) : e.ctxs = d.ctxs := by rw [h.1]

theorem Dev.handle?_raiseCtx (d : Dev) (code c : Nat) (fields : List Nat) : (d.raiseCtx code c fields).handle? = d.handle? :=
  funext fun h => congrArg (fun n : Net => Tbl.look? h n.handles) (EventOf.raise _ _ _ _ _ _ _).net

theorem Dev.ctxs_raiseCtx (d : Dev) (code c : Nat) (fields : List Nat) : (d.raiseCtx code c fields).ctxs = d.ctxs :=
  (EventOf.raise _ _ _ _ _ _ _).ctxs

/-! The steps of a failure. -/

/-- A handle that the collective of a sequence has left, with its received data; its event was last raised at a time (R509). -/
def Handle.failed (x : Handle) (seq : Nat) (eventAt : Option Nat) : Handle :=
  { x with colls := x.colls.filter (fun c => c.seq ≠ seq), rx := x.rx.filter (fun m => m.seq ≠ seq), eventAt := eventAt }

/-- The part when a collective has left its handle: with it goes the norm that it was for (R324), or the chunks of its tensor. -/
def Dev.collLeft (d : Dev) (h epoch : Nat) (c : Coll) : Dev :=
  let d := d.updHandle h (fun x => { x with
    colls := x.colls.filter (fun k => k.seq ≠ c.seq), rx := x.rx.filter (fun m => m.seq ≠ c.seq) })
  let d := if c.op = 0x61 then
    (d.updUpd c.o.ctx.val (fun u => { u with norm := none })).raiseCtx 0x8604 c.o.ctx.val [c.o.ctx.val, epoch]
    else d
  if c.f.srcKind = 1 then d.updNet (fun n => { n with
    ready := n.ready.filter (fun r => !(r.ctx = c.o.ctx.val && r.tensor = c.f.tensor)) }) else d

/-- A failed command that waits for no wipe. -/
theorem Dev.markFailed_ctxs {d e : Dev} (ctxs : e.ctxs = d.ctxs) (c i seq : Nat) {f : Fail} (stall : f.stall = none) :
    (e.markFailed c i seq f).ctxs = (d.markFailed c i seq f).ctxs := by
  simp only [Dev.markFailed, stall, Dev.updIssued, Dev.updStream, Dev.updCtx, ctxs]

/-- The event of a failed collective is raised, and its time kept, or it is not due (R509). -/
theorem Dev.collEvent_cases (d : Dev) (h seq code rank : Nat) : d.collEvent h seq code rank = d ∨ ∃ t c,
    d.collEvent h seq code rank = (d.updHandle h fun x => { x with eventAt := t }).raiseCtx 0x8704 c [h, seq, code, rank] := by
  unfold Dev.collEvent
  split
  · exact .inl rfl
  next x _ =>
    extract_lets quiet
    cases quiet with
    | true => exact .inl rfl
    | false => exact .inr ⟨some d.now, x.ctx, rfl⟩

section Fails
variable {d : Dev} {h seq : Nat} {x : Handle} {c : Coll}

theorem Dev.failColl_absent (open_ : d.handle? h = some x) (absent : x.colls.find? (fun c => c.seq = seq) = none) (code rank : Nat) :
    d.failColl h seq code rank = d := by
  simp only [Dev.failColl, open_, absent]

variable (open_ : d.handle? h = some x)
include open_

theorem Dev.collEvent_handle (seq code rank : Nat) : ∃ t, (d.collEvent h seq code rank).handle? h = some { x with eventAt := t } := by
  rcases d.collEvent_cases h seq code rank with silent | ⟨t, c, told⟩
  · rw [silent]
    exact ⟨x.eventAt, open_⟩
  · refine ⟨t, ?_⟩
    rw [told, Dev.handle?_raiseCtx]
    exact Dev.handle?_updHandle_self open_ _

theorem Dev.collLeft_handle (epoch : Nat) : (d.collLeft h epoch c).handle? h = some (x.failed c.seq x.eventAt) := by
  have left := Dev.handle?_updHandle_self open_ fun x => { x with
    colls := x.colls.filter (fun k => k.seq ≠ c.seq), rx := x.rx.filter (fun m => m.seq ≠ c.seq) }
  unfold Dev.collLeft
  dsimp only
  generalize d.updHandle h _ = e at left ⊢
  have normless : (if c.op = 0x61 then (e.updUpd c.o.ctx.val (fun u => { u with norm := none })).raiseCtx 0x8604 c.o.ctx.val
      [c.o.ctx.val, epoch] else e).handle? h = e.handle? h := by
    split
    · rw [Dev.handle?_raiseCtx]
      rfl
    · rfl
  refine Eq.trans ?_ (normless.trans left)
  split <;> rfl

end Fails

theorem Dev.collLeft_ctxs (d : Dev) (h epoch : Nat) (c : Coll) : (d.collLeft h epoch c).ctxs = d.ctxs := by
  have left := d.ctxs_updHandle h fun x => { x with
    colls := x.colls.filter (fun k => k.seq ≠ c.seq), rx := x.rx.filter (fun m => m.seq ≠ c.seq) }
  unfold Dev.collLeft
  dsimp only
  generalize d.updHandle h _ = e at left ⊢
  have normless : (if c.op = 0x61 then (e.updUpd c.o.ctx.val (fun u => { u with norm := none })).raiseCtx 0x8604 c.o.ctx.val
      [c.o.ctx.val, epoch] else e).ctxs = e.ctxs := by
    split
    · exact Dev.ctxs_raiseCtx _ _ _ _
    · rfl
  refine Eq.trans ?_ (normless.trans left)
  split <;> rfl

theorem Dev.ctxs_collEvent (d : Dev) (h seq code rank : Nat) : (d.collEvent h seq code rank).ctxs = d.ctxs := by
  rcases d.collEvent_cases h seq code rank with silent | ⟨t, c, told⟩
  · rw [silent]
  · rw [told, Dev.ctxs_raiseCtx, Dev.ctxs_updHandle]

/-- A failure, step by step: the collective leaves its handle, its command fails, the event is raised (R509). -/
theorem Dev.failColl_found {d : Dev} {h seq : Nat} {x : Handle} {c : Coll} (open_ : d.handle? h = some x)
    (found : x.colls.find? (fun c => c.seq = seq) = some c) (code rank : Nat) :
    d.failColl h seq code rank = ((d.collLeft h x.epoch c).markFailed c.o.ctx.val c.o.stream.val c.o.seq
      ⟨2, code, false, none⟩).collEvent h seq code rank := by
  have own : c.seq = seq := of_decide_eq_true (List.find?_some found :)
  subst own
  simp only [Dev.failColl, open_, found, Dev.collLeft]

/-- A collective that fails leaves its handle with its received data. -/
theorem Dev.failColl_handle {d : Dev} {h seq : Nat} {x : Handle} {c : Coll} (open_ : d.handle? h = some x)
    (found : x.colls.find? (fun c => c.seq = seq) = some c) (code rank : Nat) :
    ∃ t, (d.failColl h seq code rank).handle? h = some (x.failed seq t) := by
  have own : c.seq = seq := of_decide_eq_true (List.find?_some found :)
  have left := Dev.collLeft_handle (c := c) open_ x.epoch
  rw [own] at left
  have marked : ((d.collLeft h x.epoch c).markFailed c.o.ctx.val c.o.stream.val c.o.seq ⟨2, code, false, none⟩).handle? h =
      some (x.failed seq x.eventAt) := left
  rw [Dev.failColl_found open_ found]
  exact Dev.collEvent_handle marked seq code rank

/-- The command of a collective that fails, fails with its code; what failed before stays as it was (R509). -/
theorem Dev.failColl_command {d : Dev} {h seq : Nat} {x : Handle} {c : Coll} (open_ : d.handle? h = some x)
    (found : x.colls.find? (fun c => c.seq = seq) = some c) (code rank : Nat) :
    ∀ e ∈ ((d.failColl h seq code rank).stream c.o.ctx.val c.o.stream.val).run, e.seq = c.o.seq →
      2 ≤ e.status ∧ (e.status = 2 → e.fail.code = code ∨ ∃ g ∈ (d.stream c.o.ctx.val c.o.stream.val).run, g = e) := by
  have ctxs : (d.failColl h seq code rank).ctxs =
      (d.markFailed c.o.ctx.val c.o.stream.val c.o.seq ⟨2, code, false, none⟩).ctxs := by
    rw [Dev.failColl_found open_ found, Dev.ctxs_collEvent]
    exact Dev.markFailed_ctxs (d.collLeft_ctxs h x.epoch c) _ _ _ rfl
  have same : (d.failColl h seq code rank).stream c.o.ctx.val c.o.stream.val =
      (d.markFailed c.o.ctx.val c.o.stream.val c.o.seq ⟨2, code, false, none⟩).stream c.o.ctx.val c.o.stream.val :=
    congrArg (fun t : Tbl Ctx => (Tbl.look Ctx.reset c.o.ctx.val t).streams.getD c.o.stream.val Stream.reset) ctxs
  rw [same]
  intro e he own
  by_cases present : c.o.stream.val < (d.ctx c.o.ctx.val).streams.length
  · simp only [Dev.markFailed, Dev.updIssued, Dev.stream_updStream_self _ present, List.mem_map] at he
    obtain ⟨g, hg, rfl⟩ := he
    split at own
    next mine =>
      rw [if_pos mine]
      split
      · exact ⟨le_refl 2, fun _ => .inl rfl⟩
      next finished =>
        simp only [Bool.or_eq_true, decide_eq_true_eq, not_or] at finished
        exact ⟨by omega, fun _ => .inr ⟨g, hg, rfl⟩⟩
    next other => exact absurd own other
  · have absent : ((d.markFailed c.o.ctx.val c.o.stream.val c.o.seq ⟨2, code, false, none⟩).ctx c.o.ctx.val).streams.length ≤
        c.o.stream.val := by
      simpa [Dev.markFailed, Dev.updIssued, Dev.length_streams_updStream] using present
    rw [Dev.stream, List.getD_eq_default _ _ absent] at he
    cases he

/-- A failing collective leaves the entries of every index that is neither a site's nor the log's. -/
theorem Dev.reg_failColl (d : Dev) {i a : Nat} (ha : a < 256) (site : ∀ h < 4, i ≠ 0x4800 + h) (log : i ≠ 0x5C00)
    (h seq code rank : Nat) : (d.failColl h seq code rank).reg i a = d.reg i a := by
  cases open_ : d.handle? h with
  | none => simp only [Dev.failColl, open_]
  | some x =>
    cases found : x.colls.find? (fun c => c.seq = seq) with
    | none => rw [Dev.failColl_absent open_ found]
    | some c =>
      have event : ∀ e : Dev, (e.collEvent h seq code rank).reg i a = e.reg i a := fun e => by
        rcases e.collEvent_cases h seq code rank with silent | ⟨t, c, told⟩
        · rw [silent]
        · rw [told, Dev.raiseCtx, Dev.reg_raise _ ha site log, Dev.reg_updHandle]
      have left : (d.collLeft h x.epoch c).reg i a = d.reg i a := by
        unfold Dev.collLeft
        extract_lets e f
        have norm : f.reg i a = e.reg i a := by
          unfold f
          split
          · exact Dev.reg_raise _ ha site log _ _ _ _ _ _
          · rfl
        refine Eq.trans ?_ (norm.trans (congrFun₂ (Dev.reg_updHandle _ _ _) _ _))
        split <;> rfl
      rw [Dev.failColl_found open_ found, event]
      exact left

/-! Every collective of a handle. -/

/-- A handle without what its failing collectives change. -/
def Handle.quiet (x : Handle) : Handle := { x with colls := [], rx := [], eventAt := none }

/-- Collectives that fail one by one leave their handle with those of other sequences. -/
theorem Dev.failColls_handle (h code rank : Nat) (l : List Coll) : ∀ {d : Dev} {x : Handle}, d.handle? h = some x →
    ∃ y, (l.foldl (fun d c => d.failColl h c.seq code rank) d).handle? h = some y ∧
      y.colls = x.colls.filter (fun c => c.seq ∉ l.map Coll.seq) ∧ y.quiet = x.quiet := by
  induction l with
  | nil => exact fun open_ => ⟨_, open_, by simp, rfl⟩
  | cons c rest ih =>
    intro d x open_
    have first : ∃ y, (d.failColl h c.seq code rank).handle? h = some y ∧ y.colls = x.colls.filter (fun k => k.seq ≠ c.seq) ∧
        y.quiet = x.quiet := by
      cases found : x.colls.find? (fun k => k.seq = c.seq) with
      | none =>
        rw [Dev.failColl_absent open_ found]
        refine ⟨x, open_, (List.filter_eq_self.mpr fun k hk => ?_).symm, rfl⟩
        simpa using List.find?_eq_none.mp found k hk
      | some k =>
        obtain ⟨t, left⟩ := Dev.failColl_handle open_ found code rank
        exact ⟨_, left, rfl, rfl⟩
    obtain ⟨y, open', colls, quiet⟩ := first
    obtain ⟨z, last, kept, still⟩ := ih open'
    refine ⟨z, last, ?_, still.trans quiet⟩
    rw [kept, colls, List.filter_filter]
    refine List.filter_congr fun k _ => ?_
    simp only [List.map_cons, List.mem_cons, not_or, Bool.decide_and]
    exact Bool.and_comm _ _

/-- A handle whose collectives have all failed has none in progress. -/
theorem Dev.failHandle_handle {d : Dev} {h : Nat} {x : Handle} (open_ : d.handle? h = some x) (code rank : Nat) :
    ∃ y, (d.failHandle h code rank).2.handle? h = some y ∧ y.colls = [] ∧ y.quiet = x.quiet := by
  obtain ⟨y, left, colls, quiet⟩ := Dev.failColls_handle h code rank x.colls open_
  refine ⟨y, ?_, ?_, quiet⟩
  · simpa only [Dev.failHandle, open_] using left
  · rw [colls]
    refine List.filter_eq_nil_iff.mpr fun c hc => ?_
    simpa using ⟨c, hc, rfl⟩

theorem Dev.reg_failHandle (d : Dev) {i a : Nat} (ha : a < 256) (site : ∀ h < 4, i ≠ 0x4800 + h) (log : i ≠ 0x5C00)
    (h code rank : Nat) : (d.failHandle h code rank).2.reg i a = d.reg i a := by
  unfold Dev.failHandle
  split
  · rfl
  · exact foldl_keeps (fun e : Dev => e.reg i a = d.reg i a) (fun e c kept => (e.reg_failColl ha site log _ _ _ _).trans kept) _ _ rfl

end Sys2Proof.Machine

/-! CHANDLE by its action, the answers that reach a handle, and the statement about handles (R493, R498 to R504, R507, R509, R518,
R627). -/
namespace Sys2Proof.Machine
open Sys2Proof

/-! CHANDLE (R498). -/

theorem handleBad_reserved {action : Nat} {f : HandleF} (good : handleBad action f = false) : f.reserved = 0 := by
  by_contra set
  simp [handleBad, set] at good

section Chandle
variable {o : Origin} {f : HandleF} {w : Wd} (sound : plain o w.dev)
include sound

/-- Behind a sound header and good fields an action sees the part as it is. -/
theorem chandle_head {action : Nat} (good : handleBad action f = false) (k : Dev → Act Bool) :
    (do plainHeader o (f.reserved % two64)
        Act.refuseIf (handleBad action f) 0x0701
        let d ← Act.dev
        k d) w = k w.dev w := by
  have header : plainHeader o (f.reserved % two64) w = (.ok (), w) := by
    rw [handleBad_reserved good]
    exact plainHeader_sound sound
  exact (Act.bind_ok header _).trans ((Act.bind_ok (Act.refuseIf_false good _ _) _).trans (Act.bind_ok (a := Act.dev) rfl _))

section Opens
variable (free : w.dev.handle? f.handle = none) (room : w.dev.net.handles.length < 256)
include free room

omit sound in
theorem handle_free : ((w.dev.handle? f.handle).isSome || decide (256 ≤ w.dev.net.handles.length)) = false := by
  simp [free, room]

theorem chandle_openJob (good : handleBad 1 f = false) {epoch n rank : Nat} {ms : List Nat} {w' : Wd}
    (read : readMembers o.ctx.val f.table f.job w = (.ok (epoch, n, rank, ms), w')) :
    chandle 1 o f w = (.ok true, ⟨w'.mem, w'.dev.openHandle f.handle
      { Handle.fresh 0 o.ctx.val f with epoch := epoch, n := n, rank := rank, members := ms }⟩) :=
  (chandle_head sound good _).trans ((Act.bind_ok (Act.refuseIf_false (handle_free free room) _ _) _).trans (Act.bind_ok read _))

theorem chandle_openStorage (good : handleBad 2 f = false) {r : Nat} {w' : Wd}
    (read : vreadNat (netUse o.ctx.val) f.table 32 w = (.ok r, w')) (clear : bits (bytesAt r 16 4) 31 24 = 0) :
    chandle 2 o f w = (.ok true, ⟨w'.mem, w'.dev.openHandle f.handle
      { Handle.fresh 1 o.ctx.val f with store := r, sub := (w.dev.activeSubs.filter (fun x => x < 24)).headD 0 }⟩) :=
  (chandle_head sound good _).trans ((Act.bind_ok (Act.refuseIf_false (handle_free free room) _ _) _).trans
    ((Act.bind_ok read _).trans (Act.bind_ok (Act.refuseIf_false (by simp [clear]) _ _) _)))

end Opens

section Own
variable {x : Handle} (open_ : w.dev.handle? f.handle = some x) (mine : x.ctx = o.ctx.val)
include open_ mine

omit sound in
/-- An action finds the handle of its own context, of the kind that it asks for (R501). -/
theorem ownHandle_mine {job : Bool} (kind : job = true → x.kind = 0) : ownHandle o.ctx.val f.handle job w = (.ok x, w) := by
  have admits : (decide (x.ctx = o.ctx.val) && (!job || decide (x.kind = 0))) = true := by
    cases job
    · simp [mine]
    · simp [mine, kind]
  refine (Act.bind_ok (a := Act.dev) rfl _).trans ?_
  simp only [open_, admits, if_true]
  rfl

theorem chandle_close (good : handleBad 3 f = false) : chandle 3 o f w = (.ok true, ⟨w.mem, w.dev.closeHandle f.handle⟩) :=
  (chandle_head sound good _).trans (Act.bind_ok (ownHandle_mine open_ mine (by simp)) _)

variable (job : x.kind = 0)
include job

theorem chandle_bindEmit (good : handleBad 5 f = false) {bs : List Nat} {w' : Wd}
    (read : vread (netUse o.ctx.val) f.table 128 w = (.ok bs, w')) :
    chandle 5 o f w = (.ok true, ⟨w'.mem, w'.dev.updHandle f.handle fun x =>
      { x with binds := Tbl.put f.emit ((chunksOf 4 bs).map leNat) x.binds }⟩) :=
  (chandle_head sound good _).trans ((Act.bind_ok (ownHandle_mine open_ mine fun _ => job) _).trans (Act.bind_ok read _))

end Own
end Chandle

/-! A new epoch (R503). -/

/-- The part when a handle has taken over the members of a new epoch: its collectives have failed, and where it was the last epoch that
a rolled-back context waited for, the context awaits its turn. -/
def Dev.takeEpoch (d : Dev) (c h : Nat) (old : Handle) (epoch n rank : Nat) (members : List Nat) : Dev :=
  let (failed, d) := d.failHandle h 0x0703 old.rank
  let d := d.updHandle h (fun x => { x with
    rx := [], flows := [], seq := 0, epoch := epoch, n := n, rank := rank, members := members })
  let d := d.updCtx c (fun k => { k with rep := { k.rep with awaitEpochs := k.rep.awaitEpochs.erase h } })
  let r := (d.ctx c).rep
  let d := if r.rolled && r.awaitEpochs.isEmpty && d.ctxReg c 0x28 = 3 then d.setReg (0x4000 + c) 0x28 1 else d
  d.raiseCtx 0x8702 c [h, old.epoch, epoch, failed]

theorem chandle_newEpoch {o : Origin} {f : HandleF} {w w' : Wd} {x : Handle} (sound : plain o w.dev)
    (open_ : w.dev.handle? f.handle = some x) (mine : x.ctx = o.ctx.val) (job : x.kind = 0) (good : handleBad 4 f = false)
    {epoch n rank : Nat} {ms : List Nat} (later : x.epoch < epoch)
    (read : readMembers o.ctx.val f.table x.job w = (.ok (epoch, n, rank, ms), w')) :
    chandle 4 o f w = (.ok true, ⟨w'.mem, w'.dev.takeEpoch o.ctx.val f.handle x epoch n rank ms⟩) := by
  have begun : newEpoch o.ctx.val f w = (.ok (), ⟨w'.mem, w'.dev.takeEpoch o.ctx.val f.handle x epoch n rank ms⟩) :=
    (Act.bind_ok (ownHandle_mine open_ mine fun _ => job) _).trans ((Act.bind_ok read _).trans
      (Act.bind_ok (Act.refuseIf_false (by simpa using later) _ _) _))
  exact (chandle_head sound good _).trans (Act.bind_ok begun _)

/-- The handle is then that of the new epoch, with nothing under way on it. -/
theorem Dev.takeEpoch_handle {d : Dev} {c h : Nat} {x : Handle} (open_ : d.handle? h = some x) (epoch n rank : Nat) (ms : List Nat) :
    ∃ y, (d.takeEpoch c h x epoch n rank ms).handle? h = some y ∧ y.epoch = epoch ∧ y.n = n ∧ y.rank = rank ∧ y.members = ms ∧
      y.colls = [] ∧ y.rx = [] ∧ y.flows = [] ∧ y.seq = 0 ∧ y.job = x.job ∧ y.ctx = x.ctx := by
  obtain ⟨y, left, colls, quiet⟩ := Dev.failHandle_handle open_ 0x0703 x.rank
  refine ⟨{ y with rx := [], flows := [], seq := 0, epoch := epoch, n := n, rank := rank, members := ms }, ?_, rfl, rfl, rfl, rfl,
    colls, rfl, rfl, rfl, (congrArg Handle.job quiet :), (congrArg Handle.ctx quiet :)⟩
  have taken := Dev.handle?_updHandle_self left fun x => { x with
    rx := [], flows := [], seq := 0, epoch := epoch, n := n, rank := rank, members := ms }
  unfold Dev.takeEpoch
  dsimp only
  rw [Dev.handle?_raiseCtx, ← taken]
  split <;> rfl

/-! What reaches an open handle. -/

section Received
variable {s : State} {h rank : Nat} {x : Handle} (open_ : s.dev.handle? h = some x)
include open_

/-- A peer's later epoch fails every collective of the handle, which keeps its own epoch (R504). -/
theorem exec_epochResponse_ahead {epoch : Nat} (job : x.kind = 0) (ahead : x.epoch < epoch) :
    exec (.epochResponseReceive h rank epoch) s = .next (s.onDev fun d =>
      (d.failHandle h 0x0703 rank).2.raiseCtx 0x8703 x.ctx [h, rank, epoch]) :=
  congrArg Host.Outcome.next (State.onDev_congr (by simp [open_, job, ahead]))

theorem exec_epochResponse_known {epoch : Nat} (known : epoch ≤ x.epoch) : exec (.epochResponseReceive h rank epoch) s = .next s :=
  congrArg Host.Outcome.next (State.onDev_same (by simp [open_, Nat.not_lt.mpr known]))

/-- A fault notice of the handle's epoch is counted and fails every collective (R627). -/
theorem exec_faultNotice_own (job : x.kind = 0) (kind : Nat) :
    exec (.faultNoticeReceive h x.epoch rank kind) s = .next (s.onDev fun d =>
      ((d.incReg 0x5400 0x0D).failHandle h 0x070A rank).2.raiseCtx 0x8102 x.ctx [h, rank, kind]) :=
  congrArg Host.Outcome.next (State.onDev_congr (by simp [open_, job]))

theorem exec_faultNotice_other {epoch : Nat} (job : x.kind = 0) (other : epoch ≠ x.epoch) (kind : Nat) :
    exec (.faultNoticeReceive h epoch rank kind) s = .next (s.onDev fun d =>
      (d.incReg 0x1100 0x0A).control h rank (if epoch < x.epoch then 3 else 4) [x.epoch]) :=
  congrArg Host.Outcome.next (State.onDev_congr (by simp [open_, job, other, Dev.wrongEpoch]))

/-- A digest mismatch and a timeout each fail the collective of their sequence (R507, R509). -/
theorem exec_collFails {seq code : Nat} {i : Instr}
    (row : (i, code) ∈ [(Instr.digestMismatchResponse h rank seq, 0x0704), (Instr.collectiveTimeout h seq, 0x0705)]) :
    ∃ member, exec i s = .next (s.onDev fun d => d.failColl h seq code member) := by
  simp only [List.mem_cons, List.not_mem_nil, or_false] at row
  rcases row with ⟨rfl, rfl⟩ | ⟨rfl, rfl⟩
  · exact ⟨rank, rfl⟩
  · exact ⟨x.rank, congrArg Host.Outcome.next (State.onDev_congr (by simp only [open_]))⟩

variable (store : x.kind = 1)
include store

theorem exec_storageAck_upTo (seq : Nat) : exec (.storageAckReceive h seq 0) s = .next (s.onDev fun d => d.updHandle h fun x =>
    { x with unacked := x.unacked.filter (fun p => 0 < (p.1 + 2 ^ 24 - seq) % 2 ^ 24 && (p.1 + 2 ^ 24 - seq) % 2 ^ 24 < 2 ^ 23) }) :=
  congrArg Host.Outcome.next (by simp only [storageAck, open_, store, ne_eq, not_true_eq_false, if_false])

theorem exec_storageAck_again (seq : Nat) : exec (.storageAckReceive h seq 1) s = .next (s.onDev fun d => d.goBack h seq) :=
  congrArg Host.Outcome.next (by simp only [storageAck, open_, store, ne_eq, not_true_eq_false, if_false])

/-- The store's own error ends the handle; without an image it fails none (R493). -/
theorem exec_storageAck_error {k : Nat} (error : 2 ≤ k) (idle : (s.dev.upd x.ctx).sec = none) (seq : Nat) :
    exec (.storageAckReceive h seq k) s = .next (s.onDev fun d => d.updHandle h fun x => { x with bad := true, unacked := [] }) := by
  obtain ⟨k, rfl⟩ := Nat.exists_eq_add_of_le' error
  have still : ((s.dev.updHandle h fun x => { x with bad := true, unacked := [] }).upd x.ctx).sec = none := by
    rw [Dev.upd_updHandle, idle]
  exact congrArg Host.Outcome.next (by
    simp only [storageAck, open_, store, ne_eq, not_true_eq_false, if_false, State.onDev_dev, still, Bool.false_eq_true])

end Received

/-- Settles O19: each action of CHANDLE by what its work leaves, each answer by what it leaves of the handle. -/
theorem handlesLive : Obligations.handlesLive := by
  constructor
  · intro s o f fit sound c at_ done
    refine ⟨?_, ?_, fun x open_ mine => ⟨?_, ?_, ?_⟩⟩
    · intro good free room epoch n rank ms w read
      obtain ⟨dev, mem, persist, pending⟩ := State.issueCmd_work (chandle_openJob (plain.atUnit _ _ _ sound) free room good read)
      exact ⟨_, rfl, dev, (congrArg (fun d : Dev => d.handle? f.handle) dev).trans (Tbl.look?_put_self _ _ _), mem, persist, pending⟩
    · intro good free room r w read clear
      obtain ⟨dev, mem, persist, pending⟩ :=
        State.issueCmd_work (chandle_openStorage (plain.atUnit _ _ _ sound) free room good read clear)
      exact ⟨_, rfl, _, dev, (congrArg (fun d : Dev => d.handle? f.handle) dev).trans (Tbl.look?_put_self _ _ _), mem, persist, pending⟩
    · intro good
      obtain ⟨dev, mem, persist, pending⟩ := State.issueCmd_work (chandle_close (plain.atUnit _ _ _ sound) open_ mine good)
      exact ⟨_, rfl, dev, (congrArg (fun d : Dev => d.handle? f.handle) dev).trans (Tbl.look?_del_self _ _), pending, persist, mem⟩
    · intro good job epoch n rank ms w later read kept
      obtain ⟨dev, mem, persist, pending⟩ :=
        State.issueCmd_work (chandle_newEpoch (plain.atUnit _ _ _ sound) open_ mine job good later read)
      obtain ⟨y, taken, rest⟩ := Dev.takeEpoch_handle (c := c) kept epoch n rank ms
      exact ⟨_, rfl, mem, persist, pending, y, (congrArg (fun d : Dev => d.handle? f.handle) dev).trans taken, rest⟩
    · intro good job bs w read
      obtain ⟨dev, mem, persist, pending⟩ := State.issueCmd_work (chandle_bindEmit (plain.atUnit _ _ _ sound) open_ mine job good read)
      exact ⟨_, rfl, dev, mem, persist, pending⟩
  · intro s h rank x open_
    refine ⟨fun job => ⟨fun epoch ahead => ?_, fun epoch => exec_epochResponse_known open_, fun kind => ?_,
      fun epoch kind other => exec_faultNotice_other open_ job other kind⟩, ?_,
      fun store seq => ⟨?_, exec_storageAck_again open_ store seq, ?_⟩⟩
    · obtain ⟨y, left, colls, quiet⟩ := Dev.failHandle_handle open_ 0x0703 rank
      refine ⟨_, exec_epochResponse_ahead open_ job ahead, State.sameStore_onDev _ _, y, ?_, colls, (congrArg Handle.epoch quiet :)⟩
      rw [State.onDev_dev, Dev.handle?_raiseCtx, left]
    · obtain ⟨y, left, colls, quiet⟩ := Dev.failHandle_handle (d := s.dev.incReg 0x5400 0x0D) open_ 0x070A rank
      refine ⟨_, exec_faultNotice_own open_ job kind, State.sameStore_onDev _ _,
        ⟨y, ?_, colls, (congrArg Handle.epoch quiet :)⟩, ?_⟩
      · rw [State.onDev_dev, Dev.handle?_raiseCtx, left]
      · rw [State.onDev_dev, Dev.raiseCtx, Dev.reg_raise _ (by decide) (by omega) (by decide),
          Dev.reg_failHandle _ (by decide) (by omega) (by decide), Dev.reg_incReg_self]
        rfl
    · intro seq c i code row found
      obtain ⟨member, run⟩ := exec_collFails open_ row
      obtain ⟨t, left⟩ := Dev.failColl_handle open_ found code member
      exact ⟨_, run, State.sameStore_onDev _ _, ⟨_, left, rfl, rfl⟩, Dev.failColl_command open_ found code member⟩
    · exact ⟨_, exec_storageAck_upTo open_ store seq, State.sameStore_onDev _ _, _, Dev.handle?_updHandle_self open_ _, rfl⟩
    · intro k error idle
      exact ⟨_, exec_storageAck_error open_ store error idle seq, State.sameStore_onDev _ _, _,
        Dev.handle?_updHandle_self open_ _, rfl, rfl⟩

end Sys2Proof.Machine

/-! Byte strings, sorted lists, and what sending frames and packets changes of the ports. -/
namespace Sys2Proof.Machine
open Sys2Proof

/-! Byte strings held as numbers. -/

/-- A replaced field stands on the bits below it, with those above it on top. -/
theorem setBits_eq {hi lo : Nat} (h : lo ≤ hi + 1) (v f : Nat) : setBits v hi lo f =
    2 ^ lo * (2 ^ (hi + 1 - lo) * (v >>> (hi + 1)) + f % 2 ^ (hi + 1 - lo)) + v % 2 ^ lo := by
  have whole : 2 ^ (hi + 1) = 2 ^ lo * 2 ^ (hi + 1 - lo) := by rw [← pow_add, Nat.add_sub_cancel' h]
  simp only [setBits, Nat.shiftLeft_eq, whole]
  ring

theorem bytesAt_setBytesAt_self {n x : Nat} (positive : 0 < n) (small : x < 256 ^ n) (v off : Nat) :
    bytesAt (setBytesAt v off n x) off n = x := by
  have width : 8 * (off + n) - 1 + 1 - 8 * off = 8 * n := by omega
  have bound : x < 2 ^ (8 * n) := by rwa [pow_mul]
  rw [bytesAt, setBytesAt, if_neg (by omega), setBits_eq (by omega), width, Nat.shiftRight_eq_div_pow,
    Nat.mul_add_div (by positivity), Nat.div_eq_of_lt (Nat.mod_lt _ (by positivity)), Nat.add_zero, Nat.mul_add_mod, Nat.mod_mod,
    Nat.mod_eq_of_lt bound]

/-- Bytes below those that are replaced stay. -/
theorem bytesAt_setBytesAt_below {off n at_ : Nat} (below : off + n ≤ at_) (v m x : Nat) :
    bytesAt (setBytesAt v at_ m x) off n = bytesAt v off n := by
  have low : setBytesAt v at_ m x % 2 ^ (8 * at_) = v % 2 ^ (8 * at_) := by
    unfold setBytesAt
    split
    · rfl
    · rw [setBits_eq (by omega), Nat.mul_add_mod, Nat.mod_mod]
  have divides : 2 ^ (8 * off) * 2 ^ (8 * n) ∣ 2 ^ (8 * at_) := by
    rw [← pow_add]
    exact pow_dvd_pow 2 (by omega)
  have cut : ∀ u, bytesAt u off n = u % 2 ^ (8 * at_) % (2 ^ (8 * off) * 2 ^ (8 * n)) / 2 ^ (8 * off) := fun u => by
    rw [Nat.mod_mod_of_dvd _ divides, Nat.mod_mul_right_div_self, bytesAt, Nat.shiftRight_eq_div_pow]
  rw [cut, cut, low]

/-! Sorted lists. -/

theorem sortBy_perm {α : Type} (key : α → Nat) (l : List α) : (sortBy key l).Perm l := by
  have placed : ∀ (x : α) (t : List α), (sortBy.ins key x t).Perm (x :: t) := fun x t => by
    induction t with
    | nil => exact .refl _
    | cons y t ih =>
      unfold sortBy.ins
      split
      · exact (ih.cons y).trans (.swap x y t)
      · exact .refl _
  induction l with
  | nil => exact .refl _
  | cons x l ih => exact (placed x _).trans (ih.cons x)

/-! Ports. -/

@[simp] theorem Dev.port_updPort_self (d : Dev) (n : Nat) (f : Port → Port) : (d.updPort n f).port n = f (d.port n) := by
  simp [Dev.port, Dev.updPort, Dev.updNet]

theorem Dev.port_updPort_ne (d : Dev) {n m : Nat} (h : m ≠ n) (f : Port → Port) : (d.updPort n f).port m = d.port m := by
  simp [Dev.port, Dev.updPort, Dev.updNet, Tbl.look_upd_ne _ h]

/-- A port without the count of its bytes, which each frame and packet advances. -/
def Port.still (p : Port) : Port := { p with bytes := 0 }

/-- `e` is `d` but for what sending writes: of the ports and of the entries the counts only. -/
structure Dev.SendOf (d e : Dev) : Prop where
  ports : ∀ n, (e.port n).still = (d.port n).still
  regs : Dev.RegsOff [0x09, 0x0B] d e

namespace Dev.SendOf

theorem refl (d : Dev) : Dev.SendOf d d := ⟨fun _ => rfl, .refl _ d⟩

theorem trans {a b c : Dev} (h : Dev.SendOf a b) (k : Dev.SendOf b c) : Dev.SendOf a c :=
  ⟨fun n => (k.ports n).trans (h.ports n), h.regs.trans k.regs⟩

theorem foldl {β : Type} {f : Dev → β → Dev} (hf : ∀ d b, Dev.SendOf d (f d b)) (l : List β) (d : Dev) :
    Dev.SendOf d (l.foldl f d) :=
  foldl_keeps (Dev.SendOf d) (fun e b h => h.trans (hf e b)) l d (refl d)

theorem incReg (d : Dev) (i : Nat) {a : Nat} (ha : a < 256) (listed : a ∈ [0x09, 0x0B]) : Dev.SendOf d (d.incReg i a) :=
  ⟨fun _ => rfl, Dev.RegsOff.incReg d i ha listed⟩

theorem out (d : Dev) (x : Out) : Dev.SendOf d (d.out x) := ⟨fun _ => rfl, .of_regs rfl rfl⟩

theorem draw (d : Dev) : Dev.SendOf d d.draw.2 := ⟨fun _ => rfl, .of_regs rfl rfl⟩

theorem bytes (d : Dev) (m k : Nat) : Dev.SendOf d (d.updPort m fun p => { p with bytes := p.bytes + k }) := by
  refine ⟨fun n => ?_, .of_regs rfl rfl⟩
  by_cases h : n = m
  · subst h
    rw [Dev.port_updPort_self]
    rfl
  · rw [Dev.port_updPort_ne d h]

theorem updHandle (d : Dev) (h : Nat) (f : Handle → Handle) : Dev.SendOf d (d.updHandle h f) := by
  refine ⟨fun n => ?_, fun i a _ _ => congrFun₂ (d.reg_updHandle h f) i a⟩
  unfold Dev.updHandle
  split <;> rfl

theorem sendFrame (d : Dev) (sub kind : Nat) (fields : List Nat) (n : Nat) : Dev.SendOf d (d.sendFrame sub kind fields n) :=
  ((incReg d _ (by decide) (by decide)).trans (bytes _ _ n)).trans (out _ _)

/-- A packet that leaves counts at its port. -/
theorem transmit {d e : Dev} {h rank : Nat} {f g : Flow} {p q : Pkt} (sent : d.transmit h rank f p = some (q, g, e)) :
    Dev.SendOf d e := by
  unfold Dev.transmit at sent
  split at sent
  · cases sent
  · simp only [Option.some.injEq] at sent
    obtain ⟨-, -, rfl⟩ := sent
    exact ((incReg d _ (by decide) (by decide)).trans (bytes _ _ _)).trans (out _ _)

theorem pump (d : Dev) (h rank : Nat) : Dev.SendOf d (d.pump h rank) := by
  unfold Dev.pump
  split
  · exact refl d
  · extract_lets f
    generalize start : (if f.win.isNone && !f.wait.isEmpty then d.draw else (d.fresh, d)) = r
    have drawn : Dev.SendOf d r.2 := by
      rw [← start]
      split
      · exact draw d
      · exact refl d
    dsimp only
    refine (drawn.trans ?_).trans (updHandle _ _ _)
    refine foldl_keeps (fun acc : Flow × Dev × Nat × List Pkt => Dev.SendOf r.2 acc.2.1) (fun acc p kept => ?_) _ _ (refl _)
    obtain ⟨g, e, n, waits⟩ := acc
    dsimp only at kept ⊢
    split
    · exact kept
    · split
      · exact kept
      next sent => exact kept.trans (transmit sent)

theorem resend (d : Dev) (h rank psn : Nat) : Dev.SendOf d (d.resend h rank psn) := by
  unfold Dev.resend
  split
  · exact refl d
  · dsimp only
    split
    · exact refl d
    · split
      · exact updHandle _ _ _
      next sent => exact ((transmit sent).trans (incReg _ _ (by decide) (by decide))).trans (updHandle _ _ _)

theorem resendFrom (d : Dev) (subs : List Nat) : Dev.SendOf d (d.resendFrom subs) := by
  unfold Dev.resendFrom
  exact foldl (fun d _ => foldl (fun d _ => foldl (fun d _ => resend d _ _ _) _ d) _ d) _ d

theorem pumpAll (d : Dev) : Dev.SendOf d d.pumpAll := by
  unfold Dev.pumpAll
  exact foldl (fun d _ => foldl (fun d _ => pump d _ _) _ d) _ d

theorem askGateway (d : Dev) (n k : Nat) : Dev.SendOf d (d.askGateway n k) := by
  have asks : ∀ (c : Prop) [Decidable c] (d : Dev) (fields : List Nat) (len : Nat),
      Dev.SendOf d (if c then d else d.sendFrame (4 * n + k) 4 fields len) := fun c _ d fields len => by
    split
    · exact refl d
    · exact sendFrame _ _ _ _ _
  exact (asks _ d _ _).trans (asks _ _ _ _)

variable {d e : Dev} (sent : Dev.SendOf d e)
include sent

theorem up (n : Nat) : (e.port n).up = (d.port n).up := (congrArg Port.up (sent.ports n) :)

theorem paused (n : Nat) : (e.port n).paused = (d.port n).paused := (congrArg Port.paused (sent.ports n) :)

theorem retraining (n : Nat) : (e.port n).retraining = (d.port n).retraining := (congrArg Port.retraining (sent.ports n) :)

theorem lanes (n : Nat) : (e.port n).lanes = (d.port n).lanes := (congrArg Port.lanes (sent.ports n) :)

theorem fn (i : Nat) : e.fn i = d.fn i := congrArg (· % 4) (sent.regs i 0x02 (by decide) (by decide))

theorem subPorts (n : Nat) : e.subPorts n = d.subPorts n :=
  congrArg (fun m => 1 <<< (m % 4)) (sent.regs (0x2C00 + n) 0x03 (by decide) (by decide))

end Dev.SendOf

end Sys2Proof.Machine

/-! Ports, their links, received frames and the timebase, and the statement about them (R480 to R484, R494 to R497, R525, R527, R675,
R725). -/
namespace Sys2Proof.Machine
open Sys2Proof

/-! Links (R527, R675). -/

/-- The sub-ports of a port that are up when one of them has changed. -/
def upAfter (l : List Nat) (k : Nat) (up : Bool) : List Nat := if up then (if l.contains k then l else k :: l) else l.erase k

theorem Dev.linkChange_same {d : Dev} {n k : Nat} {up : Bool} (same : (d.port n).up.contains k = up) (lanes : Nat) :
    d.linkChange n k up lanes = d := if_pos same

/-- The part when a link has changed and a loss is counted, before anything is told of it. -/
def Dev.linkSet (d : Dev) (n k : Nat) (up : Bool) (lanes : Nat) : Dev :=
  let e := d.updPort n (fun p => { p with
    up := if up then sortBy id (k :: p.up) else p.up.erase k, lanes := lanes, paused := p.paused.erase k })
  if up then e else e.incReg (0x2C00 + n) 0x11

/-- A link that changes is told by an event, and what waits for it or was under way on it is sent (R527). -/
theorem Dev.linkChange_other {d : Dev} {n k : Nat} {up : Bool} (other : (d.port n).up.contains k ≠ up) (lanes : Nat) :
    ∃ e, EventOf (d.linkSet n k up lanes) e ∧ Dev.SendOf e (d.linkChange n k up lanes) := by
  let e := (d.linkSet n k up lanes).raise 0x8701 4 n none none [n, k, b2n up, lanes]
  have run : d.linkChange n k up lanes = if up then (e.askGateway n k).pumpAll else e.resendFrom [4 * n + k] := if_neg other
  refine ⟨e, EventOf.raise _ _ _ _ _ _ _, ?_⟩
  rw [run]
  split
  · exact (Dev.SendOf.askGateway _ _ _).trans (.pumpAll _)
  · exact .resendFrom _ _

theorem Dev.up_linkSet {d : Dev} {n k : Nat} {up : Bool} (other : (d.port n).up.contains k ≠ up) (lanes : Nat) :
    ((d.linkSet n k up lanes).port n).up.Perm (upAfter (d.port n).up k up) := by
  have links : ((d.linkSet n k up lanes).port n).up = if up then sortBy id (k :: (d.port n).up) else (d.port n).up.erase k := by
    cases up <;> exact congrArg Port.up (Dev.port_updPort_self d n _)
  rw [links]
  cases up with
  | true =>
    have absent : (d.port n).up.contains k = false := by simpa using other
    simpa only [upAfter, absent, if_true, Bool.false_eq_true, if_false] using sortBy_perm id _
  | false => exact .refl _

theorem Dev.reg_linkSet (d : Dev) {n a : Nat} (other : a ≠ 0x11) (k : Nat) (up : Bool) (lanes : Nat) :
    (d.linkSet n k up lanes).reg (0x2C00 + n) a = d.reg (0x2C00 + n) a := by
  cases up with
  | true => rfl
  | false => exact (Dev.reg_incReg_other _ (by omega)).trans rfl

/-- A link is up or down as told; the function and the mode of its port stay. -/
theorem Dev.linkChange_spec (d : Dev) (n k : Nat) (up : Bool) (lanes : Nat) : let e := d.linkChange n k up lanes
    (e.port n).up.Perm (upAfter (d.port n).up k up) ∧ ∀ a, a = 0x02 ∨ a = 0x03 → e.reg (0x2C00 + n) a = d.reg (0x2C00 + n) a := by
  by_cases same : (d.port n).up.contains k = up
  · rw [Dev.linkChange_same same]
    refine ⟨?_, fun _ _ => rfl⟩
    cases up with
    | true => simp only [upAfter, same, if_true, List.Perm.refl]
    | false =>
      have absent : k ∉ (d.port n).up := by simpa using same
      simp only [upAfter, Bool.false_eq_true, if_false, List.erase_of_not_mem absent, List.Perm.refl]
  · obtain ⟨e, event, sent⟩ := Dev.linkChange_other same lanes
    refine ⟨?_, fun a ha => ?_⟩
    · rw [sent.up, Dev.port, event.net]
      exact Dev.up_linkSet same lanes
    · have unsent : a ∉ [0x09, 0x0B] := by rcases ha with rfl | rfl <;> decide
      have quiet : eventPlace (0x2C00 + n) a = false := by rcases ha with rfl | rfl <;> simp [eventPlace]
      rw [sent.regs _ a (by omega) unsent, event.2.2 _ a (by omega) quiet, Dev.reg_linkSet d (by omega)]

/-- A port whose STARTING ends is ON, or STOPPING where that was latched; its links stay. -/
theorem State.portStarted_spec (s : State) (n : Nat) : (s.portStarted n).dev.fn (0x2C00 + n) ≠ 1 ∧
    ((s.portStarted n).dev.port n).up = (s.dev.port n).up ∧ s.sameStore (s.portStarted n) := by
  have started : ∀ t : State, t.dev.fn (0x2C00 + n) ≠ 1 → t.dev.port n = s.dev.port n → s.sameStore t →
      ∀ e, Dev.SendOf t.dev e → e.fn (0x2C00 + n) ≠ 1 ∧ (e.port n).up = (s.dev.port n).up := fun t fn port _ e sent =>
    ⟨by rwa [sent.fn], (sent.up n).trans (congrArg Port.up port)⟩
  by_cases latched : Tbl.look 0 (0x2C00 + n) s.dev.latch = 1
  · have run : s.portStarted n = (((s.unlatched (0x2C00 + n)).setFn (0x2C00 + n) 2).setFn (0x2C00 + n) 3).onDev
        fun d => (d.resendFrom ((List.range 4).map (4 * n + ·))).pumpAll :=
      congrArg (fun t : State => t.onDev Dev.pumpAll) (if_pos latched)
    rw [run]
    obtain ⟨fn, up⟩ := started (((s.unlatched (0x2C00 + n)).setFn (0x2C00 + n) 2).setFn (0x2C00 + n) 3)
      (by rw [State.fn_setFn]; decide) rfl ⟨rfl, rfl, rfl⟩ _ ((Dev.SendOf.resendFrom _ _).trans (.pumpAll _))
    exact ⟨fn, up, rfl, rfl, rfl⟩
  · have run : s.portStarted n = ((s.unlatched (0x2C00 + n)).setFn (0x2C00 + n) 2).onDev Dev.pumpAll :=
      congrArg (fun t : State => t.onDev Dev.pumpAll) (if_neg latched)
    rw [run]
    obtain ⟨fn, up⟩ := started ((s.unlatched (0x2C00 + n)).setFn (0x2C00 + n) 2) (by rw [State.fn_setFn]; decide) rfl
      ⟨rfl, rfl, rfl⟩ _ (.pumpAll _)
    exact ⟨fn, up, rfl, rfl, rfl⟩

/-- Is a port STARTING with every link of its mode up? -/
def State.linksComplete (s : State) (n : Nat) : Bool :=
  s.dev.fn (0x2C00 + n) = 1 && (List.range (s.dev.subPorts n)).all fun i => (s.dev.port n).up.contains i

theorem State.linksComplete_iff {s : State} {n : Nat} : s.linksComplete n = true ↔
    s.dev.fn (0x2C00 + n) = 1 ∧ ∀ j < s.dev.subPorts n, (s.dev.port n).up.contains j = true := by
  simp only [State.linksComplete, Bool.and_eq_true, decide_eq_true_eq, List.all_eq_true, List.mem_range]

section LinkState
variable {s : State} {n k : Nat} (running : s.dev.fn (0x2C00 + n) ≠ 0) (has : k < s.dev.subPorts n)
include running has

/-- A link of a port that is not OFF changes, and the last one up ends STARTING (R675). -/
theorem linkState_runs (up : Bool) (lanes : Nat) : linkState n k up lanes s =
    let changed := s.onDev fun d => d.linkChange n k up lanes
    if changed.linksComplete n then changed.portStarted n else changed :=
  if_neg (by simp [running, has])

theorem linkState_spec (up : Bool) (lanes : Nat) : let t := linkState n k up lanes s
    (t.dev.port n).up.Perm (upAfter (s.dev.port n).up k up) ∧ (t.dev.fn (0x2C00 + n) = 1 ↔ (s.dev.fn (0x2C00 + n) = 1 ∧
      ¬ ∀ j < s.dev.subPorts n, (t.dev.port n).up.contains j = true)) ∧ s.sameStore t := by
  intro t
  obtain ⟨links, regs⟩ := s.dev.linkChange_spec n k up lanes
  let changed := s.onDev fun d => d.linkChange n k up lanes
  have mode : changed.dev.subPorts n = s.dev.subPorts n := congrArg (fun m => 1 <<< (m % 4)) (regs 0x03 (.inr rfl))
  have state : changed.dev.fn (0x2C00 + n) = s.dev.fn (0x2C00 + n) := congrArg (· % 4) (regs 0x02 (.inl rfl))
  have run : t = if changed.linksComplete n then changed.portStarted n else changed := linkState_runs running has up lanes
  rw [← mode, ← state]
  by_cases complete : changed.linksComplete n = true
  · obtain ⟨started, kept, store⟩ := changed.portStarted_spec n
    rw [run, if_pos complete, kept]
    exact ⟨links, iff_of_false started fun h => h.2 (State.linksComplete_iff.mp complete).2, store⟩
  · rw [run, if_neg complete]
    exact ⟨links, (and_iff_left_of_imp fun starting every => complete (State.linksComplete_iff.mpr ⟨starting, every⟩)).symm,
      rfl, rfl, rfl⟩

end LinkState

/-! The other commands of a port (R479, R494, R497). -/

section Port
variable {s : State} {n : Fin 24} {k : Fin 4}

theorem exec_laneRetrainComplete (retraining : (s.dev.port n.val).retraining = true) (lanes : Nat) :
    Runs (.laneRetrainComplete n lanes) s fun t =>
      (t.dev.port n.val).retraining = false ∧ (t.dev.port n.val).lanes = lanes ∧ s.sameStore t := by
  have sent := Dev.SendOf.pumpAll (s.dev.updPort n.val fun p => { p with retraining := false, lanes := lanes })
  have run : exec (.laneRetrainComplete n lanes) s =
      .next (s.onDev fun d => (d.updPort n.val fun p => { p with retraining := false, lanes := lanes }).pumpAll) :=
    congrArg Host.Outcome.next (State.onDev_congr (if_pos retraining))
  refine ⟨_, run, (sent.retraining _).trans ?_, (sent.lanes _).trans ?_, State.sameStore_onDev _ _⟩ <;> rw [Dev.port_updPort_self]

section Pause
variable {classes quanta : Nat} (enabled : bit (s.dev.reg 0x1100 0x03) 0 = true)
  (named : bit classes (bits (s.dev.reg 0x1100 0x03) 3 1) = true)
include enabled named

theorem exec_pfcFrame_pauses (pause : quanta ≠ 0) : Runs (.pfcFrameReceive n k classes quanta) s fun t =>
    (t.dev.port n.val).paused.contains k.val = true ∧ t.dev.tx = s.dev.tx ∧ t.dev.regs = s.dev.regs ∧ s.sameStore t := by
  have run : exec (.pfcFrameReceive n k classes quanta) s = .next (s.onDev fun d => d.updPort n.val fun p =>
      { p with paused := if p.paused.contains k.val then p.paused else k.val :: p.paused }) :=
    congrArg Host.Outcome.next (State.onDev_congr (by simp [enabled, named, pause]))
  refine ⟨_, run, ?_, rfl, rfl, State.sameStore_onDev _ _⟩
  rw [State.onDev_dev, Dev.port_updPort_self]
  dsimp only
  split
  · assumption
  · exact List.contains_iff_mem.mpr List.mem_cons_self

theorem exec_pfcFrame_releases (release : quanta = 0) (single : (s.dev.port n.val).paused.Nodup) :
    Runs (.pfcFrameReceive n k classes quanta) s fun t => (t.dev.port n.val).paused.contains k.val = false ∧ s.sameStore t := by
  have run : exec (.pfcFrameReceive n k classes quanta) s = .next (s.onDev fun d =>
      (d.updPort n.val fun p => { p with paused := p.paused.erase k.val }).pumpAll) :=
    congrArg Host.Outcome.next (State.onDev_congr (by simp [enabled, named, release]))
  have sent := Dev.SendOf.pumpAll (s.dev.updPort n.val fun p => { p with paused := p.paused.erase k.val })
  refine ⟨_, run, ?_, State.sameStore_onDev _ _⟩
  rw [State.onDev_dev, sent.paused, Dev.port_updPort_self]
  simpa using single.not_mem_erase

end Pause

theorem exec_lldpSendTimer (on : s.dev.fn (0x2C00 + n.val) = 2) (up : (s.dev.port n.val).up.contains k.val = true) :
    Runs (.lldpSendTimer n k) s fun t =>
      t.dev.tx = s.dev.tx ++ [.frame (4 * n.val + k.val) 1 [s.dev.reg 0x1000 0x06, n.val, k.val, 120]] ∧
      t.dev.portReg n.val 0x0B = (s.dev.portReg n.val 0x0B + 1) % 2 ^ 64 ∧ s.dev.sameRegs t.dev [(0x2C00 + n.val, 0x0B)] ∧
      s.sameStore t := by
  have port : (4 * n.val + k.val) / 4 = n.val := by omega
  have run : exec (.lldpSendTimer n k) s = .next (s.onDev fun d =>
      d.sendFrame (4 * n.val + k.val) 1 [d.reg 0x1000 0x06, n.val, k.val, 120] 128) :=
    congrArg Host.Outcome.next (State.onDev_congr (if_pos (by simp only [on, up, Bool.and_true, decide_true])))
  have counted : ∀ i a, (s.dev.sendFrame (4 * n.val + k.val) 1 [s.dev.reg 0x1000 0x06, n.val, k.val, 120] 128).reg i a =
      (s.dev.incReg (0x2C00 + n.val) 0x0B).reg i a := fun i a => congrArg (fun m => (s.dev.incReg (0x2C00 + m) 0x0B).reg i a) port
  refine ⟨_, run, rfl, (counted _ _).trans (Dev.reg_incReg_self _ _ _), fun i a ha other => (counted i a).trans ?_,
    State.sameStore_onDev _ _⟩
  exact Dev.reg_setReg_place s.dev ha (by decide) (by simpa using other) _

end Port

/-! Received frames (R480, R481, R482, R484, R497). -/

/-- The part when a frame has arrived on a sub-port that is up: the frame is counted, and the codewords of the line code. -/
def Dev.arrived (d : Dev) (n k : Nat) : Dev := (d.fec n k).incReg (0x2C00 + n) 0x0A

/-- A frame of a length that is admitted, with a good FCS and at most one tag (R480). -/
def goodFrame (f : FrameF) : Prop := 64 ≤ f.len ∧ f.len ≤ 9216 ∧ f.fcsOk = true ∧ f.tags.length ≤ 1

/-- The codewords that are counted leave the network, what was sent, and every other entry. -/
theorem Dev.fec_frame (d : Dev) (n k : Nat) :
    (d.fec n k).net = d.net ∧ (d.fec n k).tx = d.tx ∧ Dev.RegsOff [0x0F, 0x10] d (d.fec n k) := by
  unfold Dev.fec
  split
  · exact ⟨rfl, rfl, .refl _ d⟩
  · have drawn : Dev.RegsOff [0x0F, 0x10] d d.draw.2 := .of_regs rfl rfl
    exact ⟨rfl, rfl, (drawn.trans (.addReg _ _ _ (by decide) (by decide))).trans (.addReg _ _ _ (by decide) (by decide))⟩

theorem Dev.arrived_frame (d : Dev) (n k : Nat) :
    (d.arrived n k).net = d.net ∧ (d.arrived n k).tx = d.tx ∧ Dev.RegsOff [0x0A, 0x0F, 0x10] d (d.arrived n k) := by
  obtain ⟨net, tx, regs⟩ := d.fec_frame n k
  exact ⟨net, tx, (regs.mono (by simp)).trans (.incReg _ _ (by decide) (by decide))⟩

section Arrived
variable (d : Dev) (n k : Nat)

theorem Dev.portReg_arrived {a : Nat} (ha : a < 0x0A) : (d.arrived n k).portReg n a = d.portReg n a := by
  obtain ⟨-, -, regs⟩ := d.arrived_frame n k
  exact regs _ a (by omega) (by simp; omega)

theorem Dev.ownAddr_arrived (v6 : Bool) : (d.arrived n k).ownAddr n k v6 = d.ownAddr n k v6 := by
  simp only [Dev.ownAddr, d.portReg_arrived n k (a := 0x05) (by decide), d.portReg_arrived n k (a := 0x06) (by decide)]

theorem Dev.macOf_arrived : (d.arrived n k).macOf n k = d.macOf n k := by
  simp only [Dev.macOf, d.portReg_arrived n k (a := 0x08) (by decide)]

theorem Dev.gateway_arrived : (d.arrived n k).gateway n k = d.gateway n k := by
  simp only [Dev.gateway, d.portReg_arrived n k (a := 0x07) (by decide)]

end Arrived

/-- The neighbours' entry of a port with a frame's chassis and port in the record of a sub-port. -/
def neighbour (old k chassis port : Nat) : Nat :=
  setBytesAt (setBytesAt (setBytesAt old (64 * k) 19 chassis) (64 * k + 19) 44 port) (64 * k + 63) 1 0

theorem bytesAt_neighbour_chassis {chassis : Nat} (h : chassis < 256 ^ 19) (old k port : Nat) :
    bytesAt (neighbour old k chassis port) (64 * k) 19 = chassis := by
  rw [neighbour, bytesAt_setBytesAt_below (by omega), bytesAt_setBytesAt_below (by omega), bytesAt_setBytesAt_self (by decide) h]

theorem bytesAt_neighbour_port {port : Nat} (h : port < 256 ^ 44) (old k chassis : Nat) :
    bytesAt (neighbour old k chassis port) (64 * k + 19) 44 = port := by
  rw [neighbour, bytesAt_setBytesAt_below (by omega), bytesAt_setBytesAt_self (by decide) h]

/-- The part when a neighbour's frame has been kept. -/
def Dev.keepNeighbour (d : Dev) (n k chassis port : Nat) : Dev :=
  (d.setReg (0x2C00 + n) 0x09 (neighbour (d.portReg n 0x09) k chassis port)).updPort n fun p =>
    { p with lldpAt := Tbl.put k d.now p.lldpAt }

theorem Dev.frameBody_lldp (d : Dev) (n k chassis port : Nat) :
    d.frameBody n k (.lldp chassis port) = (true, d.keepNeighbour n k chassis port) := rfl

theorem Dev.portReg_neighbour (d : Dev) (n k chassis port : Nat) :
    (d.keepNeighbour n k chassis port).portReg n 0x09 = neighbour (d.portReg n 0x09) k chassis port := Dev.reg_setReg_self d _ _ _

section Frame
variable {s : State} {n : Fin 24} {k : Fin 4} {f : FrameF} (up : (s.dev.port n.val).up.contains k.val = true)
  (on : s.dev.fn (0x2C00 + n.val) = 2)
include up on

/-- On a sub-port that is up of an ON port every frame counts, before anything is asked of it. -/
theorem exec_frame_arrives : exec (.frameReceive n k f) s = .next (s.onDev fun _ =>
    let d := s.dev.arrived n.val k.val
    let drop := fun (d : Dev) => d.incReg (0x2C00 + n.val) 0x0C
    if f.len < 64 || 9216 < f.len || !f.fcsOk || 1 < f.tags.length then drop d
    else if f.tags.contains (d.reg 0x1100 0x01 % 4096) then d
    else
      let (ok, d) := d.frameBody n.val k.val f.body
      if ok then d else drop d) := by
  obtain ⟨net, -, regs⟩ := s.dev.fec_frame n.val k.val
  have still : ((s.dev.fec n.val k.val).port n.val).up.contains k.val = true := by
    rw [Dev.port, net]
    exact up
  have running : (s.dev.fec n.val k.val).fn (0x2C00 + n.val) = 2 := (congrArg (· % 4) (regs _ 0x02 (by decide) (by decide))).trans on
  exact congrArg Host.Outcome.next (State.onDev_congr (if_neg (by rw [still, running]; decide)))

/-- A bad frame counts as dropped (R480). -/
theorem exec_frame_bad (bad : ¬ goodFrame f) :
    exec (.frameReceive n k f) s = .next (s.onDev fun _ => (s.dev.arrived n.val k.val).incReg (0x2C00 + n.val) 0x0C) := by
  refine (exec_frame_arrives up on).trans (congrArg Host.Outcome.next (State.onDev_congr (if_pos ?_)))
  simp only [goodFrame, not_and_or, Nat.not_le, Bool.not_eq_true] at bad
  simpa [or_assoc] using bad

variable (good : goodFrame f)
include good

/-- A good frame of no VLAN, or of another than the management's, is taken by its body, or dropped. -/
theorem exec_frame_good : exec (.frameReceive n k f) s = .next (s.onDev fun _ =>
    let d := s.dev.arrived n.val k.val
    if f.tags.contains (s.dev.reg 0x1100 0x01 % 4096) then d
    else
      let (ok, d) := d.frameBody n.val k.val f.body
      if ok then d else d.incReg (0x2C00 + n.val) 0x0C) := by
  obtain ⟨-, -, regs⟩ := s.dev.arrived_frame n.val k.val
  obtain ⟨long, short, fcs, tags⟩ := good
  have admitted : ¬ (f.len < 64 || 9216 < f.len || !f.fcsOk || 1 < f.tags.length) = true := by
    simp [fcs, long, short, tags]
  refine (exec_frame_arrives up on).trans (congrArg Host.Outcome.next (State.onDev_congr ((if_neg admitted).trans ?_)))
  rw [regs 0x1100 0x01 (by decide) (by decide)]

/-- A frame of the management VLAN is the management controller's (R484). -/
theorem exec_frame_managed (vlan : f.tags.contains (s.dev.reg 0x1100 0x01 % 4096) = true) :
    exec (.frameReceive n k f) s = .next (s.onDev fun _ => s.dev.arrived n.val k.val) :=
  (exec_frame_good up on good).trans (congrArg Host.Outcome.next (State.onDev_congr (if_pos vlan)))

variable (open_ : f.tags.contains (s.dev.reg 0x1100 0x01 % 4096) = false)
include open_

theorem exec_frame_taken {d : Dev} (taken : (s.dev.arrived n.val k.val).frameBody n.val k.val f.body = (true, d)) :
    exec (.frameReceive n k f) s = .next (s.onDev fun _ => d) := by
  refine (exec_frame_good up on good).trans (congrArg Host.Outcome.next (State.onDev_congr ?_))
  simp only [open_, Bool.false_eq_true, if_false, taken, if_true]

theorem exec_frame_dropped {d : Dev} (dropped : (s.dev.arrived n.val k.val).frameBody n.val k.val f.body = (false, d)) :
    exec (.frameReceive n k f) s = .next (s.onDev fun _ => d.incReg (0x2C00 + n.val) 0x0C) := by
  refine (exec_frame_good up on good).trans (congrArg Host.Outcome.next (State.onDev_congr ?_))
  simp only [open_, Bool.false_eq_true, if_false, dropped]

/-- A neighbour's LLDP frame stands in the entry of its sub-port (R497). -/
theorem exec_frame_lldp {chassis port : Nat} (body : f.body = .lldp chassis port) (hc : chassis < 256 ^ 19) (hp : port < 256 ^ 44) :
    Runs (.frameReceive n k f) s fun t =>
      bytesAt (t.dev.portReg n.val 0x09) (64 * k.val) 19 = chassis ∧ bytesAt (t.dev.portReg n.val 0x09) (64 * k.val + 19) 44 = port ∧
      s.sameStore t ∧ t.dev.tx = s.dev.tx := by
  obtain ⟨-, tx, -⟩ := s.dev.arrived_frame n.val k.val
  have kept := exec_frame_taken up on good open_
    ((congrArg ((s.dev.arrived n.val k.val).frameBody n.val k.val) body).trans (Dev.frameBody_lldp _ _ _ _ _))
  refine ⟨_, kept, ?_, ?_, State.sameStore_onDev _ _, tx⟩
  all_goals rw [State.onDev_dev, Dev.portReg_neighbour]
  · exact bytesAt_neighbour_chassis hc _ _ _
  · exact bytesAt_neighbour_port hp _ _ _

end Frame

/-- A request for a sub-port's own address is answered with its MAC (R481). -/
theorem Dev.frameBody_addrRequest {d : Dev} {n k target : Nat} {v6 : Bool} (asked : target ≠ 0) (own : target = d.ownAddr n k v6)
    (asker : Nat) : d.frameBody n k (.addrRequest v6 target asker) =
      (true, d.sendFrame (4 * n + k) 2 [b2n v6, target, d.macOf n k, asker] 64) :=
  if_pos (by simp [asked, ← own])

/-- An echo request is answered with its payload once the gateway is resolved (R481, R482). -/
theorem Dev.frameBody_echo {d : Dev} {n k dest : Nat} {v6 : Bool} (asked : dest ≠ 0) (own : dest = d.ownAddr n k v6)
    (resolved : d.gateway n k = true) (src : Nat) (payload : List Nat) : d.frameBody n k (.icmp v6 dest src true payload) =
      (true, d.sendFrame (4 * n + k) 3 ([b2n v6, dest, src] ++ payload) (payload.length + 46)) :=
  if_pos (by simp [asked, ← own, resolved])

/-! Time (R495, R496, R725). -/

/-- An offset that is taken is recorded; one beyond 100 microseconds steps the timebase, another adjusts its frequency. -/
theorem Dev.disciplined_spec (d : Dev) (offset : Int) (source : Nat) : let e := d.disciplined offset source
    e.reg 0x1100 0x05 = ofSigned 32 offset ∧
    (100000 < offset.natAbs → e.now = ((d.now : Int) - offset).toNat % 2 ^ 64 ∧ e.reg 0x2400 0x02 = 1 ∧
      e.reg 0x2400 0x04 = (d.reg 0x2400 0x04 + 1) % 2 ^ 64) ∧
    (offset.natAbs ≤ 100000 → e.now = d.now ∧ (e.reg 0x2400 0x02 = 1 ∨ e.reg 0x2400 0x02 = 2) ∧
      ∃ a : Int, -200000 ≤ a ∧ a ≤ 200000 ∧ e.reg 0x2400 0x03 = ofSigned 32 a) := by
  intro e
  let seen := (d.updNet fun n => { n with timeSeen := some d.now }).setReg 0x1100 0x05 (ofSigned 32 offset)
  by_cases far : 100000 < offset.natAbs
  · let stepped := ({ seen with now := ((d.now : Int) - offset).toNat % two64 } : Dev)
    let counted := ((stepped.updNet fun n => { n with timeSeen := some stepped.now }).incReg 0x2400 0x04).setReg 0x2400 0x02 1
    have run : e = counted.raiseDev 0x8705 [ofSigned 32 offset, source] := if_pos far
    obtain ⟨frame, -, regs⟩ : EventOf counted e := run ▸ EventOf.raise _ _ _ _ _ _ _
    refine ⟨?_, fun _ => ⟨by rw [frame]; rfl, ?_, ?_⟩, fun near => absurd near (Nat.not_le.mpr far)⟩
    · rw [regs _ _ (by decide) (by decide), Dev.reg_setReg_other _ (by decide), Dev.reg_incReg_other _ (by decide)]
      exact Dev.reg_setReg_self _ _ _ _
    · rw [regs _ _ (by decide) (by decide), Dev.reg_setReg_self]
    · rw [regs _ _ (by decide) (by decide), Dev.reg_setReg_other _ (by decide), Dev.reg_incReg_self]
      exact congrArg (fun v => (v + 1) % 2 ^ 64)
        (Dev.reg_setReg_other (d.updNet fun n => { n with timeSeen := some d.now }) (by decide) (ofSigned 32 offset))
  · let adj : Int := (Config.servo seen.fresh % 400001 : Nat) - 200000
    have run : e = (seen.draw.2.setReg 0x2400 0x03 (ofSigned 32 adj)).setReg 0x2400 0x02 (1 + Config.pick seen.fresh % 2) := if_neg far
    rw [run]
    refine ⟨?_, fun beyond => absurd beyond far, fun _ => ⟨rfl, ?_, adj, by omega, by omega, ?_⟩⟩
    · rw [Dev.reg_setReg_other _ (by decide), Dev.reg_setReg_other _ (by decide)]
      exact Dev.reg_setReg_self _ _ _ _
    · rw [Dev.reg_setReg_self]
      omega
    · rw [Dev.reg_setReg_other _ (by decide), Dev.reg_setReg_self]

section Time
variable {s : State}

section Ptp
variable {n : Fin 24} {k : Fin 4} {offset : Int}

/-- A message on the sub-port of the time source is taken, while PTP is enabled and the PPS input is not selected (R495). -/
theorem exec_ptp_taken (enabled : bit (s.dev.reg 0x1100 0x04) 12 = true) (internal : bit (s.dev.reg 0x1100 0x04) 13 = false)
    (own : s.dev.reg 0x1100 0x04 % 256 = 4 * n.val + k.val) (up : (s.dev.port n.val).up.contains k.val = true) :
    exec (.ptpMessageReceive n k offset) s = .next (s.onDev fun d => d.disciplined offset 0) :=
  congrArg Host.Outcome.next (State.onDev_congr (if_pos (by rw [enabled, internal, up, own]; simp)))

theorem exec_ptp_ignored (ignored : bit (s.dev.reg 0x1100 0x04) 12 = false ∨ bit (s.dev.reg 0x1100 0x04) 13 = true ∨
      s.dev.reg 0x1100 0x04 % 256 ≠ 4 * n.val + k.val) : exec (.ptpMessageReceive n k offset) s = .next s := by
  refine congrArg Host.Outcome.next (State.onDev_same (if_neg ?_))
  rcases ignored with off | pps | other
  · simp [off]
  · simp [pps]
  · simp [other]

end Ptp

/-- PPS is driven at a whole second unless it is the input (R496). -/
theorem exec_ppsOutput_drives (internal : bit (s.dev.reg 0x1100 0x04) 13 = false) :
    exec .ppsOutputSecond s = .next (s.onDev fun d => d.out (.pin 1 1)) :=
  congrArg Host.Outcome.next (State.onDev_congr (if_neg (by simp [internal])))

theorem exec_ppsInput_ignored (internal : bit (s.dev.reg 0x1100 0x04) 13 = false) (offset : Int) :
    exec (.ppsInputEdge offset) s = .next s :=
  congrArg Host.Outcome.next (State.onDev_same (if_neg (by simp [internal])))

/-- Without a source there is none to miss. -/
theorem exec_timeHoldover_unsourced (off : bit (s.dev.reg 0x1100 0x04) 12 = false) (internal : bit (s.dev.reg 0x1100 0x04) 13 = false) :
    exec .timeHoldover s = .next s :=
  congrArg Host.Outcome.next (State.onDev_same (if_pos (by simp [off, internal])))

theorem exec_timeHoldover (sourced : bit (s.dev.reg 0x1100 0x04) 12 = true ∨ bit (s.dev.reg 0x1100 0x04) 13 = true) :
    Runs .timeHoldover s fun t => t.dev.reg 0x2400 0x02 = 3 ∧ t.dev.now = s.dev.now ∧ s.sameStore t := by
  have given : (!(bit (s.dev.reg 0x1100 0x04) 12) && !(bit (s.dev.reg 0x1100 0x04) 13)) = false := by
    rcases sourced with ptp | pps
    · simp [ptp]
    · simp [pps]
  by_cases already : s.dev.reg 0x2400 0x02 = 3
  · have run : exec .timeHoldover s = .next s :=
      congrArg Host.Outcome.next (State.onDev_same (if_pos (by simp [already])))
    exact ⟨s, run, already, rfl, rfl, rfl, rfl⟩
  · let held := s.dev.setReg 0x2400 0x02 3
    let e := if s.dev.reg 0x2400 0x02 = 2 then
      held.raiseDev 0x8705 [held.reg 0x1100 0x05, b2n (bit (s.dev.reg 0x1100 0x04) 13)] else held
    have run : exec .timeHoldover s = .next (s.onDev fun _ => e) :=
      congrArg Host.Outcome.next (State.onDev_congr (if_neg (by rw [given]; simpa using already)))
    obtain ⟨frame, -, regs⟩ : EventOf held e := by
      unfold e
      split
      · exact EventOf.raise _ _ _ _ _ _ _
      · exact EventOf.refl _
    refine ⟨_, run, ?_, ?_, State.sameStore_onDev _ _⟩
    · exact (regs _ _ (by decide) (by decide)).trans (Dev.reg_setReg_self _ _ _ _)
    · exact (congrArg Dev.now frame).trans rfl

end Time

/-- Settles O28: the links and the other commands of a port, then frames by what they are, then the timebase by its source. -/
theorem linksAndFrames : Obligations.linksAndFrames := by
  refine ⟨fun s n k => ⟨fun up lanes running has => ⟨_, rfl, linkState_spec running has up lanes⟩, fun up lanes apart => ?_,
    fun starting => ?_, fun other => ?_, fun lanes retraining => exec_laneRetrainComplete retraining lanes,
    fun classes quanta enabled named => ⟨exec_pfcFrame_pauses enabled named, exec_pfcFrame_releases enabled named⟩,
    exec_lldpSendTimer⟩, ?_, ?_⟩
  · exact congrArg Host.Outcome.next (if_pos (by simpa using apart))
  · exact congrArg Host.Outcome.next (if_pos starting)
  · exact congrArg Host.Outcome.next (if_neg other)
  · intro s n k f d good up on
    refine ⟨exec_frame_bad up on, exec_frame_managed up on, fun sound open_ => ⟨?_, ?_, ?_, ?_, ?_⟩⟩
    · intro v6 target asker body asked own
      have answer := Dev.frameBody_addrRequest (d := s.dev.arrived n.val k.val) asked (own.trans (Dev.ownAddr_arrived _ _ _ _).symm) asker
      rw [Dev.macOf_arrived] at answer
      exact exec_frame_taken up on sound open_ (body ▸ answer)
    · intro v6 dest src payload body asked own resolved
      exact exec_frame_taken up on sound open_ (body ▸ Dev.frameBody_echo (d := s.dev.arrived n.val k.val) asked
        (own.trans (Dev.ownAddr_arrived _ _ _ _).symm) ((Dev.gateway_arrived _ _ _).trans resolved) src payload)
    · exact fun chassis port body => exec_frame_lldp up on sound open_ body
    · exact fun body => exec_frame_dropped up on sound open_ (body ▸ rfl)
    · exact fun body => exec_frame_taken up on sound open_ (body ▸ rfl)
  · intro s offset n k c taken
    have takes : ∀ source, taken (s.onDev fun d => d.disciplined offset source) := fun source =>
      ⟨State.sameStore_onDev _ _, s.dev.disciplined_spec offset source⟩
    exact ⟨fun enabled internal own up => ⟨_, exec_ptp_taken enabled internal own up, takes 0⟩, exec_ptp_ignored,
      fun pps => ⟨_, congrArg Host.Outcome.next (State.onDev_congr (if_pos pps)), takes 1⟩,
      fun internal => exec_ppsInput_ignored internal offset, exec_ppsOutput_drives,
      fun pps => congrArg Host.Outcome.next (State.onDev_same (if_pos pps)), exec_timeHoldover, exec_timeHoldover_unsourced⟩

end Sys2Proof.Machine

/-! A ring base beyond the register's 64 bits, and the statement about attaches (R540, R541, R543). -/
namespace Sys2Proof.Machine
open Sys2Proof

/-- An attach whose ring base is a multiple of 2^64 leaves the ring register at 0 and so has no ring (R540, R541). -/
theorem attach_wrappedBase {s : State} {h rb : Nat} (link : (s.dev.site h).link = 3) (ready : (s.dev.site h).phase = 3)
    (enabled : s.dev.siteReg h 0x01 % 2 = 1) (wraps : rb % two64 = 0) (rc key : Nat) :
    ((attach h rb rc key [] s).dev.site h).phase = 3 := by
  have page : rb % 4096 = 0 := by
    unfold two64 at wraps
    omega
  have base : s.dev.bar0 h 0x18 rb = s.dev.updSite h fun x => { x with ringBase := 0 } := by
    simp [Dev.bar0, ready, page, wraps]
  have control (d : Dev) : ((d.bar0 h 0x20 rc).site h).ringBase = (d.site h).ringBase ∧
      ((d.bar0 h 0x20 rc).site h).phase = (d.site h).phase ∧ (d.bar0 h 0x20 rc).siteReg h 0x01 = d.siteReg h 0x01 := by
    have write : d.bar0 h 0x20 rc = if (d.site h).phase ≠ 4 && rc % 256 = 0 then
        d.updSite h (fun x => { x with ringCtl := rc % two64 }) else d := rfl
    rw [write]
    split
    · rw [Dev.site_updSite_self]
      exact ⟨rfl, rfl, rfl⟩
    · exact ⟨rfl, rfl, rfl⟩
  obtain ⟨noRing, phase, enable⟩ := control (s.dev.bar0 h 0x18 rb)
  rw [base] at noRing phase enable
  simp only [Dev.site_updSite_self] at noRing phase
  have still : (s.dev.updSite h fun x => { x with ringBase := 0 }).siteReg h 0x01 = s.dev.siteReg h 0x01 := rfl
  simp [attach, link, base, noRing, phase, enable, still, ready, enabled]

/-- A part whose host 0 has an active link and is READY to attach. -/
def readyPart : State := State.reset.onDev fun d => d.updSite 0 fun x => { x with link := 3, phase := 3 }

/-- Refutes O39: host 0 attaches with ring base 2^64, which the statement does not bound and has ATTACHED. The ring register holds 64
bits, so the device stores 0, finds no ring and stays READY. -/
theorem not_hostsAttach : ¬ Obligations.hostsAttach := by
  intro h
  obtain ⟨-, active, -⟩ := h readyPart 0
  obtain ⟨attaches, -⟩ := active (by decide) (by decide)
  obtain ⟨t, run, phase, -⟩ := attaches (2 ^ 64) 256 0 (by decide) (by decide) (by decide) (by decide) (by decide) (by decide) (by decide)
  have stays := attach_wrappedBase (s := readyPart) (h := 0) (rb := 2 ^ 64) (by decide) (by decide) (by decide) (by decide) 256 0
  have same : attach 0 (2 ^ 64) 256 0 [] readyPart = t :=
    (congrArg _ (State.hostSide_free (by decide) _ _)).symm.trans run |> Host.Outcome.next.inj
  rw [same] at stays
  exact absurd (phase.symm.trans stays) (by decide)

end Sys2Proof.Machine

/-! Event rings served: the consumer index, the summary, coalescing, moderation, and the statement about them (R540, R552 to R557, R655). -/
namespace Sys2Proof.Machine
open Sys2Proof

/-! Sites and registers. -/

@[simp] theorem Dev.site_out (d : Dev) (x : Out) : (d.out x).site = d.site := rfl

@[simp] theorem Dev.site_setReg (d : Dev) (i a v : Nat) : (d.setReg i a v).site = d.site := rfl

@[simp] theorem Dev.site_addReg (d : Dev) (i a n : Nat) : (d.addReg i a n).site = d.site := rfl

@[simp] theorem Dev.site_incReg (d : Dev) (i a : Nat) : (d.incReg i a).site = d.site := rfl

@[simp] theorem Dev.reg_updSite (d : Dev) (h : Nat) (f : Site → Site) : (d.updSite h f).reg = d.reg := rfl

/-- Two changes of one site are one change. -/
theorem Dev.updSite_updSite (d : Dev) (h : Nat) (f g : Site → Site) : (d.updSite h f).updSite h g = d.updSite h fun x => g (f x) := by
  have once : (d.updSite h f).updSite h g = { d with sites := Tbl.put h (g ((d.updSite h f).site h)) (Tbl.put h (f (d.site h)) d.sites) } := rfl
  rw [once, Dev.site_updSite_self, Tbl.put_put]
  rfl

/-! Bits of a cleared mask. -/

theorem bit_eq_testBit (v i : Nat) : bit v i = v.testBit i := by
  rw [Nat.testBit_eq_decide_div_mod_eq, bit, Nat.shiftRight_eq_div_pow]
  exact Bool.beq_eq_decide_eq _ _

theorem bit_clearMask (v m i : Nat) : bit (clearMask v m) i = (bit v i && !bit m i) := by
  simp only [bit_eq_testBit, clearMask, Nat.testBit_xor, Nat.testBit_and]
  cases v.testBit i <;> simp

/-- A 32-bit word shifted to word k has its bits there and nowhere else. -/
theorem bit_word32 (v k i : Nat) : bit ((v % 2 ^ 32) <<< (32 * k)) i = (decide (i / 32 = k) && bit v (i % 32)) := by
  simp only [bit_eq_testBit, Nat.testBit_shiftLeft, Nat.testBit_mod_two_pow]
  by_cases word : i / 32 = k
  · have from_ : 32 * k ≤ i := by omega
    have place : i - 32 * k = i % 32 := by omega
    have small : i % 32 < 32 := Nat.mod_lt _ (by decide)
    simp [word, from_, place, small]
  · by_cases from_ : 32 * k ≤ i
    · have beyond : ¬ i - 32 * k < 32 := by omega
      simp [word, beyond]
    · simp [word, from_]

/-! Writes of a host to its registers (R540, R555, R556). -/

section Writes
variable {s : State} {h : Fin 4}

theorem siteWrite_active {h : Nat} (active : (s.dev.site h).link = 3) (f : Dev → Dev) : siteWrite h f s = s.onDev f :=
  State.onDev_congr (if_pos active)

theorem siteWrite_down {h : Nat} (down : (s.dev.site h).link ≠ 3) (f : Dev → Dev) : siteWrite h f s = s :=
  State.onDev_same (if_neg down)

theorem exec_consumerIndexWrite (free : s.dev.linkHolds h.val = false) (v : Nat) :
    exec (.consumerIndexWrite h v) s = .next (siteWrite h.val (fun d => d.consume h.val v) s) :=
  congrArg Host.Outcome.next (State.hostSide_free free _ _)

theorem exec_summaryClear (free : s.dev.linkHolds h.val = false) (v : Nat) :
    exec (.summaryClear h v) s = .next (siteWrite h.val (fun d => d.clearSummary h.val v) s) :=
  congrArg Host.Outcome.next (State.hostSide_free free _ _)

end Writes

/-- A ring that has not overflowed only takes the consumer index over (R555). -/
theorem Dev.consume_spec {d : Dev} {h : Nat} (clear : (d.site h).overflow = false) (v : Nat) : let e := d.consume h v
    (e.site h).consumer = v % 2 ^ 32 ∧ (e.site h).producer = (d.site h).producer ∧ e.tx = d.tx ∧ e.regs = d.regs := by
  have room (e : Dev) (same : (e.site h).overflow = false) : e.ringRoom h = e := if_neg (by simp [same])
  dsimp only
  unfold Dev.consume
  extract_lets e f
  by_cases consumed : (e.site h).unconsumed = 0
  · have raised : f = e.updSite h fun x => { x with firstUnraised := none } := if_pos consumed
    rw [raised, room] <;> simp [e, clear]
  · have same : f = e := if_neg consumed
    rw [same, room] <;> simp [e, clear]

theorem Dev.clearSummary_reserved {d : Dev} {h v : Nat} (reserved : 2 ^ 37 ≤ v) : d.clearSummary h v = d :=
  if_pos (Nat.div_pos reserved (by decide)).ne'

theorem Dev.clearSummary_named {d : Dev} {h v : Nat} (named : v < 2 ^ 37) : d.clearSummary h v = d.updSite h fun x => { x with
    summary := clearMask x.summary ((v % 2 ^ 32) <<< (32 * bits v 36 32)), summaryDirty := true } :=
  if_neg (not_not.mpr (Nat.div_eq_of_lt named))

/-! Entries and interrupts (R552 to R557). -/

/-- Vector 0 follows what was sent and leaves the ring's index and what is staged. -/
theorem Dev.vector0_spec (d : Dev) (h : Nat) : d.tx <+: (d.vector0 h).tx ∧ ((d.vector0 h).site h).producer = (d.site h).producer ∧
    ((d.vector0 h).site h).staged = (d.site h).staged := by
  unfold Dev.vector0 Dev.msix
  dsimp only
  split
  · split <;> simp
  · exact ⟨List.prefix_rfl, rfl, rfl⟩

/-- A site one entry further. -/
def Site.entered (x : Site) (now : Nat) : Site :=
  { x with producer := (x.producer + 1) % 2 ^ 32, firstUnraised := some (x.firstUnraised.getD now) }

/-- An entry is sent before its header and its interrupt. -/
theorem Dev.putEntry_spec (d : Dev) (h : Nat) (ev : Ev) (n : Nat) : let x := d.site h
    d.tx ++ [.ring h (x.ringBase + 32 * (x.producer % 4096)) ev n (if x.producer / 4096 % 2 = 0 then 1 else 0)] <+: (d.putEntry h ev n).tx ∧
      ((d.putEntry h ev n).site h).producer = (x.producer + 1) % 2 ^ 32 ∧ ((d.putEntry h ev n).site h).staged = x.staged := by
  intro x
  unfold Dev.putEntry
  extract_lets _ e f g
  obtain ⟨sent, producer, staged⟩ := (g.ringHeader h).vector0_spec h
  have site : (g.ringHeader h).site h = x.entered d.now := Dev.site_updSite_self e h fun x => x.entered d.now
  rw [producer, staged, site]
  exact ⟨(List.prefix_append _ _).trans sent, rfl, rfl⟩

theorem Dev.writeRing_room {d : Dev} {h : Nat} (clear : (d.site h).overflow = false) (room : (d.site h).unconsumed < 4096) (ev : Ev) (n : Nat) :
    d.writeRing h ev n = d.putEntry h ev n := if_neg (by simp [clear, room])

theorem Dev.flushSite_none {d : Dev} {h : Nat} (none_ : (d.site h).staged = none) : d.flushSite h = d := by
  unfold Dev.flushSite
  rw [none_]

/-- The staged event of a ring with room is written (R554). -/
theorem Dev.flushSite_room {d : Dev} {h : Nat} {ev : Ev} {n : Nat} (staged : (d.site h).staged = some (ev, n))
    (clear : (d.site h).overflow = false) (room : (d.site h).unconsumed < 4096) :
    d.flushSite h = (d.updSite h fun x => { x with staged := none }).putEntry h ev n := by
  unfold Dev.flushSite
  rw [staged]
  refine Dev.writeRing_room ?_ ?_ ev n <;> rw [Dev.site_updSite_self]
  · exact clear
  · exact room

theorem Dev.flushLog_spec (d : Dev) : d.flushLog.tele.staged = none ∧ d.flushLog.tx = d.tx := by
  unfold Dev.flushLog
  split
  · next none_ => exact ⟨none_, rfl⟩
  · exact ⟨rfl, rfl⟩

theorem exec_coalescingWindowExpiry_site (s : State) (h : Fin 4) (bound : h.val < 5) :
    exec (.coalescingWindowExpiry ⟨h.val, bound⟩) s = .next (s.onDev fun d => d.flushSite h.val) :=
  congrArg Host.Outcome.next (State.onDev_congr (if_neg (by have := h.isLt; simp only; omega)))

/-! Moderation (R557). -/

/-- A site whose interval has ended. -/
def Site.rested (x : Site) : Site := { x with vec0Hold := false }

/-- What of a site an interrupt of its ring depends on stays with the end of its interval. -/
theorem Site.rested_keeps (x : Site) : x.rested.phase = x.phase ∧ x.rested.firstUnraised = x.firstUnraised ∧
    x.rested.unconsumed = x.unconsumed ∧ x.rested.moderation = x.moderation ∧ x.rested.msix = x.msix := ⟨rfl, rfl, rfl, rfl, rfl⟩

/-- A site that has raised vector 0 for its entries. -/
def Site.raised (x : Site) : Site := { x with firstUnraised := none, vec0Hold := x.moderation ≠ 0 }

section Moderation
variable {s : State} {h : Fin 4}

theorem exec_interruptModeration_due (attached : (s.dev.site h.val).phase = 4) (unraised : (s.dev.site h.val).firstUnraised.isSome = true)
    (waits : 0 < (s.dev.site h.val).unconsumed) : exec (.interruptModerationTimer h) s =
      .next (s.onDev fun d => (d.updSite h.val fun x => x.rested.raised).msix h.val 0) := by
  obtain ⟨phase, first, unconsumed, -⟩ := (s.dev.site h.val).rested_keeps
  have due : (((s.dev.updSite h.val Site.rested).site h.val).phase = 4 &&
      ((s.dev.updSite h.val Site.rested).site h.val).firstUnraised.isSome &&
      0 < ((s.dev.updSite h.val Site.rested).site h.val).unconsumed : Bool) = true := by
    rw [Dev.site_updSite_self, phase, first, unconsumed]
    simp [attached, unraised, waits]
  exact congrArg Host.Outcome.next (State.onDev_congr ((if_pos due).trans
    (congrArg (fun d => d.msix h.val 0) (Dev.updSite_updSite s.dev h.val Site.rested Site.raised))))

theorem exec_interruptModeration_quiet (quiet : (s.dev.site h.val).phase ≠ 4 ∨ (s.dev.site h.val).firstUnraised = none ∨
    (s.dev.site h.val).unconsumed = 0) : exec (.interruptModerationTimer h) s = .next (s.onDev fun d => d.updSite h.val Site.rested) := by
  obtain ⟨phase, first, unconsumed, -⟩ := (s.dev.site h.val).rested_keeps
  have early : ¬ (((s.dev.updSite h.val Site.rested).site h.val).phase = 4 &&
      ((s.dev.updSite h.val Site.rested).site h.val).firstUnraised.isSome &&
      0 < ((s.dev.updSite h.val Site.rested).site h.val).unconsumed : Bool) = true := by
    rw [Dev.site_updSite_self, phase, first, unconsumed]
    rcases quiet with off | none_ | empty
    · simp [off]
    · simp [none_]
    · simp [empty]
  exact congrArg Host.Outcome.next (State.onDev_congr (if_neg early))

end Moderation

theorem Dev.msix_spec (d : Dev) (h v : Nat) : ((d.site h).msix.getD v (0, 0, true)).2.2 = false ∧ d.msix h v = d.out (.msix h v) ∨
    ((d.site h).msix.getD v (0, 0, true)).2.2 = true ∧
      d.msix h v = d.updSite h fun x => { x with pendingBits := x.pendingBits ||| (1 <<< v) } := by
  unfold Dev.msix
  cases ((d.site h).msix.getD v (0, 0, true)).2.2
  · exact .inl ⟨rfl, rfl⟩
  · exact .inr ⟨rfl, rfl⟩

/-- Settles O40: the registers by what a write of each leaves, the timers by what is due. -/
theorem ringsServed : Obligations.ringsServed := by
  intro s h v x
  refine ⟨fun active free clear => ?_, fun down free => ?_, fun active free reserved => ?_, fun active free named => ?_,
    fun attached dirty => ?_, fun quiet => ?_, fun none_ => ?_, fun ev n staged clear room => ?_, ?_,
    fun attached unraised waits => ?_, fun quiet => ?_⟩
  · obtain ⟨consumer, producer, sent, regs⟩ := Dev.consume_spec clear v
    refine ⟨_, (exec_consumerIndexWrite free v).trans (congrArg _ (siteWrite_active active _)), ?_⟩
    exact ⟨consumer, producer, sent, regs, State.sameStore_onDev _ _⟩
  · exact ⟨(exec_consumerIndexWrite free v).trans (congrArg _ (siteWrite_down down _)),
      (exec_summaryClear free v).trans (congrArg _ (siteWrite_down down _))⟩
  · rw [exec_summaryClear free, siteWrite_active active, State.onDev_same (Dev.clearSummary_reserved reserved)]
  · refine ⟨_, (exec_summaryClear free v).trans (congrArg _ (siteWrite_active active _)), ?_⟩
    simp only [State.onDev_dev, Dev.clearSummary_named named, Dev.site_updSite_self, bit_clearMask, bit_word32]
    exact ⟨fun _ => rfl, trivial, State.sameStore_onDev _ _, rfl⟩
  · exact congrArg Host.Outcome.next (State.onDev_congr ((if_pos (by simp [x, attached, dirty])).trans (by simp [Dev.ringHeader, x])))
  · exact congrArg Host.Outcome.next (State.onDev_same (if_neg (by simpa [imp_iff_not_or] using quiet)))
  · rw [exec_coalescingWindowExpiry_site, State.onDev_same (Dev.flushSite_none none_)]
  · obtain ⟨sent, producer, unstaged⟩ := (s.dev.updSite h.val fun x => { x with staged := none }).putEntry_spec h.val ev n
    refine ⟨_, exec_coalescingWindowExpiry_site s h _, ?_⟩
    simp only [State.onDev_dev, Dev.flushSite_room staged clear room]
    rw [Dev.site_updSite_self] at sent producer unstaged
    refine ⟨unstaged, producer, State.sameStore_onDev _ _, ?_⟩
    simpa using (List.prefix_iff_eq_take.mp sent).symm
  · obtain ⟨staged, sent⟩ := s.dev.flushLog_spec
    exact ⟨_, rfl, staged, State.sameStore_onDev _ _, sent⟩
  · refine ⟨_, exec_interruptModeration_due attached unraised waits, ?_⟩
    rcases Dev.msix_spec (s.dev.updSite h.val fun x => x.rested.raised) h.val 0 with ⟨unmasked, raises⟩ | ⟨masked, raises⟩
    · rw [Dev.site_updSite_self] at unmasked
      have open_ : (x.msix.getD 0 (0, 0, true)).2.2 = false := unmasked
      rw [State.onDev_dev, raises, Dev.site_out, Dev.site_updSite_self, open_]
      exact ⟨rfl, rfl, State.sameStore_onDev _ _, fun _ => rfl, nofun⟩
    · rw [Dev.site_updSite_self] at masked
      have shut : (x.msix.getD 0 (0, 0, true)).2.2 = true := masked
      rw [State.onDev_dev, raises, Dev.site_updSite_self, Dev.site_updSite_self, shut]
      exact ⟨rfl, rfl, State.sameStore_onDev _ _, nofun, fun _ => ⟨rfl, by simp [bit_eq_testBit]⟩⟩
  · exact ⟨_, exec_interruptModeration_quiet quiet, Dev.site_updSite_self _ _ _, rfl, State.sameStore_onDev _ _⟩

end Sys2Proof.Machine

/-! The links of host sites, and the statement about them (R529 to R537, R544). -/
namespace Sys2Proof.Machine
open Sys2Proof

/-! Sites after an event. -/

theorem Dev.updSite_congr {d : Dev} {h : Nat} {f g : Site → Site} (same : f (d.site h) = g (d.site h)) : d.updSite h f = d.updSite h g := by
  unfold Dev.updSite
  rw [same]

/-- What an event does not write of a site is as before it. -/
theorem EventOf.keeps {α : Type} {d e : Dev} (event : EventOf d e) (h : Nat) (g : Site → α) (apart : ∀ x, g x.quiet = g x := by intro x; rfl) :
    g (e.site h) = g (d.site h) := (apart _).symm.trans ((congrArg g (event.2.1 h)).trans (apart _))

/-- What an event after a change of a site does not write is as changed. -/
theorem EventOf.changed {α : Type} {d e : Dev} {h : Nat} {f : Site → Site} (event : EventOf (d.updSite h f) e) (g : Site → α)
    (apart : ∀ x, g x.quiet = g x := by intro x; rfl) : g (e.site h) = g (f (d.site h)) :=
  (event.keeps h g apart).trans (congrArg g (Dev.site_updSite_self d h f))

/-- And of another site as before the change. -/
theorem EventOf.others {α : Type} {d e : Dev} {h k : Nat} {f : Site → Site} (event : EventOf (d.updSite h f) e) (other : k ≠ h)
    (g : Site → α) (apart : ∀ x, g x.quiet = g x := by intro x; rfl) : g (e.site k) = g (d.site k) :=
  (event.keeps k g apart).trans (congrArg g (Dev.site_updSite_ne d other f))

/-! Links and phases (R535). -/

/-- A change of phase is told by an event at most. -/
theorem Dev.setPhase_event (d : Dev) (h new : Nat) : EventOf (d.updSite h fun x => { x with phase := new }) (d.setPhase h new) := by
  unfold Dev.setPhase
  dsimp only
  split
  · next same =>
    subst same
    refine ⟨rfl, fun g => ?_, fun _ _ _ _ => rfl⟩
    by_cases here : g = h
    · rw [here, Dev.site_updSite_self]
    · rw [Dev.site_updSite_ne d here]
  · exact EventOf.raise _ _ _ _ _ _ _

/-- A site with another link, in its phase. -/
def Site.relinked (x : Site) (link modules rate repaired : Nat) : Site :=
  { x with link := link, modules := modules, rate := rate, repaired := repaired }

/-- And with the phase that follows: outside HOLDING that of the link. -/
def Site.linkSet (x : Site) (link modules rate repaired : Nat) : Site :=
  { x.relinked link modules rate repaired with phase := if x.phase = 5 then 5 else link }

section SetLink
variable {d : Dev} {h : Nat} (link modules rate repaired : Nat)

theorem Dev.setLink_holding (holding : (d.site h).phase = 5) :
    d.setLink h link modules rate repaired = d.updSite h fun x => x.relinked link modules rate repaired := by
  have phase : ((d.updSite h fun x => x.relinked link modules rate repaired).site h).phase = 5 := by
    rw [Dev.site_updSite_self]
    exact holding
  exact if_pos phase

theorem Dev.setLink_moves (moves : (d.site h).phase ≠ 5) :
    d.setLink h link modules rate repaired = (d.updSite h fun x => x.relinked link modules rate repaired).setPhase h link := by
  have phase : ((d.updSite h fun x => x.relinked link modules rate repaired).site h).phase ≠ 5 := by
    rw [Dev.site_updSite_self]
    exact moves
  exact if_neg phase

theorem Dev.setLink_event : EventOf (d.updSite h fun x => x.linkSet link modules rate repaired) (d.setLink h link modules rate repaired) := by
  by_cases holding : (d.site h).phase = 5
  · have same : (d.updSite h fun x => x.linkSet link modules rate repaired) = d.updSite h fun x => x.relinked link modules rate repaired :=
      Dev.updSite_congr (by simp [Site.linkSet, Site.relinked, holding])
    rw [Dev.setLink_holding link modules rate repaired holding, same]
    exact EventOf.refl _
  · have same : (d.updSite h fun x => x.linkSet link modules rate repaired) =
        (d.updSite h fun x => x.relinked link modules rate repaired).updSite h fun x => { x with phase := link } :=
      (Dev.updSite_congr (by simp [Site.linkSet, holding])).trans (Dev.updSite_updSite d h _ _).symm
    rw [Dev.setLink_moves link modules rate repaired holding, same]
    exact Dev.setPhase_event _ h link

end SetLink

/-- The link of a site is as given and outside HOLDING its phase too; the other sites have theirs as before. -/
abbrev Dev.Follows (d e : Dev) (h link : Nat) : Prop :=
  (e.site h).link = link ∧ (e.site h).phase = (if (d.site h).phase = 5 then 5 else link) ∧
    ∀ g, g ≠ h → (e.site g).link = (d.site g).link ∧ (e.site g).phase = (d.site g).phase

/-- A site's new link, after events. -/
theorem EventOf.follows {d e : Dev} {h link : Nat} {f : Site → Site} (event : EventOf (d.updSite h f) e)
    (set : (f (d.site h)).link = link) (phase : (f (d.site h)).phase = if (d.site h).phase = 5 then 5 else link) : d.Follows e h link :=
  ⟨(event.changed Site.link).trans set, (event.changed Site.phase).trans phase,
    fun _ other => ⟨event.others other Site.link, event.others other Site.phase⟩⟩

theorem Dev.setLink_follows (d : Dev) (h link modules rate repaired : Nat) : d.Follows (d.setLink h link modules rate repaired) h link :=
  (Dev.setLink_event link modules rate repaired).follows rfl rfl

/-! Presence (R530, R534). -/

section Link
variable {s : State} {h : Fin 4}

theorem exec_presence_down (up : s.dev.siteUp h.val = true) (down : (s.dev.site h.val).link = 1) :
    exec (.presenceQueryTimer h) s = .next (s.onDev fun d => d.out (.sideband h.val 0)) ∧
      exec (.presenceResponse h) s = .next (s.onDev fun d => (d.setLink h.val 2 0 0 0).out (.sideband h.val 1)) := by
  have may : (s.dev.siteUp h.val && (s.dev.site h.val).link = 1 : Bool) = true := by simp [up, down]
  exact ⟨congrArg Host.Outcome.next (State.onDev_congr (g := fun d => d.out _) (if_pos may)),
    congrArg Host.Outcome.next (State.onDev_congr (g := fun d => (d.setLink h.val 2 0 0 0).out _) (if_pos may))⟩

theorem exec_presence_other (other : s.dev.siteUp h.val = false ∨ (s.dev.site h.val).link ≠ 1) :
    exec (.presenceQueryTimer h) s = .next s ∧ exec (.presenceResponse h) s = .next s := by
  have not_ : ¬ (s.dev.siteUp h.val && (s.dev.site h.val).link = 1 : Bool) = true := by
    rcases other with off | linked
    · simp [off]
    · simp [linked]
  exact ⟨congrArg _ (State.onDev_same (if_neg not_)), congrArg _ (State.onDev_same (if_neg not_))⟩

/-! Training (R529, R530, R532). -/

section Trained
variable {d : Dev} {h modules rate repaired : Nat} (wide : modules ∈ [1, 2, 4]) (fast : rate ∈ [16, 32])
include wide fast

/-- Training that ends at a legal width and rate makes the link active, and an event tells of less than the full. -/
theorem linkTrained_event (way : (d.site h).link = 2 ∨ (d.site h).link = 3 ∧ (d.site h).heldLink = true) :
    EventOf ((d.updSite h fun x => { x with heldLink := false }).activeLink h modules rate repaired) (linkTrained h modules rate repaired d) := by
  have some_ : modules ≠ 0 := by rintro rfl; simp at wide
  have legal : ¬ (!([1, 2, 4].contains modules) || !([16, 32].contains rate) : Bool) = true := by
    simp only [List.elem_eq_mem, wide, fast]
    decide
  have ready : ((d.site h).link = 2 || (d.site h).link = 3 && (d.site h).heldLink : Bool) = true := by
    rcases way with training | ⟨active, held⟩
    · simp [training]
    · simp [active, held]
  unfold linkTrained
  rw [if_neg some_, if_neg legal, if_pos ready]
  dsimp only
  split
  · exact EventOf.raise _ _ _ _ _ _ _
  · exact EventOf.refl _

/-- A training link becomes active (R530). -/
theorem linkTrained_training (training : (d.site h).link = 2) :
    EventOf (d.updSite h fun x => { x.linkSet 3 modules rate repaired with heldLink := false }) (linkTrained h modules rate repaired d) := by
  have goes := linkTrained_event (repaired := repaired) wide fast (.inl training)
  have inactive : ¬ ((d.updSite h fun x => { x with heldLink := false }).site h).link = 3 := by
    rw [Dev.site_updSite_self, training]
    decide
  rw [Dev.activeLink, if_neg inactive] at goes
  have set := Dev.setLink_event (d := d.updSite h fun x => { x with heldLink := false }) (h := h) 3 modules rate repaired
  rw [Dev.updSite_updSite] at set
  exact set.trans goes

/-- An active link that retrained is described anew (R532). -/
theorem linkTrained_retrained (active : (d.site h).link = 3) (held : (d.site h).heldLink = true) :
    EventOf (d.updSite h fun x => { x with modules := modules, rate := rate, repaired := repaired, heldLink := false }) (linkTrained h modules rate repaired d) := by
  have goes := linkTrained_event (repaired := repaired) wide fast (.inr ⟨active, held⟩)
  have still : ((d.updSite h fun x => { x with heldLink := false }).site h).link = 3 := by
    rw [Dev.site_updSite_self, active]
  rw [Dev.activeLink, if_pos still, Dev.updSite_updSite] at goes
  exact goes

end Trained

theorem linkTrained_failed {d : Dev} {h : Nat} (training : (d.site h).link = 2) (rate repaired : Nat) :
    linkTrained h 0 rate repaired d = d.setLink h 1 0 0 0 := by
  unfold linkTrained
  exact (if_pos rfl).trans (if_pos training)

/-- A link that was not active holds nothing to be released. -/
theorem exec_linkTrained_inactive (inactive : (s.dev.site h.val).link ≠ 3) (modules rate repaired : Nat) :
    exec (.linkTrained h modules rate repaired) s = .next (s.onDev (linkTrained h.val modules rate repaired)) :=
  congrArg Host.Outcome.next (if_neg (by simp [inactive]))

/-- A retraining that ends releases in order what the link held (R532). -/
theorem exec_linkTrained_releases {modules rate repaired : Nat} (active : (s.dev.site h.val).link = 3)
    (held : (s.dev.site h.val).heldLink = true) (lock : s.dev.locked 13 h.val = true) (wide : modules ∈ [1, 2, 4]) (fast : rate ∈ [16, 32]) :
    exec (.linkTrained h modules rate repaired) s = .next ((s.dev.site h.val).heldIn.foldl (fun t i => hostEffect i t)
      ((s.onDev (linkTrained h.val modules rate repaired)).onDev fun d => d.updSite h.val fun x => { x with heldIn := [] })) := by
  have event := linkTrained_retrained (repaired := repaired) wide fast active held
  have free : ((linkTrained h.val modules rate repaired s.dev).site h.val).heldLink = false := event.changed Site.heldLink
  have waits : ((linkTrained h.val modules rate repaired s.dev).site h.val).heldIn = (s.dev.site h.val).heldIn :=
    event.changed Site.heldIn
  have locked : (linkTrained h.val modules rate repaired s.dev).locked 13 h.val = true := by
    unfold Dev.locked
    rw [event.1]
    exact lock
  have open_ : ¬ (linkTrained h.val modules rate repaired s.dev).linkHolds h.val = true := by
    simp [Dev.linkHolds, free, locked]
  refine congrArg Host.Outcome.next ((if_pos (by simp [active, held])).trans ((if_neg open_).trans ?_))
  exact congrArg (List.foldl _ _) waits

/-! Retraining and replays (R531, R532). -/

/-- A link begins to retrain: it holds its traffic, and the retraining is counted and told. -/
def Dev.retrains (d : Dev) (h : Nat) : Dev :=
  ((d.updSite h fun x => { x with heldLink := true, replays := [] }).incReg (0x4800 + h) 0x0F).out (.sideband h 2)

theorem Dev.retrainSite_active {d : Dev} {h : Nat} (active : (d.site h).link = 3) (free : (d.site h).heldLink = false) : d.retrainSite h = d.retrains h :=
  if_pos (by simp [active, free])

theorem Dev.retrainSite_none {d : Dev} {h : Nat} (none_ : (d.site h).link ≠ 3 ∨ (d.site h).heldLink = true) : d.retrainSite h = d := by
  refine if_neg ?_
  rcases none_ with inactive | held
  · simp [inactive]
  · simp [held]

/-- The times of the replays of the last millisecond, the one now among them. -/
def Dev.replayTimes (d : Dev) (h : Nat) : List Nat := (d.site h).replays.filter (fun t => d.now < t + 1000000) ++ [d.now]

/-- A replay is noted and counted. -/
def Dev.replayed (d : Dev) (h : Nat) : Dev :=
  (d.updSite h fun x => { x with replays := d.replayTimes h }).incReg (0x4800 + h) 0x10

theorem Dev.flitReplay_active {d : Dev} {h : Nat} (active : (d.site h).link = 3) :
    d.flitReplay h = if 64 < (d.replayTimes h).length then (d.replayed h).retrainSite h else d.replayed h :=
  if_neg (not_not.mpr active)

theorem Dev.site_replayed (d : Dev) (h : Nat) : (d.replayed h).site h = { d.site h with replays := d.replayTimes h } :=
  Dev.site_updSite_self d h fun x => { x with replays := d.replayTimes h }

theorem exec_ucieFlitReplay_few (active : (s.dev.site h.val).link = 3)
    (few : (s.dev.replayTimes h.val).length ≤ 64 ∨ (s.dev.site h.val).heldLink = true) :
    exec (.ucieFlitReplay h) s = .next (s.onDev fun d => d.replayed h.val) := by
  refine congrArg Host.Outcome.next (State.onDev_congr ((Dev.flitReplay_active active).trans ?_))
  split
  · next many => exact Dev.retrainSite_none (.inr (by rw [Dev.site_replayed]; exact few.resolve_left (by omega)))
  · rfl

theorem exec_ucieFlitReplay_many (active : (s.dev.site h.val).link = 3) (many : 64 < (s.dev.replayTimes h.val).length) :
    exec (.ucieFlitReplay h) s = exec (.linkRetrainRequest h) (s.onDev fun d => d.replayed h.val) :=
  congrArg Host.Outcome.next (State.onDev_congr (g := fun d => (d.replayed h.val).retrainSite h.val)
    ((Dev.flitReplay_active active).trans (if_pos many)))

theorem exec_linkRetrainRequest_active (active : (s.dev.site h.val).link = 3) (free : (s.dev.site h.val).heldLink = false) :
    Runs (.linkRetrainRequest h) s fun t => t.dev.site h.val = { s.dev.site h.val with heldLink := true, replays := [] } ∧
      t.dev.siteReg h.val 0x0F = (s.dev.siteReg h.val 0x0F + 1) % 2 ^ 64 ∧ t.dev.tx = s.dev.tx ++ [.sideband h.val 2] ∧ s.sameStore t := by
  refine ⟨_, congrArg Host.Outcome.next (State.onDev_congr (g := fun d => d.retrains h.val) (Dev.retrainSite_active active free)), ?_⟩
  exact ⟨Dev.site_updSite_self s.dev h.val fun x => { x with heldLink := true, replays := [] }, Dev.reg_incReg_self _ _ _, rfl,
    State.sameStore_onDev _ _⟩

/-! What a link holds (R532, R717). -/

theorem State.hostSide_holds {s : State} {h : Nat} (holds : s.dev.linkHolds h = true) (i : Instr) (k : State → State) :
    s.hostSide h i k = s.onDev fun d => d.updSite h fun x => { x with heldIn := x.heldIn ++ [i] } := if_pos holds

/-- What a host sends over its link, with the site. -/
def hostRows (h : Fin 4) (off size : Nat) (al : Bool) (data : Nat) (write : Bool) (dpa len : Nat) (y : Fin 16384) (v rb rc key : Nat)
    (regs : List (Nat × Nat)) (op : Nat) (r : Req) : List Instr :=
  [.commandSubmit h off size al data, .hostCxlMemAccess h write dpa len data, .syncWindowRead h y, .syncWindowWrite h y v,
    .hdmDecoderCommit h, .attach h rb rc key regs, .detachAndHold h, .detachAndRelease h, .consumerIndexWrite h v,
    .summaryClear h v, .mailboxSubmit h op r, .mailboxAcknowledge h]

/-- Each of them waits with the link. -/
theorem exec_hostRows_held (holds : s.dev.linkHolds h.val = true) {i : Instr} {off size : Nat} {al : Bool} {data : Nat} {write : Bool}
    {dpa len : Nat} {y : Fin 16384} {v rb rc key : Nat} {regs : List (Nat × Nat)} {op : Nat} {r : Req}
    (row : i ∈ hostRows h off size al data write dpa len y v rb rc key regs op r) :
    exec i s = .next (s.onDev fun d => d.updSite h.val fun x => { x with heldIn := x.heldIn ++ [i] }) := by
  simp only [hostRows, List.mem_cons, List.not_mem_nil, or_false] at row
  rcases row with rfl | rfl | rfl | rfl | rfl | rfl | rfl | rfl | rfl | rfl | rfl | rfl
  all_goals exact congrArg Host.Outcome.next (State.hostSide_holds holds _ _)

theorem exec_hdmDecoderCommit (free : s.dev.linkHolds h.val = false) : exec (.hdmDecoderCommit h) s =
    .next (if (s.dev.site h.val).link = 3 then s.onDev (fun d => d.updSite h.val (fun x => { x with hdm := true })) else s) := by
  refine congrArg Host.Outcome.next ((State.hostSide_free free _ _).trans ?_)
  split
  · next active => exact State.onDev_congr (if_pos active)
  · next inactive => exact State.onDev_same (if_neg inactive)

/-! Loss (R535 to R537). -/

/-- An active link that nobody is attached over is lost (R535, R536). -/
theorem linkLoss_unattached {h cause : Nat} (active : (s.dev.site h).link = 3) (counts : cause ≠ 3 ∨ (s.dev.site h).heldLink = true)
    (unattached : (s.dev.site h).phase ≠ 4) :
    linkLoss h cause s = s.onDev fun d => (d.setLink h 1 0 0 0).updSite h Site.functionReset := by
  have counted : ¬ ((s.dev.site h).link ≠ 3 || cause = 3 && !(s.dev.site h).heldLink : Bool) = true := by
    rcases counts with other | held
    · simp [active, other]
    · simp [active, held]
  unfold linkLoss
  rw [if_neg counted]
  dsimp only
  rw [if_neg unattached]
  by_cases holding : (s.dev.site h).phase = 5
  · rw [if_pos holding]
    exact State.onDev_congr (s := s) (f := fun d => (d.updSite h fun x => x.relinked 1 0 0 0).updSite h Site.functionReset)
      (g := fun d => (d.setLink h 1 0 0 0).updSite h Site.functionReset)
      (congrArg (fun d : Dev => d.updSite h Site.functionReset) (Dev.setLink_holding 1 0 0 0 holding).symm)
  · rw [if_neg holding]
    exact State.onDev_congr (s := s) (f := fun d => ((d.updSite h fun x => x.relinked 1 0 0 0).setPhase h 1).updSite h Site.functionReset)
      (g := fun d => (d.setLink h 1 0 0 0).updSite h Site.functionReset)
      (congrArg (fun d : Dev => d.updSite h Site.functionReset) (Dev.setLink_moves 1 0 0 0 holding).symm)

theorem linkLoss_none {h cause : Nat} (none_ : (s.dev.site h).link ≠ 3) : linkLoss h cause s = s := if_pos (by simp [none_])

end Link

/-- Settles O38: the link by its state, and what its host sends by whether the link holds it. -/
theorem siteLinksMove : Obligations.siteLinksMove := by
  intro s h x follows
  have follow {t : State} {link : Nat} (goes : s.dev.Follows t.dev h.val link) (store : s.sameStore t) : follows t link :=
    ⟨goes.1, goes.2.1, store, fun g _ other => goes.2.2 g other⟩
  refine ⟨fun up down => ?_, exec_presence_other, fun modules rate repaired training wide fast => ?_, fun rate repaired training => ?_,
    exec_linkRetrainRequest_active, fun active => ⟨exec_ucieFlitReplay_few active, fun many free => ?_⟩, exec_hdmDecoderCommit,
    fun holds i off size al data write dpa len y v rb rc key regs op r row => exec_hostRows_held holds row,
    fun modules rate repaired active held lock wide fast => ?_, fun inactive => ?_, fun cause active counts unattached => ?_⟩
  · obtain ⟨query, response⟩ := exec_presence_down up down
    exact ⟨query, _, response, follow (s.dev.setLink_follows h.val 2 0 0 0) (State.sameStore_onDev _ _)⟩
  · have event := linkTrained_training (repaired := repaired) wide fast training
    have inactive : x.link ≠ 3 := by rw [training]; decide
    exact ⟨_, exec_linkTrained_inactive inactive _ _ _, follow (event.follows rfl rfl) (State.sameStore_onDev _ _),
      event.changed Site.modules, event.changed Site.rate, event.changed Site.heldLink⟩
  · have inactive : x.link ≠ 3 := by rw [training]; decide
    refine ⟨_, exec_linkTrained_inactive inactive _ _ _, follow ?_ (State.sameStore_onDev _ _)⟩
    rw [State.onDev_dev, linkTrained_failed training]
    exact s.dev.setLink_follows h.val 1 0 0 0
  · have site := s.dev.site_replayed h.val
    have count : (s.dev.replayed h.val).siteReg h.val 0x0F = s.dev.siteReg h.val 0x0F := Dev.reg_incReg_other _ (by omega)
    obtain ⟨t, run, there, retrains, -, store⟩ := exec_linkRetrainRequest_active (s := s.onDev fun d => d.replayed h.val) (h := h)
      (by rw [State.onDev_dev, site]; exact active) (by rw [State.onDev_dev, site]; exact free)
    have many_ := exec_ucieFlitReplay_many active many
    refine ⟨many_, t, many_.trans run, by rw [there], by rw [there], ?_, store⟩
    rw [retrains, State.onDev_dev, count]
  · have event := linkTrained_retrained (repaired := repaired) wide fast active held
    refine ⟨_, exec_linkTrained_releases active held lock wide fast, ⟨rfl, rfl, rfl⟩, ?_⟩
    have site := Dev.site_updSite_self (linkTrained h.val modules rate repaired s.dev) h.val fun x => { x with heldIn := [] }
    simp only [State.onDev_dev, site]
    exact ⟨(event.changed Site.link).trans active, event.changed Site.phase, event.changed Site.heldLink, trivial,
      event.changed Site.modules, event.changed Site.rate, event.changed Site.repaired⟩
  · exact ⟨congrArg Host.Outcome.next (State.onDev_same (Dev.retrainSite_none (.inl inactive))),
      congrArg Host.Outcome.next (State.onDev_same (if_pos inactive)), fun cause => congrArg Host.Outcome.next (linkLoss_none inactive)⟩
  · obtain ⟨link, phase, others⟩ := s.dev.setLink_follows h.val 1 0 0 0
    have lanes : ((s.dev.setLink h.val 1 0 0 0).site h.val).modules = 0 := (Dev.setLink_event (d := s.dev) (h := h.val) 1 0 0 0).changed Site.modules
    have site := Dev.site_updSite_self (s.dev.setLink h.val 1 0 0 0) h.val Site.functionReset
    refine ⟨_, congrArg Host.Outcome.next (linkLoss_unattached active counts unattached), follow ⟨?_, ?_, fun g other => ?_⟩ (State.sameStore_onDev _ _), ?_⟩
    · rw [State.onDev_dev, site]
      exact link
    · rw [State.onDev_dev, site]
      exact phase
    · rw [State.onDev_dev, Dev.site_updSite_ne _ other]
      exact others g other
    · rw [State.onDev_dev, site]
      exact ⟨lanes, rfl, rfl, rfl, rfl, rfl, rfl⟩

end Sys2Proof.Machine

/-! Writes of entries that have a command of their own and whose reply may be delayed: which checks they have passed, and what their
effect is then (R672, R673). -/
namespace Sys2Proof.Machine
open Sys2Proof

/-! Numbers as bytes. -/

theorem leBytes_length (n : Nat) : ∀ v, (leBytes n v).length = n := by
  induction n with
  | zero => exact fun _ => rfl
  | succ n ih => exact fun v => congrArg Nat.succ (ih (v / 256))

theorem leNat_leBytes (n : Nat) : ∀ {v}, v < 2 ^ (8 * n) → leNat (leBytes n v) = v := by
  induction n with
  | zero =>
    intro v small
    rw [Nat.mul_zero, pow_zero, Nat.lt_one_iff] at small
    exact small.symm
  | succ n ih =>
    intro v small
    have rest : v / 256 < 2 ^ (8 * n) := Nat.div_lt_of_lt_mul (by rwa [Nat.mul_succ, pow_add, mul_comm] at small)
    simp only [leBytes, leNat, ih rest]
    omega

/-! The row of a write. -/

/-- A writable entry whose values are plain numbers, all of which its bytes can carry. -/
def EntryRow.isCount (row : EntryRow) : Bool :=
  row.ty ≠ .domain && row.ty ≠ .vstr && row.ty ≠ .f32 && row.max < 2 ^ (8 * row.size)

/-- A value that is not refused lies in its entry's range. -/
theorem valueCode_range {row : EntryRow} {idx sub v : Nat} (count : row.isCount = true) (ok : valueCode row idx sub v = 0) :
    v ≤ row.max := by
  simp only [EntryRow.isCount, Bool.and_eq_true, decide_eq_true_eq] at count
  obtain ⟨⟨⟨domain, vstr⟩, f32⟩, -⟩ := count
  unfold valueCode at ok
  split at ok
  · cases ok
  · split at ok
    · cases ok
    · split at ok
      · contradiction
      · contradiction
      · contradiction
      · split at ok
        · cases ok
        · simp_all

theorem Dev.row_of_writeHead {d : Dev} {via : Via} {idx sub : Nat} {row : EntryRow} (head : d.writeHead via idx sub = .ok row) :
    d.row idx sub = some row ∧ idxPresent idx = true := by
  unfold Dev.writeHead at head
  split at head
  · cases head
  · next present =>
    split at head
    · cases head
    · split at head
      · cases head
      · next found =>
        split at head
        · cases head
        · dsimp only at head
          split at head
          · cases head
          · cases head
            exact ⟨found, by simpa using present⟩

theorem Dev.writeHead_error {d : Dev} {via : Via} {idx sub code : Nat} (head : d.writeHead via idx sub = .error code) : code ≠ 0 := by
  unfold Dev.writeHead at head
  split at head
  · cases head; decide
  · split at head
    · cases head; decide
    · split at head
      · cases head; decide
      · split at head
        · cases head; decide
        · dsimp only at head
          split at head
          · next refused => cases head; exact refused
          · cases head

/-- A write that passes has a row and a sound value. -/
theorem Dev.writeCode_passes {d : Dev} {via : Via} {idx sub v : Nat} (ok : d.writeCode via idx sub v = 0) :
    ∃ row, d.writeHead via idx sub = .ok row ∧ d.valueChecks row idx sub v = 0 := by
  unfold Dev.writeCode at ok
  split at ok
  · next head => exact absurd ok (Dev.writeHead_error head)
  · next row head => exact ⟨row, head, ok⟩

theorem Dev.valueChecks_code {d : Dev} {row : EntryRow} {idx sub v : Nat} (ok : d.valueChecks row idx sub v = 0) :
    valueCode row idx sub v = 0 := by
  by_contra bad
  exact bad ((if_pos bad).symm.trans ok)

theorem Dev.rowOf_of_row {d : Dev} {idx sub : Nat} {row : EntryRow} (found : d.row idx sub = some row) (counted : sub ≠ 0) :
    rowOf idx sub = some row := by
  simp only [Dev.row, counted, if_false, Option.ite_none_left_eq_some] at found
  exact found.2

theorem Dev.wholeWrite_row {d : Dev} {idx sub : Nat} {row : EntryRow} (found : d.row idx sub = some row) (via : Via) (v : Nat) :
    d.wholeWrite via idx sub v =
      { via := via, opcode := 2, kind := 0, plain := true,
        req := { version := 1, tag := 0, index := idx, sub := sub, count := 0, offset := 0, length := row.size, ty := row.ty.code,
                 flags := if row.ty = .domain then 1 else 0, payload := leBytes row.size v } } := by
  simp only [Dev.wholeWrite, found]

/-! What a write with a command of its own leaves. -/

/-- A write is answered with its code, or keeps its reply. -/
def settled (via : Via) (idx sub : Nat) (q : Option Nat × State) : State :=
  match q.1 with
  | some code => q.2.replied via idx sub code
  | none => q.2

section OwnWrite
variable {s : State} {via : Via} {idx sub v : Nat} {row : EntryRow}

/-- The answer to such a write is that of a write without a payload. -/
theorem Dev.answer_wholeWrite {d e : Dev} (found : d.row idx sub = some row) (present : idxPresent idx = true) (code : Nat) :
    e.answer (d.wholeWrite via idx sub v) (if code = 0 then .ok (0, 0, []) else .error code) =
      e.sendReply via false (e.writeReply 0 idx sub code) := by
  rw [Dev.wholeWrite_row found]
  by_cases zero : code = 0
  · rw [if_pos zero, zero]
    simp only [Dev.answer, Dev.writeReply, present, if_true]
    rfl
  · rw [if_neg zero]
    simp only [Dev.answer, Dev.writeReply, present, if_true]
    rfl

/-- A write that is heard and meets no delayed write is applied, and settled by what that answers. -/
theorem State.ownWrite_served (avail : s.dev.avail = true) (heard : s.dev.deaf via = false) (free : s.dev.busyIdx idx = false)
    (head : s.dev.writeHead via idx sub = .ok row) (noReset : idx ≠ 0x6000 ∨ sub ≠ 0x12) :
    s.ownWrite via idx sub v = settled via idx sub (s.write (s.dev.wholeWrite via idx sub v)) := by
  obtain ⟨found, present⟩ := Dev.row_of_writeHead head
  have answer (e : Dev) (code : Nat) := Dev.answer_wholeWrite (via := via) (v := v) (e := e) found present code
  have early : s.early 2 (s.dev.wholeWrite via idx sub v).req = none := if_pos avail
  have noAfter (e : Dev) (x : Nat) : e.afterReply idx sub x = e := if_neg (by rcases noReset with a | a <;> simp [a])
  have whole := Dev.wholeWrite_row found via v
  unfold State.ownWrite State.serve settled
  rw [if_neg (by simp [heard])]
  generalize hw : s.dev.wholeWrite via idx sub v = w at *
  have opcode : w.opcode = 2 := by rw [whole]
  have plain : w.plain = true := by rw [whole]
  have index : w.req.index = idx := by rw [whole]
  have sub_ : w.req.sub = sub := by rw [whole]
  simp only [opcode, early, plain, Bool.not_true, Bool.false_and, Bool.false_eq_true, if_false, index, sub_, free, if_true]
  generalize s.write w = q
  obtain ⟨code | code, t⟩ := q
  · rfl
  · have done (c : Nat) := answer t.dev c
    cases code with
    | zero => exact congrArg (fun e : Dev => { t with dev := e }) ((noAfter _ _).trans (answer t.dev 0))
    | succ n => exact congrArg (fun e : Dev => { t with dev := e }) (answer t.dev (n + 1))

/-- A write of a plain number that passes and meets no delayed write takes effect. -/
theorem State.ownWrite_applied (passes : s.passes via idx sub v) (free : s.dev.busyIdx idx = false) (counted : sub ≠ 0)
    (count : (rowOf idx sub).any EntryRow.isCount = true) (noReset : idx ≠ 0x6000 ∨ sub ≠ 0x12) :
    s.ownWrite via idx sub v = settled via idx sub (applyWrite (s.dev.wholeWrite via idx sub v) v s) := by
  obtain ⟨avail, heard, code⟩ := passes
  obtain ⟨row, head, checks⟩ := Dev.writeCode_passes code
  have found := (Dev.row_of_writeHead head).1
  have isCount : row.isCount = true := by
    rw [Dev.rowOf_of_row found counted] at count
    exact count
  have small : v < 2 ^ (8 * row.size) := by
    have bound := isCount
    simp only [EntryRow.isCount, Bool.and_eq_true, decide_eq_true_eq] at bound
    exact (valueCode_range isCount (Dev.valueChecks_code checks)).trans_lt bound.2
  have value : leNat (leBytes row.size v) = v := leNat_leBytes _ small
  have noDomain : row.ty ≠ .domain := by
    intro domain
    simp [EntryRow.isCount, domain] at isCount
  have whole := Dev.wholeWrite_row found via v
  rw [if_neg noDomain] at whole
  rw [State.ownWrite_served avail heard free head noReset]
  generalize s.dev.wholeWrite via idx sub v = w at *
  have span : spanCode row 2 w.req = 0 := by
    rw [whole]
    simp [spanCode, noDomain]
  have type : w.req.ty = row.ty.code := by rw [whole]
  have length : w.req.length = row.size := by rw [whole]
  have payload : leNat w.req.payload = v := by rw [whole]; exact value
  have place : w.via = via ∧ w.req.index = idx ∧ w.req.sub = sub := by rw [whole]; exact ⟨rfl, rfl, rfl⟩
  obtain ⟨via_, index, sub_⟩ := place
  unfold State.write
  simp [via_, index, sub_, head, type, length, span, payload, checks, noDomain]

/-- A byte string that is replaced whole. -/
theorem setBytesAt_whole {n v x : Nat} (positive : 0 < n) (before : v < 2 ^ (8 * n)) (small : x < 2 ^ (8 * n)) : setBytesAt v 0 n x = x := by
  have width : 8 * (0 + n) - 1 + 1 - 8 * 0 = 8 * n := by omega
  have top : 8 * (0 + n) - 1 + 1 = 8 * n := by omega
  rw [setBytesAt, if_neg (by omega), setBits_eq (by omega), width, top, Nat.shiftRight_eq_div_pow, Nat.div_eq_of_lt before,
    Nat.mod_eq_of_lt small]
  simp [Nat.mod_one]

/-- The nonce is 48 bytes that are written whole. -/
theorem rowOf_nonce {row : EntryRow} (found : rowOf 0x6000 0x30 = some row) : row.ty = .domain ∧ row.size = 48 := by
  have run : (rowOf 0x6000 0x30).map (fun r => (r.ty, r.size)) = some (.domain, 48) := by decide
  simpa [found] using run

/-- Discarding a staged value where none is staged changes nothing. -/
theorem Dev.unstage_none {d : Dev} (none_ : d.dict.staging = []) (key : Nat) : d.unstage via key = d := by
  unfold Dev.unstage
  rw [none_, List.filter_nil, ← none_]

/-- A nonce that passes and meets no delayed write is committed (R671, R704). -/
theorem State.ownWrite_nonce {nonce : Nat} (passes : s.passes via 0x6000 0x30 nonce) (free : s.dev.busyIdx 0x6000 = false)
    (unstaged : s.dev.dict.staging = []) (before : s.live via 0x6000 0x30 < 2 ^ 384) (small : nonce < 2 ^ 384) :
    let q := attest (s.dev.wholeWrite via 0x6000 0x30 nonce) nonce s
    s.ownWrite via 0x6000 0x30 nonce = settled via 0x6000 0x30
      (if q.1.getD 0 ≠ 0 then q else (q.1, q.2.onDev fun d => d.unstage via (ekey 0x6000 0x30))) := by
  intro q
  obtain ⟨avail, heard, code⟩ := passes
  obtain ⟨row, head, checks⟩ := Dev.writeCode_passes code
  have found := (Dev.row_of_writeHead head).1
  obtain ⟨domain, size⟩ := rowOf_nonce (Dev.rowOf_of_row found (by decide))
  have value : leNat (leBytes 48 nonce) = nonce := leNat_leBytes 48 small
  have whole := Dev.wholeWrite_row found via nonce
  rw [if_pos domain, size] at whole
  have buffer : (s.stagingOf via 0x6000 0x30).place (s.dev.wholeWrite via 0x6000 0x30 nonce).req =
      { via := via, key := ekey 0x6000 0x30, value := nonce, mask := 2 ^ 48 - 1 } := by
    rw [whole]
    simp only [State.stagingOf, unstaged, List.find?_nil, Option.getD_none, Staging.place, value,
      setBytesAt_whole (n := 48) (by decide) before small]
    rfl
  rw [State.ownWrite_served avail heard free head (.inr (by decide))]
  unfold q
  generalize s.dev.wholeWrite via 0x6000 0x30 nonce = w at *
  have type : w.req.ty = row.ty.code := by rw [whole]
  have span : spanCode row 2 w.req = 0 := by
    rw [whole]
    simp [spanCode, domain, size]
  have place : w.via = via ∧ w.req.index = 0x6000 ∧ w.req.sub = 0x30 ∧ w.req.flags = 1 := by rw [whole]; exact ⟨rfl, rfl, rfl, rfl⟩
  obtain ⟨via_, index, sub_, flags⟩ := place
  have effect : applyWrite w nonce s = attest w nonce s := by
    unfold applyWrite
    rw [index, sub_]
    rfl
  have written : domainWrite w row s = (if (attest w nonce s).1.getD 0 ≠ 0 then attest w nonce s else
      ((attest w nonce s).1, (attest w nonce s).2.onDev fun d => d.unstage via (ekey 0x6000 0x30))) := by
    unfold domainWrite
    simp only [via_, index, sub_, flags, buffer, size, checks, effect]
    simp
  rw [← written]
  unfold State.write
  simp [via_, index, sub_, head, type, span, domain]

end OwnWrite

end Sys2Proof.Machine

/-! The settings image, the life cycle and attestation: their writes, and what ends the wait of those that keep their reply
(R673, R681, R703, R704, R707, R708). -/
namespace Sys2Proof.Machine
open Sys2Proof

/-! Requests that wait. -/

/-- A request that begins to wait stands last, and nothing but a mailbox changes beside it. -/
theorem Dev.park_spec (d : Dev) (w : Waiting) : (d.park w).tx = d.tx ∧ (d.park w).regs = d.regs ∧ (d.park w).boot = d.boot ∧
    (d.park w).dict = { d.dict with waiting := d.dict.waiting ++ [w] } := by
  unfold Dev.park
  split <;> exact ⟨rfl, rfl, rfl, rfl⟩

/-- With no request waiting, none is served. -/
theorem State.unblock_none {s : State} (none_ : s.dev.dict.waiting = []) (idx : Nat) : s.unblock idx = s := by
  have free : s.dev.busyIdx idx = false := by simp [Dev.busyIdx, none_]
  have rest (p : Waiting → Bool) : ({ s.dev.dict with waiting := s.dev.dict.waiting.filter p } : DictSt) = s.dev.dict := by
    rw [none_, List.filter_nil, ← none_]
  unfold State.unblock
  simp only [free, none_, List.filter_nil, List.foldl_nil, Bool.false_eq_true, if_false]
  exact congrArg (fun x => s.onDev fun d => { d with dict := x }) (rest _)

/-- With no request waiting, none is answered. -/
theorem Dev.replyWaiting_none {d : Dev} (none_ : d.dict.waiting = []) (kind code : Nat) : d.replyWaiting kind code = d := by
  unfold Dev.replyWaiting
  rw [none_, List.filter_nil, List.filter_nil, List.foldl_nil, ← none_]

/-- The part without a request that waits. -/
def Dev.unwaited (d : Dev) : Dev := { d with dict := { d.dict with waiting := [] } }

theorem Dev.reg_unwaited (d : Dev) (i a : Nat) : d.unwaited.reg i a = d.reg i a := Dev.reg_congr rfl rfl i a

/-- The only request that waits is answered when what it waits for is done. -/
theorem Dev.replyWaiting_one {d : Dev} {x : Waiting} (one : d.dict.waiting = [x]) (code : Nat) : d.replyWaiting x.kind code =
    d.unwaited.sendReply x.via (!x.plain) (d.unwaited.writeReply x.req.tag x.req.index x.req.sub code) := by
  have mine : d.dict.waiting.filter (fun w => w.kind = x.kind) = [x] := by simp [one]
  have others : d.dict.waiting.filter (fun w => w.kind ≠ x.kind) = [] := by simp [one]
  unfold Dev.replyWaiting
  rw [mine, others]
  rfl

section Reply
variable {d : Dev} {e : Nat} {x : Waiting}

/-- The part once a request was answered. -/
def Dev.requestCounted (d : Dev) (r : Reply) : Dev := if r.reason = 0 then d.incReg 0x1100 0x10 else d.incReg 0x1100 0x11

theorem Dev.requestCounted_frame (d : Dev) (r : Reply) : d.requestCounted r = { d with regs := (d.requestCounted r).regs } := by
  unfold Dev.requestCounted
  split <;> rfl

/-- A reply over I3C is counted and leaves the part. -/
theorem Dev.sendReply_i3c (d : Dev) (e : Nat) (tagged : Bool) (r : Reply) :
    d.sendReply (.i3c e) tagged r = { d with regs := (d.requestCounted r).regs, tx := d.tx ++ [.reply (.i3c e) r] } := by
  change (d.requestCounted r).out _ = _
  rw [Dev.requestCounted_frame]
  rfl

/-- The only request that waits, over I3C, is answered, and nothing but its counter changes beside it. -/
theorem Dev.replyWaiting_i3c (one : d.dict.waiting = [x]) (via_ : x.via = .i3c e) : let r := d.unwaited.writeReply x.req.tag x.req.index x.req.sub 0
    d.replyWaiting x.kind 0 = { d.unwaited with regs := (d.unwaited.requestCounted r).regs, tx := d.tx ++ [.reply x.via r] } := by
  rw [Dev.replyWaiting_one one, via_]
  exact Dev.sendReply_i3c _ e _ _

theorem Dev.replyWaiting_last (one : d.dict.waiting = [x]) (via_ : x.via = .i3c e) : (d.replyWaiting x.kind 0).tx.getLast? =
    some (.reply x.via (d.unwaited.writeReply x.req.tag x.req.index x.req.sub 0)) := by
  rw [Dev.replyWaiting_i3c one via_]
  exact List.getLast?_concat

end Reply

/-! Settings (R681). -/

section Settings
variable {s : State} {via : Via} {g : Nat}

theorem settingsCommit_count : (rowOf 0x1800 0x11).any EntryRow.isCount = true := by decide

/-- SETTINGS_COMMIT that passes and meets no delayed write commits the staged image. -/
theorem exec_settingsCommit (passes : s.passes via 0x1800 0x11 g) (free : s.dev.busyIdx 0x1800 = false) :
    exec (.settingsCommit via g) s = .next (settled via 0x1800 0x11 (settingsCommit (s.dev.wholeWrite via 0x1800 0x11 g) g s)) :=
  congrArg Host.Outcome.next (State.ownWrite_applied passes free (by decide) settingsCommit_count (.inl (by decide)))

variable {w : Waiting} {slot : Nat}

theorem settingsCommit_full (full : s.persist.nextSlot = none) : settingsCommit w g s = (some 0x010C, s) := by
  simp only [settingsCommit, full]

theorem settingsCommit_other (next : s.persist.nextSlot = some slot) (other : g ≠ slot + 1) :
    settingsCommit w g s = (some 0x010C, s) := by
  simp only [settingsCommit, next, if_pos other]

theorem settingsCommit_returned (next : s.persist.nextSlot = some slot) (same : g = slot + 1) (returned : 3 ≤ s.persist.life) :
    settingsCommit w g s = (some 0x010D, s) := by
  simp only [settingsCommit, next, if_neg (not_not.mpr same), if_pos returned]

section InService
variable (next : s.persist.nextSlot = some slot) (same : g = slot + 1) (life : s.persist.life < 3)
include next same life

theorem settingsCommit_malformed (bad : settingsForm (s.dev.reg 0x1800 0x10) g = false) : settingsCommit w g s = (some 0x010B, s) := by
  simp only [settingsCommit, next, if_neg (not_not.mpr same), if_neg (Nat.not_le.mpr life), bad, Bool.not_false, if_true]

/-- A sound image whose records all pass begins its burn, and the write waits. -/
theorem settingsCommit_burns (formed : settingsForm (s.dev.reg 0x1800 0x10) g = true)
    (sound : ∀ i, i < bytesAt (s.dev.reg 0x1800 0x10) 8 2 → s.dev.recordOk (settingsRecord (s.dev.reg 0x1800 0x10) i) = true) :
    settingsCommit w g s = (none, s.onDev fun d =>
      (d.onBoot fun b => { b with burnSettings := some (slot, s.dev.reg 0x1800 0x10) }).park { w with kind := 1 }) := by
  have all : (List.range (bytesAt (s.dev.reg 0x1800 0x10) 8 2)).find?
      (fun i => !(s.dev.recordOk (settingsRecord (s.dev.reg 0x1800 0x10) i))) = none := by
    rw [List.find?_eq_none]
    intro i mem
    simp [sound i (List.mem_range.mp mem)]
  simp only [settingsCommit, next, if_neg (not_not.mpr same), if_neg (Nat.not_le.mpr life), formed, Bool.not_true, Bool.false_eq_true,
    if_false, all]

end InService

/-- Without a burn under way its end changes nothing. -/
theorem exec_settingsBurnComplete_idle (idle : s.dev.boot.burnSettings = none) (none_ : s.dev.dict.waiting = []) (ok : Bool) :
    exec (.settingsBurnComplete ok) s = .next s := by
  have stays : settingsBurned ok s = s := by simp only [settingsBurned, idle]
  exact congrArg Host.Outcome.next ((congrArg (State.unblock · 0x1800) stays).trans (State.unblock_none none_ _))

/-- The slot is consumed, valid only where the burn verified, and the only write that waits is answered. -/
theorem exec_settingsBurnComplete_done {ok : Bool} {img e : Nat} {x : Waiting} (burns : s.dev.boot.burnSettings = some (slot, img))
    (one : s.dev.dict.waiting = [x]) (kind : x.kind = 1) (via_ : x.via = .i3c e) : Runs (.settingsBurnComplete ok) s (fun t =>
      t.mem = s.mem ∧ t.pending = s.pending ∧ t.dev.dict.waiting = [] ∧
      t.persist = { s.persist with slots := setAt s.persist.slots slot (some (if ok then img else 0)) } ∧
      t.dev.boot = { s.dev.boot with burnSettings := none } ∧ answers t x.via x.req.index x.req.sub 0) := by
  let burned := s.dev.onBoot fun b => { b with burnSettings := none }
  have event := EventOf.raise burned 0x8105 0 0 none none [slot, b2n ok]
  let told := burned.raiseDev 0x8105 [slot, b2n ok]
  have waits : told.dict.waiting = [x] := by
    rw [show told.dict = burned.dict from (congrArg Dev.dict event.1).trans rfl]
    exact one
  have boot : told.boot = burned.boot := (congrArg Dev.boot event.1).trans rfl
  have replied := Dev.replyWaiting_i3c waits via_
  have last := Dev.replyWaiting_last waits via_
  rw [kind] at replied last
  let t : State := { s with
    persist := { s.persist with slots := setAt s.persist.slots slot (some (if ok then img else 0)) }
    dev := told.replyWaiting 1 0 }
  have run : settingsBurned ok s = t := by
    simp only [settingsBurned, burns]
    rfl
  have none_ : t.dev.dict.waiting = [] := (congrArg (·.dict.waiting) replied).trans rfl
  exact ⟨t, congrArg Host.Outcome.next ((congrArg (State.unblock · 0x1800) run).trans (State.unblock_none none_ _)),
    rfl, rfl, none_, rfl, (congrArg Dev.boot replied).trans boot,
    told.unwaited.writeReply x.req.tag x.req.index x.req.sub 0, last, rfl, rfl, rfl, rfl⟩

end Settings

/-! What a change of a function's state and its events write. -/

/-- The part but for what events, the state of a function and the start of perturbation write. -/
def Dev.FnOf (d e : Dev) : Prop :=
  e = { d with regs := e.regs, sites := e.sites, tx := e.tx, tele := e.tele, latch := e.latch, pert := e.pert }

theorem Dev.FnOf.trans {a b c : Dev} (h : a.FnOf b) (k : b.FnOf c) : a.FnOf c := by
  unfold Dev.FnOf at *
  rw [k, h]

theorem Dev.FnOf.of_event {d e : Dev} (h : EventOf d e) : d.FnOf e := by
  unfold Dev.FnOf
  rw [h.1]

/-- Where the permission is gone, the perturbation unit's state, its latch and events are all that changes (R727). -/
theorem State.perturbStop_frame (s : State) : s.sameStore s.perturbStop ∧ s.dev.FnOf s.perturbStop.dev := by
  have stop (t : State) : s.sameStore t → s.dev.FnOf t.dev → s.sameStore (perturbRule.stop (t.setFn 0x7000 3)) ∧
      s.dev.FnOf (perturbRule.stop (t.setFn 0x7000 3)).dev := fun store dev =>
    ⟨store, dev.trans (Dev.FnOf.trans (b := (t.setFn 0x7000 3).dev) rfl (.of_event (EventOf.raise _ _ _ _ _ _ _)))⟩
  unfold State.perturbStop
  split
  · exact ⟨⟨rfl, rfl, rfl⟩, rfl⟩
  · extract_lets l t
    have stopped : s.sameStore t ∧ s.dev.FnOf t.dev := by
      unfold t
      split
      · exact ⟨⟨rfl, rfl, rfl⟩, rfl⟩
      · exact stop s ⟨rfl, rfl, rfl⟩ rfl
    obtain ⟨store, dev⟩ := stopped
    refine ⟨store, dev.trans ?_⟩
    dsimp only [State.onDev]
    split
    · exact Dev.FnOf.trans (b := { (t.setFn 0x7000 0).dev.setReg 0x7000 0x01 0 with latch := Tbl.del 0x7000 (t.setFn 0x7000 0).dev.latch })
        rfl (.of_event (EventOf.raise _ _ _ _ _ _ _))
    · rfl

/-! The life cycle (R707, R708). -/

section LifeCycle
variable {s : State} {via : Via} {v : Nat} {w : Waiting}

theorem lifeTransition_count : (rowOf 0x6000 0x10).any EntryRow.isCount = true := by decide

/-- LIFE_CYCLE_TRANSITION that passes and meets no delayed write is judged by its own rules. -/
theorem exec_lifeCycleTransition (passes : s.passes via 0x6000 0x10 v) (free : s.dev.busyIdx 0x6000 = false) :
    exec (.lifeCycleTransition via v) s = .next (settled via 0x6000 0x10 (lifeTransition (s.dev.wholeWrite via 0x6000 0x10 v) v s)) :=
  congrArg Host.Outcome.next (State.ownWrite_applied passes free (by decide) lifeTransition_count (.inr (by decide)))

theorem lifeTransition_busy (busy : ¬(s.dev.boot.burnSettings = none ∧ s.dev.boot.burnLife = none)) :
    lifeTransition w v s = (some 0x0B07, s) :=
  if_pos (by simpa [imp_iff_not_or, ← Option.isSome_iff_ne_none] using busy)

section Clear
variable (clear : s.dev.boot.burnSettings = none ∧ s.dev.boot.burnLife = none)
include clear

theorem lifeTransition_unfit (unfit : ¬(bits v 15 8 = 0xA5 ∧ s.lifeOk (v % 8) = true)) : lifeTransition w v s = (some 0x0B04, s) := by
  obtain ⟨settings, life⟩ := clear
  refine (if_neg (by simp [settings, life])).trans (if_pos ?_)
  by_cases confirmed : bits v 15 8 = 0xA5
  · simpa [confirmed] using unfit
  · simp [confirmed]

theorem lifeTransition_burns (fit : bits v 15 8 = 0xA5 ∧ s.lifeOk (v % 8) = true) : lifeTransition w v s =
    (none, s.onDev fun d => (d.onBoot fun b => { b with burnLife := some (v % 8) }).park { w with kind := 2 }) := by
  obtain ⟨settings, life⟩ := clear
  exact (if_neg (by simp [settings, life])).trans (if_neg (by simp [fit]))

end Clear

/-- Without a burn under way its end changes nothing. -/
theorem exec_lifeCycleBurnComplete_idle (idle : s.dev.boot.burnLife = none) (none_ : s.dev.dict.waiting = []) :
    exec .lifeCycleBurnComplete s = .next s := by
  have stays : lifeBurned s = s := by simp only [lifeBurned, idle]
  exact congrArg Host.Outcome.next ((congrArg (State.unblock · 0x6000) stays).trans (State.unblock_none none_ _))

/-- A wipe of every bank leaves the requests that wait and the burns; each bank's wipe is under way. -/
theorem Dev.wipeAll_spec (d : Dev) (cause : Nat) : (d.wipeAll cause).dict = d.dict ∧
    (d.wipeAll cause).boot.burnLife = d.boot.burnLife ∧ ∀ k < 4, (Tbl.look? k (d.wipeAll cause).wiping).isSome = true := by
  have one (e : Dev) (die : Nat) : (e.wipeStart die cause).dict = e.dict ∧ (e.wipeStart die cause).boot.burnLife = e.boot.burnLife := by
    unfold Dev.wipeStart
    dsimp only
    split <;> exact ⟨rfl, rfl⟩
  have kept := foldl_keeps (fun e : Dev => e.dict = d.dict ∧ e.boot.burnLife = d.boot.burnLife)
    (fun e die h => ⟨(one e die).1.trans h.1, (one e die).2.trans h.2⟩) (List.range 4) d ⟨rfl, rfl⟩
  refine ⟨kept.1, kept.2, fun k small => ?_⟩
  refine foldl_establishes (fun _ => True) (fun e : Dev => (Tbl.look? k e.wiping).isSome = true) (List.mem_range.mpr small)
    (fun _ _ h => h) (fun e _ => (e.wipeStart_frame k cause).2) (fun e die wiped => ?_) d trivial
  by_cases same : k = die
  · exact same ▸ (e.wipeStart_frame k cause).2
  · change (Tbl.look? k (Tbl.put die _ _)).isSome = true
    rw [Tbl.look?_put_ne same]
    split <;> exact wiped

/-- What awaits a reset still waits; its wipes go on. -/
theorem Dev.resetSoon_frame (d : Dev) : d.resetSoon.dict = d.dict ∧ d.resetSoon.wiping = d.wiping := by
  unfold Dev.resetSoon
  extract_lets on
  have frame := (StopOf.noticeAll d 2 on).frame
  exact ⟨(congrArg Dev.dict frame).trans rfl, (congrArg Dev.wiping frame).trans rfl⟩

/-- The life-cycle state is burned (R708). -/
def State.lifeWritten (s : State) (l : Nat) : State :=
  { s with persist := { s.persist with
      life := max s.persist.life l, lifeOld := some s.persist.life, secret := if l = 4 then 2 ^ 384 - 1 else s.persist.secret } }

/-- The part once the burn is over: every secure bank is being wiped. -/
def Dev.lifeWiped (d : Dev) : Dev := (d.onBoot fun b => { b with burnLife := none }).wipeAll 2

theorem lifeBurned_burns {l : Nat} (burns : s.dev.boot.burnLife = some l) :
    lifeBurned s = (s.lifeWritten l).perturbStop.onDev fun d => (d.lifeWiped.replyWaiting 2 0).resetSoon := by
  unfold lifeBurned
  rw [burns]
  rfl

/-- The device entries belong to no function, whose state a reply would show. -/
theorem Dev.writeReply_device (d e : Dev) {idx : Nat} (device : idx = 0x6000) (tag sub code : Nat) :
    d.writeReply tag idx sub code = e.writeReply tag idx sub code := by
  have state (f : Dev) : f.fnByte idx = 0 := if_neg (by rw [device]; decide)
  simp only [Dev.writeReply, state]

/-- The only write that waits is answered, and the part resets. -/
theorem Dev.lifeAnswered_spec {d : Dev} {e : Nat} {x : Waiting} (one : d.dict.waiting = [x]) (kind : x.kind = 2) (via_ : x.via = .i3c e)
    (device : x.req.index = 0x6000) : let f := (d.lifeWiped.replyWaiting 2 0).resetSoon
    f.dict.waiting = [] ∧ f.boot.resetWait = true ∧ f.boot.burnLife = none ∧ (∀ k < 4, (Tbl.look? k f.wiping).isSome = true) ∧
      Out.reply x.via (d.writeReply x.req.tag x.req.index x.req.sub 0) ∈ f.tx := by
  obtain ⟨dict, life, wiping⟩ := (d.onBoot fun b => { b with burnLife := none }).wipeAll_spec 2
  have waits : d.lifeWiped.dict.waiting = [x] := (congrArg DictSt.waiting dict).trans one
  have replied := Dev.replyWaiting_i3c waits via_
  have last := Dev.replyWaiting_last waits via_
  rw [kind] at replied last
  obtain ⟨boot, sent⟩ := (d.lifeWiped.replyWaiting 2 0).resetSoon_spec
  obtain ⟨heard, wipes⟩ := (d.lifeWiped.replyWaiting 2 0).resetSoon_frame
  rw [Dev.writeReply_device _ d device] at last
  refine ⟨?_, congrArg Boot.resetWait boot, ?_, fun k small => ?_, sent.subset (List.mem_of_getLast? last)⟩
  · rw [heard, replied]
    rfl
  · rw [boot, replied]
    exact life
  · rw [wipes, replied]
    exact wiping k small

/-- The state is burned, every secure bank is wiped, the only write that waits is answered, and the part resets (R708). -/
theorem exec_lifeCycleBurnComplete_done {l e : Nat} {x : Waiting} (burns : s.dev.boot.burnLife = some l)
    (one : s.dev.dict.waiting = [x]) (kind : x.kind = 2) (via_ : x.via = .i3c e) (device : x.req.index = 0x6000) :
    Runs .lifeCycleBurnComplete s (fun t => t.mem = s.mem ∧ t.pending = s.pending ∧ t.dev.dict.waiting = [] ∧
      t.persist = (s.lifeWritten l).persist ∧ t.dev.boot.resetWait = true ∧ t.dev.boot.burnLife = none ∧
      (∀ k < 4, (Tbl.look? k t.dev.wiping).isSome = true) ∧
      Out.reply x.via ((s.dev.writeReply x.req.tag x.req.index x.req.sub 0)) ∈ t.dev.tx) := by
  obtain ⟨⟨pending, persist, mem⟩, quiet⟩ := (s.lifeWritten l).perturbStop_frame
  have waits : (s.lifeWritten l).perturbStop.dev.dict.waiting = [x] := (congrArg (·.dict.waiting) quiet).trans one
  obtain ⟨none_, reset, life, wiping, sent⟩ := Dev.lifeAnswered_spec waits kind via_ device
  rw [Dev.writeReply_device _ s.dev device] at sent
  generalize hp : (s.lifeWritten l).perturbStop = p at *
  have run : exec .lifeCycleBurnComplete s = .next (p.onDev fun d => (d.lifeWiped.replyWaiting 2 0).resetSoon) := by
    have burned := lifeBurned_burns burns
    rw [hp] at burned
    have rest := State.unblock_none (s := p.onDev fun d => (d.lifeWiped.replyWaiting 2 0).resetSoon) none_ 0x6000
    exact congrArg Host.Outcome.next ((congrArg (State.unblock · 0x6000) burned).trans rest)
  exact ⟨_, run, mem, pending, none_, persist, reset, life, wiping, sent⟩

end LifeCycle

/-! Attestation (R703, R704). -/

section Attestation
variable {s : State} {via : Via} {nonce : Nat}

theorem attest_staging (w : Waiting) (nonce : Nat) (s : State) : (attest w nonce s).2.dev.dict.staging = s.dev.dict.staging := by
  unfold attest
  split
  · rfl
  · split
    · rfl
    · have parked := (s.dev.park_spec { w with kind := 3, req := { w.req with payload := leBytes 48 nonce } }).2.2.2
      exact (congrArg DictSt.staging parked :)

/-- ATTESTATION_NONCE that passes and meets no delayed write is judged by its own rules. -/
theorem exec_attestationNonce (passes : s.passes via 0x6000 0x30 nonce) (free : s.dev.busyIdx 0x6000 = false)
    (unstaged : s.dev.dict.staging = []) (before : s.live via 0x6000 0x30 < 2 ^ 384) (small : nonce < 2 ^ 384) :
    exec (.attestationNonce via nonce) s = .next (settled via 0x6000 0x30 (attest (s.dev.wholeWrite via 0x6000 0x30 nonce) nonce s)) := by
  refine congrArg Host.Outcome.next ((State.ownWrite_nonce passes free unstaged before small).trans (congrArg (settled via 0x6000 0x30) ?_))
  have none_ := (attest_staging (s.dev.wholeWrite via 0x6000 0x30 nonce) nonce s).trans unstaged
  split
  · rfl
  · generalize attest (s.dev.wholeWrite via 0x6000 0x30 nonce) nonce s = q at none_
    exact (congrArg (fun t : State => (q.1, t)) (State.onDev_same (f := fun d => d.unstage via (ekey 0x6000 0x30))
      (Dev.unstage_none none_ _)) :)

variable {w : Waiting}

theorem attest_barred (life : s.persist.life = 0 ∨ 3 ≤ s.persist.life) : attest w nonce s = (some 0x0B09, s) :=
  if_pos (by simpa using life)

section InService
variable (life : s.persist.life = 1 ∨ s.persist.life = 2)
include life

theorem attest_keys (keys : s.dev.boot.keys = true) : attest w nonce s = (some 0, s.attestNow w.via nonce) :=
  (if_neg (by rcases life with life | life <;> simp [life])).trans (if_pos keys)

theorem attest_waits (keys : s.dev.boot.keys = false) : attest w nonce s =
    (none, s.onDev fun d => d.park { w with kind := 3, req := { w.req with payload := leBytes 48 nonce } }) :=
  (if_neg (by rcases life with life | life <;> simp [life])).trans (if_neg (by simp [keys]))

end InService

/-- The request carries the nonce as it came. -/
theorem Dev.wholeWrite_nonce (passes : s.passes via 0x6000 0x30 nonce) : let w := s.dev.wholeWrite via 0x6000 0x30 nonce
    w.via = via ∧ ({ w with kind := 3, req := { w.req with payload := leBytes 48 nonce } } : Waiting) = { w with kind := 3 } := by
  obtain ⟨row, head, -⟩ := Dev.writeCode_passes passes.2.2
  have found := (Dev.row_of_writeHead head).1
  obtain ⟨-, size⟩ := rowOf_nonce (Dev.rowOf_of_row found (by decide))
  rw [Dev.wholeWrite_row found, size]
  exact ⟨rfl, rfl⟩

/-- Evidence is placed for its requester, and its nonce reads back. -/
theorem State.attestNow_spec (s : State) (via : Via) (nonce : Nat) : let t := s.attestNow via nonce
    s.sameStore t ∧ t.dev.reg 0x6000 0x30 = nonce ∧ (via, leNat (s.evidence via nonce)) ∈ t.dev.boot.evidence ∧
      t.dev.boot.keys = s.dev.boot.keys ∧ t.dev.dict = s.dev.dict ∧ t.dev.links = s.dev.links :=
  ⟨⟨rfl, rfl, rfl⟩, s.dev.reg_setReg_self _ _ _, List.mem_append_right _ List.mem_cons_self, rfl, rfl, rfl⟩

/-- KEY_REDERIVATION with the keys in place, during the wipe of die 0, or before step 5 changes nothing. -/
theorem exec_keyRederivation_idle (idle : s.dev.boot.keys = true ∨ (Tbl.look? 0 s.dev.wiping).isSome = true ∨ s.dev.reg 0x6000 0x02 < 5)
    (none_ : s.dev.dict.waiting = []) : exec .keyRederivation s = .next s := by
  have stays : keyRederivation s = s := if_pos (by simpa [or_assoc] using idle)
  exact congrArg Host.Outcome.next ((congrArg (State.unblock · 0x6000) stays).trans (State.unblock_none none_ _))

/-- The keys stand again, and only their public parts are written. -/
theorem State.deriveKeys_spec (s : State) : let t := s.deriveKeys
    s.sameStore t ∧ t.dev.boot = { s.dev.boot with keys := true } ∧ t.dev.tx = s.dev.tx ∧ t.dev.dict = s.dev.dict ∧
      s.dev.sameRegs t.dev [(0x6000, 0x33), (0x6000, 0x34)] ∧ t.dev.reg 0x6000 0x33 = leNat (Crypto.publicKey s.identityKey) := by
  refine ⟨⟨rfl, rfl, rfl⟩, rfl, rfl, rfl, ?_, ?_⟩
  · exact Dev.sameRegs_trans (Dev.sameRegs_setReg (s.dev.onBoot fun b => { b with keys := true }) (by decide) (by simp) _)
      (Dev.sameRegs_setReg _ (by decide) (by simp) _)
  · exact (Dev.reg_setReg_other _ (by decide) _).trans (Dev.reg_setReg_self _ _ _ _)

section Rederives
variable (keys : s.dev.boot.keys = false) (wiped : Tbl.look? 0 s.dev.wiping = none) (started : 5 ≤ s.dev.reg 0x6000 0x02)
include keys wiped started

theorem keyRederivation_derives : keyRederivation s =
    ((s.deriveKeys.dev.dict.waiting.filter fun w => w.kind = 3).foldl (fun s w => s.attestNow w.via (leNat w.req.payload))
      s.deriveKeys).onDev fun d => d.replyWaiting 3 0 :=
  if_neg (by simp [keys, wiped, started])

theorem exec_keyRederivation_none (none_ : s.dev.dict.waiting = []) : exec .keyRederivation s = .next s.deriveKeys := by
  have waits : s.deriveKeys.dev.dict.waiting = [] := none_
  have run : keyRederivation s = s.deriveKeys := by
    rw [keyRederivation_derives keys wiped started, waits]
    exact State.onDev_same (Dev.replyWaiting_none waits 3 0)
  exact congrArg Host.Outcome.next ((congrArg (State.unblock · 0x6000) run).trans (State.unblock_none waits _))

/-- What waited for the keys is answered with its evidence. -/
theorem exec_keyRederivation_one {e : Nat} {x : Waiting} (one : s.dev.dict.waiting = [x]) (kind : x.kind = 3) (via_ : x.via = .i3c e) :
    Runs .keyRederivation s (fun t => s.sameStore t ∧ t.dev.boot.keys = true ∧ t.dev.dict.waiting = [] ∧
      answers t x.via x.req.index x.req.sub 0 ∧ t.dev.reg 0x6000 0x30 = leNat x.req.payload) := by
  have derives := keyRederivation_derives keys wiped started
  obtain ⟨derivedStore, boot, -, derivedDict, -, -⟩ := s.deriveKeys_spec
  generalize s.deriveKeys = derived at *
  obtain ⟨store, read, -, standing, dict, -⟩ := derived.attestNow_spec x.via (leNat x.req.payload)
  have waits : derived.dev.dict.waiting = [x] := by rw [derivedDict, one]
  rw [show derived.dev.dict.waiting.filter (fun w => w.kind = 3) = [x] by simp [waits, kind], List.foldl_cons, List.foldl_nil] at derives
  generalize derived.attestNow x.via (leNat x.req.payload) = made at *
  obtain ⟨pending, persist, mem⟩ := store
  obtain ⟨derivedPending, derivedPersist, derivedMem⟩ := derivedStore
  have ready : made.dev.dict.waiting = [x] := by rw [dict, waits]
  have keysStand : made.dev.boot.keys = true := by rw [standing, boot]
  have replied := Dev.replyWaiting_one ready 0
  have sent := Dev.replyWaiting_i3c ready via_
  have last := Dev.replyWaiting_last ready via_
  rw [kind] at replied sent last
  have none_ : (made.onDev fun d => d.replyWaiting 3 0).dev.dict.waiting = [] := by
    rw [State.onDev_dev, sent]
    rfl
  have nonce : (made.dev.replyWaiting 3 0).reg 0x6000 0x30 = leNat x.req.payload := by
    rw [replied, Dev.sendReply_reg (by decide) (by decide), Dev.reg_unwaited]
    exact read
  have run : exec .keyRederivation s = .next (made.onDev fun d => d.replyWaiting 3 0) :=
    congrArg Host.Outcome.next ((congrArg (State.unblock · 0x6000) derives).trans (State.unblock_none none_ _))
  refine ⟨_, run, ⟨pending.trans derivedPending, persist.trans derivedPersist, mem.trans derivedMem⟩, ?_, none_,
    ⟨made.dev.unwaited.writeReply x.req.tag x.req.index x.req.sub 0, last, rfl, rfl, rfl, rfl⟩, nonce⟩
  rw [State.onDev_dev, sent]
  exact keysStand

end Rederives

end Attestation

end Sys2Proof.Machine

/-! The end of a function's STOPPING (R675). -/
namespace Sys2Proof.Machine
open Sys2Proof

/-! What sending packets again leaves: the requests that wait and what is staged. -/

theorem Dev.dict_updHandle (d : Dev) (h : Nat) (f : Handle → Handle) : (d.updHandle h f).dict = d.dict := by
  unfold Dev.updHandle
  split <;> rfl

theorem Dev.dict_transmit {d e : Dev} {h rank : Nat} {f g : Flow} {p q : Pkt} (sent : d.transmit h rank f p = some (q, g, e)) :
    e.dict = d.dict := by
  unfold Dev.transmit at sent
  split at sent
  · cases sent
  · simp only [Option.some.injEq] at sent
    obtain ⟨-, -, rfl⟩ := sent
    rfl

theorem Dev.dict_resend (d : Dev) (h rank psn : Nat) : (d.resend h rank psn).dict = d.dict := by
  unfold Dev.resend
  split
  · rfl
  · dsimp only
    split
    · rfl
    · split
      · exact Dev.dict_updHandle _ _ _
      next sent =>
        rw [Dev.dict_updHandle]
        exact (Dev.dict_transmit sent :)

theorem Dev.dict_resendFrom (d : Dev) (subs : List Nat) : (d.resendFrom subs).dict = d.dict := by
  unfold Dev.resendFrom
  refine foldl_keeps (fun e : Dev => e.dict = d.dict) (fun e _ kept => ?_) _ _ rfl
  refine foldl_keeps (fun e : Dev => e.dict = d.dict) (fun e _ kept => ?_) _ _ kept
  exact foldl_keeps (fun e : Dev => e.dict = d.dict) (fun e _ kept => (e.dict_resend _ _ _).trans kept) _ _ kept

theorem Dev.dict_linkDown (d : Dev) (n k lanes : Nat) : (d.linkChange n k false lanes).dict = d.dict := by
  by_cases same : (d.port n).up.contains k = false
  · rw [Dev.linkChange_same same]
  · have told := EventOf.raise (d.linkSet n k false lanes) 0x8701 4 n none none [n, k, b2n false, lanes]
    have run : d.linkChange n k false lanes =
      ((d.linkSet n k false lanes).raise 0x8701 4 n none none [n, k, b2n false, lanes]).resendFrom [4 * n + k] := if_neg same
    rw [run, Dev.dict_resendFrom]
    exact (congrArg Dev.dict told.1).trans rfl

/-! Functions that stop. -/

section Stopped
variable {r : FnRule}

/-- A function that has stopped, or starts again, leaves the requests that wait where its start does. -/
theorem State.dict_fnStopped (start : ∀ t : State, (r.start t).dev.dict = t.dev.dict) (s : State) (idx : Nat) :
    (s.fnStopped r idx).dev.dict = s.dev.dict := by
  by_cases latched : Tbl.look 0 idx s.dev.latch = 2
  · by_cases ok : r.check (s.fnOff idx) = 0
    · rw [State.fnStopped_again latched ok]
      exact (start _).trans rfl
    · rw [State.fnStopped_barred latched ok]
      have event := EventOf.raise ((s.fnOff idx).dev.setReg idx 0x01 0) 0x8104 0 0 none none [idx, r.check (s.fnOff idx)]
      exact (congrArg Dev.dict event.1).trans rfl
  · rw [State.fnStopped_plain latched]
    rfl

theorem perturbRule_start_dict (t : State) : (perturbRule.start t).dev.dict = t.dev.dict :=
  (congrArg Dev.dict (EventOf.raise ({ t.dev with pert := List.replicate 16 0 } : Dev) 0x8B08 0 0 none none [2, t.persist.life]).1).trans rfl

/-- No function but a context's does more at its start than change its state and, for perturbation, count and tell. -/
theorem ruleOf_start_dict {idx : Nat} (noCtx : ctxIdx idx = none) (rule : ruleOf idx = some r) (t : State) :
    (r.start t).dev.dict = t.dev.dict := by
  unfold ruleOf at rule
  rw [noCtx] at rule
  split at rule
  · exact Option.some.inj rule ▸ rfl
  split at rule
  · exact Option.some.inj rule ▸ rfl
  split at rule
  · exact Option.some.inj rule ▸ rfl
  split at rule
  next found => cases found
  · exact Option.some.inj rule ▸ rfl
  split at rule
  · exact Option.some.inj rule ▸ rfl
  · exact Option.some.inj rule ▸ rfl
  · exact Option.some.inj rule ▸ perturbRule_start_dict t
  · cases rule

theorem State.dict_portStopped (s : State) (n : Nat) : (s.portStopped n).dev.dict = s.dev.dict := by
  unfold State.portStopped
  rw [State.dict_fnStopped (r := portRule n) fun _ => rfl]
  exact foldl_keeps (fun e : Dev => e.dict = s.dev.dict) (fun e k kept => (e.dict_linkDown n k 0).trans kept) (List.range 4) s.dev rfl

end Stopped

section StoppingEnd
variable {s : State} {idx : Nat}

theorem stoppingEnd_none (none_ : s.dev.fn idx ≠ 3 ∨ isFunction idx = false) : stoppingEnd idx s = s :=
  if_pos (by simpa using none_)

section Stopping
variable (stopping : s.dev.fn idx = 3) (function : isFunction idx = true) (noCtx : ctxIdx idx = none)
include stopping function noCtx

theorem stoppingEnd_port {n : Nat} (small : n < 24) (port : idx = 0x2C00 + n) : stoppingEnd idx s = s.portStopped n := by
  have range : (decide (0x2C00 ≤ idx) && decide (idx < 0x2C18)) = true := by simp; omega
  have place : idx - 0x2C00 = n := by omega
  unfold stoppingEnd
  rw [if_neg (by simp [stopping, function]), noCtx]
  dsimp only
  rw [if_pos range, place]

theorem stoppingEnd_other {r : FnRule} (rule : ruleOf idx = some r) (noPort : idx < 0x2C00 ∨ 0x2C18 ≤ idx) :
    stoppingEnd idx s = if s.stopDone idx then s.fnStopped r idx else s := by
  have range : ¬(decide (0x2C00 ≤ idx) && decide (idx < 0x2C18)) = true := by simp; omega
  unfold stoppingEnd
  rw [if_neg (by simp [stopping, function]), noCtx]
  dsimp only
  rw [if_neg range, rule]

end Stopping

/-- Where the end of STOPPING leaves no request waiting, none is served. -/
theorem exec_functionStoppingEnd {t : State} (ends : stoppingEnd idx s = t) (none_ : t.dev.dict.waiting = []) :
    exec (.functionStoppingEnd idx) s = .next t :=
  congrArg Host.Outcome.next ((congrArg State.unblockSites ends).trans (State.unblockSites_none none_))

/-- FUNCTION_STOPPING_END ends STOPPING once its conditions are met (R675). -/
theorem exec_functionStoppingEnd_spec (none_ : s.dev.dict.waiting = []) :
    (s.dev.fn idx ≠ 3 ∨ isFunction idx = false → exec (.functionStoppingEnd idx) s = .next s) ∧
    (∀ rule, s.dev.fn idx = 3 → isFunction idx = true → ctxIdx idx = none → ruleOf idx = some rule →
      (∀ n, n < 24 → idx = 0x2C00 + n → exec (.functionStoppingEnd idx) s = .next (s.portStopped n)) ∧
      (idx < 0x2C00 ∨ 0x2C18 ≤ idx → s.stopDone idx = true → exec (.functionStoppingEnd idx) s = .next (s.fnStopped rule idx)) ∧
      (idx < 0x2C00 ∨ 0x2C18 ≤ idx → s.stopDone idx = false → exec (.functionStoppingEnd idx) s = .next s)) := by
  refine ⟨fun idle => exec_functionStoppingEnd (stoppingEnd_none idle) none_, fun r stopping function noCtx rule =>
    ⟨fun n small port => ?_, fun noPort done => ?_, fun noPort busy => ?_⟩⟩
  · exact exec_functionStoppingEnd (stoppingEnd_port stopping function noCtx small port)
      ((congrArg DictSt.waiting (s.dict_portStopped n)).trans none_)
  · exact exec_functionStoppingEnd ((stoppingEnd_other stopping function noCtx rule noPort).trans (if_pos done))
      ((congrArg DictSt.waiting (State.dict_fnStopped (ruleOf_start_dict noCtx rule) s idx)).trans none_)
  · exact exec_functionStoppingEnd
      ((stoppingEnd_other stopping function noCtx rule noPort).trans (if_neg (by simp [busy]))) none_

end StoppingEnd

end Sys2Proof.Machine

/-! The reclamation of held contexts that are OFF (R546). -/
namespace Sys2Proof.Machine
open Sys2Proof

/-! What closing handles, releasing a bank and freeing blocks leave. -/

/-- The sub-indices that the steps of a reclamation write, but for a context's defaults. -/
def reclaimSubs : List Nat := 0x04 :: 0x22 :: noisySubs

/-- `e` has the sites of `d` but for what events write, its requests, and its entries but those that a reclamation writes. -/
structure Dev.Spares (d e : Dev) : Prop where
  sites : ∀ h, (e.site h).quiet = (d.site h).quiet
  dict : e.dict = d.dict
  regs : Dev.RegsOff reclaimSubs d e

namespace Dev.Spares

theorem same {d e : Dev} (sites : e.sites = d.sites) (dict : e.dict = d.dict) (regs : e.regs = d.regs) (mfg : e.mfg = d.mfg) :
    Dev.Spares d e :=
  ⟨fun h => by rw [Dev.site, Dev.site, Dev.populated, Dev.populated, sites, mfg], dict, .of_regs regs mfg⟩

theorem refl (d : Dev) : Dev.Spares d d := ⟨fun _ => rfl, rfl, .refl _ d⟩

theorem trans {a b c : Dev} (h : Dev.Spares a b) (k : Dev.Spares b c) : Dev.Spares a c :=
  ⟨fun g => (k.sites g).trans (h.sites g), k.dict.trans h.dict, h.regs.trans k.regs⟩

theorem foldl {β : Type} {f : Dev → β → Dev} (hf : ∀ d b, Dev.Spares d (f d b)) (l : List β) (d : Dev) : Dev.Spares d (l.foldl f d) :=
  foldl_keeps (Dev.Spares d) (fun e b h => h.trans (hf e b)) l d (refl d)

theorem of_event {d e : Dev} (event : EventOf d e) : Dev.Spares d e :=
  ⟨event.2.1, by rw [event.1], (StopOf.of_event event).regs.mono fun _ mem => List.mem_cons_of_mem _ (List.mem_cons_of_mem _ mem)⟩

theorem raiseCtx (d : Dev) (code c : Nat) (fields : List Nat) : Dev.Spares d (d.raiseCtx code c fields) := of_event (EventOf.raise _ _ _ _ _ _ _)

theorem setReg (d : Dev) (i v : Nat) {a : Nat} (ha : a < 256) (listed : a ∈ reclaimSubs) : Dev.Spares d (d.setReg i a v) :=
  ⟨fun _ => rfl, rfl, .setReg d i v ha listed⟩

theorem updHandle (d : Dev) (h : Nat) (f : Handle → Handle) : Dev.Spares d (d.updHandle h f) := by
  unfold Dev.updHandle
  split
  · exact refl d
  · exact same rfl rfl rfl rfl

theorem markFailed (d : Dev) (c i seq : Nat) (f : Fail) : Dev.Spares d (d.markFailed c i seq f) := by
  unfold Dev.markFailed
  split <;> exact same rfl rfl rfl rfl

theorem failCommand (d : Dev) (c i cause code seq op : Nat) (cmd : Option QCmd) :
    Dev.Spares d (d.failCommand c i cause code seq op cmd) := by
  have stopped (e : Dev) : Dev.Spares e (e.stopStream c i cause code seq op cmd) := by
    unfold Dev.stopStream
    split
    · exact refl e
    · exact same rfl rfl rfl rfl
  exact ((setReg d _ _ (by decide) (by decide)).trans (stopped _)).trans (raiseCtx _ _ _ _)

theorem collEvent (d : Dev) (h seq code rank : Nat) : Dev.Spares d (d.collEvent h seq code rank) := by
  rcases d.collEvent_cases h seq code rank with silent | ⟨t, c, told⟩
  · rw [silent]
    exact refl d
  · rw [told]
    exact (updHandle _ _ _).trans (raiseCtx _ _ _ _)

theorem collLeft (d : Dev) (h epoch : Nat) (c : Coll) : Dev.Spares d (d.collLeft h epoch c) := by
  have left := updHandle d h fun x => { x with
    colls := x.colls.filter (fun k => k.seq ≠ c.seq), rx := x.rx.filter (fun m => m.seq ≠ c.seq) }
  unfold Dev.collLeft
  dsimp only
  generalize d.updHandle h _ = e at left ⊢
  refine left.trans ?_
  have normless : Dev.Spares e (if c.op = 0x61 then (e.updUpd c.o.ctx.val (fun u => { u with norm := none })).raiseCtx 0x8604
      c.o.ctx.val [c.o.ctx.val, epoch] else e) := by
    split
    · exact Dev.Spares.trans (b := e.updUpd c.o.ctx.val (fun u => { u with norm := none })) (same rfl rfl rfl rfl) (raiseCtx _ _ _ _)
    · exact refl e
  have kept (f : Dev) : Dev.Spares f (if c.f.srcKind = 1 then f.updNet (fun n => { n with
      ready := n.ready.filter (fun r => !(r.ctx = c.o.ctx.val && r.tensor = c.f.tensor)) }) else f) := by
    split
    · exact same rfl rfl rfl rfl
    · exact refl f
  exact normless.trans (kept _)

theorem failColl (d : Dev) (h seq code rank : Nat) : Dev.Spares d (d.failColl h seq code rank) := by
  cases open_ : d.handle? h with
  | none =>
    have absent : d.failColl h seq code rank = d := by simp only [Dev.failColl, open_]
    rw [absent]
    exact refl d
  | some x =>
    cases found : x.colls.find? (fun c => c.seq = seq) with
    | none =>
      rw [Dev.failColl_absent open_ found]
      exact refl d
    | some c =>
      rw [Dev.failColl_found open_ found]
      exact ((collLeft _ _ _ _).trans (markFailed _ _ _ _ _)).trans (collEvent _ _ _ _ _)

theorem failHandle (d : Dev) (h code rank : Nat) : Dev.Spares d (d.failHandle h code rank).2 := by
  unfold Dev.failHandle
  split
  · exact refl d
  · exact foldl (fun d _ => failColl d _ _ _ _) _ d

theorem closeHandle (d : Dev) (h : Nat) : Dev.Spares d (d.closeHandle h) := by
  unfold Dev.closeHandle
  extract_lets own failed left
  have closed : Dev.Spares failed left := same rfl rfl rfl rfl
  exact ((failHandle d h 0x0703 own).trans closed).trans (setReg left _ _ (by decide) (by decide))

theorem wipeStart (d : Dev) (die cause : Nat) : Dev.Spares d (d.wipeStart die cause) := by
  have regs : (d.wipeStart die cause).regs = (d.setReg (0x3000 + 16 * die) 0x22 0).regs := by
    unfold Dev.wipeStart
    dsimp only
    split <;> rfl
  have frame := (d.wipeStart_frame die cause).1
  exact (setReg d (0x3000 + 16 * die) 0 (a := 0x22) (by decide) (by decide)).trans (same ((congrArg Dev.sites frame).trans rfl)
    ((congrArg Dev.dict frame).trans rfl) regs ((congrArg Dev.mfg frame).trans rfl))

theorem releaseBank (d : Dev) (c : Nat) : Dev.Spares d (d.releaseBank c) := by
  unfold Dev.releaseBank
  refine foldl (fun d die => ?_) _ d
  split
  · exact wipeStart d die 3
  · exact refl d

theorem failWaitingJob (d : Dev) (st : Nat) (r : RJob) : Dev.Spares d (d.failWaitingJob st r) := by
  unfold Dev.failWaitingJob
  extract_lets q k later left failed
  exact ((Dev.Spares.same (d := d) (e := failed) rfl rfl rfl rfl).trans (setReg failed _ _ (by decide) (by decide))).trans (raiseCtx _ _ _ _)

theorem releaseBlock (d : Dev) (b : Nat) : Dev.Spares d (d.releaseBlock b) := by
  unfold Dev.releaseBlock
  dsimp only
  refine (foldl (fun e p => foldl (fun e i => ?_) _ e) _ d).trans (foldl (fun e st => foldl (fun e _ => ?_) _ e) _ _)
  · split
    · split
      · exact refl e
      · exact Dev.Spares.trans (b := e.updStream p.1 i _) (same rfl rfl rfl rfl) (failCommand _ _ _ _ _ _ _ _)
    · exact refl e
  · split
    · exact failWaitingJob e _ _
    · exact refl e

theorem zeroBlock (d : Dev) (b : Nat) : Dev.Spares d (d.zeroBlock b) := same rfl rfl rfl rfl

theorem blocks (d : Dev) (t : Tbl Nat) : Dev.Spares d { d with blocks := t } := same rfl rfl rfl rfl

theorem freeBlock (d : Dev) (b : Nat) : Dev.Spares d (d.freeBlock b) :=
  ((releaseBlock d b).trans (zeroBlock _ b)).trans (blocks _ _)

end Dev.Spares

/-! A context that is reclaimed (R546). -/

theorem Tbl.look?_filter {α : Type} {k : Nat} {keep : Nat → Bool} (kept : keep k = true) (t : Tbl α) :
    Tbl.look? k (t.filter fun p => keep p.1) = Tbl.look? k t := by
  induction t with
  | nil => rfl
  | cons p t ih =>
    rw [List.filter_cons]
    by_cases here : p.1 = k
    · rw [if_pos (by rw [here]; exact kept), Tbl.look?, Tbl.look?, if_pos here, if_pos here]
    · split
      · rw [Tbl.look?, Tbl.look?, if_neg here, if_neg here, ih]
      · rw [Tbl.look?, if_neg here, ih]

/-- The defaults of a context's entries leave those of another. -/
theorem Dev.reg_ctxDefaults (d : Dev) {b c a : Nat} (other : b ≠ c) (small : a < 256) :
    (d.ctxDefaults c).reg (0x4000 + b) a = d.reg (0x4000 + b) a := by
  have index : ekey (0x4000 + b) a / 256 ≠ 0x4000 + c := by
    unfold ekey
    omega
  have same : Tbl.look? (ekey (0x4000 + b) a) (d.ctxDefaults c).regs = Tbl.look? (ekey (0x4000 + b) a) d.regs :=
    Tbl.look?_filter (keep := fun k => !(k / 256 = 0x4000 + c && k % 256 ≠ 0x2B && (match rowOf (0x4000 + c) (k % 256) with
      | some r => r.acc = .rw || r.acc = .rwd
      | none => false))) (by simp [index]) d.regs
  unfold Dev.reg
  rw [same]
  rfl

/-- Handles closed, securing ended, saved sets, bank and blocks given up (R546 steps 2 to 5). -/
def Dev.givenUp (d : Dev) (c : Nat) : Dev :=
  let d := (d.handlesOf c).foldl (fun d x => d.closeHandle x) d
  let d := d.updSec c (fun x => { x.dropImage with isOpen := false, closing := [] })
  let d := (d.dropSaves c).releaseBank c
  (d.blocks.filter (fun p => bit p.2 31 && bits p.2 9 0 = c)).foldl (fun d p => d.freeBlock p.1) d

theorem Dev.Spares.givenUp (d : Dev) (c : Nat) : Dev.Spares d (d.givenUp c) := by
  have kept (e : Dev) : Dev.Spares e ((e.updSec c fun x => { x.dropImage with isOpen := false, closing := [] }).dropSaves c) :=
    same rfl rfl rfl rfl
  exact (((foldl (fun d x => closeHandle d x) _ d).trans (kept _)).trans (releaseBank _ c)).trans
    (foldl (fun d (p : Nat × Nat) => freeBlock d p.1) _ _)

/-- The entries at their defaults (R546 step 6), and not held. -/
def Dev.cleared (d : Dev) (c : Nat) : Dev :=
  let d := (d.ctxDefaults c).updCtx c (fun x => { x with
    reclaimed := false, bedMask := 0, bedHosts := 0, bedPending := false, bedDeferred := false })
  let d := { d with latch := Tbl.del (0x4000 + c) d.latch, tele := { d.tele with reclaimed := d.tele.reclaimed ++ [c] } }
  d.setReg (0x4000 + c) 0x22 0

theorem Dev.site_cleared (d : Dev) (c h : Nat) : (d.cleared c).site h = d.site h := rfl

theorem Dev.dict_cleared (d : Dev) (c : Nat) : (d.cleared c).dict = d.dict := rfl

theorem Dev.reg_cleared (d : Dev) {b c a : Nat} (other : b ≠ c) (small : a < 256) :
    (d.cleared c).reg (0x4000 + b) a = d.reg (0x4000 + b) a := by
  refine (Dev.reg_setReg_other _ (by omega) 0).trans ?_
  exact (Dev.reg_congr rfl rfl _ _).trans (d.reg_ctxDefaults other small)

theorem Dev.finishReclaim_owned {d : Dev} {c h : Nat} (owner : d.owner c = some h) :
    d.finishReclaim c = ((d.givenUp c).cleared c).unheld h c := by
  unfold Dev.finishReclaim Dev.cleared Dev.givenUp
  rw [owner]

/-- A site that no attach waits for, with the contexts that it still holds; no request waits. -/
structure Dev.Reclaiming (d : Dev) (h : Nat) (left : List Nat) (links : Nat → Nat) : Prop where
  held : (d.site h).held = left
  noAttach : (d.site h).attachWait = none
  links : d.links = links
  waiting : d.dict.waiting = []

/-- Contexts of a site that are OFF. -/
def Dev.OffOf (d : Dev) (h : Nat) (left : List Nat) : Prop := ∀ c ∈ left, d.ctxState c = 0 ∧ d.owner c = some h

section Reclaims
variable {d e : Dev} {h c : Nat} {left : List Nat} {links : Nat → Nat}

/-- What spares the sites and the requests leaves what is to be reclaimed. -/
theorem Dev.Reclaiming.kept (r : d.Reclaiming h left links) (sites : ∀ g, (e.site g).quiet = (d.site g).quiet)
    (dict : e.dict = d.dict) : e.Reclaiming h left links := by
  have site {α : Type} (g : Site → α) (apart : ∀ x, g x.quiet = g x) (k : Nat) : g (e.site k) = g (d.site k) :=
    (apart _).symm.trans ((congrArg g (sites k)).trans (apart _))
  exact ⟨(site Site.held (fun _ => rfl) h).trans r.held, (site Site.attachWait (fun _ => rfl) h).trans r.noAttach,
    (funext fun k => site Site.link (fun _ => rfl) k).trans r.links, (congrArg DictSt.waiting dict).trans r.waiting⟩

/-- What leaves their states and owners leaves them OFF and of their site. -/
theorem Dev.OffOf.kept (off : d.OffOf h left)
    (regs : ∀ b ∈ left, ∀ a, a = 0x02 ∨ a = 0x03 → e.reg (0x4000 + b) a = d.reg (0x4000 + b) a) : e.OffOf h left := by
  intro b mem
  obtain ⟨stopped, owner⟩ := off b mem
  refine ⟨?_, ?_⟩
  · rw [Dev.ctxState, Dev.ctxReg, regs b mem _ (.inl rfl)]
    exact stopped
  · rw [Dev.owner, Dev.ctxReg, regs b mem _ (.inr rfl)]
    exact owner

/-- The part after a context is no longer held. -/
def Dev.dropped (d : Dev) (h c : Nat) : Dev := d.updSite h fun x => { x with held := x.held.erase c, reclaimed := x.reclaimed + 1 }

theorem Dev.site_dropped (d : Dev) (h c : Nat) : (d.dropped h c).site h =
    { d.site h with held := (d.site h).held.erase c, reclaimed := (d.site h).reclaimed + 1 } := Dev.site_updSite_self d h _

theorem Dev.links_dropped (d : Dev) (h c : Nat) : (d.dropped h c).links = d.links := by
  funext k
  by_cases here : k = h
  · rw [here]
    exact (congrArg Site.link (d.site_dropped h c)).trans rfl
  · exact congrArg Site.link (Dev.site_updSite_ne d here _)

theorem Dev.unheld_more (held : c ∈ (d.site h).held) (more : (d.site h).held.erase c ≠ []) : d.unheld h c = d.dropped h c := by
  have some_ : ¬((d.dropped h c).site h).held.isEmpty = true := by
    rw [Dev.site_dropped]
    simpa using more
  exact (if_neg (by simpa using held)).trans (if_neg some_)

theorem Dev.unheld_last (held : c ∈ (d.site h).held) (last : (d.site h).held.erase c = []) :
    d.unheld h c = ((d.dropped h c).siteReclaimed h).replyWaiting (4 + h) 0 := by
  have none_ : ((d.dropped h c).site h).held.isEmpty = true := by
    rw [Dev.site_dropped]
    simpa using last
  exact (if_neg (by simpa using held)).trans (if_pos none_)

/-- Without an attach that waits, the site's phase follows its link once nothing is held. -/
theorem Dev.siteReclaimed_free (r : d.Reclaiming h left links) : (d.siteReclaimed h).Reclaiming h left links ∧
    ((d.siteReclaimed h).site h).phase = links h := by
  let told := d.raiseSite 0x8805 h [h, (d.site h).reclaimed, (d.site h).cause]
  let counted := told.updSite h fun x => { x with reclaimed := 0 }
  have tells : told.Reclaiming h left links := by
    have event : EventOf d told := EventOf.raise _ _ _ _ _ _ _
    exact r.kept event.2.1 (by rw [event.1])
  have site : counted.site h = { told.site h with reclaimed := 0 } := Dev.site_updSite_self told h _
  have run : d.siteReclaimed h = counted.setPhase h (d.site h).link := by
    unfold Dev.siteReclaimed
    dsimp only
    rw [r.noAttach]
  have link : (d.site h).link = links h := congrFun r.links h
  have moved := counted.setPhase_event h (d.site h).link
  rw [run]
  refine ⟨⟨?_, ?_, ?_, ?_⟩, (moved.changed Site.phase).trans link⟩
  · exact (moved.changed Site.held).trans ((congrArg Site.held site).trans tells.held)
  · exact (moved.changed Site.attachWait).trans ((congrArg Site.attachWait site).trans tells.noAttach)
  · refine Eq.trans (funext fun k => ?_) tells.links
    by_cases here : k = h
    · rw [here]
      exact (moved.changed Site.link).trans (congrArg Site.link site :)
    · exact (moved.others here Site.link).trans (congrArg Site.link (Dev.site_updSite_ne told here _))
  · rw [moved.1]
    exact tells.waiting

/-- One more of the held contexts is reclaimed; with the last one the site's phase follows its link. -/
theorem Dev.Reclaiming.step (r : d.Reclaiming h (c :: left) links) (off : d.OffOf h (c :: left)) (once : c ∉ left) :
    (d.finishReclaim c).Reclaiming h left links ∧ (d.finishReclaim c).OffOf h left ∧
      (left = [] → ((d.finishReclaim c).site h).phase = links h) := by
  have given := Dev.Spares.givenUp d c
  have still : ((d.givenUp c).cleared c).Reclaiming h (c :: left) links := 
    r.kept (fun g => (congrArg Site.quiet (Dev.site_cleared _ c g)).trans (given.sites g)) ((Dev.dict_cleared _ c).trans given.dict)
  have others : ((d.givenUp c).cleared c).OffOf h left := by
    refine Dev.OffOf.kept (fun b mem => off b (List.mem_cons_of_mem _ mem)) fun b mem a listed => ?_
    have differs : b ≠ c := fun same => once (same ▸ mem)
    rw [Dev.reg_cleared _ differs (by omega)]
    exact given.regs _ _ (by omega) (by rcases listed with rfl | rfl <;> decide)
  rw [Dev.finishReclaim_owned (off c List.mem_cons_self).2]
  generalize (d.givenUp c).cleared c = e at still others ⊢
  have mem : c ∈ (e.site h).held := still.held ▸ List.mem_cons_self
  have erased : (e.site h).held.erase c = left := by rw [still.held, List.erase_cons_head]
  have dropped : (e.dropped h c).Reclaiming h left links :=
    ⟨by rw [Dev.site_dropped, erased], by rw [Dev.site_dropped]; exact still.noAttach, (e.links_dropped h c).trans still.links, still.waiting⟩
  by_cases last : left = []
  · obtain ⟨done, phase⟩ := Dev.siteReclaimed_free dropped
    rw [Dev.unheld_last mem (erased.trans last), Dev.replyWaiting_none done.waiting]
    refine ⟨done, fun b mem => ?_, fun _ => phase⟩
    rw [last] at mem
    cases mem
  · rw [Dev.unheld_more mem (by rwa [erased])]
    exact ⟨dropped, others.kept fun _ _ _ _ => rfl, fun none_ => absurd none_ last⟩

/-- A held context that is OFF is reclaimed at once. -/
theorem State.reclaim_held {s : State} (site : h < 4) (held : c ∈ (s.dev.site h).held) (off : s.dev.ctxState c = 0) :
    s.reclaim c = s.onDev fun d => d.finishReclaim c := by
  have any : (List.range 4).any (fun h => (s.dev.site h).held.contains c) = true :=
    List.any_eq_true.mpr ⟨h, List.mem_range.mpr site, by simpa using held⟩
  unfold State.reclaim
  dsimp only
  rw [off, any]
  rfl

/-- All that a site holds is reclaimed, one after the other. -/
theorem State.reclaims {left : List Nat} (site : h < 4) (once : left.Nodup) : ∀ {s : State}, s.dev.Reclaiming h left links →
    s.dev.OffOf h left → let t := left.foldl (fun s c => s.reclaim c) s
    s.sameStore t ∧ t.dev.Reclaiming h [] links ∧ (left ≠ [] → (t.dev.site h).phase = links h) := by
  induction left with
  | nil => exact fun r _ => ⟨⟨rfl, rfl, rfl⟩, r, fun none_ => absurd rfl none_⟩
  | cons c left ih =>
    intro s r off
    obtain ⟨first, rest⟩ := List.nodup_cons.mp once
    obtain ⟨more, moreOff, last⟩ := r.step off first
    have run : s.reclaim c = s.onDev fun d => d.finishReclaim c :=
      State.reclaim_held site (r.held ▸ List.mem_cons_self) (off c List.mem_cons_self).1
    obtain ⟨store, done, phase⟩ := ih rest (s := s.onDev fun d => d.finishReclaim c) more moreOff
    rw [List.foldl_cons, run]
    refine ⟨store, done, fun _ => ?_⟩
    by_cases none_ : left = []
    · subst none_
      exact last rfl
    · exact phase none_

/-- The part as a site's reclamation begins: the OFF contexts that it owns and does not hold are at their defaults. -/
def Dev.reclaimBegun (d : Dev) (h cause : Nat) : Dev :=
  let off := (d.owned h).filter (fun c => d.ctxState c = 0 && !((d.site h).held.contains c))
  off.foldl (fun d c => d.ctxDefaults c) (d.updSite h fun x => { x with cause := cause, reclaimed := off.length })

theorem State.reclaimSite_begun (s : State) (h cause : Nat) : s.reclaimSite h cause =
    (s.dev.site h).held.foldl (fun s c => s.reclaim c) (s.onDev fun d => d.reclaimBegun h cause) := by
  unfold State.reclaimSite Dev.reclaimBegun State.onDev
  rfl

/-- What the site holds is as it was. -/
theorem Dev.reclaimBegun_spec (r : d.Reclaiming h left links) (off : d.OffOf h left) (cause : Nat) :
    (d.reclaimBegun h cause).Reclaiming h left links ∧ (d.reclaimBegun h cause).OffOf h left := by
  unfold Dev.reclaimBegun
  extract_lets idle
  have noted : (d.updSite h fun x => { x with cause := cause, reclaimed := idle.length }).Reclaiming h left links := by
    have site := d.site_updSite_self h fun x => { x with cause := cause, reclaimed := idle.length }
    refine ⟨by rw [site]; exact r.held, by rw [site]; exact r.noAttach, Eq.trans (funext fun k => ?_) r.links, r.waiting⟩
    by_cases here : k = h
    · rw [here]
      exact (congrArg Site.link site :)
    · exact congrArg Site.link (Dev.site_updSite_ne d here _)
  refine List.foldlRecOn (motive := fun e : Dev => e.Reclaiming h left links ∧ e.OffOf h left) idle _
    ⟨noted, off.kept fun _ _ _ _ => rfl⟩ fun e kept c mem => ?_
  obtain ⟨reclaiming, offs⟩ := kept
  refine ⟨reclaiming.kept (fun _ => rfl) rfl, offs.kept fun b held a listed => ?_⟩
  have notHeld : c ∉ left := by
    have chosen := (List.mem_filter.mp mem).2
    rw [r.held] at chosen
    simpa using (Bool.and_eq_true_iff.mp chosen).2
  exact e.reg_ctxDefaults (fun same => notHeld (same ▸ held)) (by omega)

/-- A site whose held contexts are OFF reclaims them at once, and its phase follows its link. -/
theorem State.reclaimSite_off {s : State} (site : h < 4) (r : s.dev.Reclaiming h left links) (off : s.dev.OffOf h left)
    (once : left.Nodup) (some_ : left ≠ []) (cause : Nat) : let t := s.reclaimSite h cause
    s.sameStore t ∧ t.dev.Reclaiming h [] links ∧ (t.dev.site h).phase = links h := by
  obtain ⟨reclaiming, offs⟩ := Dev.reclaimBegun_spec r off cause
  have begun : (s.onDev fun d => d.reclaimBegun h cause).dev = s.dev.reclaimBegun h cause := State.onDev_dev _ _
  rw [← begun] at reclaiming offs
  have before := s.sameStore_onDev fun d => d.reclaimBegun h cause
  rw [State.reclaimSite_begun, r.held]
  generalize (s.onDev fun d => d.reclaimBegun h cause) = t at reclaiming offs before ⊢
  obtain ⟨⟨pending, persist, mem⟩, done, phase⟩ := State.reclaims site once reclaiming offs
  obtain ⟨pendingBefore, persistBefore, memBefore⟩ := before
  exact ⟨⟨pending.trans pendingBefore, persist.trans persistBefore, mem.trans memBefore⟩, done, phase some_⟩

end Reclaims

/-! RECLAIM_NOW (R546). -/

/-- An answer leaves what a site holds and its phase. -/
theorem Dev.site_sendReply (d : Dev) (via : Via) (tagged : Bool) (r : Reply) (h : Nat) :
    ((d.sendReply via tagged r).site h).held = (d.site h).held ∧ ((d.sendReply via tagged r).site h).phase = (d.site h).phase := by
  have counted : (if r.reason = 0 then d.incReg 0x1100 0x10 else d.incReg 0x1100 0x11).site = d.site := by split <;> rfl
  unfold Dev.sendReply
  extract_lets e
  have same : e.site = d.site := counted
  clear_value e
  rw [← same]
  split
  next k =>
    split
    · exact ⟨rfl, rfl⟩
    · have event := EventOf.msix (e.updSite k fun x => { x with mbState := 2, mbReply := some r }) k 2
      by_cases here : h = k
      · rw [here]
        exact ⟨event.changed Site.held, event.changed Site.phase⟩
      · exact ⟨event.others here Site.held, event.others here Site.phase⟩
  · extract_lets _ _ kept
    have site : kept.site = e.site := by unfold kept; split <;> rfl
    exact ⟨congrArg (fun x : Nat → Site => (x h).held) site, congrArg (fun x : Nat → Site => (x h).phase) site⟩
  · exact ⟨rfl, rfl⟩

theorem reclaimNow_count : ∀ h : Fin 4, (rowOf (0x4800 + h.val) 0x07).any EntryRow.isCount = true := by decide

theorem applyWrite_reclaimNow {w : Waiting} {h : Fin 4} (index : w.req.index = 0x4800 + h.val) (sub : w.req.sub = 0x07) (v : Nat) (s : State) :
    applyWrite w v s = reclaimNow w h.val v s := by
  unfold applyWrite
  rw [index, sub]
  fin_cases h <;> rfl

theorem Dev.wholeWrite_place (d : Dev) (via : Via) (idx sub v : Nat) :
    (d.wholeWrite via idx sub v).req.index = idx ∧ (d.wholeWrite via idx sub v).req.sub = sub := by
  unfold Dev.wholeWrite
  split
  exact ⟨rfl, rfl⟩

section ReclaimNow
variable {s : State} {via : Via} {h : Fin 4} {v : Nat}

/-- RECLAIM_NOW that passes and meets no delayed write is judged by its own rules. -/
theorem exec_reclaimNow (passes : s.passes via (0x4800 + h.val) 0x07 v) (free : s.dev.busyIdx (0x4800 + h.val) = false) :
    exec (.reclaimNow via h v) s =
      .next (settled via (0x4800 + h.val) 0x07 (reclaimNow (s.dev.wholeWrite via (0x4800 + h.val) 0x07 v) h.val v s)) := by
  obtain ⟨index, sub⟩ := s.dev.wholeWrite_place via (0x4800 + h.val) 0x07 v
  rw [← applyWrite_reclaimNow index sub]
  exact congrArg Host.Outcome.next (State.ownWrite_applied passes free (by decide) (reclaimNow_count h) (.inr (by decide)))

variable {w : Waiting}

theorem reclaimNow_idle (idle : v % 2 = 0 ∨ (s.dev.site h.val).phase ≠ 5) : reclaimNow w h.val v s = (some 0, s) :=
  if_pos (by simpa using idle)

theorem reclaimNow_off (asked : v % 2 = 1) (holding : (s.dev.site h.val).phase = 5) (begins : s.dev.reclaiming h.val = false)
    (done : ((s.reclaimSite h.val 2).dev.site h.val).held = []) : reclaimNow w h.val v s = (some 0, s.reclaimSite h.val 2) := by
  unfold reclaimNow
  rw [if_neg (by simp [asked, holding]), begins]
  dsimp only [Bool.false_eq_true, if_false]
  exact if_pos (by simp [done])

end ReclaimNow

end Sys2Proof.Machine

/-! The statement about writes whose reply is delayed (R546, R673, R681, R703, R704, R707, R708, R714). -/
namespace Sys2Proof.Machine
open Sys2Proof

/-- A request that begins to wait, beside a change of the start-up state. -/
theorem State.park_waits (s : State) (f : Boot → Boot) (w : Waiting) : let t := s.onDev fun d => (d.onBoot f).park w
    (s.sameStore t ∧ t.dev.tx = s.dev.tx ∧ t.dev.regs = s.dev.regs ∧ t.dev.dict.waiting = s.dev.dict.waiting ++ [w]) ∧
      t.dev.boot = f s.dev.boot := by
  obtain ⟨tx, regs, boot, dict⟩ := (s.dev.onBoot f).park_spec w
  exact ⟨⟨⟨rfl, rfl, rfl⟩, tx, regs, congrArg DictSt.waiting dict⟩, boot⟩

section Answers
variable {s : State} {via : Via}

/-- A site whose held contexts are OFF reclaims them and answers. -/
theorem exec_reclaimNow_off {h : Fin 4} {v : Nat} (passes : s.passes via (0x4800 + h.val) 0x07 v)
    (free : s.dev.busyIdx (0x4800 + h.val) = false) (asked : v % 2 = 1) (holding : (s.dev.site h.val).phase = 5)
    (begins : s.dev.reclaiming h.val = false) (r : s.dev.Reclaiming h.val (s.dev.site h.val).held s.dev.links)
    (off : s.dev.OffOf h.val (s.dev.site h.val).held) (some_ : (s.dev.site h.val).held ≠ []) (once : (s.dev.site h.val).held.Nodup) :
    Runs (.reclaimNow via h v) s (fun t => (t.dev.site h.val).held = [] ∧ (t.dev.site h.val).phase = (s.dev.site h.val).link ∧
      t.mem = s.mem ∧ t.pending = s.pending ∧ t.persist = s.persist ∧ answers t via (0x4800 + h.val) 0x07 0) := by
  obtain ⟨⟨pending, persist, mem⟩, done, phase⟩ := State.reclaimSite_off h.isLt r off once some_ 2
  have run := exec_reclaimNow passes free
  rw [reclaimNow_off asked holding begins done.held] at run
  have linked := Dev.linked_of_links done.links (Dev.linked_of_heard passes.2.1)
  generalize s.reclaimSite h.val 2 = t at *
  obtain ⟨held, phases⟩ := t.dev.site_sendReply via false (t.dev.writeReply 0 (0x4800 + h.val) 0x07 0) h.val
  exact ⟨_, run, held.trans done.held, phases.trans phase, mem, pending, persist, State.answers_replied linked⟩

/-- A nonce with the keys in place is answered with its evidence. -/
theorem exec_attestationNonce_keys {nonce : Nat} (passes : s.passes via 0x6000 0x30 nonce) (free : s.dev.busyIdx 0x6000 = false)
    (unstaged : s.dev.dict.staging = []) (before : s.live via 0x6000 0x30 < 2 ^ 384) (small : nonce < 2 ^ 384)
    (life : s.persist.life = 1 ∨ s.persist.life = 2) (keys : s.dev.boot.keys = true) :
    Runs (.attestationNonce via nonce) s (fun t => s.sameStore t ∧ answers t via 0x6000 0x30 0 ∧ t.dev.reg 0x6000 0x30 = nonce ∧
      (via, leNat (s.evidence via nonce)) ∈ t.dev.boot.evidence ∧ t.dev.boot.keys = true) := by
  have run := exec_attestationNonce passes free unstaged before small
  rw [attest_keys life keys, (Dev.wholeWrite_nonce passes).1] at run
  obtain ⟨store, read, evidence, stand, -, links⟩ := s.attestNow_spec via nonce
  have linked := Dev.linked_of_links links (Dev.linked_of_heard passes.2.1)
  generalize s.attestNow via nonce = t at *
  have boot := t.dev.sendReply_boot via false (t.dev.writeReply 0 0x6000 0x30 0)
  refine ⟨_, run, store, State.answers_replied linked, ?_, ?_, ?_⟩
  · exact (Dev.sendReply_reg (by decide) (by decide)).trans read
  · exact (congrArg Boot.evidence boot).symm ▸ evidence
  · exact (congrArg Boot.keys boot).trans (stand.trans keys)

end Answers

/-- Settles O52: each write by its own rules once the checks are passed, and what ends its wait. -/
theorem delayedRepliesFollow : Obligations.delayedRepliesFollow := by
  intro s b w waits
  refine ⟨fun via h v passes free => ⟨fun idle => ?_, fun asked holding begins some_ once noAttach none_ off => ?_⟩,
    fun via g passes free => ⟨fun full => ?_, fun slot next => ⟨fun other => ?_, fun same life => ?_, fun same life bad => ?_,
      fun same life formed sound => ?_⟩⟩,
    exec_settingsBurnComplete_idle, fun ok slot img e x => exec_settingsBurnComplete_done,
    fun via v passes free => ⟨fun busy => ?_, fun idle unfit => ?_, fun idle fits => ?_⟩,
    exec_lifeCycleBurnComplete_idle, fun l e x burns one kind via_ device => ?_,
    fun via nonce passes free unstaged before small => ⟨fun life => ?_, exec_attestationNonce_keys passes free unstaged before small,
      fun life keys => ?_⟩,
    exec_keyRederivation_idle, fun keys wiped started => ⟨fun none_ => ?_, fun e x => exec_keyRederivation_one keys wiped started⟩,
    fun idx => exec_functionStoppingEnd_spec⟩
  · rw [exec_reclaimNow passes free, reclaimNow_idle idle]
    rfl
  · exact exec_reclaimNow_off passes free asked holding begins ⟨rfl, noAttach, rfl, none_⟩ (fun c mem => (off c mem).2) some_ once
  · rw [exec_settingsCommit passes free, settingsCommit_full full]
    rfl
  · rw [exec_settingsCommit passes free, settingsCommit_other next other]
    rfl
  · rw [exec_settingsCommit passes free, settingsCommit_returned next same life]
    rfl
  · rw [exec_settingsCommit passes free, settingsCommit_malformed next same life bad]
    rfl
  · have run := exec_settingsCommit passes free
    rw [settingsCommit_burns next same life formed sound] at run
    exact ⟨_, run, s.park_waits _ _⟩
  · rw [exec_lifeCycleTransition passes free, lifeTransition_busy busy]
    rfl
  · rw [exec_lifeCycleTransition passes free, lifeTransition_unfit idle unfit]
    rfl
  · have run := exec_lifeCycleTransition passes free
    rw [lifeTransition_burns idle fits] at run
    exact ⟨_, run, s.park_waits _ _⟩
  · obtain ⟨t, run, mem, pending, none_, persist, rest⟩ := exec_lifeCycleBurnComplete_done burns one kind via_ device
    exact ⟨t, run, mem, pending, none_, persist ▸ rfl, persist ▸ rfl, persist ▸ rfl, persist ▸ rfl, rest⟩
  · rw [exec_attestationNonce passes free unstaged before small, attest_barred life]
    rfl
  · have run := exec_attestationNonce passes free unstaged before small
    rw [attest_waits life keys, (Dev.wholeWrite_nonce passes).2] at run
    exact ⟨_, run, s.park_waits id _⟩
  · obtain ⟨store, boot, tx, -, regs, public_⟩ := s.deriveKeys_spec
    exact ⟨_, exec_keyRederivation_none keys wiped started none_, store, boot, tx, regs, public_⟩

end Sys2Proof.Machine
